-- ==== Sys2Proof/Word.lean ====
section
/-! DEFINITION. The word types of the model: bytes, byte lists, 64 B lines, and the sparse maps that hold every
numbered object. -/

-- The threads of asynchronous elaboration, each with the check's large stack, do not fit the memory a build is given.
set_option Elab.async false

namespace Sys2Proof

/-- One byte. -/
abbrev Byte := BitVec 8

/-- A byte string: a command payload, a window write, a ring entry. Byte 0 first. -/
abbrev Bytes := List Byte

/-- The 64 data bytes of a line; byte j is bits 8j+7 to 8j (00 R12). -/
abbrev Line := BitVec 512

/-- A sparse map from numbers to values: ascending keys, no entry equal to what an unlisted key reads as. -/
abbrev SMap (α : Type) := List (Nat × α)

end Sys2Proof
end

