-- ==== Sys2Proof/Syntax.lean ====
section
/-! DEFINITION. The commands of the block: one constructor for each row of spec/opcode_table.json. Naray and standard
CXL commands carry the path they arrive on and their input payload bytes (15 R531 to R560); every other command carries
what the outside decides of it. -/

namespace Sys2Proof

/-- A command path of 14 R485: a mailbox of a function, a slot of its fast command ring, or the sideband. -/
inductive Path where
  | primary (fn : Nat)
  | secondary (fn : Nat)
  | ring (fn slot tag : Nat)
  | sideband
  deriving DecidableEq, Repr

/-- A CXL.mem request: a read (noCopy: the host keeps no copy, 13 R477), or a write with its byte enables. -/
inductive MemKind where
  | read (noCopy : Bool)
  | write (data : Line) (enables : BitVec 64) (poisoned : Bool)
  deriving DecidableEq, Repr

/-- A CXL.mem request of function `fn` at a host physical address. -/
structure MemReq where
  fn   : Nat
  hpa  : Nat
  kind : MemKind
  deriving DecidableEq, Repr

/-- What the DRAM array returns beyond what was stored (07 R226 to R234): symbols upset since the last write (channel,
CLA, stored symbol, XOR), and lines that come back as another line of the channel (channel, CLA, CLA returned). -/
structure ReadEnv where
  upsets    : List (Nat × Nat × Nat × Byte)
  misdirect : List (Nat × Nat × Nat)
  deriving DecidableEq, Repr

/-- A queued reread: what the array returns, and whether an uncorrectable SRAM error halts the context (07 R250, R261, R262). -/
structure DemandRead where
  env  : ReadEnv
  halt : Bool
  deriving DecidableEq, Repr

/-- A line of a resilver pass: its channel, and whether an uncorrectable SRAM error halts the context (07 R245, R261, R262). -/
structure ResilverStep where
  channel : Nat
  halt    : Bool
  deriving DecidableEq, Repr

/-- An HDM decoder as the host commits it (02 R59): base and size in bytes, ways, granularity, position, DPA skip. -/
structure DecoderCfg where
  base  : Nat
  size  : Nat
  ways  : Nat
  gran  : Nat
  way   : Nat
  skip  : Nat
  bi    : Bool
  lock  : Bool
  deriving DecidableEq, Repr

/-- The PCIe configuration, MSI-X and decoder fields of a function that a host writes and that no row of its own writes (02 R59, R63, R64,
R78, R80, R81, R83; 12 R448; 17 R604). -/
inductive CfgReg where
  | maxPayload
  | maxReadRequest
  | aspmL1Enable
  | ptmEnable
  | functionMask
  | vectorMask (v : Nat)
  | vectorWord (v k : Nat)     -- message address (k = 0, 1) and data (k = 2) of a vector
  | command
  | powerState
  | bar (k : Nat)
  | aerCorrectable
  | aerUncorrectable
  | decoderControl (index : Nat)   -- writing 0 to Commit uncommits
  deriving DecidableEq, Repr

/-- The register a REGISTER_WRITE names: an offset in BAR0 of a function, a field of its configuration space or MSI-X
table, or an offset of a control node (01 R32), which only firmware reaches. -/
inductive RegTarget where
  | bar0 (fn offset : Nat)
  | config (fn : Nat) (r : CfgReg)
  | node (n offset : Nat)
  deriving DecidableEq, Repr

/-- A ring of a function: its fast command ring, a free ring or an egress ring. -/
inductive RingName where
  | fcr
  | free (m : Nat)
  | egress (n : Nat)
  deriving DecidableEq, Repr

/-- A fault report of a unit from outside what the model computes (16 R568): source, requester, detail. -/
structure FaultIn where
  source    : Nat
  requester : Option Nat
  detail    : Nat
  deriving DecidableEq, Repr

/-- How a link trained (02 R53 to R55, R81, R86). -/
structure LinkCfg where
  gts     : Nat
  flit68  : Bool
  latOpt  : Bool
  mps     : Nat
  ltssmOk : Bool
  width   : Nat
  deriving DecidableEq, Repr

/-- One channel's population as its DIMMs' SPD reports it (09 R309, R310). -/
structure PopCfg where
  dimms   : Nat
  mrdimm  : Bool
  capGib  : Nat
  die32   : Bool
  threeDs : Bool
  serials : List Nat
  spdMax  : Nat
  deriving DecidableEq, Repr

/-- What a cold-start step finds (17 R623): whether the slot it tries is accepted, the DIMMs, a board rate limit. -/
structure BootInfo where
  slotOk    : Bool
  pops      : List (Option PopCfg)
  boardRate : Option Nat
  poweredOn : Bool
  deriving DecidableEq, Repr

/-- An SPDM message over DOE (02 R89): authentication, which opens a session of version 1.`minor`, set-up of IDE keys by IDE_KM, or stop
of the stream. -/
inductive SpdmMsg where
  | authenticate (minor : Nat)
  | setKeys
  | stop
  deriving DecidableEq, Repr

/-- The commands of the block. -/
inductive Instr where
  /-- Opens a staging session for the issuing principal and returns its session number, or fails with SESSION_LIMIT (R505). -/
  | stageOpen (p : Path) (b : Bytes)
  /-- Evaluates cross-field rules, resolves violations into the clamp report and applies all shadows of the session in one commit cycle (R510). -/
  | stageCommit (p : Path) (b : Bytes)
  /-- Ends a staging session without trace and releases its objects and clamp report (R509). -/
  | stageAbort (p : Path) (b : Bytes)
  /-- Returns entries of a session clamp report or of the principal's direct report (R513). -/
  | clampReportGet (p : Path) (b : Bytes)
  /-- Returns state, progress and final status of the principal's background handles (R503). -/
  | bgQuery (p : Path) (b : Bytes)
  /-- Aborts a background handle or ring TAG by one atomic test of the target command's state (R504). -/
  | abort (p : Path) (b : Bytes)
  /-- Registers the function's fast command ring with its submission and completion areas (R489). -/
  | fcrRegister (p : Path) (b : Bytes)
  /-- Removes the function's fast command ring (R489). -/
  | fcrDeregister (p : Path) (b : Bytes)
  /-- The board controller names the management function for commands accepted afterwards (R499). -/
  | mgmtDesignate (p : Path) (b : Bytes)
  /-- Stages creation or change of a region's attributes (R541). -/
  | regionCfg (p : Path) (b : Bytes)
  /-- Stages deletion of a region (R541). -/
  | regionDelete (p : Path) (b : Bytes)
  /-- Returns one record per region number from OBJECT upward (R535). -/
  | regionQuery (p : Path) (b : Bytes)
  /-- Stages the tier attributes of a TIERED region (R542). -/
  | tierCfg (p : Path) (b : Bytes)
  /-- Sets migration and sweep rate limits and restarts halted MIG contexts (R544). -/
  | tierCtl (p : Path) (b : Bytes)
  /-- Stages one row of the class table (R542). -/
  | mscRowCfg (p : Path) (b : Bytes)
  /-- Sets encode effort, yard low threshold, muck-out rate, and restarts a halted MUCK context (R544). -/
  | cdCtl (p : Path) (b : Bytes)
  /-- Returns per-region free stalls, free shed links, chained and churning granules (R225). -/
  | cdYardQuery (p : Path) (b : Bytes)
  /-- Registers a region as a packet buffer region and makes all its cells FREE (R373). -/
  | qeBufRegister (p : Path) (b : Bytes)
  /-- Deregisters a buffer region and every free ring naming it, or fails with BUF_IN_USE (R382). -/
  | qeBufDeregister (p : Path) (b : Bytes)
  /-- Registers a free ring of the issuing function (R377). -/
  | qeFreeRing (p : Path) (b : Bytes)
  /-- Deregisters a free ring, returning unconsumed runs to FREE (R382). -/
  | qeFreeRingDereg (p : Path) (b : Bytes)
  /-- Background operation that makes FREE every run HELD by a function (R383). -/
  | qeReclaim (p : Path) (b : Bytes)
  /-- Registers an egress ring, or with PAIR_ONLY changes only its pairing (R402). -/
  | qeEgressRing (p : Path) (b : Bytes)
  /-- Deregisters an egress ring; its queues are held until a ring is registered (R402). -/
  | qeEgressDereg (p : Path) (b : Bytes)
  /-- Removes the packets queued at acceptance up to the marked tail (R410). -/
  | qeFlush (p : Path) (b : Bytes)
  /-- Returns queue engine object records (R535). -/
  | qeQuery (p : Path) (b : Bytes)
  /-- Restarts halted queue engine contexts (R546). -/
  | qeCtl (p : Path) (b : Bytes)
  /-- Stages a queue's state, owner mask, cell limit and egress ring (R391). -/
  | qeQueueCfg (p : Path) (b : Bytes)
  /-- Stages a policer's mode, rates, burst sizes and yellow action (R392). -/
  | qePolicerCfg (p : Path) (b : Bytes)
  /-- Stages a scheduler node's parent, band, weight, class and shaper (R417). -/
  | scNodeCfg (p : Path) (b : Bytes)
  /-- Stages a scheduler port's rate, framing overhead and gate control (R418). -/
  | scPortCfg (p : Path) (b : Bytes)
  /-- Stages an administrative gate list for a port (R436). -/
  | scGateList (p : Path) (b : Bytes)
  /-- Returns scheduler node state, buckets, deficits and gate lists (R535). -/
  | scQuery (p : Path) (b : Bytes)
  /-- Sets time sources, PTM interval, PPS delay, step threshold and PTM offset (R445). -/
  | tuCtl (p : Path) (b : Bytes)
  /-- Steps network time to a given value in FREE or HOLDOVER, else TU_DISCIPLINED (R449). -/
  | tuSet (p : Path) (b : Bytes)
  /-- Returns time unit state and time (R457). -/
  | tuQuery (p : Path) (b : Bytes)
  /-- Stages creation or change of a counter set (R458). -/
  | ceSetCfg (p : Path) (b : Bytes)
  /-- Stages deletion of a counter set (R550). -/
  | ceSetDelete (p : Path) (b : Bytes)
  /-- Stages binding of a counter set to queue or policer events (R469). -/
  | ceQeBind (p : Path) (b : Bytes)
  /-- Background operation zeroing a pair range and marking dependent sums discontinuous (R472). -/
  | ceClear (p : Path) (b : Bytes)
  /-- Returns per-set END, lost, stale counts, set generation and the sleep-gap log (R535). -/
  | ceQuery (p : Path) (b : Bytes)
  /-- Restarts halted counter engine update pipelines (R546). -/
  | ceCtl (p : Path) (b : Bytes)
  /-- Configures a source's ladder, handling window and notify functions, and ends its open handling window (R552). -/
  | faultCfg (p : Path) (b : Bytes)
  /-- Sets the FAULT_N pin threshold and the quiet period (R552). -/
  | faultCtl (p : Path) (b : Bytes)
  /-- Returns the keeper's log and first-fault record, or the flash copy (R577). -/
  | faultLogGet (p : Path) (b : Bytes)
  /-- Clears the first-fault record, the keeper's log or the recovery counters (R576). -/
  | faultClear (p : Path) (b : Bytes)
  /-- Returns each source's configuration and state (R592). -/
  | faultQuery (p : Path) (b : Bytes)
  /-- Sets the malformed-submission freeze threshold (R516). -/
  | freezeCtl (p : Path) (b : Bytes)
  /-- Ends the freeze of a named function (R518). -/
  | thaw (p : Path) (b : Bytes)
  /-- Stages a requester's budget and weight (R543). -/
  | bwReqCfg (p : Path) (b : Bytes)
  /-- Stages the guarantee of a memory service class (R358). -/
  | bwGuarCfg (p : Path) (b : Bytes)
  /-- Stages the budget window length (R353). -/
  | bwWindowCfg (p : Path) (b : Bytes)
  /-- Returns regulation state and service counters (R372). -/
  | bwQuery (p : Path) (b : Bytes)
  /-- Sets a port's initiator share of the transmit frame (R87). -/
  | hpPortCfg (p : Path) (b : Bytes)
  /-- Starts entry to SLEEP, DEEP or OFF, or refuses with BUSY (R601). -/
  | pwEnter (p : Path) (b : Bytes)
  /-- Starts or joins a wake from SLEEP or DEEP (R611). -/
  | pwWake (p : Path) (b : Bytes)
  /-- Returns the power management registers (R633). -/
  | pwQuery (p : Path) (b : Bytes)
  /-- Starts gating or enabling of near-store way groups (R151). -/
  | nsWays (p : Path) (b : Bytes)
  /-- Starts a data-rate change of the channels through self-refresh (R341). -/
  | mcSpeed (p : Path) (b : Bytes)
  /-- Selects, enables or clears a performance counter (R639). -/
  | pmCfg (p : Path) (b : Bytes)
  /-- Registers the dump buffer and sets the dump interval (R641). -/
  | pmDumpCfg (p : Path) (b : Bytes)
  /-- Reads performance counters one after another (R648). -/
  | pmRead (p : Path) (b : Bytes)
  /-- Zeroes a DPA range line by line or granule by granule (R146). -/
  | zeroRange (p : Path) (b : Bytes)
  /-- Cleans, invalidates or clean-invalidates near-store lines of a range (R140). -/
  | nsMaint (p : Path) (b : Bytes)
  /-- Draws a new key, increments the epoch and starts or resumes the re-key sweep (R289). -/
  | rekeyStart (p : Path) (b : Bytes)
  /-- Sets patrol, row, device and resilver parameters and restarts halted SCRUB or FILL contexts (R556). -/
  | scrubCtl (p : Path) (b : Bytes)
  /-- Starts hard post-package repair of named or waiting rows (R255). -/
  | pprCtl (p : Path) (b : Bytes)
  /-- Burns up to 16 soft fuse entries permanently (R260). -/
  | fuseBurn (p : Path) (b : Bytes)
  /-- Sets channel controls, or fences or retrains a channel (R347). -/
  | mcCtl (p : Path) (b : Bytes)
  /-- Reads a range of the control address space (R558). -/
  | diagCtrlRead (p : Path) (b : Bytes)
  /-- Writes a range of control registers as their access codes allow (R559). -/
  | diagCtrlWrite (p : Path) (b : Bytes)
  /-- Returns a granule's descriptor, pointers and stored space undecoded (R559). -/
  | cdGranuleRead (p : Path) (b : Bytes)
  /-- A vendor opcode outside the assigned set completes Unsupported with no effect (R20). -/
  | unassignedVendorOpcode (p : Path) (opcode : Nat) (b : Bytes)
  /-- Any unsupported standard CXL opcode completes Unsupported with no effect (R561). -/
  | unsupportedCxlCommand (p : Path) (opcode : Nat) (b : Bytes)
  /-- Reports the device identity (R560). -/
  | identify (p : Path) (b : Bytes)
  /-- Reports the latest background operation of the mailbox (R560). -/
  | backgroundOperationStatus (p : Path) (b : Bytes)
  /-- Aborts the latest background operation of the mailbox (R504). -/
  | requestAbortBackgroundOperation (p : Path) (b : Bytes)
  /-- Returns CXL event log records (R560). -/
  | getEventRecords (p : Path) (b : Bytes)
  /-- Clears CXL event log records (R560). -/
  | clearEventRecords (p : Path) (b : Bytes)
  /-- Returns the event interrupt policy (R560). -/
  | getEventInterruptPolicy (p : Path) (b : Bytes)
  /-- Sets the event interrupt policy on vector 0 (R560). -/
  | setEventInterruptPolicy (p : Path) (b : Bytes)
  /-- Reports the two firmware slots and the active one (R560). -/
  | getFwInfo (p : Path) (b : Bytes)
  /-- Writes and verifies a firmware image into the inactive slot (R626). -/
  | transferFw (p : Path) (b : Bytes)
  /-- Starts online hitless activation or schedules offline activation (R521). -/
  | activateFw (p : Path) (b : Bytes)
  /-- Returns the CXL event timestamp (R560). -/
  | getTimestamp (p : Path) (b : Bytes)
  /-- Sets the CXL event timestamp (R560). -/
  | setTimestamp (p : Path) (b : Bytes)
  /-- Lists the Command Effects Log (R560). -/
  | getSupportedLogs (p : Path) (b : Bytes)
  /-- Returns the Command Effects Log (R560). -/
  | getLog (p : Path) (b : Bytes)
  /-- Reports the volatile capacity and poison list size (R104). -/
  | identifyMemoryDevice (p : Path) (b : Bytes)
  /-- Reports health and the hottest die temperature (R560). -/
  | getHealthInfo (p : Path) (b : Bytes)
  /-- Returns alert configuration (R560). -/
  | getAlertConfiguration (p : Path) (b : Bytes)
  /-- Sets temperature and corrected-error alerts (R560). -/
  | setAlertConfiguration (p : Path) (b : Bytes)
  /-- Returns poisoned lines reported since cold start (R560). -/
  | getPoisonList (p : Path) (b : Bytes)
  /-- Rewrites a line with POISON 1 as a poisoned full-line write (R560). -/
  | injectPoison (p : Path) (b : Bytes)
  /-- Writes given data as a full-line write and removes the line from the poison list (R681). -/
  | clearPoison (p : Path) (b : Bytes)
  /-- A class B command finishes its work and gives its final completion (R493). -/
  | backgroundOperationEnd (handle : Nat)
  /-- Host writes the fast command ring producer count; accepted if consistent, starting fetches (R75). -/
  | fcrDoorbellWrite (fn : Nat) (value : BitVec 32)
  /-- A fetched ring entry arrives and its command starts execution in ring order (R491). -/
  | fcrEntryFetched (fn : Nat) (entry : Bytes)
  /-- A ring fetch fails or times out; the ring halts and a CONTAINED fault is raised (R86). -/
  | fcrFetchError (fn : Nat)
  /-- Host advances a free ring consumer count, accepted only if consistent (R75). -/
  | freeRingConsWrite (fn ring : Nat) (value : BitVec 32)
  /-- Host advances an egress ring consumer count, accepted only if consistent (R75). -/
  | egressRingConsWrite (fn ring : Nat) (value : BitVec 32)
  /-- Host clears interrupt cause bits by writing 1 (R77). -/
  | intCauseWrite (fn : Nat) (value : BitVec 32)
  /-- Host enables or disables MSI-X messages of cause bits (R80). -/
  | intEnableWrite (fn : Nat) (value : BitVec 32)
  /-- Unmasking a vector or function sends a pending message (R80). -/
  | msixVectorUnmask (fn : Nat) (vector : Option Nat)
  /-- Bus Master Enable becomes 1; pending messages and interrupted pushes resume (R85). -/
  | busMasterEnableSet (fn : Nat)
  /-- Bus Master Enable becomes 0; initiator writes stop and rings are treated as full (R85). -/
  | busMasterEnableClear (fn : Nat)
  /-- Host commits an HDM decoder; without back-invalidate over HDM-DB it raises an INFO fault (R62). -/
  | hdmDecoderCommit (fn index : Nat) (d : DecoderCfg)
  /-- Reading SC_WHEEL_LAG returns and clears the largest release delay (R456). -/
  | scWheelLagRead
  /-- Reading MB_LAT_F returns and clears the largest class F response (R526). -/
  | mbLatFRead
  /-- Reading MB_LAT_S returns and clears the largest class S response (R526). -/
  | mbLatSRead
  /-- Reading TU_TIME_S latches TU_TIME_NS at the same instant (R457). -/
  | tuTimeSRead
  /-- A write to a register without its own row acts per its access code, with bad size or alignment discarded (R14). -/
  | registerWrite (target : RegTarget) (size : Nat) (value : BitVec 64)
  /-- A posted write to an enqueue window enters the posted-write queue or is discarded as malformed (R68). -/
  | enqueueWindowWrite (fn window offset : Nat) (data : Bytes) (allEnabled poisoned : Bool)
  /-- A posted write to a counter update window enters the posted-write queue or is discarded as malformed (R69). -/
  | counterUpdateWindowWrite (fn window offset : Nat) (data : Bytes) (allEnabled poisoned : Bool)
  /-- The queue engine checks a descriptor, polices it and links, drops or returns the run (R388). -/
  | enqueueDescriptor (fn : Nat) (halt : Option Nat)
  /-- The counter engine checks one update record and adds it to the leaf and its ancestors (R467). -/
  | updateRecord (fn : Nat) (halt : Option Nat)
  /-- The counter engine applies a posted queue or policer event to the bound set (R470). -/
  | queueEventCount
  /-- A snoop response arrives, releasing held updates or maintenance for that line (R43). -/
  | backInvalidateResponse (fn line : Nat)
  /-- A host CXL.mem read is decoded, routed, ordered and served through the near store or below (R44). -/
  | cxlmemRead (fn hpa : Nat) (noCopy : Bool) (tie : List MemReq)
  /-- A host CXL.mem write is checked against the owner mask, ordered and completed (R38). -/
  | cxlmemWrite (fn hpa : Nat) (data : Line) (enables : BitVec 64) (poisoned : Bool) (tie : List MemReq)
  /-- A codeword returns from a channel and is decoded, descrambled and tag-verified (R232). -/
  | dramReadReturn (line : Nat) (env : ReadEnv)
  /-- A line decoded as ADDRESS_ERROR is read once more and classified (R234). -/
  | addressErrorReread (line : Nat) (env : ReadEnv)
  /-- A MEDIA or tag-failed line is repaired from its mirror or stripe and written back (R243). -/
  | lineRepair (line : Nat) (env : ReadEnv)
  /-- The tag result of a speculatively released line arrives and is resolved (R287). -/
  | specVerifyResult (line : Nat) (committed : Bool)
  /-- The tier manager acknowledges a write-back and its victim buffer entry is released (R129). -/
  | writebackAck (line : Nat)
  /-- The tier manager answers an eviction offer with ACCEPT or DECLINE (R136). -/
  | evictionOfferAnswer (line : Nat)
  /-- Each quadrant reads and corrects every tag entry once per interval (R158). -/
  | nsTagScrub (quadrant : Nat) (bad : List (Nat × Nat))
  /-- After all walk write-backs are acknowledged the group SRAM is gated (R151). -/
  | nsWaysDrainDone
  /-- Re-initialised way-group banks become available for allocation (R152). -/
  | nsWaysEnableDone
  /-- Once per epoch, page heat is evaluated for demotion and halved (R169). -/
  | heatSweep (region : Nat)
  /-- When MIG has written the frame, the page becomes T1 and its stalls are freed (R173). -/
  | promotionSwitch (region page : Nat)
  /-- When MIG has written granules, the page becomes T2 and its frame is freed (R174). -/
  | demotionSwitch (region page : Nat)
  /-- MUCK visits the next granule, repacking chains and re-encoding RAW granules (R216). -/
  | muckVisit (halt : Bool)
  /-- The patrol reads a line and writes back corrections or poison (R249). -/
  | patrolRead (channel : Nat) (env : ReadEnv) (halt : Bool)
  /-- A queued correction is reread, corrected and written back (R250). -/
  | demandScrub (read : DemandRead)
  /-- A channel patrol not finished within 110 % of its period raises an INFO fault (R251). -/
  | patrolLate (channel : Nat)
  /-- A row-error entry not reaching its threshold is discarded at window end (R253). -/
  | rowErrorWindowEnd (row : Nat)
  /-- Firmware holds a hard row's lines and performs DDR5 soft PPR (R254). -/
  | softPpr (row : Nat)
  /-- A channel page is copied to a spare page and remapped (R256). -/
  | pageRetirement (channel page : Nat)
  /-- A hard repair ends and the rank's lines are resilvered (R255). -/
  | hardPprDone (channel : Nat)
  /-- The SCRUB engine resilvers the next line of a returning channel (R245). -/
  | resilverLine (pass : ResilverStep)
  /-- FILL writes the next 1 MiB fill block and advances the buoy (R264). -/
  | fillBlock (halt : Bool)
  /-- A first write to an untouched block waits while the block is filled, then is applied (R266). -/
  | fillOnTouchWrite (fn hpa : Nat) (data : Line) (enables : BitVec 64) (poisoned : Bool)
  /-- The REKEY engine re-keys the lines at the buoy and advances it (R292). -/
  | rekeyStep (halt : Bool)
  /-- The key copies are checked every 1 ms and corrected or declared lost (R303). -/
  | keyCheck (bad : List Nat)
  /-- The controller issues a same-bank refresh for a bank index (R323). -/
  | refreshIssue (channel sub rank bank : Nat)
  /-- A fifth owed refresh forces the REFsb ahead of requests (R324). -/
  | refreshForced (channel sub rank bank : Nat)
  /-- A bank's activation counter reaching threshold issues RFMsb (R327). -/
  | rfmIssue (channel sub rank group bank : Nat)
  /-- In each command slot the scheduler issues the first ready request by priority (R319). -/
  | subchannelIssue (channel sub : Nat) (ready : List Nat)
  /-- A request waiting past the age limit becomes promoted (R320). -/
  | agePromotion (channel sub id : Nat)
  /-- A subchannel alert stops issue and replays the retry buffer (R329). -/
  | alertNAssert (channel sub : Nat) (writeCrc : Bool)
  /-- An alert episode ends after 64 commands without a further alert (R329). -/
  | alertEpisodeEnd (channel sub : Nat)
  /-- Every 8 ms each rank's DQS oscillator is read for drift (R333). -/
  | dqsTracking (channel rank : Nat) (drift : Bool)
  /-- Every 128 ms each rank runs ZQ calibration (R333). -/
  | zqCalibration (channel rank : Nat)
  /-- Every 16 ms firmware reads DIMM sensors and sets hot mode (R325). -/
  | dimmTempRead (channel : Nat) (temps : List (Option Int))
  /-- A queued retraining trigger starts when no other channel retrains (R335). -/
  | retrainingStart
  /-- Retraining succeeds and releases held requests, or fences the channel (R336). -/
  | retrainingDone (ok : Bool)
  /-- Commanded full training of a fenced channel succeeds or fails (R337). -/
  | fencedChannelRetrainDone (channel : Nat) (ok : Bool)
  /-- One channel finishes its rate change and the next begins (R341). -/
  | speedChangeStepDone
  /-- MC_SPEED waiting 50 ms for training completes BUSY_TRAINING (R342). -/
  | speedChangeWaitTimeout
  /-- Cold-start training finishes, fencing channels that fail (R331). -/
  | initialTrainingDone (failed : List Nat)
  /-- Charges restart and lowered requesters return to their classes (R357). -/
  | budgetWindowEnd
  /-- Every 40 ns BW sends service stamps to schedulers and the router (R366). -/
  | bwStampUpdate
  /-- The queue engine writes a free-cell batch to the next ring with space (R381). -/
  | freeRingRefill (halt : Option Nat)
  /-- A queue's head line arrives in the head-line buffer and its length goes to the scheduler (R399). -/
  | headLineReturn (queue : Nat)
  /-- The scheduler selects a port and walks down by DWRR to one packet (R423). -/
  | schedulerDecision
  /-- All cells of the selected packet have been read and checked, or it is dropped (R400). -/
  | dequeuePacketRead (queue : Nat) (halt : Option Nat)
  /-- The packet data and completion record are written to the egress ring (R403). -/
  | packetPush (queue : Nat)
  /-- The moderation time expires and the ring's vector is sent (R405). -/
  | ringModerationTimer (fn : Nat) (ring : RingName)
  /-- At the drain limit remaining queued packets are discarded for DEEP (R602). -/
  | drainLimitExpiry
  /-- A fine wheel slot releases its nodes to their parents' active lists (R434). -/
  | wheelSlotRelease
  /-- A medium or coarse slot becomes current and its nodes move to finer wheels (R434). -/
  | wheelCascade
  /-- A gate list entry or cycle boundary changes the gate state and releases held queues (R437). -/
  | gateEntryChange (port : Nat)
  /-- At the swap instant the administrative list becomes operational (R439). -/
  | gateSwap (port : Nat)
  /-- Each PTM interval the device starts a PTM dialogue (R445). -/
  | ptmDialogue
  /-- A PTM sample arrives; the offset is slewed or stepped (R446). -/
  | ptmSample (source : Nat) (valid : Bool) (sec ns : Nat)
  /-- A PPS rising edge gives a phase sample that is slewed or stepped (R446). -/
  | ppsInEdge
  /-- A source silent for 3 intervals causes a switch to secondary or HOLDOVER (R448). -/
  | timeSourceTimeout
  /-- The counter engine sums a stale ancestor's children and clears STALE (R474). -/
  | ceRecomputeStep
  /-- A session idle for 1 s ends without trace (R509). -/
  | sessionIdleExpiry (session : Nat)
  /-- The 1 ms malformed-submission count window restarts (R516). -/
  | freezeWindowEnd
  /-- A command exceeding its bound raises MB_BOUND_MISSED (R498). -/
  | commandBoundMissed (p : Path) (opcode : Nat)
  /-- The new image reaches service and held commands execute (R522). -/
  | activationDone
  /-- An image not in service within 400 ms is abandoned for the old slot (R522). -/
  | activationTimeout
  /-- An uncorrectable error on an instruction fetch traps the core for a code reload (R261). -/
  | nmFetchUe
  /-- The reloaded code is verified and firmware resumes or restarts (R261). -/
  | nmReloadDone (ok : Bool)
  /-- A fault report reaches the fault collector, is logged and starts or joins a ladder walk (R568). -/
  | faultReport (ext : Option FaultIn)
  /-- An action rung completes plus 10 µs and the walk continues if the condition persists (R568). -/
  | actionRungDone (source : Nat)
  /-- A handling window ends unacknowledged and the walk escalates (R569). -/
  | handlingWindowExpiry (source : Nat)
  /-- A state source's condition clears and it enters SETTLING (R582). -/
  | sourceConditionClear (source : Nat)
  /-- A settling source returns to CLEAR and recovery counters rise (R582). -/
  | quietPeriodExpiry
  /-- A reaction's shadow window ends; later dependent raises are ordinary (R579). -/
  | shadowWindowEnd
  /-- After a FATAL raise or SAFE, firmware copies the log to boot flash (R577). -/
  | faultLogFlashCopy
  /-- A throttle lifts once its source condition has been clear for 1 ms (R586). -/
  | throttleLift
  /-- A watched rail below 95 % for 200 ns raises PW_DROOP (R584). -/
  | droopDetect (present : Bool)
  /-- PWR_FAIL_N low after filtering raises PW_FAIL_WARN (R584). -/
  | pwrFailNAssert
  /-- PWR_FAIL_N returns high and the condition clears (R584). -/
  | pwrFailNDeassert
  /-- The hottest of 16 sensors is compared with the grade's thresholds every 100 µs (R673). -/
  | thermalSample (temps : List Int)
  /-- A PLL losing lock raises CK_PLL_UNLOCK at FATAL (R622). -/
  | pllUnlock (memory : Bool)
  /-- The crystal stops; the sleep timer falls back to the RC oscillator in DEEP (R614). -/
  | crystalStop
  /-- A VDDQ dip in DEEP drops DIMM RESET_N and the key is treated as lost at wake (R669). -/
  | vddqDipInDeep
  /-- After PW_IDLE_DELAY with no work Naray gates domain 28 (R597). -/
  | idleEntry
  /-- After PW_ENTER's final completion the device reaches SLEEP, DEEP or OFF (R603). -/
  | powerStateReached
  /-- WAKE_N held low wakes from SLEEP or DEEP or sets the OFF latch (R609). -/
  | wakeNAssert
  /-- A host access in SLEEP is held and wakes the device (R609). -/
  | hostAccessWake (fn : Nat) (access : Option MemReq)
  /-- The wake completes with links in L0 and PW_WAKE returns its status (R613). -/
  | wakeDone (bad : List Nat) (failed : List Nat)
  /-- POR_N low resets the whole device within 1 µs (R630). -/
  | porNAssert
  /-- POR_N rising samples straps and starts the cold start (R623). -/
  | porNRelease (straps : BitVec 6)
  /-- A cold-start step such as boot authentication or key draw completes and the next begins (R623). -/
  | coldStartStepDone (info : BootInfo)
  /-- PERST_N of a port clears both links' port state per R92 (R92). -/
  | perstNAssert (port : Nat)
  /-- PERST_N rising starts link training (R667). -/
  | perstNRelease (port : Nat)
  /-- A hot reset clears one link's function state as PERST_N (R92). -/
  | hotReset (fn : Nat)
  /-- A link disable clears one link's function state as PERST_N (R92). -/
  | linkDisable (fn : Nat)
  /-- A link leaves L0 without reset; pushes fail over and snoops count as answered (R95). -/
  | surpriseLinkDown (fn : Nat)
  /-- A link reaches L0; CXL.mem service resumes and PEER_PATH is set (R95). -/
  | linkUp (fn : Nat) (cfg : LinkCfg)
  /-- A function-level reset clears the function's CXL.io state (R92). -/
  | functionLevelReset (fn : Nat)
  /-- A CXL Reset clears decoders and back-invalidate state of a function (R683). -/
  | cxlReset (fn : Nat)
  /-- The host signals viral and the function enters the viral state (R100). -/
  | hostViral (fn : Nat)
  /-- A failed MAC check discards data, makes the function viral and disables the stream (R91). -/
  | ideMacFailure (fn : Nat)
  /-- A received flit error is corrected or replayed and counted (R97). -/
  | flitError (fn : Nat)
  /-- An SPDM message over DOE authenticates or sets up IDE keys (R89). -/
  | spdmDoeMessage (fn : Nat) (m : SpdmMsg)
  /-- Once per interval all counters are latched and a dump record is written or skipped (R641). -/
  | pmDumpLatch (sramUe : Bool)
  /-- A counter parity error zeroes the counter and sets its sticky bit (R640). -/
  | pmParityError (counter : Nat)
  /-- A link enters recovery and the port holds its requests in flight and its initiator writes (R98). -/
  | linkRecoveryEntry (fn : Nat)
  /-- The link returns to L0 from recovery and the port resumes held requests and initiator writes in order (R98). -/
  | linkRecoveryExit (fn : Nat)
  /-- A dip of VDD_SRAM in DEEP corrupts the retained SRAM groups, which then fail their signatures at wake (R669). -/
  | vddSramDipInDeep (groups : List Nat)
  /-- TRST_N changes level and firmware gates or restarts the clock of debug domain 36 (R620). -/
  | trstNChange (high : Bool)
  /-- A malformed MCTP or SMBus transaction arrives on the sideband and raises SB_PROTOCOL at INFO (R563). -/
  | malformedSidebandTransaction
  deriving DecidableEq, Repr

end Sys2Proof
end

