-- ==== Sys2Proof/Decode.lean ====
section
/-! DEFINITION. The command a word spells: spec/opcode_table.json gives no row any bits, so no word spells one. -/

namespace Sys2Proof

/-- The command that the low `nbits` bits of `w` spell by the table: none, for the table gives no encodings. -/
def decodeTableWord (_nbits _w : Nat) : Option Instr := none

end Sys2Proof
end

