-- ==== Sys2Proof/Machine/Bits.lean ====
section
/-! DEFINITION. Bit fields, byte order, sparse maps and clamping: the arithmetic that every unit shares. -/

namespace Sys2Proof.Machine
open Sys2Proof

/-- `n` bytes of `v`, least significant first (00 R12). -/
def le : Nat → Nat → Bytes
  | 0, _ => []
  | n + 1, v => BitVec.ofNat 8 v :: le n (v / 256)

/-- The number a little-endian byte string spells (00 R12). -/
def unle : Bytes → Nat
  | [] => 0
  | x :: xs => x.toNat + 256 * unle xs

/-- The field of `n` bytes at byte `off`; bytes beyond the end read as 0. -/
def rd (b : Bytes) (off n : Nat) : Nat := unle ((b.drop off).take n)

/-- `b` with the field of `n` bytes at `off` replaced by `v`; bytes beyond the end stay absent. -/
def wr (b : Bytes) (off n v : Nat) : Bytes :=
  ((b.take off) ++ (le n v) ++ b.drop (off + n)).take b.length

/-- Bits `[lo + w - 1 : lo]` of `v`. -/
def field (v lo w : Nat) : Nat := (v >>> lo) % 2 ^ w

/-- One bit as 0 or 1. -/
def b2n (b : Bool) : Nat := if b then 1 else 0

/-- The bit set of a list of indices. -/
def bitsOf (l : List Nat) : Nat := l.foldl (fun v i => v ||| (1 <<< i)) 0

/-- The sum of a list. -/
def total (l : List Nat) : Nat := l.foldl (· + ·) 0

/-- Addition that stops at `m`. -/
def satAdd (m a b : Nat) : Nat := min m (a + b)

/-- The nearer end of a range (14 R512). -/
def clampN (lo hi v : Nat) : Nat := max lo (min hi v)

/-- The largest power of two from `2^lo` to `2^hi` not above `v`, or `2^lo` (14 R512, "nearest legal value below"). -/
def pow2Below (lo hi v : Nat) : Nat :=
  ((List.range (hi + 1)).filter (fun k => decide (lo ≤ k ∧ 2 ^ k ≤ v))).foldl (fun _ k => 2 ^ k) (2 ^ lo)

/-- `v` rounded down to a multiple of `m`. -/
def roundDown (m v : Nat) : Nat := v / m * m

/-- The value at `k`; `d` where none is listed. -/
def sget {α : Type} (d : α) : SMap α → Nat → α
  | [], _ => d
  | (k', v) :: m, k => if k = k' then v else sget d m k

/-- `m` with `v` at `k`, in its place in ascending order. -/
def sput {α : Type} : SMap α → Nat → α → SMap α
  | [], k, v => [(k, v)]
  | (k', v') :: m, k, v =>
    if k < k' then (k, v) :: (k', v') :: m
    else if k = k' then (k, v) :: m
    else (k', v') :: sput m k v

/-- `m` with `v` at `k`, kept in ascending order with no entry equal to `d`. -/
def sset {α : Type} [DecidableEq α] (d : α) (m : SMap α) (k : Nat) (v : α) : SMap α :=
  if v = d then m.filter (fun e => decide (e.1 ≠ k)) else sput m k v

/-- `m` with `f` applied to the value at `k`. -/
def smod {α : Type} [DecidableEq α] (d : α) (m : SMap α) (k : Nat) (f : α → α) : SMap α := sset d m k (f (sget d m k))

/-- The canonical form of a sparse map: keys strictly rising from `lo`, no entry equal to `d`. -/
def swf {α : Type} [DecidableEq α] (d : α) : Nat → SMap α → Bool
  | _, [] => true
  | lo, (k, v) :: m => decide (lo ≤ k) && decide (v ≠ d) && swf d (k + 1) m

/-- An optional entry. -/
def oget {α : Type} (m : SMap (Option α)) (k : Nat) : Option α := sget none m k

/-- Sets or clears an optional entry. -/
def oset {α : Type} [DecidableEq α] (m : SMap (Option α)) (k : Nat) (v : Option α) : SMap (Option α) := sset none m k v

/-- Applies `f` to an entry that exists. -/
def omod {α : Type} [DecidableEq α] (m : SMap (Option α)) (k : Nat) (f : α → α) : SMap (Option α) :=
  oset m k ((oget m k).map f)

/-- The entries that exist, in ascending order of their numbers. -/
def oall {α : Type} (m : SMap (Option α)) : List (Nat × α) := m.filterMap (fun e => e.2.map (fun v => (e.1, v)))

/-- The list with entry `i` replaced; unchanged where there is none. -/
def lset {α : Type} (l : List α) (i : Nat) (v : α) : List α := l.set i v

/-- The list with `f` applied to entry `i`. -/
def lmod {α : Type} (l : List α) (i : Nat) (f : α → α) : List α := l.modify i f

/-- The smallest number from `lo` that `used` does not hold, among the first `fuel`. -/
def firstFree (used : Nat → Bool) : Nat → Nat → Nat
  | 0, lo => lo
  | fuel + 1, lo => if used lo then firstFree used fuel (lo + 1) else lo

/-- The least entry of a list by a key, with its index; the first of equals. -/
def minBy {α : Type} (key : α → Nat) : List α → Option α
  | [] => none
  | x :: xs => match minBy key xs with
    | none => some x
    | some y => if key y < key x then some y else some x

/-- Two's complement of a signed number in `w` bits. -/
def signed (w : Nat) (v : Nat) : Int := if v < 2 ^ (w - 1) then (v : Int) else (v : Int) - 2 ^ w

/-- A signed number as `w` bits. -/
def unsigned (w : Nat) (v : Int) : Nat := (v % 2 ^ w).toNat

/-- Byte `j` of a line (00 R12). -/
def lineByte (l : Line) (j : Nat) : Byte := l.extractLsb' (8 * j) 8

/-- The 64 bytes of a line. -/
def lineBytes (l : Line) : Bytes := (List.range 64).map (lineByte l)

/-- The line of a byte string. -/
def bytesLine (b : Bytes) : Line := BitVec.ofNat 512 (unle (b.take 64))

/-- `new` where a byte enable is 1, `old` elsewhere. -/
def mergeLine (old new : Line) (en : BitVec 64) : Line :=
  bytesLine ((List.range 64).map (fun j => if en.getLsbD j then lineByte new j else lineByte old j))

end Sys2Proof.Machine
end

