-- ==== Sys2Proof/Machine/Sources.lean ====
section
/-! DEFINITION. The fault sources of 16 R563 and R564 by name, with their severities (16 R562 and the fault table of each
chapter) and whether each is a state source (16 R565). -/

namespace Sys2Proof.Machine

/-- The source number of a node's local index (16 R563). -/
def srcOf (node idx : Nat) : Nat := 16 * node + idx

/-- The node's SRAM_UE source (16 R564). -/
def sramUe (node : Nat) : Nat := srcOf node 15

def nmFetchUe : Nat := 0
def nmActivated : Nat := 1
def nmActivationFailed : Nat := 2
def nmWriteDenied : Nat := 3
def mbBoundMissed : Nat := 16
def mbSessionExpired : Nat := 17
def mbReqFrozen : Nat := 18
def fcFabricRetried : Nat := 32
def fcFabricError : Nat := 33
def pwDroop : Nat := 64
def pwFailWarn : Nat := 65
def pwTempWarn : Nat := 66
def pwTempThrottle : Nat := 67
def pwTempShutdown : Nat := 68
def pwRetentionLost : Nat := 69
def ckPllUnlock : Nat := 80
def fuSramCorrected : Nat := 96
def sbProtocol : Nat := 112
def hpLinkCorrected (port : Nat) : Nat := srcOf (8 + port) 0
def hpBadAccess (port : Nat) : Nat := srcOf (8 + port) 1
def hpDecoderNoBi (port : Nat) : Nat := srcOf (8 + port) 2
def hpLinkDown (port : Nat) : Nat := srcOf (8 + port) 3
def hpCxlUnavailable (port : Nat) : Nat := srcOf (8 + port) 4
def hpFcrFetch (port : Nat) : Nat := srcOf (8 + port) 5
def hpIdeFail (port : Nat) : Nat := srcOf (8 + port) 6
def hpViral (port : Nat) : Nat := srcOf (8 + port) 7
def hpLinkReset (port : Nat) : Nat := srcOf (8 + port) 8
def rrNoRegion : Nat := 160
def bwRescaled : Nat := 176
def bwRestored : Nat := 177
def nsDataCorrected (quadrant : Nat) : Nat := srcOf (12 + quadrant) 0
def nsDataRefetched (quadrant : Nat) : Nat := srcOf (12 + quadrant) 1
def nsDataPoisoned (quadrant : Nat) : Nat := srcOf (12 + quadrant) 2
def nsTagLost (quadrant : Nat) : Nat := srcOf (12 + quadrant) 3
def trEpochStretched : Nat := 256
def trYardShort : Nat := 257
def trMapLost : Nat := 258
def trMigHalted : Nat := 259
def cdDecodeRepaired : Nat := 272
def cdDecodeError : Nat := 273
def cdYardLow : Nat := 274
def cdYardExhausted : Nat := 275
def cdMuckHalted : Nat := 276
def cdDecodeRepaired1 : Nat := 288
def cdDecodeError1 : Nat := 289
def cdMetaRefetched : Nat := 304
def cdMetaPoisoned : Nat := 305
def lpCorrected : Nat := 320
def lpAddressRetried : Nat := 321
def lpRepaired : Nat := 322
def lpDeviceFailed : Nat := 323
def lpUncorrectable : Nat := 324
def lpAddressError : Nat := 325
def lpHardRow : Nat := 326
def lpPprSoft : Nat := 327
def lpPageRetired : Nat := 328
def lpSpareExhausted : Nat := 329
def lpPatrolLate : Nat := 330
def lpResilverDone : Nat := 331
def lpScrubHalted : Nat := 332
def lpFillHalted : Nat := 333
def sxTagRepaired : Nat := 336
def sxSpecConfirmed : Nat := 337
def sxKeyCorrected : Nat := 338
def sxTagMismatch : Nat := 339
def sxLateAlarm : Nat := 340
def sxRekeyHalted : Nat := 341
def sxKeyLost : Nat := 342
def sxRekeyDone : Nat := 343
def sxRngFail : Nat := 344
def qeMalformed : Nat := 352
def qePoolLow : Nat := 353
def qeFenceDrops : Nat := 354
def qeBufferError : Nat := 355
def qeOwnerViolation : Nat := 356
def qeContextHalted : Nat := 357
def qeMediaReset : Nat := 358
def qeWriteDenied : Nat := 359
def scGateSwapped : Nat := 368
def scGateOversize : Nat := 369
def scWheelLag : Nat := 370
def scStateLost : Nat := 371
def tuStepped : Nat := 384
def tuSourceLost : Nat := 385
def tuHoldover : Nat := 386
def ceEnd : Nat := 400
def ceMalformed : Nat := 401
def ceLeafLost : Nat := 402
def ceAncestorStale : Nat := 403
def ceStatusLost : Nat := 404
def ceOwnerViolation : Nat := 405
def ceContextHalted : Nat := 406
def ceMediaReset : Nat := 407
def ceWriteDenied : Nat := 408
def mcCaReplayed (channel : Nat) : Nat := srcOf (26 + channel) 0
def mcWcrcReplayed (channel : Nat) : Nat := srcOf (26 + channel) 1
def mcRetrained (channel : Nat) : Nat := srcOf (26 + channel) 2
def mcRefreshForced (channel : Nat) : Nat := srcOf (26 + channel) 3
def mcHot (channel : Nat) : Nat := srcOf (26 + channel) 4
def mcTempSensor (channel : Nat) : Nat := srcOf (26 + channel) 5
def mcFencedAccess (channel : Nat) : Nat := srcOf (26 + channel) 6
def mcFenced (channel : Nat) : Nat := srcOf (26 + channel) 7
def mcTrainFailed (channel : Nat) : Nat := srcOf (26 + channel) 8
def mcPopMismatch (channel : Nat) : Nat := srcOf (26 + channel) 9

/-- For each node, the severity of each assigned local index from 0 on, and whether it is a state source. -/
def sourceTable (node : Nat) : List (Nat × Bool) :=
  if node = 0 then [(3, false), (0, false), (3, false), (3, false)]
  else if node = 1 then [(0, false), (0, false), (3, true)]
  else if node = 2 then [(1, false), (4, false)]
  else if node = 4 then [(1, true), (3, true), (0, true), (3, true), (4, true), (3, false)]
  else if node = 5 then [(4, true)]
  else if node = 6 then [(1, false)]
  else if node = 7 then [(0, false)]
  else if 8 ≤ node ∧ node ≤ 9 then [(1, false), (0, false), (0, false), (3, true), (3, true), (3, true), (3, true), (3, true), (0, false)]
  else if node = 10 then [(0, false)]
  else if node = 11 then [(3, true), (0, false)]
  else if 12 ≤ node ∧ node ≤ 15 then [(1, false), (1, false), (2, false), (4, false)]
  else if node = 16 then [(0, false), (0, true), (2, false), (3, true)]
  else if node = 17 then [(1, false), (2, false), (0, true), (3, false), (3, true)]
  else if node = 18 then [(1, false), (2, false)]
  else if node = 19 then [(1, false), (2, false)]
  else if node = 20 then [(1, false), (1, false), (1, false), (1, true), (2, false), (2, false), (0, false), (0, false), (0, false), (3, true), (0, false), (0, false), (3, true), (3, true)]
  else if node = 21 then [(1, false), (1, false), (1, false), (2, false), (3, false), (3, true), (3, false), (0, false), (4, false)]
  else if node = 22 then [(0, false), (0, true), (0, false), (2, false), (3, false), (3, true), (3, false), (3, false)]
  else if node = 23 then [(0, false), (0, false), (0, false), (3, false)]
  else if node = 24 then [(0, false), (0, false), (0, true)]
  else if node = 25 then [(0, false), (0, false), (2, false), (2, false), (2, false), (3, false), (3, true), (3, false), (3, false)]
  else if 26 ≤ node ∧ node ≤ 37 then [(1, false), (1, false), (1, false), (0, false), (0, true), (0, true), (0, false), (3, true), (3, true), (3, true)]
  else []

/-- The severity and statefulness of a source; none for a number that no rule assigns (16 R563, R564). -/
def sourceInfo (src : Nat) : Option (Nat × Bool) :=
  if 38 ≤ src / 16 then none
  else if src % 16 = 15 then some (3, false)
  else (sourceTable (src / 16))[src % 16]?

/-- The severity of a source (16 R562); sources outside the table are never raised. -/
def severityOf (src : Nat) : Nat := ((sourceInfo src).map (·.1)).getD 0

/-- Whether a source is a state source (16 R565). -/
def isStateSource (src : Nat) : Bool := ((sourceInfo src).map (·.2)).getD false

end Sys2Proof.Machine
end

