-- ==== Sys2Proof/Config.lean ====
section
/-! DEFINITION. What one device fixes and the spec leaves open: opaque constants, so that no proof can use a value of
them. Each is named in notes/assumptions/3.md. -/

namespace Sys2Proof.Config

/-- The keyed mix of a line under a key and a tweak (08 R273 to R275): unpublished, but a bijection. -/
opaque keyedMix : BitVec 256 → BitVec 37 → (BitVec 512 ≃ BitVec 512)

/-- The 28-bit keyed MAC of 08 R280, over data, POISON, KIND, and the channel and CLA (the tweak). -/
opaque integrityTag : BitVec 256 → BitVec 37 → BitVec 512 → Bool → Bool → BitVec 28

/-- The n-th 256-bit key that the random source draws (08 R289, R304, R305). -/
opaque randomKey : Nat → BitVec 256

/-- Whether the n-th draw of the random source passes its health tests (08 R290, R305). -/
opaque rngHealthy : Nat → Bool

/-- The device serial number of the die (00 R3, R4). -/
opaque serialNumber : BitVec 64

/-- Whether the part is grade E (00 R2); grade C otherwise. -/
opaque gradeE : Bool

/-- The symbols of a line of DRAM that FILL has not written: arbitrary content (07 R264), by the line's first cell and the symbol. -/
opaque arrayNoise : Nat → Nat → BitVec 8

/-- The set of the metadata cache, of 6,144, that a metadata line of a region lies in: no rule gives the index (06 R220). -/
opaque metaSet : Nat → Nat → Nat

/-- The set of the counter cache, of 6,144, that a line lies in: no rule gives the index (13 R465). -/
opaque counterSet : Nat → Nat

/-- The fused code k of the VDD_CORE set point (19 R661); the device uses it modulo 9. -/
opaque coreCode : Nat

/-- The FIO frequency in MHz as measured at the n-th measurement (17 R634). -/
opaque fioMhz : Nat → Nat

/-- Whether a DIMM reports a hard PPR resource for a bank group (07 R254, R272): channel, rank, bank group, and how many
hard repairs were made there. -/
opaque hardPpr : Nat → Nat → Nat → Nat → Bool

/-- The RFM thresholds the DIMM of a channel reports (09 R327): initial and maximum management threshold. -/
opaque raaInitial : Nat → Nat
opaque raaMaximum : Nat → Nat

/-- What a REFsb or RFMsb takes off an RAA counter, as DDR5 defines (09 R327). -/
opaque raaLowered : Nat → Nat → Nat

/-- Whether a firmware image's signature verifies, and its payload matches its hash (17 R626). -/
opaque signatureOk : Bytes → Bool
opaque hashOk : Bytes → Bool

/-- The board configuration block names the management function (14 R499). -/
opaque boardMgmt : Option Nat

/-- A payload field that the CXL 3.1 standard, and not the spec, lays out (15 R560): opcode and byte. -/
opaque standardByte : Nat → Nat → Byte

/-- A free value: the n-th one drawn, of a value the spec leaves open. -/
opaque freeNat : Nat → Nat

/-- The Subsystem Vendor ID and Subsystem ID of the board configuration block, if it sets them (00 R3). -/
opaque boardSubsystem : Option (BitVec 16 × BitVec 16)

end Sys2Proof.Config
end

