-- ==== Sys2Proof/Machine/State.lean ====
section
/-! DEFINITION. The state of the XU9640: one structure for each unit, all of it plain data, and the state after
POR_N. Fields cite the rule that names them; the reset values the spec does not give are in notes/assumptions/4.md. -/

namespace Sys2Proof.Machine
open Sys2Proof

/-- Why the block would stop on a command. No rule of the spec stops the device on a command, so no meaning ends in a fault (safe). -/
inductive Fault where
  /-- No command raises it: the host's interface asks for a type of faults, and this is its one value (safe). -/
  | unreachable
  deriving DecidableEq, Repr

/-- Why a command has no meaning. -/
inductive Refusal where
  /-- Raised by an arm of `exec` whose meaning is not written, with the command's mnemonic; no arm raises it now (safe: the block
  stops). -/
  | notModelled (mnemonic : String)
  deriving DecidableEq, Repr

/-- What the device sends: responses, TLPs, messages, snoops, notifications, flash writes (log 2). -/
inductive Out where
  /-- A response on a command path: CXL return code, output payload, and whether it is the final one (14 R493). -/
  | completion (p : Path) (rc : Nat) (payload : Bytes) (final : Bool)
  /-- An initiator write into host memory (02 R81): function, address, bytes, requester code (01 R26). -/
  | hostWrite (fn addr : Nat) (data : Bytes) (who : Nat)
  /-- A fetch of fast command ring entries (02 R83). -/
  | hostRead (fn addr len : Nat)
  /-- An MSI-X message (02 R79). -/
  | msix (fn vector : Nat)
  /-- A CXL.mem read completion: function, HPA, data, poison. -/
  | readData (fn hpa : Nat) (data : Line) (poison : Bool)
  /-- A CXL.mem write completion (01 R38). -/
  | writeDone (fn hpa : Nat)
  /-- A back-invalidate snoop of a line (01 R42, R43). -/
  | snoop (fn line : Nat)
  /-- An in-band interrupt or Host Notify to the board controller (16 R567). -/
  | bmcNotify (source : Nat)
  /-- Viral signalled on a function's link (02 R100). -/
  | viral (fn : Nat)
  /-- The value a register read returns. -/
  | regValue (v : Nat)
  /-- A PTM dialogue on a function's link (12 R445). -/
  | ptmRequest (fn : Nat)
  /-- A DOE response (02 R89). -/
  | doe (fn : Nat) (m : SpdmMsg)
  /-- An AER correctable error message of a function (02 R97). -/
  | errCor (fn : Nat)
  /-- A write of a requester dropped and logged: its code, the address, the cause (1 owner mask, 2 frozen, 3 viral, 4 no region, 5 a rank
  out for hard repair, by channel and channel line; 01 R35, 02 R101, 14 R517, 03 R105, 07 R255). -/
  | dropLog (fn addr cause : Nat)
  /-- A write of firmware to the boot flash: the offset of its area (17 R624). -/
  | flash (area : Nat)
  deriving DecidableEq, Repr

/-! ### Host ports (02) -/

/-- Link states (02 R53, R92, R98; 16 R570). -/
inductive LinkState where
  | down | l0 | l1 | recovery | disabled
  deriving DecidableEq, Repr

/-- An HDM decoder (02 R59 to R62). -/
structure Decoder where
  cfg       : DecoderCfg
  committed : Bool
  err       : Bool         -- Error Not Committed: the last commit was refused
  dpa       : Nat          -- where its DPA range begins, fixed at the commit
  deriving DecidableEq, Repr

/-- A registered fast command ring (14 R489): bases, slots, moderation, entries completed but not signalled. -/
structure Fcr where
  sub       : Nat
  comp      : Nat
  slots     : Nat
  modCount  : Nat
  modTime   : Nat
  fetching  : Nat          -- entries asked for and not arrived (02 R83)
  outstanding : List (Nat × Nat)   -- (slot count, TAG) fetched and not finally completed
  done      : List (Nat × Nat)     -- (slot count, TAG) finally completed, until the slot is used again
  unsig     : Nat
  unsigAt   : Nat
  deriving DecidableEq, Repr

/-- A registered free ring (11 R377 to R379). -/
structure FreeRing where
  base      : Nat
  slots     : Nat
  sizeCode  : Nat
  region    : Nat
  modCount  : Nat
  modTime   : Nat
  prod      : Nat          -- batches written, P of 02 R75
  cons      : Nat          -- consumer count C
  inSlots   : List (List Nat)   -- runs of each unconsumed batch, oldest first
  passed    : Nat              -- turns passed over for want of free runs (11 R381)
  unsig     : Nat
  unsigAt   : Nat
  deriving DecidableEq, Repr

/-- A registered egress ring (11 R402, R403; 02 R93). -/
structure EgressRing where
  base      : Nat
  recBase   : Nat
  slots     : Nat
  slotSize  : Nat
  modCount  : Nat
  modTime   : Nat
  alt       : Option (Nat × Nat)
  diverted  : Bool         -- traffic stays on the alternate until paired again (R93)
  prod      : Nat
  cons      : Nat
  unsig     : Nat
  unsigAt   : Nat
  deriving DecidableEq, Repr

/-- One host function, with its link (02 R58). -/
structure HostFn where
  exist     : Bool
  link      : LinkState
  slow      : Bool
  latOpt    : Bool
  gts       : Nat          -- rate and width of the link, 0 while it is down (R53)
  width     : Nat
  mps       : Nat
  mrrs      : Nat
  bme       : Bool
  aspmL1    : Bool
  ptmEn     : Bool
  command   : Nat                 -- the command register but for Bus Master Enable (R63)
  d3        : Bool                -- Power Management state: D3hot (R63)
  bars      : List Nat            -- bases of BAR0 and BAR2 (R64)
  aerCor    : Nat                 -- AER correctable and uncorrectable error status (R63, R97)
  aerUnc    : Nat
  decoders  : List Decoder
  snoopOff  : Bool
  spdm      : Option Nat          -- minor version of the SPDM session (R89)
  ideOn     : Bool
  ideOff    : Bool
  viral     : Bool
  memInfo   : Bool                -- Memory_Info_Valid (17 R629)
  intCause  : BitVec 8
  intEnable : BitVec 8
  fnMask    : Bool
  msixMask  : BitVec 256
  msixTab   : SMap Nat            -- word k of entry v at 4v + k: message address and data (R78)
  pba       : BitVec 256
  fcr       : Option Fcr
  fcrProd   : Nat
  fcrCons   : Nat
  fcrHalted : Bool
  freeRings : SMap (Option FreeRing)
  egress    : SMap (Option EgressRing)
  kept      : SMap (Option (Nat × Nat))  -- pairing kept for a ring cleared by a reset (02 R95)
  flitTimes : List Nat            -- times of the flit errors of the last 1 ms, oldest first (R97)
  held      : List MemReq
  withheld  : List MemReq         -- requests that the host keeps for want of credits (01 R48)
  answers   : List Out            -- responses held while the link is in recovery (R98)
  mbox      : List (Nat × Bytes)  -- return code and payload in the two mailboxes (R65)
  heldW     : List (Nat × Bytes × Nat)   -- initiator writes held: address, data, requester (02 R85, R98)
  lost      : Bool                -- the link left L0 without a reset and is not up again (16 R565)
  deriving DecidableEq, Repr

/-- A window write waiting in a posted-write queue (01 R49): function, window, enqueue (true) or counter, the records
left. -/
structure Posted where
  fn      : Nat
  window  : Nat
  enqueue : Bool
  records : List Bytes
  deriving DecidableEq, Repr

/-- A window write as a host sends it (02 R68, R69): enqueue (true) or counter, function, window, offset, bytes, whether all byte enables
are set, poisoned. -/
structure WindowWrite where
  enqueue  : Bool
  fn       : Nat
  window   : Nat
  offset   : Nat
  data     : Bytes
  enabled  : Bool
  poisoned : Bool
  deriving DecidableEq, Repr

/-- One port: its pin, arbiter, snoops and posted-write queue. -/
structure Port where
  perst    : Bool          -- true: PERST_N low
  share    : Nat
  snoops   : List (Nat × Nat)   -- (function, line)
  posted   : List Posted
  stalled  : List WindowWrite   -- writes that hosts keep for want of posted credits (01 R49)
  disabled : Bool
  deriving DecidableEq, Repr

structure Hp where
  fns    : List HostFn
  ports  : List Port
  straps : BitVec 6
  deriving DecidableEq, Repr

/-! ### Request router (01) -/

/-- How far a fetch of a line from DRAM has come: issued to the channels; decoded as ADDRESS_ERROR (07 R234); MEDIA or
tag-failed (or an ADDRESS_ERROR that stayed), waiting for repair; released speculatively, waiting for its tag result (08 R286); arrived, or
a full-line write that needs no fetch, waiting for a victim buffer entry (04 R129), with whether the line is installed. -/
inductive FetchStage where
  | waiting
  | reread
  | repair (tag addr : Bool) (data : Line)
  | spec (data : Line) (poison ok : Bool)
  | room (data : Line) (poison install : Bool)
  deriving DecidableEq, Repr

/-- A request waiting for a line. -/
structure Waiter where
  req : MemReq
  dpa : Nat
  deriving DecidableEq, Repr

/-- A near-store miss in flight: DPA line, id of its channel requests, the channel its copy is read from, waiting requests in
order. -/
structure Fetch where
  line    : Nat
  id      : Nat
  copy    : Nat
  waiters : List Waiter
  stage   : FetchStage
  deriving DecidableEq, Repr

structure Rr where
  ptr     : Nat
  fetches : List Fetch
  tied    : List (Nat × List MemReq)   -- requests ordered behind an engine's access of the same cycle (R45)
  deriving DecidableEq, Repr

/-! ### Regions (03) -/

/-- A media extent of a region: bytes per copy, base CLA on each channel, and its fill state (07 R264 to R266): blocks
below `filled` are filled, and blocks in `touched` were filled on touch. -/
structure Extent where
  size    : Nat
  bases   : List Nat
  filled  : Nat
  touched : List Nat
  deriving DecidableEq, Repr

/-- What a granule holds: its run of stalls, its chain, and whether it is churning (06 R201, R208, R225). -/
structure Owned where
  idx   : Nat
  m     : Nat
  links : List Nat
  churn : Bool
  deriving DecidableEq, Repr

/-- A region (03 R113, 05 R165, 06 R210, R214) with its yard lists (06 R190) and tier bookkeeping. -/
structure Region where
  base       : Nat
  size       : Nat
  tier       : Nat
  protect    : Nat
  grain      : Nat
  nsAlloc    : Nat
  mask       : Nat
  owner      : Nat
  ratio      : Nat
  scramble   : Bool
  spec       : Bool
  hdmDb      : Bool
  quotaInit  : Nat
  quota      : Nat
  watermark  : Nat
  up         : Nat
  down       : Nat
  firstTouch : Bool
  epoch      : Nat
  effort     : Nat
  lowPct     : Nat
  data       : Extent
  t1         : Extent
  yard       : Extent
  metaX      : Extent
  slack      : Extent          -- what rounding the region's media up to 1 GiB adds (03 R106); it holds no line
  freeRuns   : List (List Nat)
  freeLinks  : List Nat
  dirtyRuns  : List Nat        -- free runs and free links whose header or pointer the codec has yet to write (06 R189)
  dirtyLinks : List Nat
  leaked     : Nat             -- stalls and links left unfreed until the region is deleted (06 R201, R221; 07 R236)
  yardLow    : Bool
  tierShort  : Bool
  stretched  : Bool
  noMove     : List Nat
  candidates : List Nat
  queued     : List Nat
  frames     : List (Nat × Nat)    -- page and frame of each page in T1, MIG_UP or MIG_DOWN (05 R167)
  owns       : SMap (Option Owned)  -- what each granule holds (06 R201, R225)
  lostFrames : List Nat
  epochAt    : Nat
  sweepEnd   : Nat             -- when the last heat sweep of the region ends (05 R170)
  deriving DecidableEq, Repr

structure Rg where
  regions : SMap (Option Region)
  qstate  : Extent           -- queue, scheduler and policer state (03 R107)
  links   : List (Nat × Extent)   -- the cell link table of each registered buffer region
  spare   : Extent           -- the spare-page pool
  freeFill : Nat             -- unallocated media filled (07 R264), in steps
  deriving DecidableEq, Repr

/-! ### Near store (04) -/

/-- A near-store line (04 R125); an INVALID entry is absent. -/
structure NsLine where
  tag    : Nat
  dirty  : Bool
  poison : Bool
  writer : Nat
  data   : Line
  deriving DecidableEq, Repr

/-- A victim buffer entry (04 R129, R136): the DPA line, and whether an offer is pending. -/
structure Victim where
  line  : Nat
  ent   : NsLine
  offer : Bool
  hit   : Bool              -- read while the offer was pending (R148)
  deriving DecidableEq, Repr

/-- State of a way group (04 R160). -/
inductive WayState where
  | on | draining | off | waking
  deriving DecidableEq, Repr

structure Ns where
  lines    : SMap (Option NsLine)     -- key (quadrant × 16384 + set) × 16 + way
  plru     : SMap (BitVec 15)
  victims  : List Victim
  ways     : List WayState            -- groups 0 to 3
  enabled  : BitVec 4
  tagScrub : List Nat
  tagAt    : List Nat                 -- when each quadrant last scrubbed its tags (04 R158)
  errDpa   : List Nat
  errLoc   : List Nat
  deriving DecidableEq, Repr

/-! ### Tier manager and codec (05, 06) -/

/-- A move in progress (05 R173, R174): up is promotion. -/
structure Move where
  region : Nat
  page   : Nat
  up     : Bool
  frame  : Nat
  deriving DecidableEq, Repr

/-- A captured line (04 R136). -/
structure Capture where
  region : Nat
  page   : Nat
  line   : Nat
  data   : Line
  poison : Bool
  deriving DecidableEq, Repr

structure Tr where
  moves      : List Move
  captures   : List Capture
  migRate    : Nat
  sweepRate  : Nat
  errDpa     : Nat
  sweepBusy  : Nat               -- when the heat sweeps under way have used their share of the sweep rate (05 R170)
  halted     : Nat
  paused     : Bool
  deriving DecidableEq, Repr

/-- A metadata cache line (06 R220). -/
structure MetaLine where
  region : Nat
  index  : Nat
  data   : Line
  dirty  : Bool
  who    : Nat               -- the requester that a write-back is charged to (05 R178; 06 R220)
  deriving DecidableEq, Repr

structure Cd where
  mcache     : List MetaLine
  errDpa     : List Nat
  errInfo    : List Nat
  muckRate   : Nat
  muckRegion : Nat
  muckPos    : Nat
  muckNext   : Nat               -- where the ascending order of regions goes on (06 R214, R216)
  muckPasses : Nat
  muckLeft   : Nat               -- chained granules left for want of a run (06 R216)
  muckHalted : Bool
  muckFirst  : List Nat
  mcErrDpa   : Nat
  isolated   : List Nat
  deriving DecidableEq, Repr

/-! ### Line protection, fuses, scrambler (07, 08) -/

/-- A row-error table entry (07 R252). -/
structure RowErr where
  row     : Nat
  count   : Nat
  last    : Nat
  start   : Nat
  deriving DecidableEq, Repr

/-- A rank's device record (07 R237): count of DEVICE_CORRECTED lines per device in the window, lines counted. -/
structure DevRec where
  counts : List Nat
  lines  : List Nat
  start  : Nat
  deriving DecidableEq, Repr

/-- A resilver pass of a channel (07 R245, R255). -/
structure Resilver where
  buoy   : Nat
  active : Bool
  rank   : Option (Nat × Nat)
  deriving DecidableEq, Repr

/-- What the repair log in boot flash records (07 R240, R254 to R256, R259). -/
inductive RepairNote where
  | softPpr (row : Nat)
  | retire (channel page spare : Nat)
  | erase (rank device serial : Nat)
  | softFuse (bank word : Nat)
  deriving DecidableEq, Repr

structure Lp where
  patrolH      : Nat
  rowThr       : Nat
  rowWin       : Nat
  devThr       : Nat
  resilverRate : Nat
  patrolPos    : List Nat
  patrolStart  : List Nat
  patrolDone   : List Bool
  patrolLate   : List Bool
  patrolPasses : Nat
  dev          : SMap (Option DevRec)
  erase        : SMap (Option Nat)
  demandQ      : List (Nat × Nat)
  demandDrops  : Nat
  rows         : List RowErr
  rowsReplaced : Nat
  hardRows     : List Nat
  softUsed     : List Nat
  hardUsed     : SMap Nat
  retired      : List (Nat × Nat × Nat)    -- channel, page, spare page
  spareFree    : List (List (Nat × Nat))   -- free spare pages per channel, as (first page, count) spans
  resilver     : List Resilver
  errChaddr    : Nat
  errInfo      : Nat
  scrubHalted  : Bool
  fillHalted   : Bool
  paused       : Bool
  rankOut      : List (Nat × Nat × Nat)    -- channel, subchannel, rank in hard PPR (R255)
  repairLog    : List RepairNote
  deriving DecidableEq, Repr

structure Fu where
  burnsLeft : Nat
  soft      : List (Nat × Nat)
  burned    : List (Nat × Nat)
  onceBad   : List (Nat × Nat)
  applied   : List (Nat × Nat)   -- soft entries that a re-initialisation of their bank has applied (07 R259)
  errLoc    : Nat
  svn       : Nat
  deriving DecidableEq, Repr

structure Sx where
  key        : Option (BitVec 256)
  oldKey     : Option (BitVec 256)
  copies     : BitVec 3
  epoch      : Nat
  sweep      : Bool
  halted     : Bool
  paused     : Bool
  buoy       : Nat
  rate       : Nat
  errChaddr  : Nat
  errInfo    : Nat
  lateAlarms : Nat
  dipSeen    : Bool
  rngFail    : Bool
  deriving DecidableEq, Repr

/-! ### Channels (09) -/

inductive McState where
  | unpopulated | training | service | retraining | fenced | selfRefresh | speedChange
  deriving DecidableEq, Repr

/-- A request in a subchannel queue (09 R317): id of its fetch (0: none), CLA, bank (rank, group, bank), read or write,
requester, class, promoted, time of entry. -/
structure ChanReq where
  id       : Nat
  tag      : Nat
  cla      : Nat
  write    : Bool
  who      : Nat
  cls      : Nat
  promoted : Bool
  at_      : Nat
  held     : Bool           -- the queue is full: the router holds the request (R317)
  deriving DecidableEq, Repr

/-- One subchannel (09 R317 to R330). -/
structure SubCh where
  readQ    : List ChanReq
  writeQ   : List ChanReq
  drain    : Bool
  drainIdle : Bool          -- drain entered for lack of reads (R321)
  retry    : List (Nat × Nat)   -- commands issued within the last 60 ns: tag of the access (0: refresh), time of issue (R328)
  alerts   : Nat
  sinceAlert : Nat
  owed     : SMap Int       -- rank × 4 + bank index: refreshes owed at `refAt` (negative: run ahead, R324)
  refAt    : Nat            -- the refresh interval boundary that `owed` was counted at (R323)
  raa      : SMap Nat       -- rank × 32 + group × 4 + bank
  corr     : List (Nat × Nat)   -- corrected reads of the last 1 ms: time and devices, as bits (R334)
  slot     : Nat            -- slot within the 1,024-slot frame (10 R362)
  frame    : List Nat       -- owned slots per class in this frame (10 R358, R362)
  credit   : List Nat       -- slots owed to each class, in 1/1,024 slot, above `slotDebt` (10 R362)
  since    : List Nat       -- slots since each class last owned one (10 R362)
  own      : SMap Nat       -- stamp advances since the last update, as Bw.stamp (10 R366)
  lastWr   : Bool           -- the last line issued was a write (18 R636)
  deriving DecidableEq, Repr

/-- One channel controller. -/
structure Mc where
  state      : McState
  pop        : Option PopCfg
  rate       : Nat
  stored     : BitVec 6
  hot        : Bool
  ageLimit   : Nat
  wcrc       : Bool
  retrainThr : Nat
  caRetries  : Nat
  wcrcRetries : Nat
  retrainsErr : Nat
  retrainsCmd : Nat
  refForced  : Nat
  rfmIssued  : Nat
  fenceInfo  : Nat
  temp       : Int
  sensorMiss : Nat           -- bit i: sensor i did not answer last time; bit 32 + i: twice in a row (R325)
  subs       : List SubCh
  deriving DecidableEq, Repr

/-- MC_SPEED in progress (09 R341, R342). -/
structure Speed where
  target  : Nat
  next    : Nat
  started : Bool
  at_     : Nat
  deriving DecidableEq, Repr

structure McAll where
  chans    : List Mc
  rate     : Nat
  trigQ    : List Nat
  training : Option Nat
  speed    : Option Speed
  nextId   : Nat
  upsets   : List (Nat × Nat × Nat × Byte)   -- symbols upset since their line was written: channel, CLA, symbol, XOR (log 15)
  deriving DecidableEq, Repr

/-- Memory service class regulation (10). -/
structure Bw where
  cls        : SMap (List Nat)     -- rows that differ from the defaults
  window     : Nat
  windowNext : Nat
  windowAt   : Nat
  budget     : SMap Nat
  weight     : SMap Nat
  charge     : SMap Nat
  lowered    : List Nat
  loweredCnt : SMap Nat
  guar       : List Nat
  applied    : List (List Nat)
  stamp      : SMap Nat            -- class × 16 + requester, in units of 1/weight scaled by 2^32
  stampPub   : SMap Nat
  rescaled   : Bool
  clsLines   : SMap Nat
  reqLines   : SMap Nat
  deriving DecidableEq, Repr

/-! ### Queue engine (11) -/

/-- A queue's attributes and contents (11 R391). -/
structure Queue where
  enabled  : Bool
  owner    : Nat
  limit    : Nat
  efn      : Nat
  ering    : Nat
  head     : Option Nat
  tail     : Option Nat
  cells    : Nat
  packets  : Nat
  bytes    : Nat
  headLine : Option Nat      -- the head packet's first line as delivered, bit 512 poisoned, once it is present (R399)
  flushTo  : Option Nat
  deriving DecidableEq, Repr

/-- A packet linked to a queue: its cells and the descriptor's LENGTH. -/
structure Pkt where
  cells : Nat
  len   : Nat
  deriving DecidableEq, Repr

/-- A policer (11 R392 to R397); buckets in bytes with 24 fractional bits, and the carried remainders. -/
structure Policer where
  mode   : Nat
  drop   : Bool
  cir    : Nat
  pir    : Nat
  cbs    : Nat
  ebs    : Nat
  tc     : Nat
  te     : Nat
  remC   : Nat
  remP   : Nat
  last   : Nat
  deriving DecidableEq, Repr

/-- A packet taken off its queue by the scheduler (11 R400, R403): read, then pushed. `head` is its head line as delivered
(bit 512: poisoned), `len` the descriptor's LENGTH, `size` the header's; `paid` the nodes whose shapers were charged, with the
bucket taken and the debt clipped, in 2^-32 bytes (12 R429). -/
structure Deq where
  queue   : Nat
  first   : Nat
  cells   : Nat
  len     : Nat
  head    : Nat
  depth   : Nat
  paid    : List (Nat × Nat × Nat)
  read    : Bool
  size    : Nat
  user    : Nat
  data    : Bytes
  started : Bool
  repush  : Bool
  alt     : Bool
  time    : Nat
  slot    : Nat              -- record count of the ring slot of a started push
  target  : Option (Nat × Nat)
  entries : Nat              -- in-flight entries that its read holds (01 R50)
  deriving DecidableEq, Repr

structure Qe where
  bufs      : List Nat
  cells     : SMap Nat
  links     : SMap Nat
  pkts      : SMap (Option Pkt)
  queues    : SMap (Option Queue)
  policers  : SMap (Option Policer)
  polCache  : List Nat          -- policers held on chip, in the order they joined (11 R398)
  deq       : List Deq
  poolLow   : List Nat
  poolThr   : Nat
  malformed : Nat
  malfInfo  : Nat
  tsClamped : Nat
  ctxHalted : BitVec 40
  dropsFence : Nat
  dropsBuf  : Nat
  pushDisc  : Nat
  rrRing    : Nat
  heads     : List Nat       -- queues in the head-line buffer, oldest first (R399)
  draining  : Bool
  deriving DecidableEq, Repr

/-! ### Scheduler and time (12) -/

/-- A scheduler node of level 2 to 4 (12 R417, R423, R428); the bucket in bytes with 32 fractional bits. -/
structure Node where
  parent  : Option Nat
  band    : Nat
  weight  : Nat
  tc      : Nat
  shaper  : Bool
  rate    : Nat
  burst   : Nat
  bucket  : Int
  last    : Nat
  deficit : Int
  deriving DecidableEq, Repr

/-- A gate list (12 R436): cycle, base and change time in ns, entries (duration, state). -/
structure GateList where
  cycle   : Nat
  base    : Nat
  change  : Nat
  entries : List (Nat × BitVec 8)
  deriving DecidableEq, Repr

/-- A scheduler port (12 R418, R426, R436); line time in ns with 16 fractional bits. -/
structure ScPort where
  rate     : Nat
  overhead : Nat
  gate     : Bool
  lineTime : Nat
  oper     : Option GateList
  admin    : Option GateList
  swapAt   : Option Nat
  held     : List (Nat × Nat)    -- held queues and the network time of their next window (R442)
  deriving DecidableEq, Repr

structure Sc where
  nodes     : SMap (Option Node)
  ports     : SMap (Option ScPort)
  active    : SMap (List Nat)    -- parent key × 8 + band: eligible children in order of joining
  wheel     : List (Nat × Nat × Nat)   -- node key, eligible time, wheel: 0 fine, 1 medium, 2 coarse (R433)
  rrPort    : Nat
  skew      : Nat                -- time the scheduler's clock stood still
  wheelLag  : Nat
  debtClips : Nat                -- in 2^-32 bytes
  gateOver  : Nat
  deriving DecidableEq, Repr

inductive TuMode where
  | free | acquiring | locked | holdover
  deriving DecidableEq, Repr

structure Tu where
  ns40      : Nat               -- network time in units of 2^-40 ns
  corr      : Int               -- correction per CLK_TU cycle in units of 2^-40 ns
  mode      : TuMode
  estimated : Bool
  coarse    : Bool
  active    : Nat
  primary   : Nat
  secondary : Nat
  ptmMs     : Nat
  ppsDelay  : Nat
  stepThr   : Nat
  ptmOffset : Int
  offset    : Int
  steps     : Nat
  good      : Nat               -- consecutive samples within 100 ns
  returned  : Nat               -- consecutive valid samples of a returning primary
  lastValid : SMap Nat          -- source: time of its last valid sample
  latchNs   : Nat
  slewLeft  : Int               -- offset still to remove, in 2^-40 ns
  ptmAt     : Nat               -- when the last PTM dialogue started (R445)
  deriving DecidableEq, Repr

/-! ### Counter engine (13) -/

/-- A counter set (13 R458, R463, R471, R482). -/
structure CSet where
  region  : Nat
  ctrOff  : Nat
  stOff   : Nat
  first   : Nat
  leaves  : Nat
  pair48  : Bool
  wrap    : Bool
  owner   : Nat
  levels  : Nat
  fan     : List Nat
  endCnt  : Nat
  lost    : Nat
  stale   : Nat
  gen     : Nat
  ended   : Bool             -- CE_END has been raised for the set (13 R481)
  deriving DecidableEq, Repr

/-- A binding of a set to queue or policer events (13 R469). -/
structure Binding where
  set   : Nat
  base  : Nat
  count : Nat
  slots : Nat
  map   : List (Option Nat)
  deriving DecidableEq, Repr

/-- A posted event (11 R390, 13 R470): queue or policer, number, code or colour, packets, bytes. -/
structure QEvent where
  policer : Bool
  number  : Nat
  code    : Nat
  packets : Nat
  bytes   : Nat
  deriving DecidableEq, Repr

/-- A counter cache line (13 R465): DPA line, data, dirty. -/
structure CLine where
  line  : Nat
  data  : Line
  dirty : Bool
  bad   : Bool              -- an uncorrectable SRAM error was found in it while DIRTY (13 R473)
  deriving DecidableEq, Repr

/-- An update that waits for snoop responses of a line (01 R42). -/
structure CWait where
  line  : Nat
  set   : Nat
  leaf  : Nat
  level : Nat
  pkts  : Nat
  bytes : Nat
  deriving DecidableEq, Repr

/-- A sleep-gap log entry (13 R479). -/
structure Gap where
  entry   : Nat
  wake    : Nat
  interval : Nat
  deep    : Bool
  est     : Bool
  coarse  : Bool
  deriving DecidableEq, Repr

/-- A recompute in progress (13 R474): set, level, ancestor, cursor (children read), running sums. -/
structure Recompute where
  set    : Nat
  level  : Nat
  anc    : Nat
  cursor : Nat
  pkts   : Nat
  bytes  : Nat
  deriving DecidableEq, Repr

structure Ce where
  sets      : SMap (Option CSet)
  bindQ     : Option Binding
  bindP     : Option Binding
  cache     : List CLine
  filter    : List Nat
  events    : List QEvent
  waiting   : List CWait
  held      : List Waiter      -- accesses of hosts and NM that wait for snoop responses (01 R42, R43)
  malformed : Nat
  malfInfo  : Nat
  unbound   : Nat
  discarded : Nat
  stale     : List (Nat × Nat × Nat)   -- (set, level, ancestor) waiting for recomputation
  recompute : Option Recompute
  gapCount  : Nat
  gapLog    : List Gap
  halted    : BitVec 12
  paused    : Bool
  deriving DecidableEq, Repr

/-! ### Management (14, 15) -/

/-- A clamp report entry (14 R514). -/
structure Clamp where
  kind    : Nat
  source  : Nat
  field   : Nat
  obj     : Nat
  given   : Nat
  applied : Nat
  opcode  : Nat
  deriving DecidableEq, Repr

/-- A clamp report (14 R513): entries, and the count lost to overflow. -/
structure Report where
  entries : List Clamp
  lost    : Nat
  deriving DecidableEq, Repr

/-- A staged object (14 R506): opcode, object, level for scheduler nodes, payload with the applied values. -/
structure Staged where
  op  : Nat
  obj : Nat
  lvl : Nat
  b   : Bytes
  deriving DecidableEq, Repr

/-- An open staging session (14 R505 to R509). `who` is a function, or 15 for the board controller. -/
structure Session where
  number : Nat
  who    : Nat
  staged : List Staged
  report : Report
  lastAt : Nat
  deriving DecidableEq, Repr

/-- The work of a background operation (14 R684). -/
inductive BgWork where
  | range (op region start len cursor : Nat) (snooped : Bool)   -- op 0 to 2 as NS_MAINT, 3 ZERO_RANGE; lines done
  | flush (queue removed : Nat)
  | reclaim (fn : Nat)
  | ceClear (set level first count : Nat)
  | ways (off on : BitVec 4)
  | rekey
  | speed
  | retrain (channel : Nat)
  | ppr (channel : Nat) (rows : List Nat)
  | fuse (count : Nat)
  | pwEnter
  | pwWake
  | transferFw (action slot offset : Nat) (data : Bytes)
  | activateFw
  deriving DecidableEq, Repr

/-- A background operation (14 R503, R684). -/
structure BgOp where
  handle : Nat
  who    : Nat
  path   : Path
  op     : Nat
  obj    : Nat
  work   : BgWork
  done   : Nat
  total  : Nat
  status : Nat
  running : Bool
  clamped : Bool
  deriving DecidableEq, Repr

/-- A command held while firmware restarts (14 R521): path, opcode, payload. -/
structure HeldCmd where
  path : Path
  op   : Nat
  b    : Bytes
  deriving DecidableEq, Repr

/-- A class S command accepted and not finished: MC_CTL retraining a channel in service (15 R557), or a maintenance command
that waits for snoop responses (04 R147). -/
structure SOp where
  path    : Path
  op      : Nat
  obj     : Nat
  work    : BgWork
  clamped : Bool
  deriving DecidableEq, Repr

/-- An ABORT of a running class S command, answered after its target (14 R504): its path, its OBJECT, the target's path. -/
structure AbortWait where
  path   : Path
  obj    : Nat
  target : Path
  deriving DecidableEq, Repr

/-- A firmware slot (17 R624, R625): whether it holds an accepted image, its security version and version. -/
structure FwSlot where
  good    : Bool
  svn     : Nat
  version : Nat
  image   : Bytes
  deriving DecidableEq, Repr

structure Mb where
  mgmt       : Nat
  freezeThr  : Nat
  frozen     : BitVec 4
  cause      : List Nat
  freezes    : List Nat
  malfCount  : List Nat
  malfWin    : Nat
  sessions   : List Session
  retained   : List (Nat × Nat × Report)   -- principal, session number, report
  direct     : SMap Report
  ops        : List BgOp
  sActive    : List SOp
  latF       : Nat               -- largest response known to exceed its bound, in µs, since the last read
  latS       : Nat
  nF         : Nat               -- class F and class S responses since the last read of MB_LAT_F, MB_LAT_S
  nS         : Nat
  boundMiss  : Nat
  slot       : Nat
  bootSlot   : Nat               -- the boot-control record of 17 R624
  activating : Bool
  actFailed  : Bool
  activations : Nat
  actAt      : Nat
  actPath    : Option Path
  reloading  : Bool
  heldCmds   : List HeldCmd
  slots      : List FwSlot
  evlog      : List (List (Nat × Nat × Nat))   -- four logs of (handle, CXL timestamp, the keeper's log entry of 16 R575)
  evOver     : List (Nat × Nat × Nat)    -- per log: records lost to overflow, CXL timestamps of the first and the last
  evNext     : Nat
  policy     : List Nat
  alert      : List Nat
  tsBase     : Nat
  poison     : List Nat
  poisonOver : Option Nat                -- CXL timestamp of the first line that found the poison list full
  xfer       : Option Bytes              -- the parts of a firmware image received so far (17 R626)
  abortWaits : List AbortWait
  deriving DecidableEq, Repr

/-! ### Fault collector (16) -/

/-- A source's configuration (16 R567, R572). -/
structure SrcCfg where
  ladder : List Nat
  window : Nat
  notify : Nat
  deriving DecidableEq, Repr

inductive SrcMode where
  | clear | raised | settling
  deriving DecidableEq, Repr

/-- The walk of a source (16 R568): next rung, waiting in a handling window until a time, or for an action rung. -/
inductive Walk where
  | none
  | window (rung until_ : Nat)
  | action (rung until_ : Nat)
  | blocked (rung : Nat)          -- an action rung that waits for firmware (R574) or for the wake (R588)
  deriving DecidableEq, Repr

structure Src where
  mode      : SrcMode
  walk      : Walk
  lastRung  : Nat
  pos       : Nat               -- SEQ of the raise that started the walk
  walkCfg   : Option SrcCfg     -- the configuration that the walk runs under (R569)
  raises    : Nat
  recov     : Nat
  lastSeq   : Nat
  clearAt   : Nat
  holdsPin  : Bool
  deriving DecidableEq, Repr

/-- A keeper's log entry (16 R575). -/
structure LogEntry where
  seq      : Nat
  sec      : Nat
  ns       : Nat
  source   : Nat
  severity : Nat
  simul    : Bool
  conseq   : Bool
  first    : Bool
  parent   : Nat
  req      : Option Nat
  lastRung : Nat
  est      : Bool
  coarse   : Bool
  detail   : Nat
  deriving DecidableEq, Repr

/-- A fault report on the control fabric (01 R33): its detection stamp (time, and network time with its flags), source, requester, detail. -/
structure FaultMsg where
  at_    : Nat
  net    : Nat
  est    : Bool
  coarse : Bool
  source : Nat
  req    : Option Nat
  detail : Nat
  deriving DecidableEq, Repr

/-- A shadow window (16 R579): the reacting node, its start, its end (none while the reaction lasts), the parent's SEQ
(none until it is raised), the parent's source. -/
structure Shadow where
  node   : Nat
  start  : Nat
  end_   : Option Nat
  parent : Option Nat
  src    : Nat
  waits  : List Nat          -- SEQ of the entries that wait for their parent
  deriving DecidableEq, Repr

structure Fc where
  reports   : List FaultMsg
  cfg       : SMap (Option SrcCfg)
  src       : SMap (Option Src)
  log       : SMap (Option LogEntry)
  seq       : Nat
  first     : Option LogEntry
  pinThr    : Nat
  quiet     : Nat
  quietAt   : Nat
  recov     : Nat
  shadows   : List Shadow
  isoBy     : List Nat          -- sources whose walks isolated their unit (16 R570)
  safe      : Bool
  safeCause : Option Nat
  flash     : Option (List LogEntry × Option LogEntry × Nat)
  flashDue  : Option Nat
  agg       : SMap Nat          -- source × 2^40 + object: time of its last record
  faultN    : Bool              -- true: driven low
  lastStamp : Option Nat        -- stamp of the newest log entry (R578)
  deriving DecidableEq, Repr

/-! ### Power, clocks, performance monitor (17, 18) -/

inductive PwState where
  | run | idle | entering | sleep | waking | deep | off
  deriving DecidableEq, Repr

/-- PW_ENTER in progress (17 R601): target 1 SLEEP, 2 DEEP, 3 OFF; the last step done. -/
structure Entry where
  target  : Nat
  handle  : Nat
  step    : Nat
  discard : Bool
  retain  : BitVec 96
  limitAt : Nat
  wakeReq : Option Nat
  deriving DecidableEq, Repr

/-- A wake in progress (17 R611): cause, whether from DEEP, accesses held. -/
structure Wake where
  cause : Nat
  deep  : Bool
  from_ : Nat      -- when step 1 of 17 R611 is done: the sleep timer stops (R614)
  deriving DecidableEq, Repr

/-- Where the cold start stands (17 R623): held in reset, at a step, served, or no image accepted (R628). -/
inductive Cold where
  | held
  | step (n : Nat)
  | done
  | noImage
  deriving DecidableEq, Repr

structure Pw where
  state      : PwState
  target     : Nat
  idleDelay  : Nat
  idleAt     : Nat
  wakeCause  : Nat
  resetCause : Nat
  sleepNs    : Nat
  retain     : BitVec 96
  retLost    : BitVec 96
  deepExits  : Nat
  epochs     : SMap Nat
  entry      : Option Entry
  wake       : Option Wake
  cold       : Cold
  bgBy       : List Nat       -- sources that hold the background throttle (16 R586)
  dramBy     : List Nat       -- sources that hold the DRAM throttle
  droop      : Bool
  pwrFail    : Bool
  temp       : Int
  warn       : Bool
  throttle   : Bool
  shutdown   : Bool
  saved      : Bool
  corrupt    : BitVec 96
  offLatch   : Bool
  wakeInOff  : Bool
  asleepAt   : Nat
  coarse     : Bool
  trst       : Bool
  thermN     : Bool
  porAt      : Option Nat     -- when POR_N rose (19 R661, R662); none while it is low
  deriving DecidableEq, Repr

structure Ck where
  sysLock : Bool
  memLock : Bool
  refA    : Bool
  refB    : Bool
  naFio   : Bool
  xtal    : Bool
  domains : BitVec 40
  fioRead : Nat
  unlocks : Nat
  deriving DecidableEq, Repr

structure Pm where
  cnt     : SMap Nat
  sticky  : List Nat
  evt     : SMap Nat
  en      : List Nat
  base    : Nat
  records : Nat
  interval : Nat
  fn      : Nat
  seq     : Nat
  missed  : Nat
  missedSince : Nat
  parity  : Nat
  parityAt : SMap Nat
  gap     : Bool
  nextAt  : Nat
  deriving DecidableEq, Repr

/-- The whole device. `pending`, `out` and `fresh` are the model's own (log 1, 2, 3). -/
structure State where
  pending : List Instr
  out     : List Out
  fresh   : Nat
  now     : Nat
  dram    : List Host.Cell
  hp      : Hp
  rr      : Rr
  rg      : Rg
  ns      : Ns
  tr      : Tr
  cd      : Cd
  lp      : Lp
  fu      : Fu
  sx      : Sx
  mc      : McAll
  bw      : Bw
  qe      : Qe
  sc      : Sc
  tu      : Tu
  ce      : Ce
  mb      : Mb
  fc      : Fc
  pw      : Pw
  ck      : Ck
  pm      : Pm
  deriving DecidableEq, Repr

/-! ### The state after POR_N -/

/-- An uncommitted decoder. -/
def Decoder.reset : Decoder := ⟨⟨0, 0, 1, 256, 0, 0, false, false⟩, false, false, 0⟩

/-- A function after POR_N: no link, every register of the doorbell page 0 (02 R73 to R77). -/
def HostFn.reset : HostFn where
  exist := false
  link := .down
  slow := false
  latOpt := false
  gts := 0
  width := 0
  mps := 128
  mrrs := 512
  bme := false
  aspmL1 := false
  ptmEn := false
  command := 0
  d3 := false
  bars := [0, 0]
  aerCor := 0
  aerUnc := 0
  decoders := List.replicate 8 Decoder.reset
  snoopOff := false
  spdm := none
  ideOn := false
  ideOff := false
  viral := false
  memInfo := false
  intCause := 0
  intEnable := 0
  fnMask := false
  msixMask := BitVec.allOnes 256
  msixTab := []
  pba := 0
  fcr := none
  fcrProd := 0
  fcrCons := 0
  fcrHalted := false
  freeRings := []
  egress := []
  kept := []
  flitTimes := []
  held := []
  withheld := []
  answers := []
  mbox := [(0, []), (0, [])]
  heldW := []
  lost := false

/-- A port after POR_N: PERST_N low, initiator share 13 (02 R87). -/
def Port.reset : Port := ⟨true, 13, [], [], [], false⟩

/-- An extent of no media. -/
def Extent.none : Extent := ⟨0, [], 0, []⟩

/-- A subchannel after POR_N. -/
def SubCh.reset : SubCh where
  readQ := []
  writeQ := []
  drain := false
  drainIdle := false
  retry := []
  alerts := 0
  sinceAlert := 0
  owed := []
  refAt := 0
  raa := []
  corr := []
  slot := 0
  frame := []
  credit := []
  since := []
  own := []
  lastWr := false

/-- A controller after POR_N (09 R346). -/
def Mc.reset : Mc where
  state := .unpopulated
  pop := none
  rate := 0
  stored := 0
  hot := false
  ageLimit := 0x5DC
  wcrc := false
  retrainThr := 0x100
  caRetries := 0
  wcrcRetries := 0
  retrainsErr := 0
  retrainsCmd := 0
  refForced := 0
  rfmIssued := 0
  fenceInfo := 0
  temp := 0
  sensorMiss := 0
  subs := [SubCh.reset, SubCh.reset]

/-- No resilver pass. -/
def Resilver.none : Resilver := ⟨0, false, Option.none⟩

def Lp.reset : Lp where
  patrolH := 24
  rowThr := 3
  rowWin := 24
  devThr := 4
  resilverRate := 16
  patrolPos := List.replicate 12 0
  patrolStart := List.replicate 12 0
  patrolDone := List.replicate 12 false
  patrolLate := List.replicate 12 false
  patrolPasses := 0
  dev := []
  erase := []
  demandQ := []
  demandDrops := 0
  rows := []
  rowsReplaced := 0
  hardRows := []
  softUsed := []
  hardUsed := []
  retired := []
  spareFree := List.replicate 12 []
  resilver := List.replicate 12 Resilver.none
  errChaddr := 0
  errInfo := 0
  scrubHalted := false
  fillHalted := false
  paused := false
  rankOut := []
  repairLog := []

def Bw.reset : Bw where
  cls := []
  window := 10
  windowNext := 10
  windowAt := 0
  budget := []
  weight := []
  charge := []
  lowered := []
  loweredCnt := []
  guar := List.replicate 8 0
  applied := List.replicate 12 (List.replicate 8 0)
  stamp := []
  stampPub := []
  rescaled := false
  clsLines := []
  reqLines := []

def Qe.reset : Qe where
  bufs := []
  cells := []
  links := []
  pkts := []
  queues := []
  policers := []
  polCache := []
  deq := []
  poolLow := []
  poolThr := 0x100000
  malformed := 0
  malfInfo := 0
  tsClamped := 0
  ctxHalted := 0
  dropsFence := 0
  dropsBuf := 0
  pushDisc := 0
  rrRing := 0
  heads := []
  draining := false

def Tu.reset : Tu where
  ns40 := 0
  corr := 0
  mode := .free
  estimated := false
  coarse := false
  active := 0
  primary := 0
  secondary := 0
  ptmMs := 10
  ppsDelay := 0
  stepThr := 10
  ptmOffset := 0
  offset := 0
  steps := 0
  good := 0
  returned := 0
  lastValid := []
  latchNs := 0
  slewLeft := 0
  ptmAt := 0

def Ce.reset : Ce where
  sets := []
  bindQ := none
  bindP := none
  cache := []
  filter := []
  events := []
  waiting := []
  held := []
  malformed := 0
  malfInfo := 0
  unbound := 0
  discarded := 0
  stale := []
  recompute := none
  gapCount := 0
  gapLog := []
  halted := 0
  paused := false

def Mb.reset : Mb where
  mgmt := 0
  freezeThr := 0x100
  frozen := 0
  cause := [0, 0, 0, 0]
  freezes := [0, 0, 0, 0]
  malfCount := [0, 0, 0, 0]
  malfWin := 0
  sessions := []
  retained := []
  direct := []
  ops := []
  sActive := []
  latF := 0
  latS := 0
  nF := 0
  nS := 0
  boundMiss := 0
  slot := 0
  bootSlot := 0
  activating := false
  actFailed := false
  activations := 0
  actAt := 0
  actPath := none
  reloading := false
  heldCmds := []
  slots := [⟨true, 0, 0, []⟩, ⟨false, 0, 0, []⟩]
  evlog := [[], [], [], []]
  evOver := [(0, 0, 0), (0, 0, 0), (0, 0, 0), (0, 0, 0)]
  evNext := 1
  policy := [0, 0, 0, 0]
  alert := []
  tsBase := 0
  poison := []
  poisonOver := none
  xfer := none
  abortWaits := []

def Fc.reset : Fc where
  reports := []
  cfg := []
  src := []
  log := []
  seq := 0
  first := none
  pinThr := 3
  quiet := 60
  quietAt := 0
  recov := 0
  shadows := []
  isoBy := []
  safe := false
  safeCause := none
  flash := none
  flashDue := none
  agg := []
  faultN := false
  lastStamp := none

def Pw.reset : Pw where
  state := .run
  target := 0
  idleDelay := 0x32
  idleAt := 0
  wakeCause := 0
  resetCause := 1
  sleepNs := 0
  retain := BitVec.ofNat 96 (0xF * 2 ^ 92)
  retLost := 0
  deepExits := 0
  epochs := []
  entry := none
  wake := none
  cold := .held
  bgBy := []
  dramBy := []
  droop := false
  pwrFail := false
  temp := 0
  warn := false
  throttle := false
  shutdown := false
  saved := false
  corrupt := 0
  offLatch := false
  wakeInOff := false
  asleepAt := 0
  coarse := false
  trst := false
  thermN := false
  porAt := none

def Pm.reset : Pm where
  cnt := []
  sticky := []
  evt := []
  en := []
  base := 0
  records := 2
  interval := 0
  fn := 0
  seq := 0
  missed := 0
  missedSince := 0
  parity := 0
  parityAt := []
  gap := false
  nextAt := 0

/-- The device held by POR_N (17 R630): every register at the Reset value of its table, no region, queue, counter set
or other committed object (17 R623), nothing queued, nothing sent (log 4). -/
def State.reset : State where
  pending := []
  out := []
  fresh := 0
  now := 0
  dram := []
  hp := ⟨List.replicate 4 HostFn.reset, [Port.reset, Port.reset], 0⟩
  rr := ⟨0, [], []⟩
  rg := ⟨[], Extent.none, [], Extent.none, 0⟩
  ns := ⟨[], [], [], [.on, .on, .on, .on], 0xF, [0x64, 0x64, 0x64, 0x64], [0, 0, 0, 0], [0, 0, 0, 0], [0, 0, 0, 0]⟩
  tr := ⟨[], [], 8, 8, 0, 0, 0, false⟩
  cd := ⟨[], [0, 0], [0, 0], 3, 0, 0, 1, 0, 0, false, [], 0, []⟩
  lp := Lp.reset
  fu := ⟨8, [], [], [], [], 0, 0⟩
  sx := ⟨none, none, 7, 0, false, false, false, 0, 0x14, 0, 0, 0, false, false⟩
  mc := ⟨List.replicate 12 Mc.reset, 0, [], none, none, 1, []⟩
  bw := Bw.reset
  qe := Qe.reset
  sc := ⟨[], [], [], [], 0, 0, 0, 0, 0⟩
  tu := Tu.reset
  ce := Ce.reset
  mb := Mb.reset
  fc := Fc.reset
  pw := Pw.reset
  ck := ⟨false, false, false, false, true, true, 0x3538000000, 0, 0⟩
  pm := Pm.reset

end Sys2Proof.Machine
end

