-- ==== Sys2Proof/Machine/Ops.lean ====
section
/-! DEFINITION. The operations every unit shares: what the device sends, fault reports, time, free values, performance
events, the byte memory behind the DRAM, and access to functions and ports. -/

namespace Sys2Proof.Machine
open Sys2Proof

/-! ### Sending, reporting, drawing -/

/-- The device sends `o` (log 2). -/
def State.emit (s : State) (o : Out) : State := { s with out := s.out ++ [o] }

/-- Whether a requester code is of a requester that the device has: codes 4 to 7 and those of absent functions are never reported (00 R8). -/
def State.hasRequester (s : State) (who : Nat) : Bool := (s.hp.fns.getD who HostFn.reset).exist || (decide (8 ≤ who) && decide (who < 16))

/-- A fault report detected now (01 R33). -/
def State.faultMsg (s : State) (source detail : Nat) (req : Option Nat) : FaultMsg :=
  ⟨s.now, s.tu.ns40 / 2 ^ 40, s.tu.estimated, s.tu.coarse, source, req.filter s.hasRequester, detail⟩

/-- The CLK_CT cycle, of 2.5 ns, of a stamp; reports of one cycle arrive in the same cycle (01 R33). -/
def ctCycle (t : Nat) : Nat := t * 2 / 5

/-- A unit reports a fault with its detection stamp (01 R33); FC receives it with FAULT_REPORT (log 7). -/
def State.report (s : State) (source detail : Nat) (req : Option Nat := none) : State :=
  { s with fc := { s.fc with reports := s.fc.reports ++ [s.faultMsg source detail req] } }

/-- A report that is aggregated to one record per object in `period` ns (07 R269, 11 R413, 13 R481). -/
def State.reportAgg (s : State) (source obj period detail : Nat) (req : Option Nat := none) : State :=
  let last := sget 0 s.fc.agg (source * 2 ^ 40 + obj)
  if last = 0 ∨ last - 1 + period ≤ s.now then
    { s with fc := { s.fc with
        agg := sset 0 s.fc.agg (source * 2 ^ 40 + obj) (s.now + 1)
        reports := s.fc.reports ++ [s.faultMsg source detail req] } }
  else s

/-- A reaction of `node` starts: its shadow window opens (16 R579). -/
def State.openShadow (s : State) (node : Nat) (end_ parent : Option Nat) (src : Nat) : State :=
  { s with fc := { s.fc with shadows := s.fc.shadows ++ [⟨node, s.now, end_, parent, src, []⟩] } }

/-- The running reaction of `node` completes: its window ends 10 µs later, and the parent is the next raise of `src` (16 R579). -/
def State.closeShadow (s : State) (node src : Nat) : State :=
  { s with fc := { s.fc with shadows := s.fc.shadows.map (fun (w : Shadow) =>
    if w.node == node && w.end_.isNone then { w with end_ := some (s.now + 10000), src := src } else w) } }

/-- The firmware reaction of `node` that a walk waits for completes now; the walk goes on 10 µs later (16 R568). -/
def State.actionEnds (s : State) (node : Nat) : State :=
  { s with fc := { s.fc with src := s.fc.src.map (fun (e : Nat × Option Src) => (e.1, e.2.map (fun x =>
    match x.walk with
    | .action r 0 => if e.1 / 16 = node then { x with walk := .action r (s.now + 10000) } else x
    | _ => x))) } }

/-- Whether a reaction of `node` runs. -/
def State.reacting (s : State) (node : Nat) : Bool := s.fc.shadows.any (fun w => w.node == node && w.end_.isNone)

/-- A reaction of `node` that completes at once, with its parent `src` (16 R579; log 71). -/
def State.flashShadow (s : State) (node src : Nat) : State := s.openShadow node (some (s.now + 10000)) none src

/-- The next free value (log 3). -/
def State.freeVal (s : State) : Nat := Config.freeNat s.fresh

/-- The state once a free value is drawn (log 3). -/
def State.drawn (s : State) : State := { s with fresh := s.fresh + 1 }

/-! ### Time -/

/-- The slew that `dt` ns take off the offset still to remove, at most 200 ppm (12 R446; log 62). -/
def slewStep (left : Int) (dt : Nat) : Int :=
  let cap : Int := (dt * 2 ^ 40 * 200 / 1000000 : Nat)
  max (-cap) (min cap left)

/-- Network time after `dt` ns: 5 ns and the correction in each CLK_TU cycle, and the slew (12 R444, R446; log 62). -/
def tuAdvance (tu : Tu) (dt : Nat) : Tu :=
  let d := slewStep tu.slewLeft dt
  { tu with
    ns40 := ((tu.ns40 : Int) + (dt * 2 ^ 40 : Nat) + tu.corr * (dt / 5 : Nat) + d).toNat
    slewLeft := tu.slewLeft - d }

/-- Whether CLK_TU runs: from the release of POR_N, and not in DEEP or OFF (12 R447; 17 R595). -/
def State.tuRuns (s : State) : Bool :=
  decide (s.pw.cold ≠ .held) && (match s.pw.state with
    | .deep => false
    | .off => false
    | _ => true)

/-- Time moves on to `t`: an event that is due at `t` takes place then, and never in the past (log 1). -/
def State.advance (s : State) (t : Nat) : State :=
  if t ≤ s.now then s
  else { s with now := t, tu := if s.tuRuns then tuAdvance s.tu (t - s.now) else s.tu }

/-- Network time in ns (12 R444). -/
def State.netNs (s : State) : Nat := s.tu.ns40 / 2 ^ 40

/-- Network time: seconds, and nanoseconds within the second. -/
def State.netS (s : State) : Nat := s.netNs / 1000000000
def State.netN (s : State) : Nat := s.netNs % 1000000000

/-! ### Condition of the device -/

/-- Mailbox Interface Ready: from the end of cold-start step 5 (17 R629). -/
def State.mbReady (s : State) : Bool :=
  match s.pw.cold with
  | .held => false
  | .noImage => false
  | .step n => decide (5 ≤ n)
  | .done => true

/-- Media Status Ready (17 R629). -/
def State.mediaReady (s : State) : Bool := decide (s.pw.cold = .done)

/-- RUN or IDLE, or still entering: every unit is clocked (17 R595). -/
def State.awake (s : State) : Bool :=
  match s.pw.state with
  | .run | .idle | .entering => true
  | _ => false

/-- The engines run: awake, not in SAFE, and not past the final completion of an entry (16 R587; 17 R600, R601). -/
def State.enginesRun (s : State) : Bool :=
  s.awake && !s.fc.safe && s.mbReady && !s.pw.entry.any (fun e => decide (7 ≤ e.step))

/-- The background throttle of 16 R586 holds. -/
def State.bgPaused (s : State) : Bool := !s.pw.bgBy.isEmpty || decide (s.pw.state = .entering) || !s.enginesRun

/-! ### Performance events (18 R636 to R638) -/

/-- Counter `c` adds `n`, wraps at 2^48 and sets its sticky bit (18 R637, R638). -/
def pmAdd (pm : Pm) (c n : Nat) : Pm :=
  let v := sget 0 pm.cnt c + n
  { pm with
    cnt := sset 0 pm.cnt c (v % 2 ^ 48)
    sticky := if 2 ^ 48 ≤ v ∧ ¬ c ∈ pm.sticky then pm.sticky ++ [c] else pm.sticky }

/-- Every enabled counter that selects the event adds its `n` occurrences (18 R637). -/
def pmEvent (pm : Pm) (ev n : Nat) : Pm :=
  pm.en.foldl (fun p c => if sget 0 p.evt c = ev then pmAdd p c n else p) pm

/-- `n` occurrences of event `idx` of node `node` (18 R636); in SLEEP and below nothing counts (18 R649). -/
def State.count (s : State) (node idx : Nat) (n : Nat := 1) : State :=
  if s.awake then { s with pm := pmEvent s.pm (node * 64 + idx) n } else s

/-! ### Functions and ports -/

/-- Function `f`. -/
def State.fnAt (s : State) (f : Nat) : HostFn := s.hp.fns.getD f HostFn.reset

/-- Changes function `f`. -/
def State.modFn (s : State) (f : Nat) (g : HostFn → HostFn) : State :=
  { s with hp := { s.hp with fns := lmod s.hp.fns f g } }

/-- The port of a function (02 R58, 00 R7). -/
def portOf (f : Nat) : Nat := f / 2

/-- Port `p`. -/
def State.portAt (s : State) (p : Nat) : Port := s.hp.ports.getD p Port.reset

/-- Changes port `p`. -/
def State.modPort (s : State) (p : Nat) (g : Port → Port) : State :=
  { s with hp := { s.hp with ports := lmod s.hp.ports p g } }

/-- Whether function `f` exists (02 R56). -/
def State.fnExists (s : State) (f : Nat) : Bool := (s.fnAt f).exist

/-- The functions that exist, in ascending order. -/
def State.existing (s : State) : List Nat := [0, 1, 2, 3].filter s.fnExists

/-- Whether the link of `f` is in L0. -/
def State.linkL0 (s : State) (f : Nat) : Bool := decide ((s.fnAt f).link = .l0)

/-- Whether the device may send on CXL.io for `f` (02 R80, R85). -/
def State.canSend (s : State) (f : Nat) : Bool := (s.fnAt f).exist && s.linkL0 f && (s.fnAt f).bme

/-- A response to a host: held while its link is in recovery or in L1 (02 R98). -/
def State.respond (s : State) (f : Nat) (o : Out) : State :=
  if (s.fnAt f).link = .recovery ∨ (s.fnAt f).link = .l1 then s.modFn f (fun h => { h with answers := h.answers ++ [o] }) else s.emit o

/-- The responses that were held go out in order (02 R98). -/
def State.flushAnswers (s : State) (f : Nat) : State :=
  (s.fnAt f).answers.foldl (fun s o => s.emit o) (s.modFn f (fun h => { h with answers := [] }))

/-! ### In-flight entries of the internal engines (01 R50 to R52) -/

/-- The entries that are reserved for an engine (01 R50). -/
def reservedEntries (who : Nat) : Nat :=
  if who = 8 then 768 else if who = 9 then 192 else if who = 10 then 64 else if who = 11 then 32 else if who = 12 then 32
  else if who = 13 then 64 else if who = 14 then 64 else if who = 15 then 32 else 0

/-- The entries of the shared pool (01 R50). -/
def sharedEntries : Nat := 800

/-- The entries that an engine holds. Between two commands only the reads of dequeued packets are in flight: every other access of an
engine begins and ends within its command (log 91). -/
def State.entriesOf (s : State) (who : Nat) : Nat := if who = 8 then (s.qe.deq.map (fun d => d.entries)).sum else 0

/-- The entries of the shared pool that are free (01 R50). -/
def State.sharedFree (s : State) : Nat :=
  sharedEntries - ([8, 9, 10, 11, 12, 13, 14, 15].map (fun w => s.entriesOf w - reservedEntries w)).sum

/-- How many entries an engine may take now: what is left of its reservation, and of the shared pool all that is free for QE, CE and NM,
and for the others only while at least 256 remain free (01 R51). -/
def State.entriesFor (s : State) (who : Nat) : Nat :=
  (reservedEntries who - s.entriesOf who) + (if who = 8 ∨ who = 9 ∨ who = 15 then s.sharedFree else s.sharedFree - 255)

/-- Whether an engine has an entry for its next access; without one it waits (01 R52). -/
def State.entryFree (s : State) (who : Nat) : Bool := decide (0 < s.entriesFor who)

/-! ### MSI-X (02 R77 to R80) -/

/-- Whether a vector of `f` can be sent now (02 R80). -/
def State.vectorOpen (s : State) (f v : Nat) : Bool :=
  s.canSend f && !(s.fnAt f).fnMask && !(s.fnAt f).msixMask.getLsbD v

/-- A message of vector `v` falls due: sent, or kept pending in the PBA (02 R80). -/
def State.vector (s : State) (f v : Nat) : State :=
  if s.vectorOpen f v then s.emit (.msix f v)
  else s.modFn f (fun h => { h with pba := h.pba ||| (1#256 <<< v) })

/-- Sends the pending messages of `f` that can be sent now, in ascending vector order (02 R80). -/
def State.flushVectors (s : State) (f : Nat) : State :=
  (List.range 256).foldl (fun s v =>
    if (s.fnAt f).pba.getLsbD v && s.vectorOpen f v then
      (s.modFn f (fun h => { h with pba := h.pba &&& ~~~(1#256 <<< v) })).emit (.msix f v)
    else s) s

/-- Sets a cause bit (02 R77); bits 3 to 7 send their vector while enabled (02 R79, R80). -/
def State.cause (s : State) (f b : Nat) : State :=
  let s1 := s.modFn f (fun h => { h with intCause := h.intCause ||| (1#8 <<< b) })
  if 3 ≤ b ∧ (s.fnAt f).intEnable.getLsbD b then s1.vector f (b - 1) else s1

/-! ### Initiator writes (02 R81 to R85, R98, R101) -/

/-- Splits a transfer at multiples of Max Payload Size and at 4 KiB boundaries (02 R81). -/
def splitTlp (mps : Nat) : Nat → Nat → Bytes → List (Nat × Bytes)
  | 0, addr, d => if d.isEmpty then [] else [(addr, d)]
  | fuel + 1, addr, d =>
    if d.isEmpty then []
    else
      let n := max 1 (min (mps - addr % mps) (4096 - addr % 4096))
      (addr, d.take n) :: splitTlp mps fuel (addr + n) (d.drop n)

/-- The TLPs of one transfer on a link that can send. -/
def State.sendWrite (s : State) (f addr : Nat) (d : Bytes) (who : Nat) : State :=
  let ts := splitTlp (s.fnAt f).mps d.length addr d
  ts.foldl (fun s t => (s.emit (.hostWrite f t.1 t.2 who)).count (8 + portOf f) 3) s

/-- An initiator write of `f`: sent in L0 with Bus Master Enable 1, held in recovery or while Bus Master Enable is 0 (02
R85, R98), never issued while the function is viral or its link is gone (02 R101, R95). -/
def State.hostWrite (s : State) (f addr : Nat) (d : Bytes) (who : Nat) : State :=
  let h := s.fnAt f
  if h.viral || !h.exist then s
  else if s.canSend f then s.sendWrite f addr d who
  else if h.link = .l0 ∨ h.link = .recovery ∨ h.link = .l1 then
    s.modFn f (fun h => { h with heldW := h.heldW ++ [(addr, d, who)] })
  else s

/-- Issues the held initiator writes of `f` in order (02 R85, R98). -/
def State.flushWrites (s : State) (f : Nat) : State :=
  if s.canSend f && !(s.fnAt f).viral then
    (s.fnAt f).heldW.foldl (fun s w => s.sendWrite f w.1 w.2.1 w.2.2) (s.modFn f (fun h => { h with heldW := [] }))
  else s

/-! ### Viral (02 R100 to R102) -/

/-- Function `f` enters the viral state: viral is signalled on its link, VIRAL is set and HP_VIRAL is raised (02 R77, R100;
16 R563). -/
def State.goViral (s : State) (f : Nat) : State :=
  if (s.fnAt f).exist && !(s.fnAt f).viral then
    (((s.modFn f (fun h => { h with viral := true })).emit (.viral f)).cause f 6).report (hpViral (portOf f)) f (some f)
  else s

/-! ### The byte memory -/

/-- What an unlisted cell reads as (log 5). -/
def memDefault : Byte := 0

/-- The cell at `k` (log 5). -/
def memGet (m : List Host.Cell) (k : Nat) : Byte := sget memDefault m k

/-- Writes one cell, keeping the canonical form. -/
def memSet (m : List Host.Cell) (k : Nat) (v : Byte) : List Host.Cell := sset memDefault m k v

/-- Writes consecutive cells. -/
def memWrite (m : List Host.Cell) (k : Nat) : Bytes → List Host.Cell
  | [] => m
  | x :: xs => memWrite (memSet m k x) (k + 1) xs

/-- The canonical form: addresses strictly rising, no entry equal to what an unlisted address reads as. -/
def Memory.wf (m : List Host.Cell) : Bool := swf memDefault 0 m

/-! ### Ownership (03 R117, 14 R516 to R518) -/

/-- Whether a mask names the function (03 R117). -/
def ownerHas (mask f : Nat) : Bool := mask.testBit f

/-- Whether function `f` is frozen (14 R518). -/
def State.isFrozen (s : State) (f : Nat) : Bool := s.mb.frozen.getLsbD f

/-- Freezes a host function with its cause: FROZEN is set and MB_REQ_FROZEN raised (14 R516, R518; log 83). -/
def State.freeze (s : State) (f cause : Nat) : State :=
  if s.isFrozen f then s
  else
    let s1 := { s with mb := { s.mb with
      frozen := s.mb.frozen ||| (1#4 <<< f)
      cause := lset s.mb.cause f cause
      freezes := lmod s.mb.freezes f (satAdd 65535 1) } }
    (s1.cause f 5).report mbReqFrozen cause (some f)

/-- A malformed submission of `f` counts toward the freeze threshold of its 1 ms window (14 R516). -/
def State.malformed (s : State) (f : Nat) : State :=
  let n := s.mb.malfCount.getD f 0 + 1
  let s1 := { s with mb := { s.mb with malfCount := lset s.mb.malfCount f n } }
  if s.mb.freezeThr ≤ n then s1.freeze f 4 else s1

end Sys2Proof.Machine
end

