-- ==== Sys2Proof/Machine/Owner.lean ====
section
/-! DEFINITION. Where lines lie: the geometry of a channel, the extents of regions and the reserved structures, and what a line of a channel
holds, found from the region table (03 R106 to R112; 06 R183; 07 R264 to R267; 09 R309, R314). -/

namespace Sys2Proof.Machine
open Sys2Proof

/-! ### Geometry of a channel (09 R309, R314) -/

/-- Logical ranks of a DIMM (09 R309). -/
def popRanks (p : PopCfg) : Nat := p.capGib / (if p.die32 then 64 else 32)

/-- r, n and o of 09 R314. -/
def popR (p : PopCfg) : Nat := Nat.log2 (popRanks p) + (if p.dimms = 2 then 1 else 0)
def popN (p : PopCfg) : Nat := if p.die32 then 17 else 16
def popO (p : PopCfg) : Nat := 13 + (popR p)

/-- Lines of a channel: 2^(o + n) (09 R314). -/
def popLines (p : PopCfg) : Nat := 2 ^ ((popO p) + (popN p))

/-- Where a line lies (09 R314). -/
structure Place where
  sub  : Nat
  rank : Nat
  bg   : Nat
  bank : Nat
  row  : Nat
  col  : Nat
  deriving DecidableEq, Repr

/-- The location of a channel line address (09 R314). -/
def place (p : PopCfg) (cla : Nat) : Place :=
  let row := field cla (popO p) (popN p)
  let lrHi := if p.dimms = 2 then (popO p) - 1 else (popO p)
  let slot := if p.dimms = 2 then field cla ((popO p) - 1) 1 else 0
  { sub := field cla 0 1 ^^^ field row 5 1 ^^^ field row 11 1
    rank := slot * 4 + field cla 13 (lrHi - 13)
    bg := field cla 1 3 ^^^ field row 0 3 ^^^ field row 6 3
    bank := field cla 4 2 ^^^ field row 3 2 ^^^ field row 9 2
    row := row
    col := field cla 6 7 * 16 }

/-- Channel `c`. -/
def State.chan (s : State) (c : Nat) : Mc := s.mc.chans.getD c Mc.reset

/-- Changes channel `c`. -/
def State.modChan (s : State) (c : Nat) (g : Mc → Mc) : State :=
  { s with mc := { s.mc with chans := lmod s.mc.chans c g } }

/-- The location of a line of channel `c`; rank 0 of an empty channel. -/
def State.placeOf (s : State) (c cla : Nat) : Place :=
  match (s.chan c).pop with
  | some p => place p cla
  | none => ⟨0, 0, 0, 0, 0, 0⟩

/-- Lines of channel `c`; none where it is unpopulated. -/
def State.chanLines (s : State) (c : Nat) : Nat := ((s.chan c).pop.map popLines).getD 0

/-- The channel line addresses of a row, in ascending column: the inverse of 09 R314. -/
def rowLines (p : PopCfg) (x : Place) : List Nat :=
  let lrHi := if p.dimms = 2 then popO p - 1 else popO p
  let low := (x.sub ^^^ field x.row 5 1 ^^^ field x.row 11 1) + (x.bg ^^^ field x.row 0 3 ^^^ field x.row 6 3) * 2 +
    (x.bank ^^^ field x.row 3 2 ^^^ field x.row 9 2) * 16
  let high := x.rank % 4 % 2 ^ (lrHi - 13) * 2 ^ 13 + (if p.dimms = 2 then x.rank / 4 * 2 ^ (popO p - 1) else 0) + x.row * 2 ^ popO p
  (List.range 128).map (fun col => low + col * 64 + high)

/-- A row as one number (07 R252): channel, subchannel, rank, bank group, bank, row. -/
def rowId (c : Nat) (p : Place) : Nat := ((((c * 2 + p.sub) * 8 + p.rank) * 8 + p.bg) * 4 + p.bank) * 2 ^ 18 + p.row

/-- A rank as one number, as LP_ERASE_STATE counts them (07 R270). -/
def rankId (c : Nat) (p : Place) : Nat := c * 16 + p.sub * 8 + p.rank

/-- Where a retired channel page lies: its spare page (07 R256). -/
def State.remap (s : State) (c cla : Nat) : Nat :=
  match s.lp.retired.find? (fun e => e.1 == c && e.2.1 == cla / 64) with
  | some e => e.2.2 * 64 + cla % 64
  | none => cla

/-- The channel is out of service and nothing reaches it: fenced, unpopulated or not yet trained (09 R336, R338). -/
def State.fenced (s : State) (c : Nat) : Bool :=
  match (s.chan c).state with
  | .fenced => true
  | .unpopulated => true
  | .training => true
  | _ => false

/-- A channel that holds its requests for a while: retraining, or in its step of a speed change (09 R335, R341). -/
def State.holding (s : State) (c : Nat) : Bool :=
  match (s.chan c).state with
  | .retraining => true
  | .speedChange => true
  | _ => false

/-- Whether the rank of a line is out of service for hard repair (07 R255). -/
def State.rankOut (s : State) (c cla : Nat) : Bool :=
  let p := s.placeOf c (s.remap c cla)
  s.lp.rankOut.any (fun x => x.1 == c && x.2.1 == p.sub && x.2.2 == p.rank)

/-- Whether a line waits above a resilver buoy (07 R245, R246, R255). -/
def State.unsilvered (s : State) (c cla : Nat) : Bool :=
  match s.lp.resilver[c]? with
  | some v => v.active && decide (v.buoy ≤ cla) && (match v.rank with
    | some (u, r) => decide ((s.placeOf c (s.remap c cla)).sub = u ∧ (s.placeOf c (s.remap c cla)).rank = r)
    | none => true)
  | none => false

/-- Whether a line's own copy can be read: its channel serves, its rank is in service, and it is resilvered. -/
def State.readable (s : State) (c cla : Nat) : Bool := !s.fenced c && !s.rankOut c cla && !s.unsilvered c cla

/-- Whether a line's own copy is written: its channel serves and its rank is in service (07 R246, R255). -/
def State.writable (s : State) (c cla : Nat) : Bool := !s.fenced c && !s.rankOut c cla

/-! ### Extents (03 R106 to R112) -/

/-- The members of a channel-set mask, in ascending channel order (03 R109). -/
def members (mask : Nat) : List Nat := (List.range 12).filter (fun c => mask.testBit c)

/-- Where an extent offset lies: its channel and line, its MIRROR partner, its STRIPE row (channels of the data units in
order, and of the parity unit). Copies and rows share their channel line address (03 R110, R111). -/
structure Loc where
  ch     : Nat
  cla    : Nat
  mirror : Option Nat
  row    : Option (List Nat × Nat)
  deriving DecidableEq, Repr

/-- The location of extent offset `e` (03 R109 to R111). -/
def locate (protect grain mask : Nat) (bases : List Nat) (e : Nat) : Loc :=
  let ms := members mask
  let u := e / 2 ^ (8 + grain)
  let within := e % 2 ^ (8 + grain)
  if protect = 1 then
    let low := ms.filter (· < 6)
    let n := max 1 low.length
    let c := low.getD (u % n) 0
    ⟨c, bases.getD c 0 + (u / n * 2 ^ (8 + grain) + within) / 64, some (c + 6), none⟩
  else if protect = 2 then
    let n := max 2 ms.length
    let row := u / (n - 1)
    let pos := u % (n - 1)
    let par := (n - 1) - row % n
    let m (p : Nat) := ms.getD (if p < par then p else p + 1) 0
    let c := m pos
    ⟨c, bases.getD c 0 + (row * 2 ^ (8 + grain) + within) / 64, none,
      some ((List.range (n - 1)).map m, ms.getD par 0)⟩
  else
    let n := max 1 ms.length
    let c := ms.getD (u % n) 0
    ⟨c, bases.getD c 0 + (u / n * 2 ^ (8 + grain) + within) / 64, none, none⟩

/-- The location of an offset of a region's extent. -/
def Region.loc (r : Region) (x : Extent) (e : Nat) : Loc := locate r.protect r.grain r.mask x.bases e

/-! ### Fill state of an extent (07 R264 to R267) -/

/-- 1 MiB fill blocks (07 R264). -/
def fillBlockOf (e : Nat) : Nat := e / 2 ^ 20

/-- Whether the fill block of an offset is filled or touched (07 R266). -/
def Extent.filledAt (x : Extent) (e : Nat) : Bool := decide (fillBlockOf e < x.filled) || decide (fillBlockOf e ∈ x.touched)

/-- The fill blocks of an extent. -/
def Extent.blocks (x : Extent) : Nat := (x.size + 2 ^ 20 - 1) / 2 ^ 20

/-- The extent once the block of `e` is filled on touch (07 R266). -/
def Extent.touch (x : Extent) (e : Nat) : Extent :=
  if x.filledAt e then x else { x with touched := x.touched ++ [fillBlockOf e] }

/-! ### The metadata extent (06 R183) -/

/-- A GiB. -/
def gib : Nat := 2 ^ 30

/-- Rounds up to a multiple of `m`. -/
def roundUp (m v : Nat) : Nat := (v + m - 1) / m * m

/-- Where the page map begins: after the descriptors (06 R183; log 19). -/
def Region.mapBase (r : Region) : Nat := r.size / 64

/-- Where the shed begins: the first 1 GiB boundary after the descriptors and page map (06 R183; log 19). -/
def Region.shedBase (r : Region) : Nat := roundUp gib (r.size / 64 + (if r.tier = 2 then r.size / 1024 else 0))

/-- Shed links (03 R106). -/
def Region.shedLinks (r : Region) : Nat := r.yard.size / 64 / 64

/-- Stalls of the yard extent. -/
def Region.stalls (r : Region) : Nat := r.yard.size / 64

/-- The extents of a region in FILL's order: metadata, T1, yard, data (07 R264), with their numbers 3, 1, 2, 0. -/
def Region.extents (r : Region) : List (Nat × Extent) :=
  [(3, r.metaX), (1, r.t1), (2, r.yard), (0, r.data)].filter (fun x => decide (x.2.size ≠ 0))

/-- Extent `k` of a region. -/
def Region.ext (r : Region) (k : Nat) : Extent :=
  if k = 0 then r.data else if k = 1 then r.t1 else if k = 2 then r.yard else r.metaX

/-- Replaces extent `k`. -/
def Region.setExt (r : Region) (k : Nat) (x : Extent) : Region :=
  if k = 0 then { r with data := x } else if k = 1 then { r with t1 := x }
  else if k = 2 then { r with yard := x } else { r with metaX := x }

/-- Interleave units per row of channels: the members for PLAIN, the lower half for MIRROR, the data members for STRIPE. -/
def unitsPerRow (protect mask : Nat) : Nat :=
  let n := (members mask).length
  if protect = 1 then ((members mask).filter (· < 6)).length else if protect = 2 then n - 1 else n

/-- Lines that an extent of a size takes on each of its channels (03 R109 to R111). -/
def linesPerChannel (protect grain mask size : Nat) : Nat :=
  let units := size / 2 ^ (8 + grain)
  let per := max 1 (unitsPerRow protect mask)
  (units + per - 1) / per * (2 ^ (8 + grain) / 64)

/-- What a line of a channel is of an extent: a location whose data line or copy or parity it is, and the extent offset. Kinds 0 to 3 are
the extents of a region, data, T1, yard and metadata; kind 4 + i is the i-th reserved structure of 03 R107. -/
structure Held where
  region : Option Nat      -- none for the reserved structures
  kind   : Nat
  loc    : Loc
  off    : Nat
  parity : Bool
  scr    : Bool
  deriving DecidableEq, Repr

/-- The position of a channel among the members, if it is one. -/
def memberIndex (ms : List Nat) (c : Nat) : Option Nat := ms.findIdx? (· == c)

/-- The inverse of `locate` within one extent: the offset of the line of channel `c`, and whether it is parity. -/
def unlocate (protect grain mask : Nat) (x : Extent) (c cla : Nat) : Option (Nat × Bool) :=
  let ms := members mask
  let base := x.bases.getD c 0
  if cla < base ∨ x.size = 0 then none
  else
    let g := 2 ^ (8 + grain)
    let a := (cla - base) * 64
    let row := a / g
    let within := a % g
    if protect = 1 then
      let low := ms.filter (· < 6)
      match memberIndex low (if c < 6 then c else c - 6) with
      | none => none
      | some m =>
        let e := (row * low.length + m) * g + within
        if e < x.size then some (e, false) else none
    else if protect = 2 then
      match memberIndex ms c with
      | none => none
      | some m =>
        let n := ms.length
        let par := (n - 1) - row % n
        if m = par then
          let e := row * (n - 1) * g + within
          if e < x.size then some (e, true) else none
        else
          let e := (row * (n - 1) + (if m < par then m else m - 1)) * g + within
          if e < x.size then some (e, false) else none
    else match memberIndex ms c with
      | none => none
      | some m =>
        let e := (row * ms.length + m) * g + within
        if e < x.size then some (e, false) else none

/-- Clears the highest members until the population is one of `legal` (03 R116). -/
def trimTo (legal : List Nat) : Nat → List Nat → List Nat
  | 0, l => l
  | n + 1, l => if legal.contains l.length then l else trimTo legal n l.dropLast

/-- A mask as its protection class resolves it (03 R116): PLAIN, MIRROR, STRIPE. -/
def resolveMask (protect mask : Nat) : Nat :=
  let ms := members mask
  if protect = 0 then bitsOf (trimTo [1, 2, 3, 4, 6, 8, 12] 12 ms)
  else if protect = 1 then
    let pairs := trimTo [1, 2, 3, 6] 6 ((List.range 6).filter (fun c => ms.contains c && ms.contains (c + 6)))
    if pairs.isEmpty then 0xFFF else bitsOf (pairs ++ pairs.map (· + 6))
  else if mask = 0xFFF then 0xFFF
  else if ms.all (fun c => decide (c < 6)) then 0x03F
  else if ms.all (fun c => decide (6 ≤ c)) then 0xFC0
  else 0xFFF

/-- The channels of the reserved structures: the populated ones, as MIRROR resolves them (03 R107, R116). -/
def State.popMask (s : State) : Nat := resolveMask 1 (bitsOf ((List.range 12).filter (fun c => (s.chan c).pop.isSome)))

/-- The populated channels. -/
def State.populated (s : State) : List Nat := (List.range 12).filter (fun c => (s.chan c).pop.isSome)

/-- The reserved structures of 03 R107 in its order, each with its protection class, grain and mask. The spare-page pool is spread page by
page over the populated channels (07 R257). -/
def State.reserved (s : State) : List (Nat × Nat × Nat × Extent) :=
  [(1, 0, s.popMask, s.rg.qstate)] ++ s.rg.links.map (fun x => (1, 0, s.popMask, x.2)) ++ [(0, 4, bitsOf s.populated, s.rg.spare)]

/-- The extent that holds a line of a channel; none for unallocated media. -/
def State.holder (s : State) (c cla : Nat) : Option Held :=
  let inRegion := (oall s.rg.regions).findSome? (fun r => r.2.extents.findSome? (fun x =>
    (unlocate r.2.protect r.2.grain r.2.mask x.2 c cla).map (fun e =>
      (⟨some r.1, x.1, r.2.loc x.2 e.1, e.1, e.2, r.2.scramble⟩ : Held))))
  match inRegion with
  | some h => some h
  | none => (List.range s.reserved.length).findSome? (fun i =>
      match s.reserved[i]? with
      | some (p, g, m, x) => (unlocate p g m x c cla).map (fun e => (⟨none, 4 + i, locate p g m x.bases e.1, e.1, e.2, true⟩ : Held))
      | none => none)

/-- Whether a line belongs to the spare-page pool: no data lies there until the page is used (03 R107). -/
def State.inSpare (s : State) (h : Held) : Bool := decide (h.kind = 5 + s.rg.links.length)

/-- Whether a line lies on a spare page that a retired page is mapped to: it is reached through the retired page (07 R256). -/
def State.isSpare (s : State) (c cla : Nat) : Bool := s.lp.retired.any (fun e => e.1 == c && e.2.2 == cla / 64)

/-- Whether the media of a line is filled (07 R264 to R266): its extent's block is filled or touched; unallocated media once
FILL has passed it. -/
def State.lineFilled (s : State) (c cla : Nat) : Bool :=
  if s.isSpare c cla then false else match s.holder c cla with
  | some h => match h.region.bind (oget s.rg.regions) with
    | some r => (r.ext h.kind).filledAt h.off
    | none => ((s.reserved[h.kind - 4]?).map (fun x => x.2.2.2.filledAt h.off)).getD false
  | none => decide (cla < s.rg.freeFill)

/-- A free-run header: the next and the previous run of its list, all ones where there is none, and its length (06 R189). -/
def runHeader (next prev : Option Nat) (len : Nat) : Line :=
  bytesLine (le 8 (next.getD (2 ^ 64 - 1)) ++ le 8 (prev.getD (2 ^ 64 - 1)) ++ le 1 len)

/-- A free shed link: its pointer of KIND FREE names the next free link, all ones for the last (06 R187, R189). -/
def freeLink (next : Option Nat) : Line := bytesLine (List.replicate 56 0 ++ le 8 (3 * 2 ^ 62 + next.getD (2 ^ 37 - 1)))

/-- What FILL writes to a line of an extent, and its KIND: the headers of the yard's runs of 8 stalls, the chain of free shed links, zeros
everywhere else (07 R264). Each block's runs and links are chained among themselves; the codec writes the ends when it appends them. -/
def Region.fillLine (r : Region) (kind off : Nat) : Line × Bool :=
  let i := off / 64
  if kind = 2 ∧ i % 8 = 0 ∧ i + 8 ≤ r.stalls then
    let last := decide (i % 16384 = 16376) || decide (r.stalls < i + 16)
    (runHeader (if last then none else some (i + 8)) (if i % 16384 = 0 then none else some (i - 8)) 8, true)
  else if kind = 3 ∧ r.shedBase ≤ off ∧ (off - r.shedBase) / 64 < r.shedLinks then
    let j := (off - r.shedBase) / 64
    (freeLink (if i % 16384 = 16383 ∨ j + 1 = r.shedLinks then none else some (j + 1)), false)
  else (0, false)

/-- What FILL writes to a line of a channel. -/
def State.fillLine (s : State) (c cla : Nat) : Line × Bool :=
  match s.holder c cla with
  | some h => match h.region.bind (oget s.rg.regions) with
    | some r => r.fillLine h.kind h.off
    | none => (0, false)
  | none => (0, false)

/-- The location a scrub of a line of channel `c` works on: its extent's, or the line alone. -/
def State.scrubLoc (s : State) (c cla : Nat) : Loc × Bool :=
  match s.holder c cla with
  | some h => (h.loc, h.scr)
  | none => (⟨c, cla, none, none⟩, true)

end Sys2Proof.Machine
end

