-- ==== Sys2Proof/Machine/RS.lean ====
section
/-! DEFINITION. The DRAM line code: RS(80,68) over GF(2^8) with four virtual address symbols (07 R226 to R238). A word is
the list of its 84 symbols from the coefficient of x^83 down: V0 to V3, then stored symbols 0 to 79. -/

namespace Sys2Proof.Machine
open Sys2Proof

/-- Multiplication by α in GF(2^8) with p(x) = x^8 + x^4 + x^3 + x^2 + 1 (07 R229). -/
def gfX (a : Nat) : Nat := if a < 128 then 2 * a else (2 * a) ^^^ 0x11D

/-- Multiplication in GF(2^8), by the bits of `b` from `k` bits down. -/
def gfMulAux (a : Nat) : Nat → Nat → Nat
  | 0, _ => 0
  | k + 1, b => (gfX (gfMulAux a k (b / 2))) ^^^ (if b % 2 = 1 then a else 0)

/-- Multiplication in GF(2^8). -/
def gfMul (a b : Nat) : Nat := gfMulAux a 8 b

/-- α^e. -/
def gfExp : Nat → Nat
  | 0 => 1
  | e + 1 => gfX (gfExp e)

/-- a^n. -/
def gfPow (a : Nat) : Nat → Nat
  | 0 => 1
  | n + 1 => gfMul a (gfPow a n)

/-- The inverse of a nonzero element. -/
def gfInv (a : Nat) : Nat := gfPow a 254

/-- A polynomial, coefficient of x^0 first, at a point. -/
def polyEval (p : List Nat) (x : Nat) : Nat := p.foldr (fun c acc => c ^^^ gfMul x acc) 0

/-- Sum of polynomials. -/
def polyAdd : List Nat → List Nat → List Nat
  | [], q => q
  | p, [] => p
  | a :: p, b :: q => (a ^^^ b) :: polyAdd p q

/-- Product with a constant. -/
def polyScale (c : Nat) (p : List Nat) : List Nat := p.map (gfMul c)

/-- Product of polynomials. -/
def polyMul : List Nat → List Nat → List Nat
  | [], _ => []
  | a :: p, q => polyAdd (polyScale a q) (0 :: polyMul p q)

/-- The generator g(x) = (x − α^0) … (x − α^11) (07 R229). -/
def rsGen : List Nat := (List.range 12).foldl (fun g i => polyMul g [gfExp i, 1]) [1]

/-- One step of the division by g(x): the register holds 12 coefficients from x^11 down. -/
def rsStep (low : List Nat) (reg : List Nat) (sym : Nat) : List Nat :=
  let fb := (reg.headD 0) ^^^ sym
  List.zipWith (fun r g => r ^^^ gfMul fb g) (reg.drop 1 ++ [0]) low

/-- The 12 check symbols of 72 information symbols (07 R231). -/
def rsCheck (info : List Nat) : List Nat :=
  let low := (rsGen.take 12).reverse
  info.foldl (rsStep low) (List.replicate 12 0)

/-- Syndrome S_j = W(α^j) for j = 0 to 11 of an 84-symbol word. -/
def syndromes (w : List Nat) : List Nat :=
  (List.range 12).map (fun j => w.foldl (fun acc c => gfMul acc (gfExp j) ^^^ c) 0)

/-- The folded address of a channel line address (07 R230). -/
def foldedAddr (cla : Nat) : Nat := (cla % 2 ^ 28) ^^^ (cla / 2 ^ 28 % 2 ^ 5)

/-- The virtual symbols V0 to V3 of a folded address (07 R230). -/
def virtualSyms (fa : Nat) : List Nat := [fa / 2 ^ 24 % 16, fa / 2 ^ 16 % 256, fa / 2 ^ 8 % 256, fa % 256]

/-- The 80 stored symbols of a line's 68 content bytes (07 R227, R231). -/
def rsEncode (cla : Nat) (content : List Nat) : List Nat :=
  content ++ rsCheck (virtualSyms (foldedAddr cla) ++ content)

/-- The Berlekamp-Massey state: the errata locator, its shadow, its length, the shift, the last discrepancy. -/
structure BmState where
  c : List Nat
  b : List Nat
  l : Nat
  m : Nat
  d : Nat

/-- One step of Berlekamp-Massey from `rho` erasures at syndrome `n`. -/
def bmStep (syn : List Nat) (rho : Nat) (x : BmState) (n : Nat) : BmState :=
  let disc := (List.range (x.l + 1)).foldl (fun acc i =>
    if i ≤ n then acc ^^^ gfMul (x.c.getD i 0) (syn.getD (n - i) 0) else acc) 0
  if disc = 0 then { x with m := x.m + 1 }
  else
    let c' := polyAdd x.c (polyScale (gfMul disc (gfInv x.d)) (List.replicate x.m 0 ++ x.b))
    if 2 * x.l ≤ n + rho then ⟨c', x.c, n + 1 + rho - x.l, 1, disc⟩
    else { x with c := c', m := x.m + 1 }

/-- The errata locator of a syndrome with erasures at the given exponents. -/
def rsLocator (syn erased : List Nat) : List Nat :=
  let gamma := erased.foldl (fun g e => polyMul g [1, gfExp e]) [1]
  let rho := erased.length
  (((List.range (12 - rho)).map (· + rho)).foldl (bmStep syn rho) ⟨gamma, gamma, rho, 1, 1⟩).c

/-- The exponents 0 to 83 at which the locator has its roots. -/
def rsRoots (loc : List Nat) : List Nat :=
  (List.range 84).filter (fun e => polyEval loc (gfInv (gfExp e)) == 0)

/-- The errata value at an exponent. -/
def rsValue (syn loc : List Nat) (e : Nat) : Nat :=
  let xi := gfInv (gfExp e)
  let omega := (polyMul syn loc).take 12
  let deriv := (List.range loc.length).filterMap (fun i => if i % 2 = 1 then some (loc.getD i 0) else none)
  gfMul (gfMul (gfExp e) (polyEval omega xi)) (gfInv (polyEval deriv (gfMul xi xi)))

/-- Corrects a word with erasures at given exponents and at most `t` further errors: the corrected word and the exponents of
its errors outside the erasures; none when the decode fails (07 R232, R238). The result is checked, so it is the only word
of the code within that distance. -/
def rsCorrect (w erased : List Nat) (t : Nat) : Option (List Nat × List Nat) :=
  let syn := syndromes w
  let loc := rsLocator syn erased
  let pos := rsRoots loc
  let w' := (List.range 84).map (fun i =>
    if 83 - i ∈ pos then w.getD i 0 ^^^ rsValue syn loc (83 - i) else w.getD i 0)
  let errs := ((List.range 84).filter (fun i => w'.getD i 0 != w.getD i 0)).map (83 - ·)
  let further := errs.filter (fun e => !(e ∈ erased))
  if (syndromes w').all (· == 0) && decide (further.length ≤ t) then some (w', further) else none

/-- Whether an exponent is that of a virtual symbol. -/
def isVirtual (e : Nat) : Bool := decide (80 ≤ e)

/-- The exponents of the 8 symbols of device `j` (07 R227). -/
def deviceExps (j : Nat) : List Nat := (List.range 8).map (fun m => 79 - (8 * j + m))

/-- The class of a read (07 R232, R238). -/
inductive LineClass where
  | clean
  | corrected
  | device (j : Nat)
  | erasure
  | addressError
  | uncorrectable
  deriving DecidableEq, Repr

/-- Line protection's decode of 80 stored symbols read for a channel line address, with the rank's device in erasure mode if
it has one: the class, and the content as corrected (07 R232, R238). -/
def lpDecode (cla : Nat) (erase : Option Nat) (syms : List Nat) : LineClass × List Nat :=
  let v := virtualSyms (foldedAddr cla)
  let w := v ++ syms
  match erase with
  | some j =>
    match rsCorrect w (deviceExps j) 2 with
    | some (w', errs) => if errs.any isVirtual then (.addressError, syms) else (.erasure, w'.drop 4)
    | none => (.uncorrectable, syms)
  | none =>
    if (syndromes w).all (· == 0) then (.clean, syms)
    else match rsCorrect w [] 4 with
      | some (w', errs) => if errs.any isVirtual then (.addressError, syms) else (.corrected, w'.drop 4)
      | none =>
        let trials := (List.range 10).filterMap (fun j => (rsCorrect w (deviceExps j) 0).map (fun r => (j, r.1)))
        match trials with
        | [(j, w')] => (.device j, w'.drop 4)
        | _ => (.uncorrectable, syms)

end Sys2Proof.Machine
end

