-- ==== Sys2Proof/Machine/Media.lean ====
section
/-! DEFINITION. Lines on the DRAM channels: where an extent's lines lie, the keyed mix and integrity tag, the line code, and
the repair from MIRROR and STRIPE redundancy (03 R109 to R111, 07 R226 to R256, 08 R273 to R295, 09 R309 to R315). -/

namespace Sys2Proof.Machine
open Sys2Proof

/-! ### The keyed mix and the tag (08 R273 to R281, R291) -/

/-- The tweak of a line: channel and channel line address (08 R274). -/
def tweak (c cla : Nat) : BitVec 37 := BitVec.ofNat 37 (c * 2 ^ 33 + cla)

/-- The key of a line: during a sweep the new key below the buoy, the old key otherwise (08 R291). -/
def State.keyFor (s : State) (cla : Nat) : BitVec 256 :=
  let new := s.sx.key.getD 0
  if s.sx.sweep && decide (s.sx.buoy ≤ cla) then s.sx.oldKey.getD new else new

/-- The stored form of data under a key; unmixed with scramble OFF (08 R278). -/
def mixLine (key : BitVec 256) (c cla : Nat) (scr : Bool) (d : Line) : Line :=
  if scr then Config.keyedMix key (tweak c cla) d else d

/-- The data of a stored form. -/
def unmixLine (key : BitVec 256) (c cla : Nat) (scr : Bool) (d : Line) : Line :=
  if scr then (Config.keyedMix key (tweak c cla)).symm d else d

/-- The 32-bit metadata of a line (07 R228): TAG, POISON, KIND. -/
def metaWord (key : BitVec 256) (c cla : Nat) (d : Line) (poison kind : Bool) : BitVec 32 :=
  (Config.integrityTag key (tweak c cla) d poison kind).setWidth 32 |||
    (if poison then 1#32 <<< 28 else 0) ||| (if kind then 1#32 <<< 29 else 0)

/-- What the line code carries of a line: its stored data and metadata. -/
structure Stored where
  data : Line
  info : BitVec 32
  deriving DecidableEq, Repr

/-- The exclusive or of two stored lines, as parity is formed (07 R243, 08 R277). -/
def Stored.xor (a b : Stored) : Stored := ⟨a.data ^^^ b.data, a.info ^^^ b.info⟩

/-- The stored line of all zeros. -/
def Stored.zero : Stored := ⟨0, 0⟩

/-- Data as SX stores it under a key. -/
def sealLine (key : BitVec 256) (c cla : Nat) (scr : Bool) (d : Line) (poison kind : Bool) : Stored :=
  ⟨mixLine key c cla scr d, metaWord key c cla d poison kind⟩

/-- The content bytes of a stored line: 64 data bytes and 4 metadata bytes (07 R227). -/
def Stored.content (x : Stored) : List Nat := ((lineBytes x.data).map (·.toNat)) ++ ((le 4 x.info.toNat).map (·.toNat))

/-- A stored line of 68 content bytes. -/
def Stored.ofContent (l : List Nat) : Stored :=
  let b : Bytes := l.map (BitVec.ofNat 8)
  ⟨bytesLine (b.take 64), BitVec.ofNat 32 (unle ((b.drop 64).take 4))⟩

/-! ### Cells of a line -/

/-- The key of a line's first cell: 128 cells are set aside for each line. -/
def lineKey (c cla : Nat) : Nat := (c * 2 ^ 33 + cla) * 128

/-- Cell 80 of a line is 1 once the line has been written since its media was last filled (log 5). -/
def State.written (s : State) (c cla : Nat) : Bool := memGet s.dram (lineKey c (s.remap c cla) + 80) != 0

/-- The 80 stored symbols of a written line (log 5, 15). -/
def State.symbols (s : State) (c cla : Nat) : List Nat :=
  (List.range 80).map (fun i => (memGet s.dram (lineKey c (s.remap c cla) + i)).toNat)

/-- Writes a stored line as its codeword, which ends its upsets (07 R231; log 15). -/
def State.putStored (s : State) (c cla : Nat) (x : Stored) : State :=
  let k := lineKey c (s.remap c cla)
  { s with
    dram := memWrite s.dram k ((rsEncode cla x.content).map (BitVec.ofNat 8) ++ [1#8])
    mc := { s.mc with upsets := s.mc.upsets.filter (fun u => u.1 != c || u.2.1 != cla) } }

/-- What a line holds that was never written since its media was filled: what FILL writes there, as SX stores it; for a parity line the
exclusive or of its row's (07 R264, R266, R121; log 5). -/
def State.image (s : State) (l : Loc) (scr : Bool) (c : Nat) : Stored :=
  let z (c : Nat) := sealLine (s.keyFor l.cla) c l.cla scr (s.fillLine c l.cla).1 false (s.fillLine c l.cla).2
  match l.row with
  | some (ds, par) => if c = par then (ds.map z).foldl Stored.xor Stored.zero else z c
  | none => z c

/-- The stored content of a line's copy on channel `c`, without upsets (log 5). -/
def State.storedAt (s : State) (l : Loc) (scr : Bool) (c : Nat) : Stored :=
  if s.written c l.cla then Stored.ofContent (s.symbols c l.cla) else s.image l scr c

/-! ### Reading a copy (07 R232 to R239) -/

/-- The upsets that a command brings join those that the array holds (07 R226; log 15). -/
def State.upset (s : State) (env : ReadEnv) : State := { s with mc := { s.mc with upsets := (s.mc.upsets ++ env.upsets).dedup } }

/-- The symbols of a line of channel `c` with its upsets. A line of media that is not filled holds arbitrary content, a free value (07
R264; log 3). -/
def State.lineSymbols (s : State) (l : Loc) (scr : Bool) (c : Nat) : List Nat :=
  let base := if s.written c l.cla || s.lineFilled c l.cla then rsEncode l.cla (s.storedAt l scr c).content
    else (List.range 80).map (fun i => (Config.arrayNoise (lineKey c (s.remap c l.cla)) i).toNat)
  (List.range 80).map (fun i => (s.mc.upsets.filter (fun u => u.1 == c && u.2.1 == l.cla && u.2.2.1 == i)).foldl
    (fun v u => v ^^^ u.2.2.2.toNat) (base.getD i 0))

/-- What the array returns for a line of channel `c`: the symbols of the line that answers (07 R231, R234). -/
def State.arraySymbols (s : State) (env : ReadEnv) (l : Loc) (scr : Bool) (c : Nat) : List Nat :=
  match env.misdirect.find? (fun m => m.1 == c && m.2.1 == l.cla) with
  | some m => s.lineSymbols (s.scrubLoc c m.2.2).1 (s.scrubLoc c m.2.2).2 c
  | none => s.lineSymbols l scr c

/-- Whether a line of channel `c` is upset, or another line answers for it. -/
def State.touched (s : State) (env : ReadEnv) (c cla : Nat) : Bool :=
  s.mc.upsets.any (fun u => u.1 == c && u.2.1 == cla) || env.misdirect.any (fun m => m.1 == c && m.2.1 == cla)

/-- The device in erasure mode of a line's rank (07 R238). -/
def State.eraseOf (s : State) (c cla : Nat) : Option Nat := oget s.lp.erase (rankId c (s.placeOf c (s.remap c cla)))

/-- Line protection's result for a copy: class and content. A line that nothing has upset is a codeword, so it decodes to
itself: CLEAN, or ERASURE_CORRECTED on a rank in erasure mode. -/
def State.decodeCopy (s : State) (env : ReadEnv) (l : Loc) (scr : Bool) (c : Nat) : LineClass × Stored :=
  if s.touched env c l.cla then
    let r := lpDecode l.cla (s.eraseOf c l.cla) (s.arraySymbols env l scr c)
    (r.1, Stored.ofContent r.2)
  else
    (if (s.eraseOf c l.cla).isSome then .erasure else .clean, s.storedAt l scr c)

/-- Whether a class gives data (07 R235). -/
def LineClass.good : LineClass → Bool
  | .uncorrectable => false
  | .addressError => false
  | _ => true

/-- Whether a class is a correction (07 R249, R269). -/
def LineClass.fixed : LineClass → Bool
  | .corrected => true
  | .device _ => true
  | .erasure => true
  | _ => false

/-- The code of LP_ERR_INFO (07 R270). -/
def LineClass.code : LineClass → Nat
  | .clean => 0
  | .corrected => 1
  | .device _ => 2
  | .erasure => 3
  | .uncorrectable => 4
  | .addressError => 5

/-- LP_ERR_CHADDR of a line (07 R270). -/
def chAddr (c : Nat) (p : Place) (cla : Nat) : Nat := cla + c * 2 ^ 33 + p.sub * 2 ^ 37 + p.rank * 2 ^ 38

/-- The DPA of a line of a channel, where it is known: of a data extent, or of a frame that holds a page; a parity line has none. -/
def State.lineDpa (s : State) (c cla : Nat) : Option Nat :=
  match s.holder c cla with
  | none => none
  | some h => match h.region.bind (oget s.rg.regions) with
    | none => none
    | some r =>
      if h.parity then none
      else if h.kind = 0 then some (r.base + h.off)
      else if h.kind = 1 then (r.frames.find? (fun e => e.2 == h.off / 4096)).map (fun e => r.base + e.1 * 4096 + h.off % 4096)
      else none

/-- The detail of a DRAM fault: channel, subchannel, DIMM slot and rank, the channel line address, and the DPA where it is known (07 R269; log
102). -/
def State.dramDetail (s : State) (c cla : Nat) : Nat :=
  chAddr c (s.placeOf c (s.remap c cla)) cla + (match s.lineDpa c cla with
    | some d => 2 ^ 41 + d / 64 * 2 ^ 42
    | none => 0)

/-- A rank enters erasure mode for a device (07 R239): LP_DEVICE_FAILED, and the repair log. -/
def State.enterErasure (s : State) (c : Nat) (p : Place) (dev : Nat) : State :=
  let rk := rankId c p
  if (oget s.lp.erase rk).isSome then s
  else
    let serial := ((s.chan c).pop.bind (fun q => q.serials[p.rank / 4]?)).getD 0
    { s with lp := { s.lp with
      erase := oset s.lp.erase rk (some dev)
      repairLog := s.lp.repairLog ++ [RepairNote.erase rk dev serial] } }.report lpDeviceFailed (rk * 16 + dev)

/-- Counts a DEVICE_CORRECTED result in the rank's device record (07 R237): once per line until it is written back; at the
device threshold within the row-error window the rank enters erasure mode. -/
def State.countDevice (s : State) (c cla dev : Nat) : State :=
  let p := s.placeOf c (s.remap c cla)
  let rk := rankId c p
  let hours := s.lp.rowWin * 3600000000000
  let old := (oget s.lp.dev rk).getD ⟨List.replicate 10 0, [], s.now⟩
  let rec0 := if old.start + hours ≤ s.now then ⟨List.replicate 10 0, [], s.now⟩ else old
  if (c * 2 ^ 33 + cla) ∈ rec0.lines then s
  else
    let counts := lmod rec0.counts dev (· + 1)
    let s1 := { s with lp := { s.lp with
      dev := oset s.lp.dev rk (some ⟨counts, rec0.lines ++ [c * 2 ^ 33 + cla], rec0.start⟩) } }
    if s.lp.devThr ≤ counts.getD dev 0 then s1.enterErasure c p dev else s1

/-- An hour in ns. -/
def hourNs : Nat := 3600000000000

/-- Rows whose count has reached the threshold are hard (07 R253). -/
def State.hardenRows (s : State) : State :=
  let hard := s.lp.rows.filter (fun e => decide (s.lp.rowThr ≤ e.count))
  hard.foldl (fun s e =>
    let s1 : State := { s with lp := { s.lp with rows := s.lp.rows.filter (fun x => x.row != e.row) } }
    if e.row ∈ s.lp.hardRows then s1
    else { s1 with lp := { s1.lp with hardRows := s1.lp.hardRows ++ [e.row] } }.report lpHardRow e.row) s

/-- A correction in a row of the table counts 1 ms or more after the row's last write-back by scrub, within the window (07 R252, R253; log 48). -/
def State.rowSeen (s : State) (row : Nat) : State :=
  ({ s with lp := { s.lp with rows := s.lp.rows.map (fun (e : RowErr) =>
    if e.row = row ∧ e.last + 1000000 ≤ s.now ∧ s.now < e.start + s.lp.rowWin * hourNs then { e with count := e.count + 1 } else e) } }).hardenRows

/-- The purpose of a read: the requester, whether it comes from the patrol or a demand scrub's re-read. -/
structure ReadFor where
  who    : Nat
  patrol : Bool
  demand : Bool
  deriving DecidableEq, Repr

/-- A read of requester `w`. -/
def readBy (w : Nat) : ReadFor := ⟨w, false, false⟩

/-- Forgets that a line counts in a device record: it has been written back, or its demand scrub was dropped (07 R237). -/
def State.clearDevLine (s : State) (c cla : Nat) : State :=
  let rk := rankId c (s.placeOf c (s.remap c cla))
  match oget s.lp.dev rk with
  | some d =>
    if (c * 2 ^ 33 + cla) ∈ d.lines then
      { s with lp := { s.lp with dev := oset s.lp.dev rk (some { d with lines := d.lines.filter (· != c * 2 ^ 33 + cla) }) } }
    else s
  | none => s

/-- What line protection records of a class: counts, LP_CORRECTED, the device record, the row's count, the demand scrub (07 R237, R250,
R252, R269, R270). A line that waits for its demand scrub, and that scrub's own read, count once (log 48). -/
def State.noteClass (s : State) (q : ReadFor) (c cla : Nat) (k : LineClass) (dev : Nat) : State :=
  if k = .clean then s
  else
    let p := s.placeOf c (s.remap c cla)
    let s1 := { s with lp := { s.lp with errInfo := k.code + dev * 8 + b2n q.patrol * 2 ^ 7 } }
    let waiting := (c, cla) ∈ s.lp.demandQ
    let s2 := match k with
      | .device j => (if q.demand || waiting then s1 else s1.countDevice c cla j).count 20 1
      | _ => s1
    if k.fixed then
      let s3 := (if q.demand || waiting then s2 else s2.rowSeen (rowId c p)).count 20 0 |>.reportAgg lpCorrected (rowId c p) 1000000000
        (s1.dramDetail c cla)
      -- REKEY and SCRUB write back what they read (07 R249, R250)
      if q.who = 11 ∨ q.who = 12 ∨ waiting then s3
      else if s3.lp.demandQ.length < 64 then { s3 with lp := { s3.lp with demandQ := s3.lp.demandQ ++ [(c, cla)] } }
      else ({ s3 with lp := { s3.lp with demandDrops := satAdd (2 ^ 32 - 1) s3.lp.demandDrops 1 } }).clearDevLine c cla
    else
      { s2 with lp := { s2.lp with errChaddr := chAddr c p cla } }.count 20 2

/-- The devices whose symbols a correction changed (07 R227, R232). -/
def correctedDevs (read fixed : List Nat) : List Nat :=
  (List.range 10).filter (fun j => decide ((read.drop (8 * j)).take 8 ≠ (fixed.drop (8 * j)).take 8))

/-- A trigger of error-driven retraining of a channel in service queues, once (09 R334, R335). -/
def State.trigger (s : State) (c : Nat) : State :=
  if (s.chan c).state = .fenced ∨ (s.chan c).state = .unpopulated ∨ (s.chan c).state = .training ∨ c ∈ s.mc.trigQ ∨
      s.mc.training = some c then s
  else { s with mc := { s.mc with trigQ := s.mc.trigQ ++ [c] } }

/-- Corrected reads of a subchannel: MC_RETRAIN_THR of them within 1 ms, over 3 or more devices, trigger retraining, and the count starts anew
(09 R334; log 64). -/
def State.spread (s : State) (c u : Nat) (devs : List Nat) : State :=
  let x := (s.chan c).subs.getD u SubCh.reset
  let l := x.corr.filter (fun e => decide (s.now < e.1 + 1000000)) ++ [(s.now, bitsOf devs)]
  let hit := decide ((s.chan c).retrainThr ≤ l.length) &&
    decide (3 ≤ ((List.range 10).filter (fun j => l.any (fun e => e.2.testBit j))).length)
  let s1 := s.modChan c (fun m => { m with subs := lmod m.subs u (fun x => { x with corr := if hit then [] else l }) })
  if hit then s1.trigger c else s1

/-- The device that LP_ERR_INFO names: the one that all corrected symbols lie in, or the one erased; 0 where there is none (07 R270;
log 29). -/
def errDev (k : LineClass) (devs : List Nat) (erased : Option Nat) : Nat :=
  match k, devs with
  | .erasure, _ => erased.getD 0
  | .device j, _ => j
  | .corrected, [j] => j
  | _, _ => 0

/-- Records a read of a copy: its class, and its corrections toward retraining (07 R237, R269; 09 R334; log 29). -/
def State.noteRead (s : State) (env : ReadEnv) (q : ReadFor) (l : Loc) (scr : Bool) (c : Nat) (r : LineClass × Stored) : State :=
  let devs := if r.1.fixed then correctedDevs (s.arraySymbols env l scr c) (rsEncode l.cla r.2.content) else []
  let s1 := s.noteClass q c l.cla r.1 (errDev r.1 devs (s.eraseOf c l.cla))
  if r.1.fixed then s1.spread c (s.placeOf c (s.remap c l.cla)).sub (devs ++ (s.eraseOf c l.cla).toList) else s1

/-- The DATA behind a stored line, its POISON and KIND bits, and whether its tag verifies (08 R280, R281). -/
structure Plain where
  data   : Line
  poison : Bool
  kind   : Bool
  tagOk  : Bool
  deriving DecidableEq, Repr

/-- SX unmixes a stored line and verifies its tag (07 R228; 08 R281). -/
def openLine (key : BitVec 256) (c cla : Nat) (scr : Bool) (x : Stored) : Plain :=
  let d := unmixLine key c cla scr x.data
  let poison := x.info.getLsbD 28
  let kind := x.info.getLsbD 29
  ⟨d, poison, kind, decide ((x.info.setWidth 28) = Config.integrityTag key (tweak c cla) d poison kind)⟩

/-- What a read of one copy gives. -/
inductive CopyRead where
  /-- Data with a valid tag; poison is the STORED indication (07 R235). -/
  | good (p : Plain)
  /-- A tag mismatch (08 R282). -/
  | badTag (p : Plain)
  /-- A MEDIA indication with the uncorrected data; `addr` where an ADDRESS_ERROR was not cleared (07 R234, R235). -/
  | media (raw : Line) (addr : Bool)
  deriving DecidableEq, Repr

/-- Judges a decoded copy. -/
def State.judge (s : State) (l : Loc) (scr : Bool) (c : Nat) (r : LineClass × Stored) : CopyRead :=
  let p := openLine (s.keyFor l.cla) c l.cla scr r.2
  if r.1.good then (if p.tagOk then .good p else .badTag p)
  else .media p.data (decide (r.1 = .addressError))

/-- Reads a copy and decodes it; an ADDRESS_ERROR is read once more, when a misdirected access no longer is (07 R232, R234, R237, R250). -/
def State.readDecoded (s : State) (env : ReadEnv) (q : ReadFor) (l : Loc) (scr : Bool) (c : Nat) : State × LineClass × Stored :=
  let r1 := s.decodeCopy env l scr c
  let s1 := s.noteRead env q l scr c r1
  if r1.1 = .addressError then
    let r2 := s1.decodeCopy { env with misdirect := [] } l scr c
    if r2.1.good then
      ((s1.noteRead { env with misdirect := [] } q l scr c r2).report lpAddressRetried (s.dramDetail c l.cla), r2)
    else (s1, .addressError, r2.2)
  else (s1, r1)

/-- Reads one copy; an ADDRESS_ERROR is read once more, when a misdirected access no longer is (07 R232 to R234). -/
def State.readCopy (s : State) (env : ReadEnv) (q : ReadFor) (l : Loc) (scr : Bool) (c : Nat) : State × CopyRead :=
  let r := s.readDecoded env q l scr c
  (r.1, r.1.judge l scr c r.2)

/-- The other channels a stripe row is rebuilt from. -/
def rowOthers (row : List Nat × Nat) (c : Nat) : List Nat := (row.1 ++ [row.2]).filter (· != c)

/-- Rebuilds a line of a row from its other lines, each read with its corrections noted; none where one of them cannot be read (07 R237,
R243, R250). -/
def State.rebuild (s : State) (env : ReadEnv) (q : ReadFor) (l : Loc) (scr : Bool) (row : List Nat × Nat) (c : Nat) :
    State × Option Stored :=
  (rowOthers row c).foldl (fun (acc : State × Option Stored) d =>
    match acc.2 with
    | none => acc
    | some x =>
      if acc.1.readable d l.cla then
        let r := acc.1.readDecoded env q l scr d
        (r.1, if r.2.1.good then some (x.xor r.2.2) else none)
      else (acc.1, none)) (s, some Stored.zero)

/-- The redundant copy of a line: the MIRROR partner's read, or the STRIPE reconstruction unmixed and verified (07 R243;
08 R277, R287). -/
def State.redundant (s : State) (env : ReadEnv) (q : ReadFor) (l : Loc) (scr : Bool) (c : Nat) : State × Option Plain :=
  match l.mirror, l.row with
  | some m, _ =>
    let other := if c = l.ch then m else l.ch
    if s.readable other l.cla then
      let r := s.readCopy env q l scr other
      match r.2 with
      | .good p => (r.1, some p)
      | _ => (r.1, none)
    else (s, none)
  | none, some row =>
    let b := s.rebuild env q l scr row c
    match b.2 with
    | some x =>
      let p := openLine (s.keyFor l.cla) c l.cla scr x
      (b.1, if p.tagOk then some p else none)
    | none => (b.1, none)
  | none, none => (s, none)

/-! ### Writing lines (07 R241, R246; 08 R280, R291) -/

/-- Writes the stored form of a line to the copy on channel `c`, where that copy is written. -/
def State.putCopy (s : State) (l : Loc) (c : Nat) (x : Stored) : State :=
  if s.writable c l.cla then (s.clearDevLine c l.cla).putStored c l.cla x else s

/-- Writes a line: both copies of a MIRROR line; a STRIPE line and its parity, which takes up the change of the stored data
(07 R241, R243, R246; 03 R111; 08 R277). `w`: the requester of the reads that rebuild what cannot be read. -/
def State.putLine (s : State) (l : Loc) (scr : Bool) (d : Line) (poison kind : Bool) (w : Nat := 15) : State :=
  let key := s.keyFor l.cla
  match l.mirror, l.row with
  | some m, _ =>
    (s.putCopy l l.ch (sealLine key l.ch l.cla scr d poison kind)).putCopy l m (sealLine key m l.cla scr d poison kind)
  | none, some row =>
    let new := sealLine key l.ch l.cla scr d poison kind
    let old := if s.readable l.ch l.cla then (s, some (s.storedAt l scr l.ch)) else s.rebuild ⟨[], []⟩ (readBy w) l scr row l.ch
    let par := if old.1.readable row.2 l.cla then (old.1, some (old.1.storedAt l scr row.2))
      else old.1.rebuild ⟨[], []⟩ (readBy w) l scr row row.2
    let s1 := par.1.putCopy l l.ch new
    match old.2, par.2 with
    | some o, some p => s1.putCopy l row.2 ((p.xor o).xor new)
    | _, _ => s1
  | none, none => s.putCopy l l.ch (sealLine key l.ch l.cla scr d poison kind)

/-- Writes back the copy on channel `c` alone, as a repair does; parity and partner stand (07 R243, R249). -/
def State.mendCopy (s : State) (l : Loc) (scr : Bool) (c : Nat) (d : Line) (poison kind : Bool) : State :=
  s.putCopy l c (sealLine (s.keyFor l.cla) c l.cla scr d poison kind)

/-- Recomputes a row's parity from its data lines, where all of them can be read (03 R111). -/
def State.refreshParity (s : State) (l : Loc) (scr : Bool) : State :=
  match l.row with
  | some row =>
    if row.1.all (fun c => s.readable c l.cla) then
      s.putCopy l row.2 ((row.1.map (fun c => s.storedAt l scr c)).foldl Stored.xor Stored.zero)
    else s
  | none => s

/-! ### A line read whole, with its repair (07 R235, R243; 08 R282, R283) -/

/-- What a requester above line protection receives of a line. -/
structure LineRead where
  data   : Line
  /-- Delivered poisoned. -/
  poison : Bool
  kind   : Bool
  /-- A MEDIA indication or tag mismatch remained after repair: the yard treats the line as unreadable (07 R236, 08 R284). -/
  lost   : Bool
  deriving DecidableEq, Repr

/-- The tag-error registers of SX (08 R307): outcome, requester, speculative. -/
def State.noteTag (s : State) (c cla outcome w : Nat) (spec : Bool) : State :=
  { s with sx := { s.sx with errChaddr := cla + c * 2 ^ 33, errInfo := outcome + w * 16 + b2n spec * 2 ^ 8 } }

/-- Handles a copy that came back bad: repair from redundancy, written back; else poison (07 R243, R235; 08 R282, R283). -/
def State.repair (s : State) (env : ReadEnv) (q : ReadFor) (l : Loc) (scr : Bool) (c : Nat) (bad : CopyRead) :
    State × LineRead :=
  let tag := match bad with
    | .badTag _ => true
    | _ => false
  let s0 := if tag then s.count 21 0 else s
  let r := s0.redundant env q l scr c
  match r.2 with
  | some p =>
    let s1 := r.1.mendCopy l scr c p.data p.poison p.kind
    let s2 := if tag then (s1.report sxTagRepaired (c * 2 ^ 33 + l.cla) (some q.who)).noteTag c l.cla 1 q.who false
      else s1.report lpRepaired (s.dramDetail c l.cla) (some q.who)
    (s2, ⟨p.data, p.poison, p.kind, false⟩)
  | none =>
    match bad with
    | .badTag p =>
      let s1 := ((r.1.mendCopy l scr c p.data true p.kind).refreshParity l scr).report sxTagMismatch
        (c * 2 ^ 33 + l.cla) (some q.who)
      (s1.noteTag c l.cla 2 q.who false, ⟨p.data, true, p.kind, true⟩)
    | .media d addr =>
      (r.1.report (if addr then lpAddressError else lpUncorrectable) (s.dramDetail c l.cla) (some q.who),
        ⟨d, true, false, true⟩)
    | .good p => (r.1, ⟨p.data, p.poison, p.kind, false⟩)

/-- The request queue of a channel: the read and write queues of its two subchannels (03 R122; 09 R317). -/
def State.queueLen (s : State) (c : Nat) : Nat := ((s.chan c).subs.map (fun u => u.readQ.length + u.writeQ.length)).sum

/-- The copy a read goes to: for MIRROR the channel with the shorter request queue, the primary on equal queues, and the copy that
can be read (03 R122; 07 R244). -/
def State.pickCopy (s : State) (l : Loc) : Nat :=
  match l.mirror with
  | some m =>
    let qlen (c : Nat) := s.queueLen c
    if !s.readable l.ch l.cla || (s.holding l.ch && s.readable m l.cla && !s.holding m) then m
    else if s.holding m then l.ch
    else if s.readable m l.cla && decide (qlen m < qlen l.ch) then m
    else l.ch
  | none => l.ch

/-- A line of an extent as line protection and SX deliver it, repaired where it can be; a line of a fenced channel is served
from redundancy or poisoned (03 R120, 07 R235, R243 to R246; 08 R281 to R283; 09 R336). -/
def State.readLine (s : State) (env : ReadEnv) (q : ReadFor) (l : Loc) (scr : Bool) : State × LineRead :=
  let c := s.pickCopy l
  let own (s : State) : State × LineRead :=
    let r := s.readCopy env q l scr c
    match r.2 with
    | .good p => (r.1, ⟨p.data, p.poison, p.kind, false⟩)
    | bad => r.1.repair env q l scr c bad
  if s.readable c l.cla && !(s.holding c && l.row.isSome) then own s
  else
    let r := s.redundant env q l scr c
    match r.2 with
    | some p => (r.1, ⟨p.data, p.poison, p.kind, false⟩)
    | none =>
      if s.readable c l.cla then own r.1
      else
        (if s.fenced c then r.1 else r.1.report lpUncorrectable (s.dramDetail c l.cla) (some q.who), ⟨0, true, false, true⟩)

/-- A partial write: merged into the line as read, its poison kept (07 R241, R242). -/
def State.mergeWrite (s : State) (env : ReadEnv) (q : ReadFor) (l : Loc) (scr : Bool) (d : Line) (en : BitVec 64)
    (poison : Bool) : State :=
  let r := s.readLine env q l scr
  r.1.putLine l scr (mergeLine r.2.data d en) (poison || r.2.poison) false q.who

end Sys2Proof.Machine
end

