-- ==== Sys2Proof/Machine/Operands.lean ====
section
/-! DEFINITION. How a command arrives, what is checked before it executes, how its fields are read and clamped, and how
it answers (14 R485 to R531, 15 R529 to R536, 16 R587, 17 R610, R682). -/

namespace Sys2Proof.Machine
open Sys2Proof

/-! ### Codes -/

/-- Naray status codes (00 R17, 14 R525, 15 R530, 16 R594, 17 R632 and the tables of the other chapters). -/
def stSuccess : Nat := 0x0000
def stClamped : Nat := 0x0001
def stBusy : Nat := 0x0100
def stBusyTraining : Nat := 0x0101
def stTooLate : Nat := 0x0102
def stNotPermitted : Nat := 0x0200
def stEpochExhausted : Nat := 0x0301
def stMediaLost : Nat := 0x0400
def stRetentionLost : Nat := 0x0401
/-- BIND_ACTIVE: the set is already bound to the other event kind (13 R482). -/
def stBindActive : Nat := 0x1301
def stBgStarted : Nat := 0x1400
def stAborted : Nat := 0x1401
def stHandleUnknown : Nat := 0x1402
def stSessionUnknown : Nat := 0x1403
def stSessionLimit : Nat := 0x1404
def stSessionFull : Nat := 0x1405
def stObjectStaged : Nat := 0x1406
def stFrozen : Nat := 0x1407
def stFcrActive : Nat := 0x1408
def stObjectAbsent : Nat := 0x1500
def stControlRange : Nat := 0x1501
def stSafe : Nat := 0x1600
def stPowerState : Nat := 0x1700
def stEntryAbandoned : Nat := 0x1701

/-- CXL return codes (15 R561, R678; their values are those of CXL 3.1, log 14). -/
def rcSuccess : Nat := 0x0
def rcBgStarted : Nat := 0x1
def rcInvalidInput : Nat := 0x2
def rcUnsupported : Nat := 0x3
def rcInternal : Nat := 0x4
def rcRetry : Nat := 0x5
def rcBusy : Nat := 0x6
def rcMediaDisabled : Nat := 0x7
def rcFwInProgress : Nat := 0x8
def rcFwOrder : Nat := 0x9
def rcFwVerify : Nat := 0xA
def rcInvalidSlot : Nat := 0xB
def rcFwRolledBack : Nat := 0xC
def rcInvalidHandle : Nat := 0xE
def rcInvalidAddress : Nat := 0xF
def rcAborted : Nat := 0x12
def rcUnsupportedMailbox : Nat := 0x15
def rcInvalidLength : Nat := 0x16

/-- What a command answers: its CXL return code and its output payload. -/
structure Reply where
  rc  : Nat
  out : Bytes
  deriving DecidableEq, Repr

/-- A Naray answer: status, no handle, the object, and output data from byte 8 (15 R534). -/
def ans (st obj : Nat) (data : Bytes := []) : Reply := ⟨rcSuccess, le 2 st ++ le 2 0 ++ le 4 obj ++ data⟩

/-- The acceptance of a class B Naray command: BACKGROUND_STARTED and its handle (14 R493, R503; log 85). -/
def accepted (h obj : Nat) : Reply := ⟨rcSuccess, le 2 stBgStarted ++ le 2 h ++ le 4 obj⟩

/-- The Naray status of an answer. -/
def Reply.status (r : Reply) : Nat := rd r.out 0 2

/-- A standard CXL answer. -/
def std (rc : Nat) (data : Bytes := []) : Reply := ⟨rc, data⟩

/-! ### Who issues a command -/

/-- The issuing principal: a function, or the board controller, which owner checks treat as NM, code 15 (14 R485, R486). -/
def who : Path → Nat
  | .primary f => f
  | .secondary f => f
  | .ring f _ _ => f
  | .sideband => 15

/-- Whether the path is the sideband. -/
def isSideband : Path → Bool
  | .sideband => true
  | _ => false

/-- The largest input or output payload of a path (14 R485). -/
def pathMax : Path → Nat
  | .ring _ _ _ => 56
  | .sideband => 8192
  | _ => 65536

/-- Whether a principal holds management level (14 R499, R500). -/
def State.isMgmt (s : State) (w : Nat) : Bool := w == 15 || (w == s.mb.mgmt && s.fnExists w)

/-! ### Fields and clamps (14 R512 to R515) -/

/-- A field of a payload: its byte, its length, and the value applied for a value given. -/
structure FieldRule where
  off : Nat
  len : Nat
  fix : Nat → Nat

/-- A field whose range is `lo` to `hi`, applied at the nearer end. -/
def fRange (off len lo hi : Nat) : FieldRule := ⟨off, len, clampN lo hi⟩

/-- An enumeration of the values 0 to `n`, applied as `d` outside them. -/
def fEnum (off len n d : Nat) : FieldRule := ⟨off, len, fun v => if v ≤ n then v else d⟩

/-- Rounds a payload's fields to the values applied; the entries are (byte, given, applied). -/
def applyRules (rules : List FieldRule) (b : Bytes) : Bytes × List (Nat × Nat × Nat) :=
  rules.foldl (fun acc r =>
    let given := rd acc.1 r.off r.len
    let a := r.fix given
    if a = given then acc else (wr acc.1 r.off r.len a, acc.2 ++ [(r.off, given, a)])) (b, [])

/-- Adds entries to a report of at most 1,024 (14 R513). -/
def Report.add (r : Report) (es : List Clamp) : Report :=
  let all := r.entries ++ es
  ⟨all.take 1024, satAdd (2 ^ 32 - 1) r.lost (all.length - 1024)⟩

/-- The clamp report entries of a command (14 R514). -/
def clampEntries (op kind obj source : Nat) (cl : List (Nat × Nat × Nat)) : List Clamp :=
  cl.map (fun c => ⟨kind, source, c.1, obj, c.2.1, c.2.2, op⟩)

/-- Bytes of one clamp report entry (14 R514). -/
def Clamp.bytes (c : Clamp) : Bytes :=
  le 1 c.kind ++ le 1 c.source ++ le 2 c.field ++ le 4 c.obj ++ le 8 c.given ++ le 8 c.applied ++ le 2 c.opcode ++ le 6 0

/-- Records the direct report of a command outside staging that was clamped (14 R513). -/
def State.direct (s : State) (p : Path) (op kind obj : Nat) (cl : List (Nat × Nat × Nat)) : State :=
  if cl.isEmpty then s
  else { s with mb := { s.mb with
    direct := sset ⟨[], 0⟩ s.mb.direct (who p) ((Report.mk [] 0).add (clampEntries op kind obj 0 cl)) } }

/-- SUCCESS, or SUCCESS_CLAMPED where a field was clamped (14 R512). -/
def okStatus (cl : List (Nat × Nat × Nat)) : Nat := if cl.isEmpty then stSuccess else stClamped

/-! ### Completion (14 R491 to R493) -/

/-- The CXL_RC field of a ring completion entry (14 R492). -/
def cxlRc (rc : Nat) : Nat :=
  if rc = rcSuccess then 0 else if rc = rcUnsupported then 1 else if rc = rcInvalidInput then 2
  else if rc = rcInvalidLength then 3 else if rc = rcInternal then 4 else if rc = rcBusy then 5
  else if rc = rcRetry then 6 else 7

/-- A fast command ring completion entry (14 R492; log 84). -/
def fcrEntry (r : Reply) (tag : Nat) (phase final : Bool) : Bytes :=
  let o := r.out.take 56
  o ++ List.replicate (56 - o.length) 0 ++ le 2 tag ++
    le 6 (o.length + b2n phase * 2 ^ 6 + b2n final * 2 ^ 7 + b2n (decide (56 < r.out.length)) * 2 ^ 8
      + cxlRc r.rc * 2 ^ 9 + r.rc % 2 ^ 16 * 2 ^ 12)

/-- A moderated per-ring event: the count reached sends the vector, else the time starts (11 R405, 14 R489). -/
def moderate (unsig since modCount now : Nat) : Bool × Nat × Nat :=
  if modCount ≤ unsig + 1 then (true, 0, 0) else (false, unsig + 1, if unsig = 0 then now else since)

/-- The FCR_DONE event of a completion entry written for function `f`, under the ring's moderation (14 R493; 02 R77; log 54). -/
def State.fcrDone (s : State) (f : Nat) (q : Fcr) : State :=
  let m := moderate q.unsig q.unsigAt q.modCount s.now
  let s1 := s.modFn f (fun h => { h with
    intCause := h.intCause ||| 1#8
    fcr := h.fcr.map (fun q => { q with unsig := m.2.1, unsigAt := m.2.2 }) })
  if m.1 ∧ (s.fnAt f).intEnable.getLsbD 0 then s1.vector f 1 else s1

/-- Whether a function's fast command ring is registered: a fetch error ends the registration (02 R86; 14 R489). -/
def HostFn.ringOn (h : HostFn) : Bool := h.fcr.isSome && !h.fcrHalted

/-- Asks for the next ring entry, where the device may: at most 8 reads and 64 outstanding commands (02 R83, R85; 14 R491). Each read
is of one entry (log 25). -/
def State.fetchOne (s : State) (f : Nat) : State :=
  match (s.fnAt f).fcr with
  | none => s
  | some q =>
    let h := s.fnAt f
    if h.ringOn && s.canSend f && s.awake && decide (q.fetching < 8) && decide (q.fetching + q.outstanding.length < 64) &&
        decide (q.fetching < (h.fcrProd + 65536 - h.fcrCons) % 65536) then
      (s.modFn f (fun h => { h with fcr := some { q with fetching := q.fetching + 1 } })).emit
        (.hostRead f (q.sub + (h.fcrCons + q.fetching) % q.slots * 64) 64)
    else s

/-- Fetches ring entries of a function as far as it may (02 R83; 14 R491; log 25). -/
def State.fetchRing (s : State) (f : Nat) : State := (List.range 8).foldl (fun s _ => s.fetchOne f) s

/-- A command of submission count `k` is fetched and outstanding (14 R491). -/
def State.ringTake (s : State) (f k tag : Nat) : State :=
  s.modFn f (fun h => { h with fcr := h.fcr.map (fun q =>
    if h.fcrHalted || q.outstanding.any (fun e => e.1 == k) then q else { q with
      outstanding := q.outstanding ++ [(k, tag)], done := q.done.filter (fun e => e.1 % q.slots != k % q.slots) }) })

/-- Writes the completion of the command in submission count `k` of the ring of `f` (14 R492; 01 R26); one whose registration has ended
with its link is discarded (02 R95; log 84, 87). -/
def State.ringComplete (s : State) (f k tag : Nat) (r : Reply) (final : Bool) : State :=
  match (s.fnAt f).fcr with
  | none => s
  | some q =>
    if !q.outstanding.any (fun e => e.1 == k) then s
    else
      let s1 := s.modFn f (fun h => { h with fcr := h.fcr.map (fun q => if final then
        { q with outstanding := q.outstanding.filter (fun e => e.1 != k), done := q.done ++ [(k, tag)] } else q) })
      if (s.fnAt f).viral || !(s.fnAt f).exist || (s.fnAt f).link = .down || (s.fnAt f).link = .disabled then s1
      else
        ((s1.hostWrite f (q.comp + (k % q.slots) * 64)
          (fcrEntry r tag (decide (k / q.slots % 2 = 0)) final) 15).fcrDone f q).fetchRing f

/-- The answer of a command on its path. -/
def State.complete (s : State) (p : Path) (r : Reply) (final : Bool) : State :=
  let s1 := s.emit (.completion p r.rc r.out final)
  match p with
  | .ring f k tag => s1.ringComplete f k tag r final
  | .primary f => s1.modFn f (fun h => { h with mbox := lset h.mbox 0 (r.rc, r.out) })
  | .secondary f => s1.modFn f (fun h => { h with mbox := lset h.mbox 1 (r.rc, r.out) })
  | .sideband => s1

/-! ### Command table (15 R528, R560; 14 R517; 16 R587; 17 R610, R682) -/

/-- What is fixed of an opcode: class (0 F, 1 S, 2 B or S/B), level, the fixed part of its input, whether it executes for a
frozen function, in SAFE and in SLEEP, and whether it waits for Media Status Ready. -/
structure CmdInfo where
  cls    : Nat
  mgmt   : Bool
  len    : Nat
  frozen : Bool
  safe   : Bool
  sleep  : Bool
  media  : Bool
  std    : Bool
  deriving DecidableEq, Repr

/-- Vendor commands. `q` marks those that a frozen function may issue (14 R517); 0xC7xx and R682's list wait for media (log 45). -/
def narayInfo (op : Nat) : Option CmdInfo :=
  let mk (cls : Nat) (mgmt : Bool) (len : Nat) (q : Bool := false) : Option CmdInfo :=
    some ⟨cls, mgmt, len, q, op == 0xC402 || op == 0xC404 || op == 0xC502, op == 0xC402 || op == 0xC404 || op == 0xC502,
      op == 0xC001 || (op / 256 == 0xC7) || op == 0xC520 || op == 0xC510 || op == 0xC500 || op == 0xC200 || op == 0xC810,
      false⟩
  match op with
  | 0xC000 => mk 0 true 8 | 0xC001 => mk 1 true 8 | 0xC002 => mk 0 true 8 | 0xC003 => mk 0 false 10 true
  | 0xC010 => mk 0 false 8 true | 0xC011 => mk 0 false 9 | 0xC020 => mk 0 false 37 | 0xC021 => mk 0 false 8
  | 0xC030 => mk 0 true 8
  | 0xC100 => mk 0 true 24 | 0xC101 => mk 0 true 8 | 0xC102 => mk 0 false 12 true
  | 0xC110 => mk 0 true 16 | 0xC111 => mk 0 true 11 | 0xC120 => mk 0 true 16 | 0xC130 => mk 0 true 12
  | 0xC131 => mk 0 false 12 true
  | 0xC200 => mk 1 true 8 | 0xC201 => mk 1 true 8 | 0xC210 => mk 0 false 37 | 0xC211 => mk 0 false 8
  | 0xC212 => mk 2 false 9 | 0xC220 => mk 0 false 37 | 0xC221 => mk 0 false 8 | 0xC222 => mk 2 false 8
  | 0xC223 => mk 0 false 12 true | 0xC224 => mk 0 true 16
  | 0xC230 => mk 0 true 16 | 0xC231 => mk 0 true 40 | 0xC240 => mk 0 true 32 | 0xC241 => mk 0 true 14
  | 0xC242 => mk 0 true 52 | 0xC243 => mk 0 false 12 true
  | 0xC250 => mk 0 true 32 | 0xC251 => mk 0 true 24 | 0xC252 => mk 0 false 8 true
  | 0xC300 => mk 0 true 52 | 0xC301 => mk 0 true 8 | 0xC302 => mk 0 true 34 | 0xC303 => mk 2 true 20
  | 0xC304 => mk 0 false 12 true | 0xC305 => mk 0 true 16
  | 0xC400 => mk 0 true 22 | 0xC401 => mk 0 true 16 | 0xC402 => mk 0 false 8 true | 0xC403 => mk 0 true 9
  | 0xC404 => mk 0 false 12 true | 0xC410 => mk 0 true 10 | 0xC411 => mk 0 true 8
  | 0xC420 => mk 0 true 13 | 0xC421 => mk 0 true 10 | 0xC422 => mk 0 true 10 | 0xC423 => mk 0 true 12 true
  | 0xC430 => mk 0 true 9
  | 0xC500 => mk 2 true 28 | 0xC501 => mk 2 true 8 | 0xC502 => mk 0 false 8 true | 0xC510 => mk 2 true 9
  | 0xC520 => mk 2 true 10
  | 0xC600 => mk 0 true 11 | 0xC601 => mk 0 true 25 | 0xC602 => mk 0 true 12 true
  | 0xC700 => mk 2 false 24 | 0xC701 => mk 2 false 25 | 0xC710 => mk 2 true 9 | 0xC720 => mk 0 true 14
  | 0xC721 => mk 2 true 17 | 0xC722 => mk 2 true 9 | 0xC730 => mk 2 true 16
  | 0xC800 => mk 0 true 18 true | 0xC801 => mk 0 true 24 | 0xC810 => mk 0 true 16 true
  | _ => none

/-- Standard commands (15 R560). -/
def stdInfo (op : Nat) : Option CmdInfo :=
  let mk (cls : Nat) (mgmt : Bool) (len : Nat) (q : Bool) : Option CmdInfo :=
    some ⟨cls, mgmt, len, q, op == 0x0001 || op == 0x0100, op == 0x0001 || op == 0x0100, op / 4 == 0x10C0, true⟩
  match op with
  | 0x0001 => mk 0 false 0 true | 0x0002 => mk 0 false 0 true | 0x0005 => mk 0 false 0 false
  | 0x0100 => mk 0 false 1 true | 0x0101 => mk 0 true 6 false | 0x0102 => mk 0 false 0 true | 0x0103 => mk 0 true 4 false
  | 0x0200 => mk 0 false 0 true | 0x0201 => mk 2 true 128 false | 0x0202 => mk 2 true 2 false
  | 0x0300 => mk 0 false 0 true | 0x0301 => mk 0 true 8 false
  | 0x0400 => mk 0 false 0 true | 0x0401 => mk 0 false 24 true
  | 0x4000 => mk 0 false 0 true | 0x4200 => mk 0 false 0 true
  | 0x4201 => mk 0 false 0 true | 0x4202 => mk 0 true 12 false
  | 0x4300 => mk 1 false 16 true | 0x4301 => mk 0 true 8 false | 0x4302 => mk 0 true 72 false
  | _ => none

/-- The entry of an opcode (log 45). -/
def cmdInfo (op : Nat) : Option CmdInfo := if op < 0xC000 then stdInfo op else narayInfo op

/-! ### Before a command executes -/

/-- A refusal with a Naray status, or with the CXL code that 15 R678 assigns to it. -/
def refuse (isStd : Bool) (st obj : Nat) : Reply :=
  if isStd then
    std (if st = stBusy then rcBusy else if st = stNotPermitted then rcUnsupportedMailbox
      else if st = stPowerState then rcRetry else if st = stAborted then rcAborted else rcMediaDisabled)
  else ans st obj

/-- A wake begins, by cause (17 R609, R611); in DEEP, AON holds it while PWR_FAIL_N is low, and one that falls into the end of an entry
follows the entry (17 R631). -/
def State.beginWake (s : State) (cause : Nat) : State :=
  match s.pw.state with
  | .sleep => { s with pw := { s.pw with state := .waking, wake := some ⟨cause, false, s.now⟩, wakeCause := cause } }
  | .deep =>
    if s.pw.pwrFail then { s with pw := { s.pw with wake := some (s.pw.wake.getD ⟨cause, true, s.now⟩) } }
    else { s with pw := { s.pw with state := .waking, wake := some ⟨cause, true, s.now⟩, wakeCause := cause + 256 } }
  | .entering => match s.pw.entry with
    | some e =>
      if 7 ≤ e.step ∧ (e.target = 1 ∨ cause = 3) then
        { s with pw := { s.pw with entry := some { e with wakeReq := some (e.wakeReq.getD cause) } } }
      else s
    | none => s
  | _ => s

/-- Naray leaves IDLE (17 R598), and the idle time restarts. -/
def State.leaveIdle (s : State) : State :=
  let s1 := { s with pw := { s.pw with idleAt := s.now } }
  if s.pw.state = .idle then
    ({ s1 with pw := { s1.pw with state := .run }, ck := { s1.ck with domains := s1.ck.domains ||| (1#40 <<< 27) } }).count 4 1
  else s1

/-- How a command that has arrived is received. -/
inductive Arrival where
  /-- It does not reach the device (held in reset, DEEP, OFF, no function, no link; 17 R596, R623). -/
  | lost
  /-- It is held: firmware activation or reload (14 R521, 07 R261), or a wake under way (17 R609, R611). -/
  | hold
  /-- It wakes the device from SLEEP and is held (17 R609, R610). -/
  | wake (cause : Nat)
  /-- PW_WAKE in SLEEP: it wakes the device and executes (17 R609, R613). -/
  | wakeRun (cause : Nat)
  /-- It executes. -/
  | run
  deriving DecidableEq, Repr

/-- How a command with opcode `op` on `p` is received (14 R485, R521; 17 R596, R609, R610, R628; log 16). -/
def State.arrival (s : State) (p : Path) (op : Nat) : Arrival :=
  let reach := match p with
    | .sideband => true
    | .ring f _ _ => s.fnExists f
    | .primary f => s.fnExists f && !((s.fnAt f).link = .down) && !((s.fnAt f).link = .disabled)
    | .secondary f => s.fnExists f && !((s.fnAt f).link = .down) && !((s.fnAt f).link = .disabled)
  if !reach then .lost
  else if s.pw.cold = .noImage then
    if isSideband p ∧ (op = 0x0001 ∨ op = 0x0200 ∨ op = 0x0201 ∨ op = 0x0202) then .run else .lost
  else if !s.mbReady then .lost
  else match s.pw.state with
    | .deep => .lost
    | .off => .lost
    | .waking => if op = 0xC501 ∧ s.isMgmt (who p) then .run else .hold
    | .sleep =>
      if op = 0xC501 ∧ s.isMgmt (who p) then .wakeRun (if isSideband p then 2 else 1)
      else if isSideband p then (if op = 0xC500 then .wake 2 else .run)
      else .wake 4
    | .entering => if s.pw.entry.any (fun e => decide (7 ≤ e.step)) then .wake (if isSideband p then 2 else 4)
      else if s.mb.activating || s.mb.reloading then .hold else .run
    | _ => if s.mb.activating || s.mb.reloading then .hold else .run

/-- A command is held until firmware or the device is back, in arrival order (14 R521). -/
def State.holdCmd (s : State) (p : Path) (op : Nat) (b : Bytes) : State :=
  { s with mb := { s.mb with heldCmds := s.mb.heldCmds ++ [⟨p, op, b⟩] } }

/-- FCR_STATE.HELD: firmware activation holds fetched commands of the function (02 R76). -/
def State.fcrHeld (s : State) (f : Nat) : Bool :=
  s.mb.activating && s.mb.heldCmds.any (fun x => match x.path with
    | .ring g _ _ => g == f
    | _ => false)

/-- The checks of a command that executes, in the order of log 16; none: it is admitted. -/
def State.admission (s : State) (i : CmdInfo) (p : Path) (op : Nat) (b : Bytes) : Option Reply :=
  let obj := if i.std then 0 else rd b 4 4
  if b.length < i.len ∨ pathMax p < b.length then some (std rcInvalidLength)
  else if (i.mgmt && !s.isMgmt (who p)) || (op == 0xC030 && who p != 15) then some (refuse i.std stNotPermitted obj)
  else if s.pw.state = .sleep ∧ !i.sleep then some (refuse i.std stPowerState obj)
  else if s.fc.safe && !i.safe then some (refuse i.std stSafe obj)
  else if decide (who p < 4) && s.isFrozen (who p) && !i.frozen then some (refuse i.std stFrozen obj)
  else if i.media && !s.mediaReady then some (refuse i.std stBusy obj)
  else if i.cls = 1 ∧ 4 ≤ s.mb.sActive.length then some (refuse i.std stBusy obj)
  else none

/-- What a command does once it is admitted. -/
abbrev Body := Path → Bytes → State → State × Reply

/-- Whether an answer is the acceptance of a background operation (14 R493). -/
def isAcceptance (i : CmdInfo) (r : Reply) : Bool :=
  if i.std then r.rc == rcBgStarted else r.status == stBgStarted && i.cls == 2

/-- Whether an answer is owed later, by the event that ends the command (15 R557, class S retraining). -/
def owedLater : Reply := ⟨0xFFFF, []⟩

/-- Counts an answer: completions per class and BUSY (18 R636 nodes 0 and 1; 14 R526). -/
def State.countAnswer (s : State) (i : CmdInfo) (r : Reply) : State :=
  let s1 := if r.rc = rcBusy ∨ (!i.std ∧ r.status = stBusy) then s.count 1 3 else s
  if isAcceptance i r then s1.count 0 3
  else if i.cls = 0 then ({ s1 with mb := { s1.mb with nF := s1.mb.nF + 1 } }).count 0 1
  else ({ s1 with mb := { s1.mb with nS := s1.mb.nS + 1 } }).count 0 2

/-- A command executes and answers. -/
def State.execute (s : State) (i : CmdInfo) (p : Path) (op : Nat) (b : Bytes) (body : Body) : State :=
  let s1 := (s.leaveIdle).count 0 0
  let r := match s1.admission i p op b with
    | some r => (s1, r)
    | none => body p b s1
  if r.2 = owedLater then r.1
  else (r.1.countAnswer i r.2).complete p r.2 (!isAcceptance i r.2)

/-- Counts the arrival of a command by its path (18 R636 nodes 1 and 7). -/
def State.countArrival (s : State) (p : Path) : State :=
  match p with
  | .sideband => (s.count 1 2).count 7 0
  | .ring f k tag => s.ringTake f k tag
  | _ => s.count 1 0

/-- A command arrives on a path. -/
def State.command (s : State) (p : Path) (op : Nat) (b : Bytes) (body : Body) : State :=
  match cmdInfo op with
  | none => s
  | some i =>
    match s.arrival p op with
    | .lost => s
    | .hold => (s.countArrival p).holdCmd p op b
    | .wake c => ((s.countArrival p).beginWake c).holdCmd p op b
    | .wakeRun c => ((s.countArrival p).beginWake c).execute i p op b body
    | .run => (s.countArrival p).execute i p op b body

/-! ### Background operations (14 R503, R684) -/

/-- The background operations running. -/
def State.running (s : State) : List BgOp := s.mb.ops.filter (fun o => o.running)

/-- The operations whose handles stay known: once all 65,535 handles are in use, the oldest completed one goes (log 11). -/
def State.keptOps (s : State) : List BgOp :=
  if s.mb.ops.length < 65535 then s.mb.ops else s.mb.ops.eraseP (fun o => !o.running)

/-- The next background handle: the smallest from 1 that no kept operation has (log 11). -/
def State.newHandle (s : State) : Nat :=
  firstFree (fun h => s.keptOps.any (fun o => o.handle == h)) (s.mb.ops.length + 1) 1

/-- Whether a principal may start one more background operation (14 R503). -/
def State.bgRoom (s : State) (w : Nat) : Bool :=
  decide (s.running.length < 8) && decide ((s.running.filter (fun o => o.who == w)).length < 4)

/-- Starts a background operation: its handle at acceptance, or BUSY beyond the limits (14 R503). -/
def State.startBg (s : State) (p : Path) (op obj : Nat) (work : BgWork) (total : Nat) (clamped : Bool := false) :
    State × Reply :=
  if s.bgRoom (who p) then
    let h := s.newHandle
    ({ s with mb := { s.mb with ops := s.keptOps ++ [⟨h, who p, p, op, obj, work, 0, total, 0, true, clamped⟩] } },
      if op < 0xC000 then std rcBgStarted else accepted h obj)
  else (s, refuse (decide (op < 0xC000)) stBusy obj)

/-- The operation of a handle. -/
def State.opAt (s : State) (h : Nat) : Option BgOp := s.mb.ops.find? (fun o => o.handle == h)

/-- Changes the operation of a handle. -/
def State.modOp (s : State) (h : Nat) (g : BgOp → BgOp) : State :=
  { s with mb := { s.mb with ops := s.mb.ops.map (fun o => if o.handle == h then g o else o) } }

/-- Progress in percent (14 R684): 100 only when the operation has completed. -/
def BgOp.percent (o : BgOp) : Nat :=
  if !o.running && o.status != stAborted && o.status != stEntryAbandoned then 100
  else min 99 (if o.total = 0 then 0 else 100 * o.done / o.total)

/-- A background operation ends with a status: its final completion (14 R493), and vector 0 for a mailbox (02 R79). -/
def State.endOp (s : State) (h st : Nat) (data : Bytes := []) : State :=
  match s.opAt h with
  | none => s
  | some o =>
    if !o.running then s
    else
      let st' := if st = stSuccess ∧ o.clamped then stClamped else st
      let s1 := s.modOp h (fun o => { o with running := false, status := st' })
      let r := if o.op < 0xC000 then (if st' < 0x100 then std st' data else refuse true st' 0)
        else ⟨rcSuccess, le 2 st' ++ le 2 h ++ le 4 o.obj ++ data⟩
      let s2 := s1.complete o.path r true
      match o.path with
      | .primary f => s2.vector f 0
      | .secondary f => s2.vector f 0
      | _ => s2

/-- A background operation of a kind that runs. -/
def State.bgOf (s : State) (sel : BgWork → Bool) : Option BgOp := s.running.find? (fun o => sel o.work)

/-! ### Staging (14 R505 to R509) -/

/-- The session of a number that a principal opened. -/
def State.session (s : State) (n w : Nat) : Option Session :=
  s.mb.sessions.find? (fun x => x.number == n && x.who == w)

/-- What identifies a staged object: a deletion names the same object as the creation (14 R507). -/
def stageKey (op : Nat) : Nat := if op = 0xC101 then 0xC100 else if op = 0xC301 then 0xC300 else op

/-- Whether a staged entry is of the given object. -/
def Staged.sameAs (x : Staged) (op obj lvl : Nat) : Bool := stageKey x.op == stageKey op && x.obj == obj && x.lvl == lvl

/-- Stages an object with the payload as applied (14 R505 to R508). -/
def State.stage (s : State) (p : Path) (op kind obj lvl : Nat) (inRange : Bool) (b : Bytes) (rules : List FieldRule) :
    State × Reply :=
  match s.session (rd b 0 2) (who p) with
  | none => (s, ans stSessionUnknown obj)
  | some x =>
    let touch (s : State) : State := { s with mb := { s.mb with
      sessions := s.mb.sessions.map (fun y => if y.number == x.number then { y with lastAt := s.now } else y) } }
    if !inRange then (touch s, ans stObjectAbsent obj)
    else if s.mb.sessions.any (fun y => y.number != x.number && y.staged.any (fun z => z.sameAs op obj lvl)) then
      (touch s, ans stObjectStaged obj)
    else
      let rest := x.staged.filter (fun z => !z.sameAs op obj lvl)
      if 16384 ≤ rest.length then (touch s, ans stSessionFull obj)
      else
        let c := applyRules rules b
        let y : Session := { x with
          staged := rest ++ [⟨op, obj, lvl, c.1⟩]
          report := x.report.add (clampEntries op kind obj 0 c.2)
          lastAt := s.now }
        ({ s with mb := { s.mb with sessions := s.mb.sessions.map (fun z => if z.number == x.number then y else z) } },
          ans (okStatus c.2) obj)

/-! ### Queries (15 R535) -/

/-- A query over the object numbers below `n`: COUNT records of `size` bytes from OBJECT upward, cut to the path's payload;
then the next object not returned. -/
def query (p : Path) (op : Nat) (b : Bytes) (s : State) (n size : Nat) (rec : Nat → Bytes) : State × Reply :=
  let obj := rd b 4 4
  if n ≤ obj then (s, ans stObjectAbsent obj)
  else
    let given := rd b 8 4
    let fit := max 1 ((pathMax p - 8) / size)
    let room := match p with
      | .ring _ _ _ => 65536
      | _ => fit
    let c1 := min (clampN 1 65536 given) room
    let c := min c1 (n - obj)
    let cl := if c1 = given then [] else [(8, given, c1)]
    let next := if obj + c < n then obj + c else 0xFFFFFFFF
    (s.direct p op 22 obj cl, ans (okStatus cl) next (((List.range c).map (fun i => rec (obj + i))).flatten))

end Sys2Proof.Machine
end

