-- ==== Sys2Proof/Machine/Bw.lean ====
section
/-! DEFINITION. Memory service classes, budgets, guarantees and service stamps, and how a line access enters a channel's
queue (09 R317 to R320; 10 R348 to R372). -/

namespace Sys2Proof.Machine
open Sys2Proof

/-! ### Classes (10 R348 to R351) -/

/-- The default row of the class table (10 R351): codes 0 to 3 the hosts, 8 QE, 9 CE, 10 MIG, 11 SCRUB, 12 REKEY, 13 FILL,
14 MUCK, 15 NM. -/
def defaultRow : List Nat := [3, 3, 3, 3, 0, 0, 0, 0, 1, 2, 6, 5, 6, 4, 6, 2]

/-- A row of the class table: 0 to 63 the regions, 64 everything outside them (10 R348). -/
def State.classRow (s : State) (row : Nat) : List Nat := sget defaultRow s.bw.cls row

/-- The class of a requester's access to a row (10 R349). -/
def State.classFor (s : State) (row who : Nat) : Nat := (s.classRow row).getD who 0

/-- The row of a region number, or row 64 (10 R348). -/
def rowOf (region : Option Nat) : Nat := region.getD 64

/-- The class a request has as it enters a channel queue: MSC7 while its requester is lowered (10 R355). -/
def State.entryClass (s : State) (row who : Nat) : Nat := if who ∈ s.bw.lowered then 7 else s.classFor row who

/-! ### Service stamps (10 R365 to R367) -/

/-- The index of a class and requester in the stamp tables. -/
def stampKey (cls who : Nat) : Nat := cls * 16 + who

/-- A requester's weight (10 R365). -/
def State.weightOf (s : State) (who : Nat) : Nat := sget 16 s.bw.weight who

/-- What one line adds to a stamp: 64 / weight, in units of 2^-32 (10 R365). -/
def State.stampStep (s : State) (who : Nat) : Nat := 64 * 2 ^ 32 / max 1 (s.weightOf who)

/-- Whether a requester has a request of a class queued at any channel (10 R367). -/
def State.backlogged (s : State) (cls who : Nat) : Bool :=
  s.mc.chans.any (fun m => m.subs.any (fun u => (u.readQ ++ u.writeQ).any (fun q => q.cls == cls && q.who == who && !q.held)))

/-- A requester that queues a first request of a class is raised to the smallest stamp of those backlogged (10 R367). -/
def State.raiseStamp (s : State) (cls who : Nat) : State :=
  if s.backlogged cls who then s
  else
    match minBy id (((List.range 16).filter (fun r => s.backlogged cls r)).map (fun r => sget 0 s.bw.stamp (stampKey cls r))) with
    | none => s
    | some m => { s with bw := { s.bw with
        stamp := smod 0 s.bw.stamp (stampKey cls who) (fun v => max v m)
        stampPub := smod 0 s.bw.stampPub (stampKey cls who) (fun v => max v m) } }

/-- A scheduler's copy of a stamp: the last one sent, and its own services since (10 R366). -/
def State.stampAt (s : State) (u : SubCh) (cls who : Nat) : Nat :=
  sget 0 s.bw.stampPub (stampKey cls who) + sget 0 u.own (stampKey cls who)

/-! ### Entering a channel queue (09 R317; 10 R355) -/

/-- Changes a subchannel. -/
def State.modSub (s : State) (c u : Nat) (g : SubCh → SubCh) : State :=
  s.modChan c (fun m => { m with subs := lmod m.subs u g })

/-- A line access of a requester enters the queue of the subchannel that its line lies on; `id` names the fetch that waits for
it, 0 for none. While the 96 read or 64 write entries of the queue are in use, the router holds it with the class of the class table (09 R317;
10 R349). A read that matches a queued write is served from the write queue (09 R318). -/
def State.enterQueue (s : State) (c cla : Nat) (write : Bool) (who row id : Nat) : State :=
  if s.fenced c then s
  else
    let u := (s.placeOf c (s.remap c cla)).sub
    let x := (s.chan c).subs.getD u SubCh.reset
    let full := if write then decide (64 ≤ x.writeQ.length) else decide (96 ≤ x.readQ.length)
    let cls := if full then s.classFor row who else s.entryClass row who
    let s1 := if full then s else s.raiseStamp cls who
    let r : ChanReq := ⟨id, s1.mc.nextId, cla, write, who, cls, false, s1.now, full⟩
    if !write && x.writeQ.any (fun q => q.cla == cla && !q.held) then s1 else
    let s2 := s1.modSub c u (fun q => if write then { q with writeQ := q.writeQ ++ [r] } else
      { q with
        readQ := q.readQ ++ [r]
        drain := q.drain && !(q.drainIdle && decide (q.writeQ.length < 48))
        drainIdle := q.drainIdle && !(q.drainIdle && decide (q.writeQ.length < 48)) })
    { s2 with mc := { s2.mc with nextId := s2.mc.nextId + 1 } }

/-- The channel accesses of one line read: the copy it is served from, or the rest of its row (03 R122; 07 R243, R244). -/
def State.queueRead (s : State) (l : Loc) (who row id : Nat) : State :=
  let c := s.pickCopy l
  if s.readable c l.cla && !(s.holding c && l.row.isSome) then s.enterQueue c l.cla false who row id
  else match l.mirror, l.row with
    | none, some r => (rowOthers r c).foldl (fun s d => s.enterQueue d l.cla false who row id) s
    | _, _ => s.enterQueue c l.cla false who row id

/-- Requests that the router holds enter a queue as its entries become free, in their order; those of a lowered requester enter with MSC7 (09 R317,
R320; 10 R355). -/
def SubCh.enter (x : SubCh) (lowered : List Nat) (now : Nat) : SubCh :=
  let go (n : Nat) (l : List ChanReq) : List ChanReq :=
    (l.take n).map (fun (q : ChanReq) =>
      if q.held then { q with held := false, at_ := now, cls := if q.who ∈ lowered then 7 else q.cls } else q) ++ l.drop n
  { x with readQ := go 96 x.readQ, writeQ := go 64 x.writeQ }

/-- The held requests of a subchannel for which its queues have entries, by class and requester (09 R317; 10 R355). -/
def SubCh.entering (x : SubCh) (lowered : List Nat) : List (Nat × Nat) :=
  ((x.readQ.take 96 ++ x.writeQ.take 64).filter (fun q => q.held)).map (fun q => (if q.who ∈ lowered then 7 else q.cls, q.who))

/-- Lets the requests that the router holds into the queues of a subchannel (09 R317; 10 R355, R367). -/
def State.letIn (s : State) (c u : Nat) : State :=
  (((s.chan c).subs.getD u SubCh.reset).entering s.bw.lowered |>.foldl (fun s e => s.raiseStamp e.1 e.2) s).modSub c u
    (fun x => x.enter s.bw.lowered s.now)

/-- What a write of a line knows of its stripe row (03 R120, R121). -/
inductive StripeWrite where
  /-- A partial-stripe write: the old data and the old parity are read. -/
  | part
  /-- A partial-stripe write whose requester has read the old data: the old parity is read. -/
  | known
  /-- One line of a write that covers every data unit of its row: the row's parity is written with its first unit, and nothing is read. -/
  | full
  deriving DecidableEq, Repr

/-- The reads that form the parity of a partial-stripe write: the old data and the old parity; the rest of the row where the old data is
reconstructed; none where the parity is not written (03 R120; 07 R246; 09 R335). -/
def State.partReads (s : State) (l : Loc) (r : List Nat × Nat) (known : Bool) : List Nat :=
  let ok (d : Nat) : Bool := s.readable d l.cla && !s.holding d
  if !s.writable r.2 l.cla then []
  else if known then (if s.readable r.2 l.cla then [r.2] else rowOthers r r.2)
  else if ok l.ch then [l.ch] ++ (if s.readable r.2 l.cla then [r.2] else (rowOthers r r.2).filter (· != l.ch))
  else rowOthers r l.ch

/-- The channel accesses of one line write: its copies, or a row's parity with the reads that form it (03 R120, R121; 07 R241, R246). -/
def State.queueWrite (s : State) (l : Loc) (who row : Nat) (mode : StripeWrite := .part) : State :=
  let reads (known : Bool) (r : List Nat × Nat) (s : State) : State :=
    (s.partReads l r known).foldl (fun s d => s.enterQueue d l.cla false who row 0) s
  let write (c : Nat) (s : State) : State := s.enterQueue c l.cla true who row 0
  match l.mirror, l.row with
  | some m, _ => write m (write l.ch s)
  | none, some r =>
    match mode with
    | .part => write r.2 (write l.ch (reads false r s))
    | .known => write r.2 (write l.ch (reads true r s))
    | .full => if r.1.head? = some l.ch then write r.2 (write l.ch s) else write l.ch s
  | none, none => write l.ch s

/-! ### Budgets (10 R353 to R357) -/

/-- Charges a requester for one line (10 R354, R355). -/
def State.charge (s : State) (who : Nat) : State :=
  let v := sget 0 s.bw.charge who + 64
  let budget := sget 0 s.bw.budget who * 64
  let s1 := { s with bw := { s.bw with charge := sset 0 s.bw.charge who v } }
  if budget ≠ 0 ∧ budget < v ∧ ¬ who ∈ s.bw.lowered then
    ({ s1 with bw := { s1.bw with
      lowered := s1.bw.lowered ++ [who]
      loweredCnt := smod 0 s1.bw.loweredCnt who (satAdd (2 ^ 32 - 1) 1) } }).count 11 2
  else s1

/-- Counts a line served on a channel (10 R365, R370). -/
def State.served (s : State) (c u : Nat) (q : ChanReq) : State :=
  let step := s.stampStep q.who
  let s1 := { s with bw := { s.bw with
    stamp := smod 0 s.bw.stamp (stampKey q.cls q.who) (· + step)
    clsLines := smod 0 s.bw.clsLines (c * 8 + q.cls) (fun n => (n + 1) % 2 ^ 48)
    reqLines := smod 0 s.bw.reqLines (c * 16 + q.who) (fun n => (n + 1) % 2 ^ 48) } }
  (s1.modSub c u (fun x => { x with own := smod 0 x.own (stampKey q.cls q.who) (· + step) })).charge q.who

/-- BUDGET_WINDOW_END (10 R357): it is due one window after the last. -/
def budgetWindowEnd (s : State) : State :=
  let s1 := s.advance (s.bw.windowAt + s.bw.window * 1000)
  { s1 with bw := { s1.bw with charge := [], lowered := [], window := s1.bw.windowNext, windowAt := s1.now } }

/-- BW_STAMP_UPDATE (10 R366). -/
def bwStampUpdate (s : State) : State :=
  { s with
    bw := { s.bw with stampPub := s.bw.stamp }
    mc := { s.mc with chans := s.mc.chans.map (fun (m : Mc) =>
      { m with subs := m.subs.map (fun (u : SubCh) => { u with own := [] }) }) } }

/-! ### Guarantees (10 R358 to R364) -/

/-- Whether a channel is in service: neither fenced nor unpopulated (10 R358). -/
def State.inService (s : State) (c : Nat) : Bool := !s.fenced c

/-- The channels in service. -/
def State.serving (s : State) : List Nat := (List.range 12).filter s.inService

/-- The refresh reserve of a channel (09 R326). -/
def State.refReserve (s : State) (c : Nat) : Nat := if (s.chan c).hot then 68 else 34

/-- The admissible count A of a channel (10 R359). -/
def State.admissible (s : State) (c : Nat) : Nat := if s.inService c then 700 - s.refReserve c - 8 else 0

/-- The committed slot count of a class on a channel (10 R358): guarantees in units of 0.5 GB/s, rates in MT/s. -/
def State.wanted (s : State) (c k : Nat) : Nat :=
  let num := 1024 * s.bw.guar.getD k 0 * 500
  let den := s.serving.length * (s.chan c).rate * 8
  if den = 0 then 0 else (num + den - 1) / den

/-- Cuts the excess of slot counts from the highest class number down (10 R360). -/
def cutExcess (a : List Nat) (excess : Nat) : List Nat :=
  ((List.range 8).reverse.foldl (fun (acc : List Nat × Nat) k =>
    let cut := min (acc.1.getD k 0) acc.2
    (lset acc.1 k (acc.1.getD k 0 - cut), acc.2 - cut)) (a, excess)).1

/-- The applied slot counts of a channel (10 R360; log 77). -/
def State.appliedOf (s : State) (c : Nat) : List Nat :=
  if s.inService c then
    let g := (List.range 8).map (s.wanted c)
    cutExcess g (g.foldl (· + ·) 0 - s.admissible c)
  else List.replicate 8 0

/-- The applied slot counts of every channel. -/
def State.appliedAll (s : State) : List (List Nat) := (List.range 12).map s.appliedOf

/-- The cuts: channel, class, committed and applied slot counts (10 R361). -/
def State.cuts (s : State) : List (Nat × Nat × Nat × Nat) :=
  (s.serving.map (fun c => (List.range 8).filterMap (fun k =>
    let a := (s.appliedOf c).getD k 0
    if a < s.wanted c k then some (c, k, s.wanted c k, a) else none))).flatten

/-- Whether every committed guarantee is applied in full; with no channel in service only no guarantee is (10 R360, R369). -/
def State.guarWhole (s : State) : Bool :=
  s.cuts.isEmpty && (!s.serving.isEmpty || s.bw.guar.all (· == 0))

/-- The channels and classes that are cut, as bits, and the cause: 1 a change of a channel, 2 no channel in service (10 R361, R369; log 34). -/
def State.cutDetail (s : State) : Nat :=
  bitsOf (s.cuts.map (fun x => x.1)) + bitsOf (s.cuts.map (fun x => x.2.1)) * 2 ^ 12 + (if s.serving.isEmpty then 2 else 1) * 2 ^ 20

/-- Recomputes the applied guarantees outside a commit (10 R360, R361). -/
def State.rescale (s : State) : State :=
  let applied := s.appliedAll
  let s1 := { s with bw := { s.bw with applied := applied, rescaled := !s.guarWhole } }
  if !s.guarWhole then
    if applied = s.bw.applied ∧ s.bw.rescaled then s1
    else s1.report bwRescaled s1.cutDetail
  else if s.bw.rescaled then s1.report bwRestored 0
  else s1

/-- Recomputes at a commit: cuts are clamps (10 R361; log 34). -/
def State.rescaleCommit (s : State) : State × List (Nat × Nat × Nat × Nat) :=
  let whole := s.guarWhole
  let s1 := { s with bw := { s.bw with applied := s.appliedAll, rescaled := !whole } }
  (if whole && s.bw.rescaled then s1.report bwRestored 0 else s1, s.cuts)

/-- What a credit stands at when nothing is owed: a class may own slots ahead of its share (log 18). -/
def slotDebt : Nat := 2 ^ 20

/-- Starts a subchannel's next frame with the counts applied now (10 R362; log 38). -/
def State.startFrame (s : State) (c u : Nat) : State :=
  let a := s.bw.applied.getD c []
  s.modSub c u (fun x => if x.frame = a then x else { x with frame := a, credit := [] })

/-- The longest run of slots in which a class with `a` owned slots a frame owns none, and one (10 R362). -/
def slotGap (a : Nat) : Nat := (1024 + a - 1) / a

/-- Whether the classes that must own a slot within the next `j` slots leave no slot to spare, `left` being the slots each may still wait: there
is a demand for each, or, from 6 slots on, for all but one (10 R362; log 18). -/
def slotsTight (frame : List Nat) (left : Nat → Nat) (ks : List Nat) (j : Nat) : Bool :=
  let need := total (ks.map (fun k => if left k ≤ j then 1 + (j - left k) / slotGap (frame.getD k 0) else 0))
  decide (j ≤ need) || (decide (6 ≤ j) && decide (j ≤ need + 1))

/-- The owner of the coming slot (10 R362): of the classes that must own one of the next slots where these leave none to spare, and otherwise of those whose
share has come to a whole slot, the one that has waited longest for its gap (log 18). -/
def slotOwner (frame credit since : List Nat) : Option Nat :=
  let ks := (List.range 8).filter (fun k => decide (0 < frame.getD k 0))
  let left (k : Nat) : Nat := slotGap (frame.getD k 0) - since.getD k 0
  let key (k : Nat) : Nat := left k * 2 ^ 40 / slotGap (frame.getD k 0)
  match ((List.range 12).map (· + 1)).find? (slotsTight frame left ks) with
  | some j => minBy key (ks.filter (fun k => decide (left k ≤ j)))
  | none => minBy key (ks.filter (fun k => decide (slotDebt + 1024 ≤ credit.getD k slotDebt + frame.getD k 0)))

/-- The credits once a slot has passed to its owner, above `slotDebt` (log 18). -/
def slotPass (frame credit : List Nat) (owner : Option Nat) : List Nat :=
  (List.range 8).map (fun k =>
    let v := credit.getD k slotDebt + frame.getD k 0
    if owner = some k then v - 1024 else v)

/-- The slots since each class last owned one (10 R362). -/
def slotSince (frame since : List Nat) (owner : Option Nat) : List Nat :=
  (List.range 8).map (fun k => if owner = some k ∨ frame.getD k 0 = 0 then 0 else since.getD k 0 + 1)

/-! ### BW_QUERY (15 R535) -/

/-- A requester's record: its configuration, then whether it is lowered, windows lowered, and its lines on each channel (log
17). -/
def State.bwRecord (s : State) (r : Nat) : Bytes :=
  if 4 ≤ r ∧ r < 8 then List.replicate 112 0
  else
    le 4 (sget 0 s.bw.budget r) ++ le 1 (s.weightOf r) ++ le 1 (b2n (decide (r ∈ s.bw.lowered))) ++ le 2 0 ++
      le 4 (sget 0 s.bw.loweredCnt r) ++ le 4 0 ++
      ((List.range 12).map (fun c => le 8 (sget 0 s.bw.reqLines (c * 16 + r)))).flatten

/-- BW_QUERY (10 R372; 15 R535). -/
def bwQuery : Body := fun p b s => query p 0xC423 b s 16 112 s.bwRecord

def execBwQuery (p : Path) (b : Bytes) (s : State) : Host.Outcome State Fault Refusal :=
  .next (s.command p 0xC423 b bwQuery)

def execBudgetWindowEnd (s : State) : Host.Outcome State Fault Refusal := .next (budgetWindowEnd s)

def execBwStampUpdate (s : State) : Host.Outcome State Fault Refusal := .next (bwStampUpdate s)

end Sys2Proof.Machine
end

