-- ==== Sys2Proof/Machine/Mgmt.lean ====
section
/-! DEFINITION. Management commands that act on the management path itself: rings, privilege, freezing, handles, latency
registers (14; 15 R537 to R544, R552). -/

namespace Sys2Proof.Machine
open Sys2Proof

/-- Whether VALID bit `n` of a control command is 1 (15 R531, R533). -/
def validBit (b : Bytes) (n : Nat) : Bool := (rd b 2 2).testBit n

/-- The rules of the fields of a control command whose VALID bit is 1 (15 R533). -/
def validRules (b : Bytes) (rs : List (Nat × FieldRule)) : List FieldRule :=
  rs.filterMap (fun r => if validBit b r.1 then some r.2 else none)

/-- BG_QUERY: each handle of the principal, as handle, opcode, state, progress and final status (14 R503; 15 R537). The
record's layout is the model's (log 17). -/
def bgRecord (o : BgOp) : Bytes :=
  le 2 o.handle ++ le 2 o.op ++ le 1 (b2n (!o.running)) ++ le 1 o.percent ++ le 2 (if o.running then 0 else o.status)

def bgQuery : Body := fun p b s =>
  let obj := rd b 4 4
  let mine := s.mb.ops.filter (fun o => o.who == who p)
  if obj = 0xFFFFFFFF then (s, ans stSuccess 0xFFFFFFFF ((mine.map bgRecord).flatten))
  else match mine.find? (fun o => o.handle == obj) with
    | some o => (s, ans stSuccess 0xFFFFFFFF (bgRecord o))
    | none => (s, ans stHandleUnknown obj)

/-- FCR_REGISTER of the issuing function (14 R489; 15 R538). -/
def fcrRegister : Body := fun p b s =>
  let obj := rd b 4 4
  let f := who p
  if f = 15 then (s, ans stNotPermitted obj)
  else if obj ≠ 0 then (s, ans stObjectAbsent obj)
  else if (s.fnAt f).ringOn then (s, ans stFcrActive obj)
  else
    let c := applyRules [⟨8, 8, roundDown 4096⟩, ⟨16, 8, roundDown 4096⟩, ⟨24, 4, pow2Below 6 12⟩, fRange 30 2 1 64,
      fRange 32 2 1 1000] b
    let q : Fcr := ⟨rd c.1 8 8, rd c.1 16 8, rd c.1 24 4, rd c.1 30 2, rd c.1 32 2, 0, [], [], 0, 0⟩
    let s1 := s.modFn f (fun h => { h with fcr := some q, fcrProd := 0, fcrCons := 0, fcrHalted := false })
    (s1.direct p 0xC020 14 obj c.2, ans (okStatus c.2) obj)

/-- FCR_DEREGISTER (14 R489; 15 R537). -/
def fcrDeregister : Body := fun p b s =>
  let obj := rd b 4 4
  let f := who p
  if f = 15 then (s, ans stNotPermitted obj)
  else if obj ≠ 0 ∨ !(s.fnAt f).ringOn then (s, ans stObjectAbsent obj)
  else (s.modFn f (fun h => { h with fcr := none, fcrHalted := false }), ans stSuccess obj)

/-- MGMT_DESIGNATE, board controller only (14 R499, R500). -/
def mgmtDesignate : Body := fun _ b s =>
  let f := rd b 4 4
  if 4 ≤ f then (s, ans stObjectAbsent f)
  else ({ s with mb := { s.mb with mgmt := f } }, ans stSuccess f)

/-- FREEZE_CTL (14 R516; 15 R552). -/
def freezeCtl : Body := fun p b s =>
  let obj := rd b 4 4
  if obj ≠ 0 then (s, ans stObjectAbsent obj)
  else
    let c := applyRules (validRules b [(0, fRange 8 2 1 65535)]) b
    let s1 := if validBit b 0 then { s with mb := { s.mb with freezeThr := rd c.1 8 2 } } else s
    (s1.direct p 0xC410 17 obj c.2, ans (okStatus c.2) obj)

/-- The freeze of `f` ends and its malformed count restarts (14 R518, R519). -/
def State.unfreeze (s : State) (f : Nat) : State :=
  { s with mb := { s.mb with frozen := s.mb.frozen &&& ~~~(1#4 <<< f), malfCount := lset s.mb.malfCount f 0 } }

/-- THAW (14 R518, R519). -/
def thaw : Body := fun _ b s =>
  let f := rd b 4 4
  if 4 ≤ f then (s, ans stObjectAbsent f)
  else if s.isFrozen f then (s.unfreeze f, ans stSuccess f)
  else (s, ans stSuccess f)

/-- HP_PORT_CFG: the initiator share of a port (02 R87; 15 R544). -/
def hpPortCfg : Body := fun p b s =>
  let port := rd b 4 4
  if 2 ≤ port then (s, ans stObjectAbsent port)
  else
    let c := applyRules (validRules b [(0, fRange 8 1 4 15)]) b
    let s1 := if validBit b 0 then s.modPort port (fun x => { x with share := rd c.1 8 1 }) else s
    (s1.direct p 0xC430 16 port c.2, ans (okStatus c.2) port)

/-- The 1 ms malformed-submission windows restart (14 R516). -/
def freezeWindowEnd (s : State) : State :=
  let s1 := s.advance (s.mb.malfWin + 1000000)
  { s1 with mb := { s1.mb with malfCount := [0, 0, 0, 0], malfWin := s1.now } }

/-- The bound of a class in µs (14 R494). -/
def classBound (cls : Nat) : Nat := if cls = 1 then 10000 else 1000

/-- A command exceeds its bound: it raises MB_BOUND_MISSED; its response time above the bound is free (14 R498, R526; log 51). -/
def boundMissed (p : Path) (op : Nat) (s : State) : State :=
  let cls := ((cmdInfo op).map (fun i => i.cls)).getD 0
  let t := min 65535 (classBound cls + 1 + s.freeVal)
  let s1 := s.drawn
  let s2 := { s1 with mb := { s1.mb with
    boundMiss := satAdd (2 ^ 32 - 1) s1.mb.boundMiss 1
    latF := if cls = 1 then s1.mb.latF else max s1.mb.latF t
    latS := if cls = 1 then max s1.mb.latS t else s1.mb.latS } }
  (s2.report mbBoundMissed op (some (who p))).count 1 4

/-- What MB_LAT_F and MB_LAT_S read: the largest response since the last read. A response within its bound is a free value,
for the spec states only the bound (14 R494, R526; log 3; log 51). -/
def latValue (known n bound free : Nat) : Nat := if n = 0 then known else max known (free % (bound + 1))

/-- MB_LAT_F is read and cleared (14 R526). -/
def latFRead (s : State) : State :=
  let v := latValue s.mb.latF s.mb.nF 1000 s.freeVal
  let s1 := s.drawn
  { s1 with mb := { s1.mb with latF := 0, nF := 0 } }.emit (.regValue v)

/-- MB_LAT_S is read and cleared (14 R526). -/
def latSRead (s : State) : State :=
  let v := latValue s.mb.latS s.mb.nS 10000 s.freeVal
  let s1 := s.drawn
  { s1 with mb := { s1.mb with latS := 0, nS := 0 } }.emit (.regValue v)

/-- A malformed MCTP or SMBus transaction: SB_PROTOCOL at INFO (16 R563). -/
def sidebandMalformed (s : State) : State :=
  if s.mbReady && s.awake then ((s.report sbProtocol 0).count 7 0).count 7 1 else s

/-! ### The commands -/

def execBgQuery (p : Path) (b : Bytes) (s : State) : Host.Outcome State Fault Refusal :=
  .next (s.command p 0xC010 b bgQuery)

def execFcrRegister (p : Path) (b : Bytes) (s : State) : Host.Outcome State Fault Refusal :=
  .next (s.command p 0xC020 b fcrRegister)

def execFcrDeregister (p : Path) (b : Bytes) (s : State) : Host.Outcome State Fault Refusal :=
  .next (s.command p 0xC021 b fcrDeregister)

def execMgmtDesignate (p : Path) (b : Bytes) (s : State) : Host.Outcome State Fault Refusal :=
  .next (s.command p 0xC030 b mgmtDesignate)

def execFreezeCtl (p : Path) (b : Bytes) (s : State) : Host.Outcome State Fault Refusal :=
  .next (s.command p 0xC410 b freezeCtl)

def execThaw (p : Path) (b : Bytes) (s : State) : Host.Outcome State Fault Refusal :=
  .next (s.command p 0xC411 b thaw)

def execHpPortCfg (p : Path) (b : Bytes) (s : State) : Host.Outcome State Fault Refusal :=
  .next (s.command p 0xC430 b hpPortCfg)

/-- The answer of an opcode that no table lists: Unsupported, no effect (00 R20, 15 R561). -/
def State.unsupported (s : State) (p : Path) (op : Nat) (b : Bytes) : State :=
  match s.arrival p op with
  | .lost => s
  | .hold => (s.countArrival p).holdCmd p op b
  | .wake c | .wakeRun c => ((s.countArrival p).beginWake c).holdCmd p op b
  | .run => (((s.countArrival p).leaveIdle).count 0 0).complete p (std rcUnsupported) true

/-- A vendor opcode outside the assigned set (00 R20); an assigned one is no such command (log 6). -/
def execUnassignedVendorOpcode (p : Path) (opcode : Nat) (b : Bytes) (s : State) : Host.Outcome State Fault Refusal :=
  .next (if (cmdInfo opcode).isNone then s.unsupported p opcode b else s)

/-- An unsupported standard opcode (15 R561). -/
def execUnsupportedCxlCommand (p : Path) (opcode : Nat) (b : Bytes) (s : State) : Host.Outcome State Fault Refusal :=
  .next (if (cmdInfo opcode).isNone then s.unsupported p opcode b else s)

def execFreezeWindowEnd (s : State) : Host.Outcome State Fault Refusal := .next (freezeWindowEnd s)

def execCommandBoundMissed (p : Path) (opcode : Nat) (s : State) : Host.Outcome State Fault Refusal :=
  .next (boundMissed p opcode s)

def execMbLatFRead (s : State) : Host.Outcome State Fault Refusal := .next (latFRead s)

def execMbLatSRead (s : State) : Host.Outcome State Fault Refusal := .next (latSRead s)

def execMalformedSidebandTransaction (s : State) : Host.Outcome State Fault Refusal := .next (sidebandMalformed s)

end Sys2Proof.Machine
end

