-- ==== Sys2Proof/Machine/Codec.lean ====
section
/-! DEFINITION. The Elvivo bitstream: the decoder with its errors in the order of 06 R198, and the encoder (06 R191 to R199,
R209, R210). -/

namespace Sys2Proof.Machine
open Sys2Proof

/-! ### Bits of the stored space (06 R191) -/

/-- `k` bits of `v`, most significant first. -/
def toBits : Nat → Nat → List Bool
  | 0, _ => []
  | k + 1, v => v.testBit k :: toBits k v

/-- Takes the next `k` bits as a number, most significant first. -/
def takeBits : Nat → Nat → List Bool → Option (Nat × List Bool)
  | 0, acc, rest => some (acc, rest)
  | _ + 1, _, [] => none
  | k + 1, acc, x :: rest => takeBits k (2 * acc + b2n x) rest

/-- The bits of stored bytes. -/
def bitsOfBytes (b : Bytes) : List Bool := (b.map (fun x => toBits 8 x.toNat)).flatten

/-- Bytes of a bit list, the last padded with 0 (06 R196); `fuel` bounds the bytes. -/
def bytesOfBits : Nat → List Bool → Bytes
  | 0, _ => []
  | fuel + 1, l =>
    match l with
    | [] => []
    | _ => BitVec.ofNat 8 (((l.take 8) ++ List.replicate (8 - (l.take 8).length) false).foldl
        (fun v x => 2 * v + b2n x) 0) :: bytesOfBits fuel (l.drop 8)

/-! ### Profiles (06 R192 to R194) -/

/-- Word width and number of words of a profile (06 R192). -/
def profWidth (p : Nat) : Nat := if p = 1 then 32 else 64
def profWords (p : Nat) : Nat := if p = 1 then 128 else 64

/-- Residue width of a length class (06 R194). -/
def classBits (c : Nat) : Nat := [0, 1, 2, 3, 4, 5, 6, 8, 10, 12, 16, 24, 32, 48].getD c 0

/-- Reference distance of a predictor code (06 R193). -/
def codeDist (p code : Nat) : Nat :=
  if code = 1 then (if p = 2 then 2 else 1)
  else if code = 2 then (if p = 2 then 2 else 1)
  else if code = 3 then (if p = 2 then 1 else 2)
  else if code = 4 then 4 else 8

/-- Whether a class is legal in a profile (06 R194). -/
def classOk (p c : Nat) : Bool := decide (c < 14) && !(p == 1 && c == 13)

/-! ### Decoder (06 R195 to R199) -/

/-- A decoder error: its code, the stream bit position and the word index (06 R197, R224). -/
structure DecErr where
  code : Nat
  pos  : Nat
  word : Nat
  deriving DecidableEq, Repr

/-- A word from its reference and residue (06 R195). -/
def addResidue (w xd z : Nat) : Nat :=
  if z % 2 = 0 then (xd + z / 2) % 2 ^ w else (xd + 2 ^ w - (z / 2 + 1) % 2 ^ w) % 2 ^ w

/-- Decodes word `i`; `hist` holds the words before it, latest first. -/
def decodeWord (p i : Nat) (hist : List Nat) (rest : List Bool) (pos : Nat) : Except DecErr (Nat × List Bool × Nat) :=
  let w := profWidth p
  let delta (d : Nat) (rest : List Bool) (pos : Nat) : Except DecErr (Nat × List Bool × Nat) :=
    match takeBits 4 0 rest with
    | none => .error ⟨3, pos, i⟩
    | some (c, rest1) =>
      if !classOk p c then .error ⟨1, pos, i⟩
      else match takeBits (classBits c) 0 rest1 with
        | none => .error ⟨3, pos + 4, i⟩
        | some (z, rest2) => .ok (addResidue w (hist.getD (d - 1) 0) z, rest2, pos + 4 + classBits c)
  match takeBits 3 0 rest with
  | none => .error ⟨3, pos, i⟩
  | some (code, rest1) =>
    if p = 3 ∧ 2 ≤ code ∧ code ≤ 6 then .error ⟨1, pos, i⟩
    else if code = 0 then .ok (0, rest1, pos + 3)
    else if code = 7 then
      match takeBits w 0 rest1 with
      | none => .error ⟨3, pos + 3, i⟩
      | some (v, rest2) => .ok (v, rest2, pos + 3 + w)
    else if code = 6 then
      match takeBits 6 0 rest1 with
      | none => .error ⟨3, pos + 3, i⟩
      | some (d, rest2) =>
        if d = 0 then .error ⟨1, pos + 3, i⟩
        else if i < d then .error ⟨2, pos + 3, i⟩
        else delta d rest2 (pos + 9)
    else
      let d := codeDist p code
      if i < d then .error ⟨2, pos, i⟩
      else if code = 1 then .ok (hist.getD (d - 1) 0, rest1, pos + 3)
      else delta d rest1 (pos + 3)

/-- Decodes the last `n` of the words from word `i` on, and checks the padding (06 R196, R199). -/
def decodeWords (p : Nat) : Nat → Nat → List Nat → List Bool → Nat → Except DecErr (List Nat)
  | 0, i, hist, rest, pos =>
    match rest.findIdx? id with
    | some j => .error ⟨4, pos + j, i - 1⟩
    | none => .ok hist.reverse
  | n + 1, i, hist, rest, pos =>
    match decodeWord p i hist rest pos with
    | .error e => .error e
    | .ok (v, rest1, pos1) => decodeWords p n (i + 1) (v :: hist) rest1 pos1

/-- The bytes of words of `w` bits, little-endian (06 R192). -/
def wordsBytes (w : Nat) (ws : List Nat) : Bytes := (ws.map (fun x => le (w / 8) x)).flatten

/-- Decodes the stored space of a PACKED granule into its 512 bytes (06 R192, R198). -/
def decodeStream (profile : Nat) (stored : Bytes) : Except DecErr Bytes :=
  match takeBits 8 0 (bitsOfBytes stored) with
  | none => .error ⟨3, 0, 0⟩
  | some (h, rest) =>
    if 4 ≤ h then .error ⟨1, 0, 0⟩
    else if h ≠ profile then .error ⟨6, 0, 0⟩
    else match decodeWords h (profWords h) 0 [] rest 8 with
      | .error e => .error e
      | .ok ws => .ok (wordsBytes (profWidth h) ws)

/-! ### Encoder (06 R209, R210) -/

/-- The residue of a word against its reference (06 R195). -/
def residue (w x xd : Nat) : Nat :=
  let r := (x + 2 ^ w - xd) % 2 ^ w
  if r < 2 ^ (w - 1) then 2 * r else 2 * (2 ^ w - r) - 1

/-- The smallest class that holds a residue (06 R209). -/
def classFor (p z : Nat) : Option Nat := (List.range 14).find? (fun c => classOk p c && decide (z < 2 ^ classBits c))

/-- The candidates for a word, in order of code value and distance: each as its bits (06 R209). -/
def candidates (p i : Nat) (hist : List Nat) (x : Nat) : List (List Bool) :=
  let w := profWidth p
  let zero := if x = 0 then [toBits 3 0] else []
  let same := if codeDist p 1 ≤ i ∧ hist.getD (codeDist p 1 - 1) 0 = x then [toBits 3 1] else []
  let delta (d : Nat) (head : List Bool) : List (List Bool) :=
    if d ≤ i then
      let z := residue w x (hist.getD (d - 1) 0)
      match classFor p z with
      | some c => [head ++ toBits 4 c ++ toBits (classBits c) z]
      | none => []
    else []
  let deltas := if p = 3 then [] else
    (([2, 3, 4, 5].map (fun code => delta (codeDist p code) (toBits 3 code))).flatten) ++
      ((List.range (min 63 i)).map (fun k => delta (k + 1) (toBits 3 6 ++ toBits 6 (k + 1)))).flatten
  zero ++ same ++ deltas ++ [toBits 3 7 ++ toBits w x]

/-- Encodes words from word `i` on, each by its cheapest candidate (06 R209). -/
def encodeWords (p : Nat) : Nat → List Nat → List Nat → List Bool
  | _, _, [] => []
  | i, hist, x :: xs =>
    ((minBy List.length (candidates p i hist x)).getD []) ++ encodeWords p (i + 1) (x :: hist) xs

/-- The words of a granule under a profile. -/
def wordsOf (p : Nat) (g : Bytes) : List Nat := (List.range (profWords p)).map (fun i => rd g (i * (profWidth p / 8)) (profWidth p / 8))

/-- The stream of a granule under a profile. -/
def encodeStream (p : Nat) (g : Bytes) : List Bool := toBits 8 p ++ encodeWords p 0 [] (wordsOf p g)

/-- The profile and stored bytes of a granule under an effort, none where the stream exceeds 4,096 bits (06 R210). -/
def encodeGranule (probe : Bool) (g : Bytes) : Option (Nat × Bytes) :=
  let ps := if probe then [3] else [0, 1, 2]
  match minBy (fun (x : Nat × List Bool) => x.2.length) (ps.map (fun p => (p, encodeStream p g))) with
  | none => none
  | some (p, l) => if 4096 < l.length then none else some (p, bytesOfBits 512 l)

end Sys2Proof.Machine
end

