-- ==== Sys2Proof/Machine/Line.lean ====
section
/-! DEFINITION. Reading and writing one line of an extent, with fill-on-touch (07 R264 to R268). -/

namespace Sys2Proof.Machine
open Sys2Proof

/-- Region `n`. -/
def State.region (s : State) (n : Nat) : Option Region := oget s.rg.regions n

/-- Changes region `n`. -/
def State.modRegion (s : State) (n : Nat) (g : Region → Region) : State :=
  { s with rg := { s.rg with regions := omod s.rg.regions n g } }

/-- The region that holds a DPA (03 R103). -/
def State.regionAt (s : State) (dpa : Nat) : Option (Nat × Region) :=
  (oall s.rg.regions).find? (fun r => decide (r.2.base ≤ dpa ∧ dpa < r.2.base + r.2.size))

/-! ### Filling (07 R264, R266) -/

/-- What filling a block of an extent gives a region: yard runs of 8 join the free list, shed links the free chain (07 R264). The ends that
meet need a new header or pointer (06 R189). -/
def Region.fillBlock (r : Region) (kind blk : Nat) : Region :=
  if kind = 2 then
    let old := r.freeRuns.getD 7 []
    let runs := ((List.range 2048).map (fun i => blk * 16384 + i * 8)).filter (fun x => decide (x + 8 ≤ r.stalls))
    { r with
      freeRuns := lset r.freeRuns 7 (old ++ runs)
      dirtyRuns := r.dirtyRuns ++ (match old.getLast? with
        | some t => [t] ++ runs.take 1
        | none => []) }
  else if kind = 3 then
    let lo := blk * 2 ^ 20
    if lo + 2 ^ 20 ≤ r.shedBase then r
    else { r with
      freeLinks := r.freeLinks ++
        ((List.range 16384).map (fun i => (lo + i * 64 - r.shedBase) / 64)).filter (fun j => decide (j < r.shedLinks))
      dirtyLinks := r.dirtyLinks ++ r.freeLinks.getLast?.toList }
  else r

/-- The first write to an untouched block fills the block first (07 R266). -/
def Region.touch (r : Region) (kind off : Nat) : Region :=
  let x := r.ext kind
  if x.filledAt off then r else (r.setExt kind (x.touch off)).fillBlock kind (fillBlockOf off)

/-! ### Lines of an extent -/

/-- No upsets. -/
def ReadEnv.clean : ReadEnv := ⟨[], []⟩

/-- Whether a span of an extent covers the whole stripe row of an offset: then its lines are written as a full row (03 R121). -/
def Region.rowMode (r : Region) (lo hi off : Nat) : StripeWrite :=
  let row := 2 ^ (8 + r.grain) * max 1 (unitsPerRow r.protect r.mask)
  if r.protect = 2 ∧ lo ≤ off / row * row ∧ off / row * row + row ≤ hi then .full else .part

/-- The upsets of the lines of a fill block end when it is filled (07 R264, R266). -/
def State.fillUpsets (s : State) (protect grain mask : Nat) (x : Extent) (b : Nat) : State :=
  { s with mc := { s.mc with upsets := s.mc.upsets.filter (fun u =>
    match unlocate protect grain mask x u.1 u.2.1 with
    | some e => fillBlockOf e.1 != b
    | none => true) } }

/-- The first write to an untouched block of a region's extent fills it first (07 R266). -/
def State.touchBlock (s : State) (n kind off : Nat) : State :=
  match s.region n with
  | none => s
  | some r =>
    if (r.ext kind).filledAt off then s
    else (s.modRegion n (fun r => r.touch kind off)).fillUpsets r.protect r.grain r.mask (r.ext kind) (fillBlockOf off)

/-- Reads the copy on one channel without repair. -/
def State.readOn (s : State) (l : Loc) (scr : Bool) (w c : Nat) : State × LineRead :=
  if s.readable c l.cla then
    let r := s.readCopy ⟨[], []⟩ (readBy w) l scr c
    match r.2 with
    | .good p => (r.1, ⟨p.data, p.poison, p.kind, false⟩)
    | .badTag p => (r.1, ⟨p.data, true, p.kind, true⟩)
    | .media d _ => (r.1, ⟨d, true, false, true⟩)
  else (s, ⟨0, true, false, true⟩)

/-- Reads a line of a region's extent for a requester: zeros without an access where its block is not filled (07 R266). `sel`
reads one copy of a MIRROR line alone: 1 the primary, 2 its partner (06 R201). -/
def State.extRead (s : State) (n kind off w : Nat) (sel : Nat := 0) : State × LineRead :=
  match s.region n with
  | none => (s, ⟨0, true, false, true⟩)
  | some r =>
    let x := r.ext kind
    if !x.filledAt off then (s, ⟨0, false, false, false⟩)
    else
      let l := r.loc x off
      let a := match sel with
        | 0 => s.readLine ⟨[], []⟩ (readBy w) l r.scramble
        | 1 => s.readOn l r.scramble w l.ch
        | _ => s.readOn l r.scramble w (l.mirror.getD l.ch)
      (a.1.queueRead l w n 0, a.2)

/-- Logs a write of a PLAIN extent that is dropped, on a fenced channel or on a rank out for a forced repair (07 R255; 09 R336 step 4; log
49). -/
def State.fencedWrite (s : State) (l : Loc) (w : Nat) : State :=
  if l.mirror.isSome || l.row.isSome then s
  else if s.fenced l.ch then s.reportAgg (mcFencedAccess l.ch) 0 1000000000 (l.ch * 2 ^ 33 + l.cla) (some w)
  else if s.rankOut l.ch l.cla then s.emit (.dropLog w (l.ch * 2 ^ 33 + l.cla) 5)
  else s

/-- Writes a full line of a region's extent (07 R241, R266). -/
def State.extWrite (s : State) (n kind off w : Nat) (d : Line) (poison : Bool := false) (mode : StripeWrite := .part) : State :=
  let s1 := s.touchBlock n kind off
  match s1.region n with
  | none => s
  | some r =>
    let l := r.loc (r.ext kind) off
    ((s1.fencedWrite l w).queueWrite l w n mode).putLine l r.scramble d poison false w

/-- Writes part of a line: a read, a merge and a write (07 R241). -/
def State.extMerge (s : State) (n kind off w : Nat) (d : Line) (en : BitVec 64) (poison : Bool) : State :=
  let s1 := s.touchBlock n kind off
  match s1.region n with
  | none => s
  | some r =>
    let l := r.loc (r.ext kind) off
    (((s1.fencedWrite l w).mergeWrite ⟨[], []⟩ (readBy w) l r.scramble d en poison).queueRead l w n 0).queueWrite l w n .known

/-- The codec writes the headers and pointers of the free runs and links that have changed place in their lists, with the FREE marker on the
first stall of a run (06 R189, R190; 07 R228). They are no traffic of 03 R120 (log 12). -/
def State.writeFree (s : State) (n : Nat) : State :=
  match s.region n with
  | none => s
  | some r =>
    let near (l : List Nat) (i : Nat) : Option (Option Nat × Option Nat) := (l.findIdx? (· == i)).map (fun k =>
      (l[k + 1]?, if k = 0 then none else l[k - 1]?))
    let put (kind off : Nat) (d : Line) (free : Bool) (s : State) : State :=
      let l := r.loc (r.ext kind) off
      s.putLine l r.scramble d false free 14
    let s0 := s.modRegion n (fun r => { r with dirtyRuns := [], dirtyLinks := [] })
    let s1 := r.dirtyRuns.dedup.foldl (fun s i =>
      match (List.range 8).findSome? (fun len => (near (r.freeRuns.getD len []) i).map (fun x => (x, len + 1))) with
      | some (x, len) => put 2 (64 * i) (runHeader x.1 x.2 len) true s
      | none => s) s0
    r.dirtyLinks.dedup.foldl (fun s j =>
      match near r.freeLinks j with
      | some x => put 3 (r.shedBase + 64 * j) (freeLink x.1) false s
      | none => s) s1

/-- All byte enables. -/
def fullEn : BitVec 64 := BitVec.allOnes 64

/-- A write of a line, full or partial. -/
def State.extPut (s : State) (n kind off w : Nat) (d : Line) (en : BitVec 64) (poison : Bool) : State :=
  if en = fullEn then s.extWrite n kind off w d poison else s.extMerge n kind off w d en poison

end Sys2Proof.Machine
end

