-- ==== Sys2Proof/Machine/Yard.lean ====
section
/-! DEFINITION. The yard: the metadata cache, granule descriptors, free runs and shed links, and reading and writing granules
(06 R183 to R190, R197 to R216, R220 to R222; 07 R236). -/

namespace Sys2Proof.Machine
open Sys2Proof

/-! ### Metadata cache (06 R220) -/

/-- The metadata line `i` of region `n`, if it is cached. -/
def State.metaHit (s : State) (n i : Nat) : Option MetaLine := s.cd.mcache.find? (fun m => m.region == n && m.index == i)

/-- Writes back a dirty metadata line for the requester that changed it. -/
def State.metaBack (s : State) (m : MetaLine) : State :=
  if m.dirty then (s.extWrite m.region 3 (m.index * 64) m.who m.data).count 19 2 else s

/-- Puts a line into the cache of 16 ways; the oldest line leaves a full set (log 13). -/
def State.metaInstall (s : State) (m : MetaLine) : State :=
  let rest := s.cd.mcache.filter (fun x => !(x.region == m.region && x.index == m.index))
  let mates := if rest.length < 16 then []
    else rest.filter (fun x => Config.metaSet x.region x.index % 6144 == Config.metaSet m.region m.index % 6144)
  let s1 (l : List MetaLine) : State := { s with cd := { s.cd with mcache := l ++ [m] } }
  match mates with
  | [] => s1 rest
  | old :: _ => if 16 ≤ mates.length then (s1 (rest.erase old)).metaBack old else s1 rest

/-- The requester that a change of a metadata line is charged to: a page map entry write of a move is not charged to MIG (05 R178; log 13). -/
def State.metaWho (s : State) (n i w : Nat) : Nat :=
  match s.region n with
  | some r => if w = 10 ∧ r.tier = 2 ∧ r.mapBase ≤ i * 64 ∧ i * 64 < r.shedBase then 15 else w
  | none => w

/-- A metadata line as DRAM holds it; none where it stays MEDIA or is STORED poison (07 R236). `sel` chooses the copy (06 R201). -/
def State.metaRaw (s : State) (n i w sel : Nat) : State × Option Line :=
  let r := s.extRead n 3 (i * 64) w sel
  (r.1, if r.2.lost || r.2.poison then none else some r.2.data)

/-- The copy of a lost metadata line of a MIRROR region that can be read: the partner's, then the primary's (06 R201; log 30). -/
def State.metaOther (s : State) (n i w : Nat) : State × Option Line :=
  if ((s.region n).map (fun r => r.protect == 1)).getD false then
    let a := s.metaRaw n i w 2
    if a.2.isSome then a else a.1.metaRaw n i w 1
  else (s, none)

/-- The DPA of granule `k` of a region. -/
def Region.granDpa (r : Region) (k : Nat) : Nat := r.base + k * 512

/-- The XOR of the bits of a number below `2 ^ n`. -/
def parity : Nat → Nat → Bool
  | 0, _ => false
  | n + 1, v => v.testBit n ^^ parity n v

/-- The cluster of a granule; the other handles everything while one is isolated (06 R680). -/
def State.clusterOf (s : State) (dpa : Nat) : Nat :=
  let c := b2n (parity 9 (field dpa 9 9))
  if c ∈ s.cd.isolated then 1 - c else c

/-- The error registers of the cluster that handles a granule (06 R224, R680). -/
def State.noteDecode (s : State) (dpa : Nat) (e : DecErr) (repaired : Bool) : State :=
  let c := s.clusterOf dpa
  { s with cd := { s.cd with
    errDpa := lset s.cd.errDpa c (dpa / 512 * 512)
    errInfo := lset s.cd.errInfo c (e.code + e.pos % 2 ^ 13 * 2 ^ 3 + e.word % 2 ^ 7 * 2 ^ 16 + b2n repaired * 2 ^ 23) } }

/-- Raises CD_DECODE_REPAIRED for a granule (06 R201, R680). -/
def State.decodeRepaired (s : State) (dpa : Nat) (e : DecErr) (w : Nat) : State :=
  let c := s.clusterOf dpa
  ((s.noteDecode dpa e true).count (17 + c) 3).report (if c = 0 then cdDecodeRepaired else cdDecodeRepaired1) (dpa + e.code) (some w)

/-- The granules of a descriptor line are repaired from the other copy (06 R200, R201). -/
def State.descsMended (s : State) (n i w : Nat) : State :=
  match s.region n with
  | some r => if i * 64 < r.mapBase then (List.range 8).foldl (fun s j => s.decodeRepaired (r.granDpa (i * 8 + j)) ⟨7, 0, 0⟩ w) s else s
  | none => s

/-- Reads metadata line `i` of region `n` through the cache; none where the line is lost, in a MIRROR region on both copies (06 R200, R201;
07 R236). A line taken from one copy is DIRTY, so that its write-back restores the other. -/
def State.metaLine (s : State) (n i w : Nat) : State × Option Line :=
  match s.metaHit n i with
  | some m => (s.count 19 0, some m.data)
  | none =>
    let r := (s.count 19 1).metaRaw n i w 0
    match r.2 with
    | some d => (r.1.metaInstall ⟨n, i, d, false, w⟩, some d)
    | none =>
      let o := r.1.metaOther n i w
      match o.2 with
      | some d => ((o.1.metaInstall ⟨n, i, d, true, o.1.metaWho n i w⟩).descsMended n i w, some d)
      | none => (o.1, none)

/-- Sets a metadata line, dirty in the cache. -/
def State.metaSet (s : State) (n i w : Nat) (d : Line) : State :=
  match s.metaHit n i with
  | some _ => { s with cd := { s.cd with mcache := s.cd.mcache.map (fun (m : MetaLine) =>
      if m.region == n && m.index == i then { m with data := d, dirty := true, who := s.metaWho n i w } else m) } }
  | none => s.metaInstall ⟨n, i, d, true, s.metaWho n i w⟩

/-- A field of a line. -/
def lineField (d : Line) (byte len : Nat) : Nat := (d.extractLsb' (8 * byte) (8 * len)).toNat

/-- A line with a field replaced. -/
def lineSet (d : Line) (byte len v : Nat) : Line := bytesLine (wr (lineBytes d) byte len v)

/-! ### Descriptors (06 R185) -/

/-- A descriptor of its fields. -/
def mkDesc (kind stalls : Nat) (shed : Bool) (profile poison rewrites idx : Nat) : Nat :=
  kind * 2 ^ 62 + stalls * 2 ^ 59 + b2n shed * 2 ^ 58 + (profile * 2 ^ 56 ||| poison * 2 ^ 49) + rewrites * 2 ^ 37 + idx

/-- A granule as the codec reads it: descriptor fields, chain links, its 8 lines, the mask of poisoned lines, and the error that
makes it unreadable. -/
structure Gran where
  kind     : Nat
  m        : Nat            -- primary stalls; 0 without stored space
  idx      : Nat
  links    : List Nat
  profile  : Nat
  rewrites : Nat
  data     : Bytes
  poison   : Nat
  bad      : Option DecErr
  lostDesc : Bool
  ptrs     : List Nat
  stored   : Bytes
  desc     : Nat
  deriving DecidableEq, Repr

/-- The descriptor of granule `k`. `sel`: the one that a single copy holds, unless the cache holds a newer one (06 R201). -/
def State.descGet (s : State) (n k w : Nat) (sel : Nat := 0) : State × Option Nat :=
  let r := if sel = 0 ∨ ((s.metaHit n (k / 8)).map (fun m => m.dirty)).getD false then s.metaLine n (k / 8) w else s.metaRaw n (k / 8) w sel
  (r.1, r.2.map (fun d => lineField d (k % 8 * 8) 8))

/-- A granule that holds no stored space; only whether it is churning is kept. -/
def Owned.none (churn : Bool) : Option Owned := if churn then some ⟨0, 0, [], true⟩ else Option.none

/-- What granule `k` of a region holds. -/
def Region.ownsAt (r : Region) (k : Nat) : Owned := (oget r.owns k).getD ⟨0, 0, [], false⟩

/-- Sets what a granule holds. -/
def Region.setOwns (r : Region) (k : Nat) (o : Option Owned) : Region := { r with owns := oset r.owns k o }

/-- Counts stalls and links that stay unfreed until their region is deleted (06 R201, R221; 07 R236). -/
def State.leak (s : State) (n v : Nat) : State := s.modRegion n (fun r => { r with leaked := r.leaked + v })

/-- Raises CD_DECODE_ERROR for a granule (06 R201, R680). -/
def State.decodeError (s : State) (dpa : Nat) (e : DecErr) (w : Nat) : State :=
  let c := s.clusterOf dpa
  (((s.noteDecode dpa e false).count (17 + c) 2).report (if c = 0 then cdDecodeError else cdDecodeError1)
    (dpa + e.code) (some w))

/-- A lost descriptor line: its 8 descriptors become POISON with every other field 0, and what they named leaks (06 R221; 07 R236). -/
def State.descsPoison (s : State) (n i w : Nat) : State :=
  match s.region n with
  | none => s
  | some r =>
    let d : Line := bytesLine (((List.range 8).map (fun _ => le 8 (3 * 2 ^ 62))).flatten)
    (List.range 8).foldl (fun s j =>
      let o := r.ownsAt (i * 8 + j)
      (s.leak n (o.m + o.links.length)).modRegion n (fun r => r.setOwns (i * 8 + j) none)) (s.metaSet n i w d)

/-- A lost descriptor line of granule `k` makes each of its 8 granules unreadable (06 R200, R201; 07 R236). -/
def State.lostDescs (s : State) (n k w : Nat) : State :=
  match s.region n with
  | none => s
  | some r => (List.range 8).foldl (fun s j => s.decodeError (r.granDpa (k / 8 * 8 + j)) ⟨7, 0, 0⟩ w) (s.descsPoison n (k / 8) w)

/-- Writes the descriptor of granule `k`; a granule of no stored space holds nothing. Where the descriptor's line is lost, its granules are
first made POISON (06 R200, R201). -/
def State.descSet (s : State) (n k w v : Nat) : State :=
  let r := s.metaLine n (k / 8) w
  let a : State × Line := match r.2 with
    | some d => (r.1, d)
    | none => (r.1.lostDescs n k w, bytesLine (((List.range 8).map (fun _ => le 8 (3 * 2 ^ 62))).flatten))
  let s1 := a.1.metaSet n (k / 8) w (lineSet a.2 (k % 8 * 8) 8 v)
  let kind := field v 62 2
  if kind = 0 ∨ kind = 3 then s1.modRegion n (fun r => r.setOwns k (Owned.none (decide (field v 37 12 = 4095))))
  else s1

/-! ### Free runs and links (06 R189, R190, R213) -/

/-- The free stalls of a region: those in its lists and those in blocks FILL has not filled. -/
def Region.freeStalls (r : Region) : Nat :=
  ((List.range 8).map (fun i => (r.freeRuns.getD i []).length * (i + 1))).foldl (· + ·) 0 +
    ((List.range r.yard.blocks).filter (fun b => !r.yard.filledAt (b * 2 ^ 20))).length * 16384

/-- The length of the free run that begins at a stall. -/
def Region.runAt (r : Region) (i : Nat) : Option Nat :=
  ((List.range 8).find? (fun l => (r.freeRuns.getD l []).contains i)).map (· + 1)

/-- The neighbours of an element in a list. -/
def beside (l : List Nat) (i : Nat) : List Nat :=
  match l.findIdx? (· == i) with
  | some k => (if k = 0 then [] else l[k - 1]?.toList) ++ l[k + 1]?.toList
  | none => []

/-- Takes a run off its list; its neighbours need new headers (06 R189). -/
def Region.dropRun (r : Region) (i len : Nat) : Region :=
  { r with
    freeRuns := lmod r.freeRuns (len - 1) (fun l => l.filter (· != i))
    dirtyRuns := r.dirtyRuns ++ beside (r.freeRuns.getD (len - 1) []) i }

/-- Puts a run at the end of the list of its length (06 R189; log 12). -/
def Region.addRun (r : Region) (i len : Nat) : Region :=
  if len = 0 then r
  else { r with
    freeRuns := lmod r.freeRuns (len - 1) (· ++ [i])
    dirtyRuns := r.dirtyRuns ++ (r.freeRuns.getD (len - 1) []).getLast?.toList ++ [i] }

/-- Puts links at the end of the free chain (06 R189; log 12). -/
def Region.addLinks (r : Region) (l : List Nat) : Region :=
  if l.isEmpty then r
  else { r with freeLinks := r.freeLinks ++ l, dirtyLinks := r.dirtyLinks ++ r.freeLinks.getLast?.toList ++ l }

/-- Frees a run, merging it with a free run that follows where the sum is at most 8 (06 R213). -/
def Region.freeRun (r : Region) (i len : Nat) : Region :=
  if len = 0 then r
  else match r.runAt (i + len) with
    | some n => if len + n ≤ 8 then (r.dropRun (i + len) n).addRun i (len + n) else r.addRun i len
    | none => r.addRun i len

/-- The head of the shortest non-empty list of runs of at least `k` stalls (06 R212 step 4; log 12). -/
def Region.runFor (r : Region) (k : Nat) : Option (Nat × Nat) :=
  ((List.range 8).filter (fun l => decide (k ≤ l + 1))).findSome? (fun l => (r.freeRuns.getD l []).head?.map (fun i => (i, l + 1)))

/-- The head of the longest non-empty list of runs shorter than `k` (06 R212 step 5). -/
def Region.runBelow (r : Region) (k : Nat) : Option (Nat × Nat) :=
  ((List.range 8).reverse.filter (fun l => decide (l + 1 < k))).findSome? (fun l => (r.freeRuns.getD l []).head?.map (fun i => (i, l + 1)))

/-- The lowest run of 8 stalls in a yard block that is not filled; the block is filled with it (07 R266, R267). -/
def Region.runUnfilled (r : Region) : Option (Region × Nat) :=
  match (List.range r.yard.blocks).find? (fun b => !r.yard.filledAt (b * 2 ^ 20)) with
  | none => none
  | some b => some ((r.touch 2 (b * 2 ^ 20)).dropRun (b * 16384) 8, b * 16384)

/-! ### Reading a granule (06 R186 to R188, R197 to R200) -/

/-- Whether a descriptor is valid on its face (06 R197 code 6, without the header comparison). -/
def Region.descOk (r : Region) (v : Nat) : Bool :=
  let kind := field v 62 2
  let m := field v 59 3 + 1
  if kind = 0 ∨ kind = 3 then decide (field v 49 7 = 0) && decide (field v 56 6 = 0) && decide (field v 0 37 = 0)
  else (if kind = 1 then decide (field v 49 7 = 0) else !v.testBit 57 && (v.testBit 58 || decide (m = 8))) &&
    decide (field v 0 37 + m ≤ r.stalls)

/-- A read stall or link: its bytes, whether it counts as MEDIA and whether it is STORED poison (07 R236). -/
def State.stallRead (s : State) (n kind off w : Nat) (sel : Nat) : State × Bytes × Bool × Bool :=
  let r := s.extRead n kind off w sel
  (r.1, lineBytes r.2.data, r.2.lost, r.2.poison)

/-- The outcome of a chain walk. -/
structure Chain where
  links : List Nat
  bytes : Bytes
  code  : Nat
  ptrs  : List Nat
  deriving DecidableEq, Repr

/-- Whether a chain pointer is valid: 1 NEXT, 2 END, 0 neither (06 R187, R197 code 5). -/
def ptrKind (k nlinks p : Nat) (head : Bool) : Nat :=
  let kind := field p 62 2
  let used := field p 56 6
  let nx := field p 0 37
  if field p 37 3 ≠ 0 ∨ field p 40 16 ≠ k % 65536 then 0
  else if kind = 1 then (if used = 0 ∧ nx < nlinks then 1 else 0)
  else if kind = 2 ∧ !head then (if 1 ≤ used ∧ used ≤ 56 ∧ nx = 0 then 2 else 0)
  else 0

/-- Walks a shed chain from a pointer (06 R186, R198); at most 9 links. -/
def State.walkChain (s : State) (n k w : Nat) (sel : Nat) (cl base nlinks : Nat) : Nat → Nat → Bool → Bytes → Chain → State × Chain
  | 0, _, _, _, c => (s, { c with code := 5 })
  | fuel + 1, p, head, pay, c =>
    let c1 := { c with ptrs := c.ptrs ++ [p] }
    match ptrKind k nlinks p head with
    | 1 =>
      if 9 ≤ c.links.length then (s, { c1 with bytes := c1.bytes ++ pay, code := 5 })
      else
        let r := (s.count (17 + cl) 4).stallRead n 3 (base + 64 * field p 0 37) w sel
        let c2 := { c1 with bytes := c1.bytes ++ pay, links := c1.links ++ [field p 0 37] }
        if r.2.2.1 || r.2.2.2 then (r.1, { c2 with code := 7 })
        else r.1.walkChain n k w sel cl base nlinks fuel (rd r.2.1 56 8) false (r.2.1.take 56) c2
    | 2 => (s, { c1 with bytes := c1.bytes ++ pay.take (field p 56 6) })
    | _ => (s, { c1 with bytes := c1.bytes ++ pay, code := 5 })

/-- Reads the primary stalls: bytes, whether one is lost, and the mask of STORED poison. -/
def State.readStalls (s : State) (n idx m w : Nat) (sel : Nat) : State × Bytes × Bool × Nat :=
  (List.range m).foldl (fun (acc : State × Bytes × Bool × Nat) i =>
    let r := acc.1.stallRead n 2 (64 * (idx + i)) w sel
    (r.1, acc.2.1 ++ r.2.1, acc.2.2.1 || r.2.2.1, acc.2.2.2 ||| (b2n r.2.2.2 <<< i))) (s, [], false, 0)

/-- A granule of no data. -/
def Gran.empty (kind rewrites desc : Nat) : Gran :=
  ⟨kind, 0, 0, [], 0, rewrites, List.replicate 512 0, if kind = 3 then 255 else 0, none, false, [], [], desc⟩

/-- Reads granule `k` of region `n` with descriptor `v` (06 R186 to R200; log 30). -/
def State.readGranAt (s : State) (n k w : Nat) (sel : Nat) (r : Region) (v : Nat) : State × Gran :=
  let kind := field v 62 2
  let m := field v 59 3 + 1
  let idx := field v 0 37
  let shed := v.testBit 58
  let rw := field v 37 12
  let g0 : Gran := { Gran.empty kind rw v with m := m, idx := idx, profile := if kind = 1 then field v 56 2 else 0 }
  if !r.descOk v then (s, { Gran.empty kind rw v with bad := some ⟨6, 0, 0⟩, m := 0 })
  else if kind = 0 ∨ kind = 3 then (s, Gran.empty kind rw v)
  else
    let a := s.readStalls n idx m w sel
    if a.2.2.1 || (decide (a.2.2.2 ≠ 0) && (kind != 2 || shed)) then (a.1, { g0 with bad := some ⟨7, 0, 0⟩ })
    else
      let cl := s.clusterOf (r.granDpa k)
      let c := if shed then
          a.1.walkChain n k w sel cl r.shedBase r.shedLinks 11 (rd a.2.1 (64 * m - 8) 8) true []
            ⟨[], a.2.1.take (64 * m - 8), 0, []⟩
        else (a.1, ⟨[], a.2.1, 0, []⟩)
      let g1 := { g0 with links := c.2.links, ptrs := c.2.ptrs, stored := c.2.bytes }
      if c.2.code ≠ 0 then (c.1, { g1 with bad := some ⟨c.2.code, 0, 0⟩ })
      else if kind = 2 then
        if c.2.bytes.length ≠ 512 then (c.1, { g1 with bad := some ⟨5, 0, 0⟩ })
        else (c.1, { g1 with data := c.2.bytes, poison := field v 49 8 ||| a.2.2.2 })
      else match decodeStream (field v 56 2) c.2.bytes with
        | .error e => (c.1, { g1 with bad := some e })
        | .ok d => (c.1.count (17 + cl) 0, { g1 with data := d })

/-- Reads granule `k` of region `n`, from one set of copies. -/
def State.readGran (s : State) (n k w : Nat) (sel : Nat) : State × Gran :=
  match s.region n with
  | none => (s, { Gran.empty 3 0 0 with bad := some ⟨7, 0, 0⟩ })
  | some r =>
    let d := s.descGet n k w sel
    match d.2 with
    | none => (d.1, { Gran.empty 3 0 0 with bad := some ⟨7, 0, 0⟩, lostDesc := true })
    | some v => d.1.readGranAt n k w sel r v

/-! ### Unreadable granules (06 R201; 07 R236) -/

/-- Frees a granule's stalls and links (06 R189, R201, R213). -/
def State.freeGran (s : State) (n : Nat) (idx m : Nat) (links : List Nat) : State :=
  (s.modRegion n (fun r => { (r.freeRun idx m).addLinks links with tierShort := r.tierShort && decide (m = 0) })).writeFree n

/-- Whether the yard is below its low threshold (06 R214). -/
def Region.isLow (r : Region) : Bool := decide (r.freeStalls * 100 < r.stalls * r.lowPct)

/-- Raises CD_YARD_LOW once for each crossing (06 R214). -/
def State.checkLow (s : State) (n : Nat) : State :=
  match s.region n with
  | none => s
  | some r =>
    if r.isLow then
      if r.yardLow then s
      else ({ (s.modRegion n (fun r => { r with yardLow := true })) with
        cd := { s.cd with muckFirst := if n ∈ s.cd.muckFirst then s.cd.muckFirst else s.cd.muckFirst ++ [n] } }).report cdYardLow n
    else if r.yardLow then
      { (s.modRegion n (fun r => { r with yardLow := false })) with
        cd := { s.cd with muckFirst := s.cd.muckFirst.filter (· != n) } }
    else s

/-- Makes a granule POISON, keeping REWRITES, and frees the stalls and links that it holds (06 R201, R214). -/
def State.poisonGran (s : State) (n k w : Nat) (g : Gran) : State :=
  let o := ((s.region n).map (fun r => r.ownsAt k)).getD ⟨0, 0, [], false⟩
  let s1 := s.descSet n k w (mkDesc 3 0 false 0 0 g.rewrites 0)
  (s1.freeGran n o.idx o.m o.links).checkLow n

/-- Writes the good copy of a granule over the failed one (06 R201). -/
def State.restoreGran (s : State) (n k w sel : Nat) (g : Gran) (r : Region) : State :=
  let s1 := (List.range g.m).foldl (fun s i =>
    let x := s.extRead n 2 (64 * (g.idx + i)) w sel
    x.1.extWrite n 2 (64 * (g.idx + i)) w x.2.data x.2.poison) s
  let s2 := g.links.foldl (fun s j =>
    let x := s.extRead n 3 (r.shedBase + 64 * j) w sel
    x.1.extWrite n 3 (r.shedBase + 64 * j) w x.2.data x.2.poison) s1
  s2.descSet n k w g.desc

/-- The copy of a MIRROR granule that decodes: the partner copy's lines alone are tried, then the primary's (06 R201; log 30). -/
def State.goodCopy (s : State) (n k w : Nat) : State × Gran × Nat :=
  let a := s.readGran n k w 2
  if a.2.bad.isNone then (a.1, a.2, 2)
  else
    let b := a.1.readGran n k w 1
    (b.1, b.2, 1)

/-- A granule as a requester sees it, repaired from the other copy or turned to POISON where it is unreadable (06 R201). -/
def State.getGran (s : State) (n k w : Nat) : State × Gran :=
  match s.region n with
  | none => (s, Gran.empty 3 0 0)
  | some r =>
    let a := s.readGran n k w 0
    match a.2.bad with
    | none => a
    | some e =>
      let dpa := r.granDpa k
      let b := if r.protect = 1 then a.1.goodCopy n k w else (a.1, a.2, 0)
      if b.2.1.bad.isNone then
        ((b.1.restoreGran n k w b.2.2 b.2.1 r).decodeRepaired dpa e w, b.2.1)
      else if a.2.lostDesc then (b.1.lostDescs n k w, Gran.empty 3 0 (3 * 2 ^ 62))
      else ((b.1.poisonGran n k w a.2).decodeError dpa e w, Gran.empty 3 a.2.rewrites 0)

/-! ### Placing the stored space (06 R212 to R215) -/

/-- Where a granule's output goes: run, links, the region after the allocation, and what is freed once the descriptor is
written. -/
structure Placing where
  region : Region
  idx    : Nat
  m      : Nat
  links  : List Nat
  runs   : List (Nat × Nat)
  flinks : List Nat
  deriving DecidableEq, Repr

/-- Shed links an output of `len` bytes needs beyond a run of `m` stalls (06 R186). -/
def linksFor (len m : Nat) : Nat := (len - (64 * m - 8) + 55) / 56

/-- A placement that continues a run into links: it keeps the links the granule has and takes or frees at the end of its chain
(06 R212 steps 3, 5, 6). -/
def Region.withLinks (r : Region) (len idx m : Nat) (links : List Nat) : Option Placing :=
  let need := linksFor len m
  if need ≤ links.length then some ⟨r, idx, m, links.take need, [], links.drop need⟩
  else
    let more := need - links.length
    if r.freeLinks.length < more then none
    else some ⟨{ r with freeLinks := r.freeLinks.drop more }, idx, m, links ++ r.freeLinks.take more, [], []⟩

/-- A placement in a run of its own (06 R212 step 4). -/
def Region.freshRun (r : Region) (k : Nat) : Option Placing :=
  (r.runFor k).map (fun (i, l) => ⟨((r.dropRun i l).addRun (i + k) (l - k)), i, k, [], [], []⟩)

/-- The lowest unfilled run, while the yard is not filled (07 R267). -/
def Region.unfilledRun (r : Region) (k : Nat) (runs : List (Nat × Nat)) (links : List Nat) : Option Placing :=
  r.runUnfilled.map (fun (r1, i) => ⟨r1.addRun (i + k) (8 - k), i, k, [], runs, links⟩)

/-- Places an output of `len` bytes for a granule that holds a run and links (06 R212). -/
def Region.placeOut (r : Region) (len : Nat) (g : Gran) : Option Placing :=
  let k := max 1 ((len + 63) / 64)
  if g.m = 0 then
    match r.freshRun k with
    | some p => some p
    | none =>
      let short := match r.runBelow k with
        | some (i, l) => (r.dropRun i l).withLinks len i l []
        | none => none
      match short with
      | some p => some p
      | none => r.unfilledRun k [] []
  else if k ≤ g.m then some ⟨r, g.idx, k, [], [(g.idx + k, g.m - k)], g.links⟩
  else
    let grown := if g.links.isEmpty then
        match r.runAt (g.idx + g.m) with
        | some l => if k - g.m ≤ l ∧ k ≤ 8 then
            some (Placing.mk ((r.dropRun (g.idx + g.m) l).addRun (g.idx + k) (l - (k - g.m))) g.idx k [] [] []) else none
        | none => none
      else none
    match grown with
    | some p => some p
    | none =>
      match r.withLinks len g.idx g.m g.links with
      | some p => some p
      | none => r.unfilledRun k [(g.idx, g.m)] g.links

/-- Pads bytes with zeros to a length. -/
def padTo (n : Nat) (b : Bytes) : Bytes := (b ++ List.replicate (n - b.length) 0).take n

/-- Writes an output into its run and links; the granule has been read, so a STRIPE write reads the old parity alone (03 R120; 06 R186, R187,
R205). `only` names the one stall that changes, where an in-place
write of a RAW granule changes one line (06 R204). -/
def State.writeStored (s : State) (n k w : Nat) (r : Region) (p : Placing) (out : Bytes) (poison : Nat) (only : Option Nat) : State :=
  let cap := if p.links.isEmpty then 64 * p.m else 64 * p.m - 8
  let owner := k % 65536 * 2 ^ 40
  let prim := padTo cap (out.take cap) ++
    (match p.links with
     | [] => []
     | j :: _ => le 8 (1 * 2 ^ 62 + owner + j))
  let s1 := (List.range p.m).foldl (fun s i =>
    if only.isSome ∧ only ≠ some i then s
    else s.extWrite n 2 (64 * (p.idx + i)) w (bytesLine (prim.drop (64 * i))) (p.links.isEmpty && poison.testBit i) .known) s
  let rest := out.drop cap
  (List.range p.links.length).foldl (fun s i =>
    let part := (rest.drop (56 * i)).take 56
    let ptr := if i + 1 < p.links.length then 1 * 2 ^ 62 + owner + p.links.getD (i + 1) 0
      else 2 * 2 ^ 62 + part.length * 2 ^ 56 + owner
    s.extWrite n 3 (r.shedBase + 64 * p.links.getD i 0) w (bytesLine (padTo 56 part ++ le 8 ptr)) false .known) s1

/-- How a write of the codec ended. -/
inductive YardWrite where
  | done
  /-- It cannot be placed (06 R215). -/
  | full
  deriving DecidableEq, Repr

/-- Whether a requester's writes count as rewrites (06 R207). -/
def countsRewrite (w : Nat) : Bool := decide (w < 4) || w == 8 || w == 9 || w == 15

/-- Stores a granule's content: ZERO, PACKED or RAW by 06 R205, R206, R208 and R210, placed by R212. `raw`: the granule stays RAW
in place (R204), with `only` the one line that changes. -/
def State.storeGran (s : State) (n k w : Nat) (g : Gran) (data : Bytes) (poison rewrites : Nat) (raw : Bool)
    (only : Option Nat) : State × YardWrite :=
  match s.region n with
  | none => (s, .done)
  | some r =>
    if poison = 0 ∧ data.all (· == 0) then
      ((((s.descSet n k w (mkDesc 0 0 false 0 0 rewrites 0)).freeGran n g.idx g.m g.links).checkLow n), .done)
    else
      let packed := if raw || decide (poison ≠ 0) || decide (4095 ≤ rewrites) then none
        else encodeGranule (r.effort == 1) data
      let cl := s.clusterOf (r.granDpa k)
      let s0 := if raw || decide (poison ≠ 0) || decide (4095 ≤ rewrites) then s else s.count (17 + cl) 1
      let out := match packed with
        | some (_, b) => b
        | none => data
      match r.placeOut out.length g with
      | none => (s, .full)
      | some p =>
        let s1 := (p.region.yard.touched.drop r.yard.touched.length).foldl (fun s b => s.fillUpsets r.protect r.grain r.mask r.yard b)
          (s0.modRegion n (fun _ => p.region))
        let inPlace := decide (g.kind = 2) && decide (p.idx = g.idx ∧ p.m = g.m) && g.links.isEmpty && p.links.isEmpty
        let s2 := s1.writeStored n k w r p out poison (if inPlace then only else none)
        let v := match packed with
          | some (prof, _) => mkDesc 1 (p.m - 1) (!p.links.isEmpty) prof 0 rewrites p.idx
          | none => mkDesc 2 (p.m - 1) (!p.links.isEmpty) 0 poison rewrites p.idx
        let s3 := (s2.descSet n k w v).modRegion n (fun r => r.setOwns k (some ⟨p.idx, p.m, p.links, decide (rewrites = 4095)⟩))
        let s4 := (p.runs.foldl (fun s x => s.freeGran n x.1 x.2 []) s3).freeGran n 0 0 p.flinks
        (s4.checkLow n, .done)

/-- The granule that cannot be placed becomes POISON (06 R215). -/
def State.exhausted (s : State) (n k w : Nat) (g : Gran) : State :=
  match s.region n with
  | none => s
  | some r => (s.poisonGran n k w g).report cdYardExhausted (r.granDpa k) (some w)

/-- A write of line `j` of granule `k` (06 R203 to R208): every write counts as a change, whatever bytes it leaves (log 96): the state after it, and whether it could be placed; `g` is the granule
read. -/
def State.writeGran (s : State) (n k j w : Nat) (d : Line) (en : BitVec 64) (poison : Bool) : State × YardWrite × Gran :=
  let a := s.getGran n k w
  let g := a.2
  let rw := if countsRewrite w then min 4095 (g.rewrites + 1) else g.rewrites
  let full := decide (en = fullEn)
  let old := bytesLine (g.data.drop (64 * j))
  let line := lineBytes (mergeLine old d en)
  let put (b : Bytes) : Bytes := b.take (64 * j) ++ line ++ b.drop (64 * j + 64)
  let others (m : Nat) : Nat := m - (if m.testBit j then 2 ^ j else 0)
  if g.kind = 3 then
    if full then
      let r := a.1.storeGran n k w g (put (List.replicate 512 0)) (others 255 + b2n poison * 2 ^ j) rw true none
      (r.1, r.2, g)
    else (a.1, .done, g)
  else
    let mask := others g.poison + b2n (poison || (!full && g.poison.testBit j)) * 2 ^ j
    let r := a.1.storeGran n k w g (put g.data) mask rw (g.kind == 2) (some j)
    (r.1, r.2, g)

/-- A read of line `j` of granule `k`. -/
def State.readYard (s : State) (n k j w : Nat) : State × LineRead :=
  let a := s.getGran n k w
  if a.2.kind = 3 then (a.1, ⟨0, true, false, false⟩)
  else (a.1, ⟨bytesLine (a.2.data.drop (64 * j)), a.2.poison.testBit j, false, false⟩)

end Sys2Proof.Machine
end

