-- ==== Sys2Proof/Machine/Tier.lean ====
section
/-! DEFINITION. The tier manager: page map, heat, moves, and where a line of a region is read and written below the near store
(05 R161 to R182; 03 R105; 06 R215). -/

namespace Sys2Proof.Machine
open Sys2Proof

/-! ### The page map (05 R161) -/

/-- A page map entry. -/
structure PageEnt where
  state : Nat          -- 0 T2, 1 T1, 2 MIG_UP, 3 MIG_DOWN
  heat  : Nat
  frame : Nat
  deriving DecidableEq, Repr

/-- The entry of 32 bits. -/
def pageEnt (v : Nat) : PageEnt := ⟨field v 30 2, field v 22 8, field v 0 22⟩

/-- Its 32 bits. -/
def PageEnt.bits (e : PageEnt) : Nat := e.state * 2 ^ 30 + e.heat * 2 ^ 22 + e.frame

/-- The metadata line and byte of a page's entry. -/
def Region.pageAt (r : Region) (page : Nat) : Nat × Nat := ((r.mapBase + 4 * page) / 64, (r.mapBase + 4 * page) % 64)

/-- The granules of a page. -/
def pageGrans (page : Nat) : List Nat := (List.range 8).map (fun i => page * 8 + i)

/-- A page map line that is lost (05 R181): its entries become T2 with HEAT 0 and their granules POISON, their frames stay
unallocated, and TR_MAP_LOST is raised (log 32). -/
def State.lostMap (s : State) (n w : Nat) (r : Region) (line : Nat) : State :=
  let first := (line * 64 - r.mapBase) / 4
  let pages := ((List.range 16).map (fun i => first + i)).filter (fun p => decide (p * 4096 < r.size))
  let s1 := s.metaSet n line w 0
  pages.foldl (fun s p =>
    let s2 := (pageGrans p).foldl (fun s k =>
      let g := s.getGran n k w
      if g.2.kind = 3 then g.1 else g.1.poisonGran n k w g.2) s
    let gone := ((s2.region n).map (fun r => r.frames.filter (fun x => x.1 == p))).getD []
    let s3 := s2.modRegion n (fun r => { r with
      frames := r.frames.filter (fun x => x.1 != p)
      lostFrames := r.lostFrames ++ gone.map (fun x => x.2) })
    { s3 with tr := { s3.tr with
      moves := s3.tr.moves.filter (fun m => !(m.region == n && m.page == p))
      errDpa := (r.base + p * 4096) / 4096 * 4096 } }.report trMapLost (r.base + p * 4096) (some w)) s1

/-- The entry of a page. -/
def State.pageGet (s : State) (n page w : Nat) : State × PageEnt :=
  match s.region n with
  | none => (s, ⟨0, 0, 0⟩)
  | some r =>
    let at_ := r.pageAt page
    let a := s.metaLine n at_.1 w
    match a.2 with
    | some d => (a.1, pageEnt (lineField d at_.2 4))
    | none => (a.1.lostMap n w r at_.1, ⟨0, 0, 0⟩)

/-- Writes the entry of a page. -/
def State.pageSet (s : State) (n page w : Nat) (e : PageEnt) : State :=
  match s.region n with
  | none => s
  | some r =>
    let at_ := r.pageAt page
    let a := s.metaLine n at_.1 w
    a.1.metaSet n at_.1 w (lineSet (a.2.getD 0) at_.2 4 e.bits)

/-! ### Frames and quota (05 R165 to R167) -/

/-- Frames of a GiB. -/
def gibFrames : Nat := 262144

/-- The quota and the watermark in frames (05 R167). -/
def Region.quotaFrames (r : Region) : Nat := r.quota * gibFrames
def Region.markFrames (r : Region) : Nat := r.quotaFrames * r.watermark / 100

/-- A free frame: the lowest that no page holds and TR_MAP_LOST has not taken away. -/
def Region.freeFrame (r : Region) : Option Nat :=
  let f := firstFree (fun i => r.frames.any (fun x => x.2 == i) || r.lostFrames.contains i)
    (r.frames.length + r.lostFrames.length + 1) 0
  if f < r.t1.size / 4096 then some f else none

/-- Gives a page a frame. -/
def State.holdFrame (s : State) (n page frame : Nat) : State :=
  s.modRegion n (fun r => { r with frames := r.frames ++ [(page, frame)] })

/-- Frees a page's frame. -/
def State.dropFrame (s : State) (n page : Nat) : State :=
  s.modRegion n (fun r => { r with frames := r.frames.filter (fun x => x.1 != page) })

/-! ### Starting and aborting moves (05 R171 to R177) -/

/-- Whether MIG may start another move (05 R177; 07 R262; 16 R570). -/
def State.migRoom (s : State) : Bool :=
  s.enginesRun && !s.bgPaused && !s.tr.paused && decide (s.tr.moves.length + s.tr.halted < 32)

/-- Starts promotion of a T2 page where a frame is free below the quota; deferred and counted otherwise (05 R171, R173, R176), and also while
MIG has no room for another move (log 97). -/
def State.startPromotion (s : State) (n page w : Nat) (e : PageEnt) : State :=
  match s.region n with
  | none => s
  | some r =>
    if e.state ≠ 0 ∨ page ∈ r.noMove then s
    else match (if r.frames.length < r.quotaFrames then r.freeFrame else none) with
      | none => s.count 16 1
      | some f =>
        if s.migRoom then
          let s1 := (s.holdFrame n page f).pageSet n page w { e with state := 2, frame := f }
          { s1 with tr := { s1.tr with moves := s1.tr.moves ++ [Move.mk n page true f] } }
        else s.count 16 1

/-- Forgets what was captured of a page. -/
def State.dropCaptures (s : State) (n page : Nat) : State :=
  { s with tr := { s.tr with captures := s.tr.captures.filter (fun c => !(c.region == n && c.page == page)) } }

/-- Starts demotions of queued pages while MIG has room (05 R172, R174, R180). -/
def State.startDemotions (s : State) (n : Nat) : Nat → State
  | 0 => s
  | fuel + 1 =>
    match s.region n with
    | none => s
    | some r =>
      match r.queued with
      | [] => s
      | p :: rest =>
        if s.migRoom && !r.tierShort then
          let s1 := s.modRegion n (fun r => { r with queued := rest })
          let a := s1.pageGet n p 10
          if a.2.state = 1 then
            let s2 := a.1.pageSet n p 10 { a.2 with state := 3 }
            ({ s2 with tr := { s2.tr with moves := s2.tr.moves ++ [Move.mk n p false a.2.frame] } }).startDemotions n fuel
          else a.1.startDemotions n fuel
        else s

/-- A move of a page in progress. -/
def State.moveOf (s : State) (n page : Nat) : Option Move := s.tr.moves.find? (fun m => m.region == n && m.page == page)

/-- Ends a move without its switch: the entry returns to its source state and the destination is released (05 R175, R176). A move whose page map
line turns out to be lost has ended with it (05 R181). -/
def State.abortMove (s : State) (n page w : Nat) : State :=
  match s.moveOf n page with
  | none => s.dropCaptures n page
  | some m =>
    let a := s.pageGet n page w
    if (a.1.moveOf n page).isNone then a.1.dropCaptures n page
    else
      let s1 := a.1.pageSet n page w { a.2 with state := if m.up then 0 else 1, frame := if m.up then 0 else a.2.frame }
      let s2 := if m.up then s1.dropFrame n page else s1
      let s3 := (s2.modRegion n (fun r => { r with noMove := r.noMove ++ [page] })).dropCaptures n page
      ({ s3 with tr := { s3.tr with moves := s3.tr.moves.filter (fun x => !(x.region == n && x.page == page)) } }).count 16 3

/-- Whether a requester heats a page (05 R168). -/
def heats (w : Nat) : Bool := countsRewrite w

/-- A request of `w` reaches the tier manager for a page: HEAT rises (05 R168). -/
def State.warm (s : State) (n page w : Nat) : State × PageEnt :=
  let a := s.pageGet n page w
  if !heats w then a
  else
    let e := { a.2 with heat := min 255 (a.2.heat + 1) }
    (a.1.pageSet n page w e, e)

/-- Promotion of a page whose HEAT an increment has made reach the up threshold (05 R171). -/
def State.hot (s : State) (n page w : Nat) (e : PageEnt) : State :=
  match s.region n with
  | some r => if heats w ∧ e.state = 0 ∧ r.up ≤ e.heat then s.startPromotion n page w e else s
  | none => s

/-- A read of `w` reaches the tier manager for a page (05 R168, R171). -/
def State.heat (s : State) (n page w : Nat) : State × PageEnt :=
  let a := s.warm n page w
  (a.1.hot n page w a.2).pageGet n page w

/-! ### Lines below the near store (05 R162, R164, R175; 06 R204, R215) -/

/-- The offset of a line in a T1 frame. -/
def frameOff (frame off : Nat) : Nat := frame * 4096 + off % 4096

/-- Reads the line at offset `off` of region `n` for a requester. -/
def State.tierRead (s : State) (n off w : Nat) : State × LineRead :=
  match s.region n with
  | none => (s, ⟨0, true, false, true⟩)
  | some r =>
    if r.tier = 0 then s.extRead n 0 off w
    else if r.tier = 1 then s.readYard n (off / 512) (off / 64 % 8) w
    else
      let a := s.heat n (off / 4096) w
      if a.2.state = 1 ∨ a.2.state = 3 then a.1.extRead n 1 (frameOff a.2.frame off) w
      else a.1.readYard n (off / 512) (off / 64 % 8) w

/-- Whether every granule of a page is ZERO (05 R164). -/
def State.pageZero (s : State) (n page w : Nat) : State × Bool :=
  (pageGrans page).foldl (fun (acc : State × Bool) k =>
    let d := acc.1.descGet n k w
    (d.1, acc.2 && (match d.2 with
      | some v => field v 62 2 == 0
      | none => false))) (s, true)

/-- The granules of a page in the yard. -/
def State.pageRead (s : State) (n page w : Nat) : State × List Gran :=
  (pageGrans page).foldl (fun (acc : State × List Gran) k =>
    let g := acc.1.getGran n k w
    (g.1, acc.2 ++ [g.2])) (s, [])

/-- The 64 lines of a page's granules, with their poison. -/
def granLines (gs : List Gran) : List (Line × Bool) :=
  (gs.map (fun g => (List.range 8).map (fun j => (bytesLine (g.data.drop (64 * j)), g.poison.testBit j)))).flatten

/-- Sets a page's granules to ZERO and returns the stalls and links that they hold (05 R173). -/
def State.zeroGrans (s : State) (n page w : Nat) : State :=
  (pageGrans page).foldl (fun s k =>
    let d := s.descGet n k w
    let o := ((d.1.region n).map (fun r => r.ownsAt k)).getD ⟨0, 0, [], false⟩
    ((d.1.descSet n k w (mkDesc 0 0 false 0 0 (field (d.2.getD 0) 37 12) 0)).freeGran n o.idx o.m o.links).checkLow n) s

/-- Writes the 64 lines of a page to its frame: stripe rows that it covers whole are written without reading (03 R121; 05 R173). -/
def State.frameWrite (s : State) (n frame w : Nat) (ls : List (Line × Bool)) : State :=
  (List.range 64).foldl (fun s i =>
    let x := ls.getD i (0, false)
    let mode := ((s.region n).map (fun r => r.rowMode (frame * 4096) (frame * 4096 + 4096) (frame * 4096 + i * 64))).getD .part
    s.extWrite n 1 (frame * 4096 + i * 64) w x.1 x.2 mode) s

/-- Stores a T2 page in a T1 frame at once (05 R164; 06 R215). -/
def State.pageUp (s : State) (n page frame w : Nat) : State :=
  let a := s.pageRead n page w
  let s1 := ((a.1.holdFrame n page frame).frameWrite n frame w (granLines a.2)).zeroGrans n page w
  let e := s1.pageGet n page w
  e.1.pageSet n page w { e.2 with state := 1, frame := frame }

/-- A write to the yard; what cannot be placed goes to T1 in a TIERED region, else the granule is lost (06 R215). -/
def State.yardWrite (s : State) (n off w : Nat) (d : Line) (en : BitVec 64) (poison : Bool) : State :=
  let k := off / 512
  let r := s.writeGran n k (off / 64 % 8) w d en poison
  match r.2.1 with
  | .done => r.1
  | .full =>
    match r.1.region n with
    | none => r.1
    | some g =>
      let frame := if g.tier = 2 ∧ g.frames.length < g.quotaFrames then g.freeFrame else none
      match frame with
      | some f => (r.1.pageUp n (off / 4096) f w).extPut n 1 (frameOff f off) w d en poison
      | none => r.1.exhausted n k w r.2.2

/-- A page one of whose granules has become churning is promoted (05 R171; 06 R208). -/
def State.churned (s : State) (n off w : Nat) : State :=
  match s.region n with
  | none => s
  | some r =>
    if r.tier = 2 ∧ (r.ownsAt (off / 512)).churn then
      let a := s.pageGet n (off / 4096) w
      a.1.startPromotion n (off / 4096) w a.2
    else s

/-- Writes the line at offset `off` of region `n` for a requester: first-touch placement comes before the move that its increment of HEAT
starts, and that move starts once the write is applied (05 R162, R164, R171, R175). -/
def State.tierWrite (s : State) (n off w : Nat) (d : Line) (en : BitVec 64) (poison : Bool) : State :=
  match s.region n with
  | none => s
  | some r =>
    if r.tier = 0 then s.extPut n 0 off w d en poison
    else if r.tier = 1 then s.yardWrite n off w d en poison
    else
      let page := off / 4096
      let a := s.warm n page w
      if a.2.state = 1 then a.1.extPut n 1 (frameOff a.2.frame off) w d en poison
      else if a.2.state = 3 then (a.1.abortMove n page w).extPut n 1 (frameOff a.2.frame off) w d en poison
      else if a.2.state = 2 then ((a.1.abortMove n page w).yardWrite n off w d en poison).churned n off w
      else
        let z := a.1.pageZero n page w
        match z.1.region n with
        | none => z.1
        | some r1 =>
          match (if r1.firstTouch ∧ z.2 ∧ r1.frames.length < r1.markFrames then r1.freeFrame else none) with
          | some f => (z.1.pageUp n page f w).extPut n 1 (frameOff f off) w d en poison
          | none =>
            let e := ((z.1.yardWrite n off w d en poison).churned n off w).pageGet n page w
            e.1.hot n page w e.2

/-! ### Switches (05 R173, R174, R177, R180) -/

/-- PROMOTION_SWITCH: MIG has written the frame, the page is T1 and its stalls return to the yard (05 R173; log 36). -/
def promotionSwitch (n page : Nat) (s : State) : State :=
  match s.moveOf n page with
  | some m =>
    if m.up && s.enginesRun && !s.bgPaused && !s.tr.paused then
      let a := s.pageRead n page 10
      let e := (a.1.frameWrite n m.frame 10 (granLines a.2)).pageGet n page 10
      if (e.1.moveOf n page).isNone then e.1
      else
        let s3 := (e.1.zeroGrans n page 10).pageSet n page 10 { e.2 with state := 1, frame := m.frame }
        ({ s3 with tr := { s3.tr with moves := s3.tr.moves.filter (fun x => !(x.region == n && x.page == page)) } }).count 16 0
          |>.startDemotions n 32
    else s
  | none => s

/-- The lines of a T1 page: captured ones, and the rest from the frame (05 R174). -/
def State.frameLines (s : State) (n page frame : Nat) : State × List (Line × Bool) :=
  (List.range 64).foldl (fun (acc : State × List (Line × Bool)) i =>
    match acc.1.tr.captures.find? (fun c => c.region == n && c.page == page && c.line == i) with
    | some c => (acc.1, acc.2 ++ [(c.data, c.poison)])
    | none =>
      let r := acc.1.extRead n 1 (frame * 4096 + i * 64) 10
      (r.1, acc.2 ++ [(r.2.data, r.2.poison)])) (s, [])

/-- Compresses a page into its granules; stops where the yard cannot supply stalls (05 R174, R180). -/
def State.storePage (s : State) (n page : Nat) (ls : List (Line × Bool)) : State × Bool :=
  (List.range 8).foldl (fun (acc : State × Bool) i =>
    if !acc.2 then acc
    else
      let part := (ls.drop (8 * i)).take 8
      let data := (part.map (fun x => lineBytes x.1)).flatten
      let poison := bitsOf ((List.range 8).filter (fun j => (part.getD j (0, false)).2))
      let k := page * 8 + i
      let r := acc.1.storeGran n k 10 (Gran.empty 0 0 0) data poison 0 false none
      (r.1, r.2 == .done)) (s, true)

/-- DEMOTION_SWITCH: MIG has written the granules, the page is T2 and its frame is free (05 R174, R180; log 36). -/
def demotionSwitch (n page : Nat) (s : State) : State :=
  match s.moveOf n page with
  | some m =>
    if !m.up && s.enginesRun && !s.bgPaused && !s.tr.paused then
      let a := s.frameLines n page m.frame
      let b := a.1.storePage n page a.2
      if b.2 then
        let e := b.1.pageGet n page 10
        if (e.1.moveOf n page).isNone then e.1.dropCaptures n page
        else
          let s1 := ((e.1.pageSet n page 10 { e.2 with state := 0, frame := 0 }).dropFrame n page).dropCaptures n page
          ({ s1 with tr := { s1.tr with moves := s1.tr.moves.filter (fun x => !(x.region == n && x.page == page)) } }).count 16 2
            |>.startDemotions n 32
      else
        let s1 := (b.1.zeroGrans n page 10).abortMove n page 10
        ((s1.modRegion n (fun r => { r with tierShort := true })).report trYardShort n (some 10))
    else s
  | none => s

/-! ### Heat sweep (05 R169, R170, R172, R176) -/

/-- The page map lines of a region on which a sweep has an effect: those cached, written on a copy or in the parity of their row, or not
readable where they lie. Every other line holds entries of T2 with HEAT 0, which a sweep leaves as they are (05 R169). -/
def State.mapLines (s : State) (n : Nat) (r : Region) : List Nat :=
  let first := r.mapBase / 64
  ((List.range (r.size / 65536)).map (fun i => first + i)).filter (fun i =>
    (s.metaHit n i).isSome || (r.metaX.filledAt (i * 64) && (let l := r.loc r.metaX (i * 64)
      let copies := [l.ch] ++ l.mirror.toList ++ (l.row.map (fun x => x.2)).toList
      copies.any (fun c => s.written c l.cla) || !s.readable l.ch l.cla)))

/-- The sweep of one entry: its demotion rules on the current HEAT, then HEAT halved (05 R169, R172). -/
def State.sweepPage (s : State) (n page occ queued : Nat) : State × Nat :=
  let a := s.pageGet n page 10
  match a.1.region n with
  | none => (a.1, queued)
  | some r =>
    let e := a.2
    let overQ := decide (r.quotaFrames < occ)
    let cand := decide (e.state = 1) && (overQ || (decide (e.heat ≤ r.down) && decide (r.markFrames < occ)))
    let target := if overQ then r.quotaFrames else r.markFrames
    let take := cand && decide (target < occ - queued) && !r.noMove.contains page && !r.queued.contains page && !r.tierShort
    let s1 := a.1.modRegion n (fun r => { r with
      candidates := if cand then (if page ∈ r.candidates then r.candidates else r.candidates ++ [page])
        else r.candidates.filter (· != page)
      queued := if take then r.queued ++ [page] else r.queued })
    (if e.bits = 0 then s1 else s1.pageSet n page 10 { e with heat := e.heat / 2 }, if take then queued + 1 else queued)

/-- How long a sweep of a region takes at the sweep rate, in ns: 4 B read and 4 B per copy written per page (05 R170). Of a STRIPE region the
parity is not counted (log 97). -/
def State.sweepNs (s : State) (r : Region) : Nat :=
  r.size / 4096 * (4 + 4 * (if r.protect = 1 then 2 else 1)) * 2 / max 1 s.tr.sweepRate

/-- HEAT_SWEEP of a TIERED region, at the end of its epoch, or of its last sweep where that took longer (05 R169 to R172, R176). The sweeps of
all regions have the sweep rate one after the other (log 97). -/
def heatSweep (n : Nat) (s : State) : State :=
  match s.region n with
  | none => s
  | some r =>
    if r.tier ≠ 2 ∨ !s.enginesRun ∨ s.bgPaused ∨ s.tr.paused then s
    else
      let s0 := s.advance (max (r.epochAt + r.epoch * 1000000) r.sweepEnd)
      let ends := max s0.now s0.tr.sweepBusy + s0.sweepNs r
      let occ := r.frames.length
      let pages := ((s0.mapLines n r).map (fun i => (List.range 16).map (fun j => (i * 64 - r.mapBase) / 4 + j))).flatten
      let swept := pages.foldl (fun (acc : State × Nat) p => acc.1.sweepPage n p occ acc.2) (s0, r.queued.length + (s.tr.moves.filter (fun m => m.region == n && !m.up)).length)
      let churning := (((oall r.owns).filter (fun x => x.2.churn)).map (fun x => x.1 / 8)).dedup
      let s1 := ({ swept.1 with tr := { swept.1.tr with sweepBusy := ends } } : State).modRegion n (fun r => { r with
        noMove := [], epochAt := s0.now, sweepEnd := ends })
      let s2 := churning.foldl (fun s p =>
        let a := s.pageGet n p 10
        a.1.startPromotion n p 10 a.2) s1
      let s3 := s2.startDemotions n 32
      if r.epoch * 1000000 < ends - s0.now ∧ !r.stretched then
        (s3.modRegion n (fun r => { r with stretched := true })).report trEpochStretched n
      else s3

/-! ### TIER_CTL (15 R544) -/

/-- Restarts every halted MIG context (07 R262). -/
def State.restartMig (s : State) : State := { s with tr := { s.tr with halted := 0 } }

/-- Aborts every move, as SLEEP, DEEP and SAFE do (05 R181; 16 R587). -/
def State.abortMoves (s : State) : State := s.tr.moves.foldl (fun s m => s.abortMove m.region m.page 10) s

def execHeatSweep (region : Nat) (s : State) : Host.Outcome State Fault Refusal := .next (heatSweep region s)

end Sys2Proof.Machine
end

