-- ==== Sys2Proof/Machine/Near.lean ====
section
/-! DEFINITION. Back-invalidate snoops, the near store, its victim buffer, and the fetches that wait for a line (01 R42 to R46;
02 R61, R95; 04 R125 to R160). -/

namespace Sys2Proof.Machine
open Sys2Proof

/-! ### Back-invalidate snoops (01 R43; 02 R61, R62, R95, R683) -/

/-- Whether a decoder of a function maps a DPA: the span that its interleave gives this device. -/
def Decoder.maps (d : Decoder) (dpa : Nat) : Bool :=
  d.committed && decide (d.dpa ≤ dpa ∧ dpa < d.dpa + d.cfg.size / max 1 d.cfg.ways)

/-- Whether a function is snooped for a DPA now: its link is up, and with CXL.mem
enabled, and a decoder with back-invalidate maps it (02 R54, R61, R95). -/
def State.snooped (s : State) (f dpa : Nat) : Bool :=
  let h := s.fnAt f
  h.exist && !h.slow && !h.snoopOff && (decide (h.link = .l0) || decide (h.link = .recovery) || decide (h.link = .l1)) &&
    h.decoders.any (fun d => d.maps dpa && d.cfg.bi)

/-- The functions a snoop of a line goes to. -/
def State.snoopTargets (s : State) (dpa : Nat) : List Nat := [0, 1, 2, 3].filter (fun f => s.snooped f dpa)

/-- Whether a snoop of a line is outstanding (01 R42). -/
def State.snoopWaits (s : State) (line : Nat) : Bool := s.hp.ports.any (fun p => p.snoops.any (fun x => x.2 == line))

/-- Whether every port of the targets has room below its limit (01 R43). -/
def State.snoopRoom (s : State) (fs : List Nat) : Bool :=
  [0, 1].all (fun p => decide ((s.portAt p).snoops.length + (fs.filter (fun f => portOf f == p)).length ≤ 512))

/-- Sends a snoop of a line to each target. -/
def State.sendSnoops (s : State) (fs : List Nat) (line : Nat) : State :=
  fs.foldl (fun s f => ((s.modPort (portOf f) (fun p => { p with snoops := p.snoops ++ [(f, line)] })).emit (.snoop f line)).count
    (8 + portOf f) 4) s

/-! ### Place of a line (04 R126) -/

/-- Quadrant, set and tag of a line address. -/
def nsQuad (l : Nat) : Nat := field l 0 2 ^^^ field l 8 2 ^^^ field l 16 2 ^^^ field l 24 2 ^^^ field l 32 2
def nsSet (l : Nat) : Nat := field l 2 14 ^^^ field l 16 14
def nsTag (l : Nat) : Nat := field l 16 22

/-- The line address of a quadrant, set and tag. -/
def nsLine (q set tag : Nat) : Nat :=
  let mid := set ^^^ field tag 0 14
  let lo := q ^^^ field mid 6 2 ^^^ field tag 0 2 ^^^ field tag 8 2 ^^^ field tag 16 2
  tag * 2 ^ 16 + mid * 4 + lo

/-- The key of an entry. -/
def nsKey (q set way : Nat) : Nat := (q * 16384 + set) * 16 + way

/-- Whether the ways of a group are looked up: ON or DRAINING (04 R151). -/
def State.wayLive (s : State) (way : Nat) : Bool :=
  match s.ns.ways.getD (way / 4) .on with
  | .on => true
  | .draining => true
  | _ => false

/-- Whether a way may take a line (04 R128, R151). -/
def State.wayOn (s : State) (way : Nat) : Bool := decide (s.ns.ways.getD (way / 4) .on = .on)

/-- The entry of a line address: its key and content. -/
def State.nsFind (s : State) (l : Nat) : Option (Nat × NsLine) :=
  (List.range 16).findSome? (fun w =>
    if s.wayLive w then
      match oget s.ns.lines (nsKey (nsQuad l) (nsSet l) w) with
      | some e => if e.tag = nsTag l then some (nsKey (nsQuad l) (nsSet l) w, e) else none
      | none => none
    else none)

/-- Sets or clears an entry. -/
def State.nsSetAt (s : State) (key : Nat) (e : Option NsLine) : State :=
  { s with ns := { s.ns with lines := oset s.ns.lines key e } }

/-! ### Tree pseudo-LRU (04 R128; log 20) -/

/-- Walks the tree for a way from its top bit down, pointing each node away from it (log 20). -/
def plruWalk (way : Nat) : Nat → Nat → BitVec 15 → BitVec 15
  | 0, _, t => t
  | k + 1, node, t =>
    let b := way.testBit k
    let t1 := if b then t &&& ~~~(1#15 <<< node) else t ||| (1#15 <<< node)
    plruWalk way k (2 * node + 1 + b2n b) t1

/-- The state after a way is used (log 20). -/
def plruTouch (t : BitVec 15) (way : Nat) : BitVec 15 := plruWalk way 4 0 t

/-- The way the tree names among the ways of which `on` holds (log 20). -/
def plruPick (on : Nat → Bool) (t : BitVec 15) : Nat → Nat → Nat → Nat
  | 0, _, way => way
  | k + 1, node, way =>
    let side := t.getLsbD node
    let holds (b : Bool) : Bool := (List.range (2 ^ k)).any (fun i => on ((way * 2 + b2n b) * 2 ^ k + i))
    let b := if holds side then side else !side
    plruPick on t k (2 * node + 1 + b2n b) (way * 2 + b2n b)

/-- A hit or install of a host, QE, CE or NM updates the tree (04 R128). -/
def State.nsTouch (s : State) (key : Nat) : State :=
  { s with ns := { s.ns with plru := smod 0 s.ns.plru (key / 16) (fun t => plruTouch t (key % 16)) } }

/-! ### Leaving the near store (04 R129, R133 to R138, R148) -/

/-- The region, number and offset of a line address. -/
def State.lineRegion (s : State) (l : Nat) : Option (Nat × Region × Nat) :=
  (s.regionAt (l * 64)).map (fun r => (r.1, r.2, l * 64 - r.2.base))

/-- Writes a line back to the tier manager for its last writer (04 R133, R134). -/
def State.nsBack (s : State) (l : Nat) (e : NsLine) : State :=
  match s.lineRegion l with
  | none => s
  | some (n, _, off) => (s.tierWrite n off e.writer e.data fullEn e.poison).count (12 + nsQuad l) 4

/-- Whether a line is of a T1 page, and the page's entry state (04 R136). -/
def State.t1Page (s : State) (l : Nat) : State × Option (Nat × Nat) :=
  match s.lineRegion l with
  | none => (s, none)
  | some (n, r, off) =>
    if r.tier ≠ 2 then (s, none)
    else
      let a := s.pageGet n (off / 4096) 15
      (a.1, if a.2.state = 1 ∨ a.2.state = 3 then some (n, off / 4096) else none)

/-- The tier manager's answer to an offer (04 R137; 05 R181): a capture entry is free, MIG's budget for the window is not spent, and the page
is a demotion candidate or on its way down. -/
def State.offerOk (s : State) (n page : Nat) : Bool :=
  decide (s.tr.captures.length < 128) && !s.bw.lowered.contains 10 &&
    (((s.region n).map (fun r => r.candidates.contains page)).getD false ||
      (match s.moveOf n page with
       | some m => !m.up
       | none => false))

/-- Removes the first victim that `p` holds of. -/
def State.dropVictim (s : State) (p : Victim → Bool) : State :=
  { s with ns := { s.ns with victims := s.ns.victims.eraseP p } }

/-- Puts a line into the near store without a fetch or an event: into the way it has, a free way, or the victim's, which leaves
for the victim buffer (04 R128, R129). -/
def State.nsPut (s : State) (l : Nat) (e : NsLine) : State :=
  match s.nsFind l with
  | some (key, _) => s.nsSetAt key (some e)
  | none =>
    let q := nsQuad l
    let set := nsSet l
    let free := (List.range 16).find? (fun w => s.wayOn w && (oget s.ns.lines (nsKey q set w)).isNone)
    let way := free.getD (plruPick s.wayOn (sget 0 s.ns.plru (q * 16384 + set)) 4 0 0)
    let key := nsKey q set way
    match oget s.ns.lines key with
    | none => s.nsSetAt key (some e)
    | some old =>
      let lo := nsLine q set old.tag
      let s1 := s.nsSetAt key (some e)
      if old.dirty then { s1 with ns := { s1.ns with victims := s1.ns.victims ++ [⟨lo, old, false, false⟩] } }
      else
        let a := s1.t1Page lo
        match a.2 with
        | some _ => { a.1 with ns := { a.1.ns with victims := a.1.ns.victims ++ [⟨lo, old, true, false⟩] } }
        | none => a.1

/-- The oldest dirty victim of a line is written back and released (04 R129, R133). -/
def State.ackBack (s : State) (l : Nat) : State :=
  match s.ns.victims.find? (fun v => v.line == l && v.ent.dirty) with
  | none => s
  | some v => (s.dropVictim (fun v => v.line == l && v.ent.dirty)).nsBack l v.ent

/-- An offer is answered: ACCEPT captures the line, DECLINE drops it, or reinstalls it where a read found it meanwhile (04 R136,
R137, R148). -/
def State.answerOffer (s : State) (l : Nat) : State :=
  match s.ns.victims.find? (fun v => v.line == l && v.offer) with
  | none => s
  | some v =>
    let s1 := s.dropVictim (fun v => v.line == l && v.offer)
    let a := s1.t1Page l
    match a.2 with
    | some (n, page) =>
      if a.1.offerOk n page then
        let kept := a.1.tr.captures.filter (fun c => !(c.region == n && c.page == page && c.line == l % 64))
        let cap : Capture := ⟨n, page, l % 64, v.ent.data, v.ent.poison⟩
        let s2 : State := { a.1 with tr := { a.1.tr with captures := kept ++ [cap] } }
        (s2.count (12 + nsQuad l) 2).count 16 4
      else
        let s2 := a.1.count (12 + nsQuad l) 3
        if v.hit then s2.nsPut l v.ent else s2
    | none =>
      let s2 := a.1.count (12 + nsQuad l) 3
      if v.hit then s2.nsPut l v.ent else s2

/-- The victims of a line's quadrant. -/
def State.quadVictims (s : State) (l : Nat) : List Victim := s.ns.victims.filter (fun v => nsQuad v.line == nsQuad l)

/-- Whether a miss of a line needs a victim while all 64 entries of its quadrant's buffer are in use (04 R128, R129). -/
def State.needsRoom (s : State) (l : Nat) : Bool :=
  (s.nsFind l).isNone && decide (64 ≤ (s.quadVictims l).length) &&
    (List.range 16).all (fun w => !s.wayOn w || (oget s.ns.lines (nsKey (nsQuad l) (nsSet l) w)).isSome)

/-- An engine's miss that needs a victim waits until the oldest entries of its quadrant's buffer are released, as many as it takes (04 R129; log
35). -/
def State.victimRoom (s : State) (l : Nat) : Nat → State
  | 0 => s
  | k + 1 =>
    if s.needsRoom l then
      match s.quadVictims l with
      | [] => s
      | v :: _ => (if v.ent.dirty then s.ackBack v.line else s.answerOffer v.line).victimRoom l k
    else s

/-- Installs a line for a host, QE, CE or NM. -/
def State.nsInstall (s : State) (l : Nat) (e : NsLine) : State :=
  let s1 := (s.victimRoom l 128).nsPut l e
  match s1.nsFind l with
  | some (key, _) => s1.nsTouch key
  | none => s1

/-- The newest victim of a line. -/
def State.victimOf (s : State) (l : Nat) : Option Victim := s.ns.victims.reverse.find? (fun v => v.line == l)

/-- A write of a line that the tier manager has captured, or whose page moves, ends the capture or move (04 R147, R148; 05 R175). -/
def State.captureBroken (s : State) (l : Nat) : State :=
  match s.lineRegion l with
  | none => s
  | some (n, r, off) =>
    if r.tier = 2 && s.tr.captures.any (fun c => c.region == n && c.page == off / 4096 && c.line == l % 64) then
      s.abortMove n (off / 4096) 15
    else s

/-- A write in a page that moves aborts the move even where the near store takes it: ZERO-LINE and INVALIDATE (04 R147). -/
def State.moveBroken (s : State) (l : Nat) : State :=
  match s.lineRegion l with
  | none => s
  | some (n, r, off) => if r.tier = 2 then s.abortMove n (off / 4096) 15 else s

/-! ### Requests that miss (04 R131, R132) -/

/-- Whether reads and writes of a region allocate (04 R131). -/
def Region.readAllocs (r : Region) : Bool := decide (r.nsAlloc ≠ 2)
def Region.writeAllocs (r : Region) : Bool := decide (r.nsAlloc = 0)

/-- A read that the near store can answer: from a way, or from the victim buffer (04 R131, R148). -/
def State.nsServe (s : State) (l : Nat) : State × Option (Line × Bool) :=
  match s.nsFind l with
  | some (key, e) => ((s.nsTouch key).count (12 + nsQuad l) 0, some (e.data, e.poison))
  | none =>
    match s.victimOf l with
    | some v =>
      let mark (x : Victim) : Victim := if x.line == l && x.offer then { x with hit := true } else x
      (({ s with ns := { s.ns with victims := s.ns.victims.map mark } }).count (12 + nsQuad l) 1, some (v.ent.data, v.ent.poison))
    | none => (s, none)

/-- A read for a requester, complete at once, of a line that no fetch waits for. -/
def State.nsRead (s : State) (l w : Nat) : State × LineRead :=
  let a := s.nsServe l
  match a.2 with
  | some (d, p) => (a.1, ⟨d, p, false, false⟩)
  | none =>
    match a.1.lineRegion l with
    | none => (a.1, ⟨0, true, false, true⟩)
    | some (n, r, off) =>
      let b := (a.1.count (12 + nsQuad l) 1).tierRead n off w
      if r.readAllocs then (b.1.nsInstall l ⟨nsTag l, false, b.2.poison, w, b.2.data⟩, b.2) else b

/-- A write for a requester, complete at once, of a line that no fetch waits for (04 R131, R132, R148). -/
def State.nsWrite (s0 : State) (l w : Nat) (d : Line) (en : BitVec 64) (poison : Bool) : State :=
  let s := s0.captureBroken l
  let full := decide (en = fullEn)
  let merged (e : Line) (p : Bool) : NsLine := ⟨nsTag l, true, poison || (!full && p), w, mergeLine e d en⟩
  match s.nsFind l with
  | some (key, e) => ((s.nsSetAt key (some (merged e.data e.poison))).nsTouch key).count (12 + nsQuad l) 0
  | none =>
    match s.victimOf l with
    | some v =>
      let s1 := s.count (12 + nsQuad l) 1
      if v.ent.dirty then s1.nsInstall l (merged v.ent.data v.ent.poison)
      else (s1.dropVictim (fun x => x.line == l && x.offer)).nsInstall l (merged v.ent.data v.ent.poison)
    | none =>
      match s.lineRegion l with
      | none => s
      | some (n, r, off) =>
        let s1 := s.count (12 + nsQuad l) 1
        if !r.writeAllocs then s1.tierWrite n off w d en poison
        else if full then s1.nsInstall l (merged 0 false)
        else
          let b := s1.tierRead n off w
          b.1.nsInstall l (merged b.2.data b.2.poison)

/-! ### Fetches of host requests (04 R148; 07 R232; 08 R285 to R288) -/

/-- Data returned to a host; a viral function gets poison (02 R101). The data bits of a poisoned completion are a free value: no
rule states them (log 3). -/
def State.answerRead (s : State) (q : MemReq) (d : Line) (poison : Bool) : State :=
  if (s.fnAt q.fn).link = .down ∨ (s.fnAt q.fn).link = .disabled ∨ !s.fnExists q.fn then s
  else if poison || (s.fnAt q.fn).viral then
    (s.respond q.fn (.readData q.fn q.hpa (BitVec.ofNat 512 s.freeVal) true)).drawn
  else s.respond q.fn (.readData q.fn q.hpa d false)

/-- Whether a request is a read. -/
def isReadReq (q : MemReq) : Bool :=
  match q.kind with
  | .read _ => true
  | .write _ _ _ => false

/-- Serves the requests that waited for a line, in their order: reads before the first write see the fetched line (01 R44; 04
R131, R148). `keep`: the line is installed where its region allocates. -/
def State.serveWaiters (s : State) (l : Nat) (d : Line) (poison keep : Bool) : List Waiter → Bool → State
  | [], _ => s
  | x :: rest, fresh =>
    match x.req.kind with
    | .read _ =>
      if fresh then ((s.answerRead x.req d poison).serveWaiters l d poison keep rest true)
      else
        let a := s.nsRead l x.req.fn
        (a.1.answerRead x.req a.2.data a.2.poison).serveWaiters l d poison keep rest false
    | .write wd en wp =>
      let s1 := if fresh && !keep then
          match s.lineRegion l with
          | some (n, r, off) =>
            if r.writeAllocs then (s.captureBroken l).nsInstall l ⟨nsTag l, true, wp || (decide (en ≠ fullEn) && poison), x.req.fn, mergeLine d wd en⟩
            else s.tierWrite n off x.req.fn wd en wp
          | none => s
        else s.nsWrite l x.req.fn wd en wp
      s1.serveWaiters l d poison keep rest false

/-- The fetch of a line. -/
def State.fetchOf (s : State) (l : Nat) : Option Fetch := s.rr.fetches.find? (fun f => f.line == l)

/-- Removes the fetch of a line. -/
def State.dropFetch (s : State) (l : Nat) : State :=
  { s with rr := { s.rr with fetches := s.rr.fetches.filter (fun f => f.line != l) } }

/-- A fetched line arrives: installed where its region allocates, and every waiter served (04 R131). -/
def State.finishFetch (s : State) (l : Nat) (d : Line) (poison : Bool) (install : Bool) : State :=
  match s.fetchOf l with
  | none => s
  | some f =>
    let s1 := s.dropFetch l
    match s1.lineRegion l with
    | none => s1.serveWaiters l d poison false f.waiters true
    | some (_, r, _) =>
      let firstRead := (f.waiters.head?.map (fun x => isReadReq x.req)).getD true
      let keep := install && (if firstRead then r.readAllocs else r.writeAllocs)
      let who := (f.waiters.head?.map (fun x => x.req.fn)).getD 0
      let s2 := if keep then s1.nsInstall l ⟨nsTag l, false, poison, who, d⟩ else s1
      s2.serveWaiters l d poison keep f.waiters true

/-- Changes the fetch of a line. -/
def State.setStage (s : State) (l : Nat) (g : FetchStage) : State :=
  { s with rr := { s.rr with fetches := s.rr.fetches.map (fun (f : Fetch) => if f.line == l then { f with stage := g } else f) } }

/-- Whether a line that arrives waits for a victim buffer entry: its region allocates (04 R129, R131). -/
def State.roomWaits (s : State) (l : Nat) : Bool :=
  match s.lineRegion l with
  | some (_, r, _) => r.readAllocs && s.needsRoom l
  | none => false

/-- A fetched line arrives: it is installed and its waiters served, or it waits for a victim buffer entry (04 R129, R131). -/
def State.arrive (s : State) (l : Nat) (d : Line) (poison : Bool) : State :=
  if s.roomWaits l then s.setStage l (.room d poison true) else s.finishFetch l d poison true

/-- Victim buffer entries of a quadrant are free again: the misses that waited for one go on in their order (04 R129). -/
def State.roomFreed (s : State) (q : Nat) : State :=
  (s.rr.fetches.filter (fun f => nsQuad f.line == q)).foldl (fun s f =>
    match f.stage with
    | .room d poison install => if s.roomWaits f.line then s else s.finishFetch f.line d poison install
    | _ => s) s

/-- Reads the line of a fetch where it lies now; its heat was counted when the fetch began. -/
def State.fetchRead (s : State) (n off w : Nat) : State × LineRead :=
  match s.region n with
  | none => (s, ⟨0, true, false, true⟩)
  | some r =>
    if r.tier = 2 then
      let a := s.pageGet n (off / 4096) w
      if a.2.state = 1 ∨ a.2.state = 3 then a.1.extRead n 1 (frameOff a.2.frame off) w
      else a.1.readYard n (off / 512) (off / 64 % 8) w
    else s.tierRead n off w

/-- Completes a pending fetch of a line at once, for an access that is ordered after it (01 R44; log 82). -/
def State.settle (s : State) (l : Nat) (install : Bool) : State :=
  match s.fetchOf l with
  | none => s
  | some f =>
    match f.stage, s.lineRegion l with
    | .room d poison keep, some _ => s.finishFetch l d poison (keep && install)
    | _, none => s.finishFetch l 0 true false
    | _, some (n, _, off) =>
      let who := (f.waiters.head?.map (fun x => x.req.fn)).getD 0
      let drop (q : List ChanReq) : List ChanReq := q.filter (fun c => c.id != f.id)
      let s1 := { s with mc := { s.mc with chans := s.mc.chans.map (fun (m : Mc) =>
        { m with subs := m.subs.map (fun (u : SubCh) => { u with readQ := drop u.readQ }) }) } }
      let a := s1.fetchRead n off who
      a.1.finishFetch l a.2.data a.2.poison install

/-- A read of an engine of level 2: it is ordered behind the requests that wait for the line (01 R23, R38, R44). -/
def State.orderedRead (s : State) (l w : Nat) : State × LineRead := (s.settle l true).nsRead l w

/-! ### Maintenance of one line (04 R140, R141, R147, R148) -/

/-- Writes back every victim of a line, as a maintenance operation waits for (04 R148; log 35). -/
def State.drainVictims (s : State) (l : Nat) : Nat → State
  | 0 => s
  | k + 1 => (s.ackBack l).drainVictims l k

/-- CLEAN (0), INVALIDATE (1) or CLEAN_INVALIDATE (2) of a line. -/
def State.maintain (s0 : State) (op l : Nat) : State :=
  let s := ((s0.settle l true).drainVictims l 64)
  match s.nsFind l with
  | none => s
  | some (key, e) =>
    if e.dirty then
      if op = 1 then (s.moveBroken l).nsSetAt key none
      else (s.nsSetAt key (if op = 0 then some { e with dirty := false } else none)).nsBack l e
    else if op = 0 then s else s.nsSetAt key none

/-- ZERO-LINE of a line (04 R140, R141, R147). -/
def State.zeroLine (s0 : State) (l : Nat) : State :=
  let s := (((s0.settle l false).moveBroken l).captureBroken l).dropVictim (fun v => v.line == l && v.offer)
  -- a zero write-back of its own comes after the older write-backs of the line (04 R133, R148)
  match s.nsFind l with
  | some (key, _) => s.nsSetAt key (some ⟨nsTag l, true, false, 15, 0⟩)
  | none =>
    match s.lineRegion l with
    | none => s
    | some (n, r, off) =>
      if r.nsAlloc = 2 then (s.drainVictims l 64).tierWrite n off 15 0 fullEn false
      else (s.victimRoom l 128).nsPut l ⟨nsTag l, true, false, 15, 0⟩

/-- Invalidates the near-store copies of a granule's or region's line without a write-back (04 R146; 03 R124). -/
def State.nsDiscard (s : State) (l : Nat) : State :=
  let s1 := match s.nsFind l with
    | some (key, _) => s.nsSetAt key none
    | none => s
  { s1 with ns := { s1.ns with victims := s1.ns.victims.filter (fun v => v.line != l) } }

/-! ### Events of the near store -/

/-- WRITEBACK_ACK (04 R129). -/
def writebackAck (l : Nat) (s : State) : State := (s.ackBack l).roomFreed (nsQuad l)

/-- EVICTION_OFFER_ANSWER (04 R136, R137). -/
def evictionOfferAnswer (l : Nat) (s : State) : State := (s.answerOffer l).roomFreed (nsQuad l)

/-- The error location registers of a near-store quadrant: set, way and kind (04 R160). -/
def State.nsErrAt (s : State) (q set way kind : Nat) : State :=
  { s with ns := { s.ns with errLoc := lset s.ns.errLoc q (set % 2 ^ 14 + way % 16 * 2 ^ 14 + kind * 2 ^ 18) } }

/-- A tag entry of a quadrant is lost, and its line with it (04 R159, R160). -/
def State.tagLost (s : State) (q set way : Nat) : State := (s.nsErrAt q set way 3).nsSetAt (nsKey q (set % 2 ^ 14) (way % 16)) none

/-- NS_TAG_SCRUB of a quadrant, due once per tag-scrub interval: `bad` are the entries (set, way) whose tag is uncorrectable. A corrected tag
reads as it was, and is an SRAM correction of 07 R258 that FAULT_REPORT brings (04 R158, R159). -/
def nsTagScrub (q : Nat) (bad : List (Nat × Nat)) (s : State) : State :=
  if 4 ≤ q ∨ !s.awake then s
  else
    let s1 := s.advance (s.ns.tagAt.getD q 0 + s.ns.tagScrub.getD q 100 * 1000000)
    bad.foldl (fun s x =>
      if s.wayLive (x.2 % 16) then (s.tagLost q x.1 x.2).report (nsTagLost q) (x.1 % 2 ^ 14 + x.2 % 16 * 2 ^ 14) else s)
      { s1 with ns := { s1.ns with tagAt := lset s1.ns.tagAt q s1.now } }

/-! ### Errors in data words (04 R155 to R157, R160) -/

/-- The way of a line; 0 where no way holds it (log 101). -/
def State.wayFound (s : State) (line : Nat) : Nat := ((s.nsFind line).map (fun x => x.1 % 16)).getD 0

/-- An SRAM error in a data word of a near-store line, met by a request of `w`: a corrected one (kind 1) changes no data; an uncorrectable one
poisons a DIRTY line (2), and invalidates a CLEAN one (4), which is fetched again. The way field of an error in a victim buffer entry, which has
no way, is 0 (DESIGN CHOICE, log 101). -/
def State.nsDataError (s : State) (q kind line w : Nat) : State :=
  let bad (v : Victim) : Victim := if v.line = line ∧ v.ent.dirty then { v with ent := { v.ent with poison := true } } else v
  let hit := s.nsFind line
  let s1 := s.nsErrAt q (nsSet line) (s.wayFound line) kind
  if kind = 2 then
    let s2 : State := { s1 with ns := { s1.ns with errDpa := lset s1.ns.errDpa q (line * 64), victims := s1.ns.victims.map bad } }
    match hit with
    | some (k, e) => if e.dirty then s2.nsSetAt k (some { e with poison := true }) else s2
    | none => s2
  else if kind = 4 then
    let gone : Option State := match hit with
      | some (k, e) => if e.dirty then none else some (s1.nsSetAt k none)
      | none => if (s1.ns.victims.any (fun v => v.line == line && v.offer)) then some (s1.dropVictim (fun v => v.line == line && v.offer)) else none
    match gone, s1.lineRegion line with
    | some s2, some (n, r, off) =>
      let a := s2.tierRead n off w
      if r.readAllocs then a.1.nsInstall line ⟨nsTag line, false, a.2.poison, w, a.2.data⟩ else a.1
    | some s2, none => s2
    | none, _ => s1
  else s1

/-! ### The soft fuse map (07 R259) -/

/-- The soft entries of the banks of a range are applied as their banks are re-initialised. Bank b lies in retention group b / 8 of 17 R605 (log
98). -/
def State.applySoft (s : State) (lo hi : Nat) : State :=
  { s with fu := { s.fu with
    applied := (s.fu.applied ++ s.fu.soft.filter (fun x => decide (lo ≤ x.1 ∧ x.1 < hi))).dedup } }

def execWritebackAck (line : Nat) (s : State) : Host.Outcome State Fault Refusal := .next (writebackAck line s)

def execEvictionOfferAnswer (line : Nat) (s : State) : Host.Outcome State Fault Refusal := .next (evictionOfferAnswer line s)

def execNsTagScrub (quadrant : Nat) (bad : List (Nat × Nat)) (s : State) : Host.Outcome State Fault Refusal :=
  .next (nsTagScrub quadrant bad s)

end Sys2Proof.Machine
end

