-- ==== Sys2Proof/Machine/Counters.lean ====
section
/-! DEFINITION. The counter engine: sets and their layout, the counter cache, updates and end values, lost lines, recomputation,
coherence, and its commands (13 R458 to R482; 01 R42, R43; 15 R546, R551). -/

namespace Sys2Proof.Machine
open Sys2Proof

/-- Status codes of 13 R482. -/
def stSetAbsent : Nat := 0x1300
/-! ### Layout (13 R460 to R463) -/

/-- Set `n`. -/
def State.ceSet (s : State) (n : Nat) : Option CSet := oget s.ce.sets n

/-- Pairs in a line. -/
def CSet.per (c : CSet) : Nat := if c.pair48 then 5 else 4

/-- The fan-out product down to the leaves of one ancestor of level `l`. -/
def CSet.span (c : CSet) (l : Nat) : Nat := ((c.fan.take l).foldl (· * ·) 1)

/-- Pairs of level `l`: the leaves, then ceilings of the level below (13 R460). -/
def CSet.levelLen (c : CSet) : Nat → Nat
  | 0 => c.leaves
  | l + 1 => (c.levelLen l + c.fan.getD l 1 - 1) / max 1 (c.fan.getD l 1)

/-- The first pair number of level `l` (13 R461). -/
def CSet.levelStart (c : CSet) : Nat → Nat
  | 0 => 0
  | l + 1 => roundUp c.per (c.levelStart l + c.levelLen l)

/-- One more than the last pair number. -/
def CSet.pairEnd (c : CSet) : Nat := c.levelStart c.levels + c.levelLen c.levels

/-- Pairs of a set in all its levels. -/
def CSet.pairs (c : CSet) : Nat := ((List.range (c.levels + 1)).map c.levelLen).foldl (· + ·) 0

/-- Bytes of a pair, and of one of its counts. -/
def CSet.pairBytes (c : CSet) : Nat := if c.pair48 then 12 else 16
def CSet.cntBytes (c : CSet) : Nat := if c.pair48 then 6 else 8

/-- The largest count (13 R471). -/
def CSet.cntMax (c : CSet) : Nat := 2 ^ (8 * c.cntBytes) - 1

/-- Lines of the counters and of the status array. -/
def CSet.ctrLines (c : CSet) : Nat := (c.pairEnd + c.per - 1) / c.per
def CSet.stLines (c : CSet) : Nat := (c.pairEnd + 63) / 64

/-- The level that holds a pair. -/
def CSet.levelOf (c : CSet) (p : Nat) : Nat :=
  ((List.range (c.levels + 1)).filter (fun l => decide (c.levelStart l ≤ p))).foldl (fun _ l => l) 0

/-- The line address of a set's first counter line, and of its first status line. -/
def State.ctrBase (s : State) (c : CSet) : Nat := (((s.region c.region).map (fun r => r.base)).getD 0 + c.ctrOff) / 64
def State.stBase (s : State) (c : CSet) : Nat := (((s.region c.region).map (fun r => r.base)).getD 0 + c.stOff) / 64

/-- A line of a set: its set, whether it is of the status array, its number there. -/
structure CtrLine where
  set    : Nat
  status : Bool
  idx    : Nat
  deriving DecidableEq, Repr

/-- The set that a line address belongs to (13 R465). -/
def State.ctrLine (s : State) (l : Nat) : Option CtrLine :=
  (oall s.ce.sets).findSome? (fun e =>
    let cb := s.ctrBase e.2
    let sb := s.stBase e.2
    if cb ≤ l ∧ l < cb + e.2.ctrLines then some ⟨e.1, false, l - cb⟩
    else if sb ≤ l ∧ l < sb + e.2.stLines then some ⟨e.1, true, l - sb⟩
    else none)

/-! ### Counter cache (13 R465) -/

/-- A cached line. -/
def State.ceHit (s : State) (l : Nat) : Option CLine := s.ce.cache.find? (fun x => x.line == l)

/-- A write of QE (8), CE (9) or NM (15) that fails the owner check is dropped and logged, and the engine's node raises a CONTAINED fault; the
engine is not frozen (01 R35, R37). -/
def State.denyEngine (s : State) (w dpa : Nat) : State :=
  ((s.count 10 2).emit (.dropLog w dpa 1)).report (if w = 8 then qeWriteDenied else if w = 9 then ceWriteDenied else nmWriteDenied) dpa (some w)

/-- Writes back a dirty line as requester CE, whose writes the owner mask of the region allows or not (01 R35). -/
def State.ceBack (s : State) (x : CLine) : State :=
  if x.dirty then
    match s.lineRegion x.line with
    | some (n, r, off) => if ownerHas r.owner 9 then s.tierWrite n off 9 x.data fullEn false else s.denyEngine 9 (x.line * 64)
    | none => s
  else s

/-- Puts a line into the cache of 16 ways; the oldest line leaves a full set (13 R465; log 13). -/
def State.ceInstall (s : State) (x : CLine) : State :=
  let rest := s.ce.cache.filter (fun y => y.line != x.line)
  let mates := if rest.length < 16 then []
    else rest.filter (fun y => Config.counterSet y.line % 6144 == Config.counterSet x.line % 6144)
  let put (l : List CLine) : State := { s with ce := { s.ce with cache := l ++ [x] } }
  match mates with
  | [] => put rest
  | old :: _ => if 16 ≤ mates.length then (put (rest.erase old)).ceBack old else put rest

/-- Sets a line, dirty. -/
def State.ceSetLine (s : State) (l : Nat) (d : Line) : State :=
  match s.ceHit l with
  | some _ => { s with ce := { s.ce with cache := s.ce.cache.map (fun (x : CLine) =>
      if x.line == l then { x with data := d, dirty := true, bad := false } else x) } }
  | none => s.ceInstall ⟨l, d, true, false⟩

/-- Fetches a line; none where it is uncorrectable, in DRAM or in its DIRTY cache line (13 R473). -/
def State.ceFetch (s : State) (l : Nat) : State × Option Line :=
  match s.ceHit l with
  | some x => (s.count 25 1, if x.bad then none else some x.data)
  | none =>
    match s.lineRegion l with
    | none => (s, none)
    | some (n, _, off) =>
      let a := (s.count 25 2).tierRead n off 9
      if a.2.lost || a.2.poison then (a.1, none) else (a.1.ceInstall ⟨l, a.2.data, false, false⟩, some a.2.data)

/-! ### Status bytes and lost lines (13 R463, R473 to R475) -/

/-- Raises a fault for a lost line, but for one that was reported when its error was found in the cache (13 R473; log 21). -/
def State.ceReport (s : State) (l src detail : Nat) : State :=
  if ((s.ceHit l).map (fun x => x.bad)).getD false then s else s.report src detail (some 9)

/-- A status line, rewritten as DISCONTINUITY 1 in each byte where it is lost (13 R475). -/
def State.stLine (s : State) (c : CSet) (set i : Nat) : State × Line :=
  let l := s.stBase c + i
  let a := s.ceFetch l
  match a.2 with
  | some d => (a.1, d)
  | none =>
    let d := bytesLine (List.replicate 64 4#8)
    ((a.1.ceReport l ceStatusLost (set * 2 ^ 32 + i)).ceSetLine l d, d)

/-- The status byte of a pair (log 21). -/
def State.stGet (s : State) (c : CSet) (set p : Nat) : State × Nat :=
  let a := s.stLine c set (p / 64)
  (a.1, (lineByte a.2 (p % 64)).toNat)

/-- Sets the status byte of a pair, and the set's END count with its END flags (13 R471; log 21). -/
def State.stSet (s : State) (c : CSet) (set p v : Nat) : State :=
  let a := s.stLine c set (p / 64)
  let old := (lineByte a.2 (p % 64)).toNat
  let s1 := a.1.ceSetLine (s.stBase c + p / 64) (lineSet a.2 (p % 64) 1 v)
  let was := decide (old % 4 ≠ 0)
  let is := decide (v % 4 ≠ 0)
  if was == is then s1
  else { s1 with ce := { s1.ce with sets := omod s1.ce.sets set (fun c =>
    { c with endCnt := if is then c.endCnt + 1 else c.endCnt - 1 }) } }

/-- A status value with DISCONTINUITY 1 and GEN one higher (13 R463). -/
def stRestart (v : Nat) : Nat := (v % 32 ||| 4) + (v / 32 + 1) % 8 * 32

/-- The pairs of counter line `i`. -/
def CSet.linePairs (c : CSet) (i : Nat) : List Nat :=
  ((List.range c.per).map (fun j => i * c.per + j)).filter (fun p =>
    let l := c.levelOf p
    decide (p < c.levelStart l + c.levelLen l))

/-- Some pairs are set to other values than a sum of updates: a recomputation that has read one of them starts again (13 R474). -/
def State.reread (s : State) (c : CSet) (set : Nat) (ps : List Nat) : State :=
  match s.ce.recompute with
  | none => s
  | some q =>
    let child := q.level - 1
    let first := q.anc * c.fan.getD child 1
    let lo := c.levelStart child
    if q.set = set ∧ ps.any (fun p => decide (lo + first ≤ p ∧ p < lo + q.cursor)) then
      { s with ce := { s.ce with recompute := some { q with cursor := first, pkts := 0, bytes := 0 } } }
    else s

/-- A lost line of leaves: every leaf restarts at zero (13 R473). -/
def State.lostLeaves (s : State) (c : CSet) (set i : Nat) : State :=
  let ps := c.linePairs i
  let s1 := (s.ceReport (s.ctrBase c + i) ceLeafLost (set * 2 ^ 32 + i * c.per + ps.length * 2 ^ 48)).ceSetLine (s.ctrBase c + i) 0
  let s2 := ps.foldl (fun s p =>
    let v := s.stGet c set p
    let s3 := v.1.stSet c set p (stRestart (v.2 / 4 * 4))
    (List.range c.levels).foldl (fun s l =>
      let a := c.levelStart (l + 1) + p / max 1 (c.span (l + 1))
      let w := s.stGet c set a
      w.1.stSet c set a (w.2 ||| 8)) s3) s1
  ({ s2 with ce := { s2.ce with sets := omod s2.ce.sets set (fun c => { c with lost := c.lost + ps.length }) } } : State).reread c set ps

/-- A lost line of ancestors: each becomes STALE and waits for recomputation (13 R474). -/
def State.lostAncestors (s : State) (c : CSet) (set i : Nat) : State :=
  let ps := c.linePairs i
  let s1 := (s.ceReport (s.ctrBase c + i) ceAncestorStale (set * 2 ^ 32 + i * c.per + ps.length * 2 ^ 48)).ceSetLine (s.ctrBase c + i) 0
  ps.foldl (fun s p =>
    let l := c.levelOf p
    let v := s.stGet c set p
    let s3 := v.1.stSet c set p (v.2 ||| 16)
    if v.2.testBit 4 then s3 else { s3 with ce := { s3.ce with
      stale := s3.ce.stale ++ [(set, l, p - c.levelStart l)]
      sets := omod s3.ce.sets set (fun c => { c with stale := c.stale + 1 }) } }) s1

/-- A counter line, restarted where it is lost (13 R473, R474). -/
def State.cLine (s : State) (c : CSet) (set i : Nat) : State × Line :=
  let a := s.ceFetch (s.ctrBase c + i)
  match a.2 with
  | some d => (a.1, d)
  | none =>
    if i * c.per < c.levelLen 0 then (a.1.lostLeaves c set i, 0) else (a.1.lostAncestors c set i, 0)

/-- The packet and byte counts of a pair. -/
def State.pairGet (s : State) (c : CSet) (set p : Nat) : State × Nat × Nat :=
  let a := s.cLine c set (p / c.per)
  let b := p % c.per * c.pairBytes
  (a.1, lineField a.2 b c.cntBytes, lineField a.2 (b + c.cntBytes) c.cntBytes)

/-- Sets the counts of a pair. -/
def State.pairSet (s : State) (c : CSet) (set p pk by_ : Nat) : State :=
  let a := s.cLine c set (p / c.per)
  let b := p % c.per * c.pairBytes
  a.1.ceSetLine (s.ctrBase c + p / c.per) (lineSet (lineSet a.2 b c.cntBytes pk) (b + c.cntBytes) c.cntBytes by_)

/-! ### Updates (13 R467, R471, R474, R477) -/

/-- A sum under the set's end mode, and whether it went beyond its width (13 R471). -/
def CSet.sum (c : CSet) (a b : Nat) : Nat × Bool :=
  if a + b ≤ c.cntMax then (a + b, false) else (if c.wrap then (a + b) % (c.cntMax + 1) else c.cntMax, true)

/-- Raises CE_END at a set's first end value (13 R471, R481; log 33). -/
def State.ceEnded (s : State) (set : Nat) : State :=
  match s.ceSet set with
  | none => s
  | some c =>
    if c.endCnt ≠ 0 ∧ !c.ended then
      { s with ce := { s.ce with sets := omod s.ce.sets set (fun c => { c with ended := true }) } }.report ceEnd set (some 9)
    else s

/-- Adds to the pair of level `level` that covers a leaf; an update of a line that is resident and dirty merges with those before it (13 R465). A STALE ancestor takes nothing; where it is being recomputed and its
child below lies under the cursor, the running sum does (13 R474). -/
def State.pairAdd (s : State) (set leaf level pk by_ : Nat) : State :=
  match s.ceSet set with
  | none => s
  | some c =>
    let idx := leaf / max 1 (c.span level)
    let p := c.levelStart level + idx
    let v := s.stGet c set p
    if v.2.testBit 4 then
      match v.1.ce.recompute with
      | some q =>
        if q.set = set ∧ q.level = level ∧ q.anc = idx ∧ leaf / max 1 (c.span (level - 1)) < q.cursor then
          { v.1 with ce := { v.1.ce with recompute := some { q with pkts := q.pkts + pk, bytes := q.bytes + by_ } } }
        else v.1
      | none => v.1
    else
      let merged := (v.1.ceHit (s.ctrBase c + p / c.per)).any (fun x => x.dirty)
      let g := (if merged then v.1.count 25 4 else v.1).pairGet c set p
      let a := c.sum g.2.1 pk
      let b := c.sum g.2.2 by_
      let s1 := g.1.pairSet c set p a.1 b.1
      let st := (s1.stGet c set p).2
      let st' := st ||| (b2n a.2 + 2 * b2n b.2)
      (if st' = st then s1.count 25 0 else ((s1.stSet c set p st').ceEnded set).count 25 0)

/-- Whether CE may modify a line now. A line in the host-read filter is back-invalidated first (01 R42, R43; 13 R477). -/
def State.ceReady (s : State) (l : Nat) : State × Bool :=
  if s.snoopWaits l then (s, false)
  else if l ∈ s.ce.filter then
    let fs := s.snoopTargets (l * 64)
    let s1 : State := { s with ce := { s.ce with filter := s.ce.filter.filter (· != l) } }
    if fs.isEmpty then (s1, true)
    else if s.snoopRoom fs then ((s1.sendSnoops fs l).count 25 3 fs.length, false)
    else (s, false)
  else (s, true)

/-- Whether CE may modify all of some lines now: the snoops of each are sent. -/
def State.allReady (s : State) (ls : List Nat) : State × Bool :=
  ls.dedup.foldl (fun (acc : State × Bool) l =>
    let a := acc.1.ceReady l
    (a.1, acc.2 && a.2)) (s, true)

/-- Whether a line of a set would be found lost (13 R473 to R475). -/
def State.lineLost (s : State) (l : Nat) : Bool := (s.ceFetch l).2.isNone

/-- The status lines of a pair's ancestors. -/
def State.upLines (s : State) (c : CSet) (p : Nat) : List Nat :=
  let l := c.levelOf p
  (List.range (c.levels - l)).map (fun k =>
    s.stBase c + (c.levelStart (l + k + 1) + (p - c.levelStart l) / max 1 (c.span (l + k + 1) / max 1 (c.span l))) / 64)

/-- The lines that the restart of lost lines modifies when CE reaches counter line `i`: the line, the status lines of its pairs, and those of
the ancestors of its leaves (13 R473, R474). -/
def State.restartCtr (s : State) (c : CSet) (i : Nat) : List Nat :=
  if s.lineLost (s.ctrBase c + i) then
    [s.ctrBase c + i] ++ ((c.linePairs i).map (fun p =>
      [s.stBase c + p / 64] ++ (if i * c.per < c.levelLen 0 then s.upLines c p else []))).flatten
  else []

/-- The lines that a restart modifies when CE reaches status line `i` (13 R475). -/
def State.restartSt (s : State) (c : CSet) (i : Nat) : List Nat := if s.lineLost (s.stBase c + i) then [s.stBase c + i] else []

/-- The lines that a restart modifies when CE reaches a pair. -/
def State.restarts (s : State) (c : CSet) (p : Nat) : List Nat := s.restartCtr c (p / c.per) ++ s.restartSt c (p / 64)

/-- The line of the pair that an update of a level changes, and its status line. -/
def State.pairLine (s : State) (set leaf level : Nat) : Nat × Nat :=
  match s.ceSet set with
  | none => (0, 0)
  | some c =>
    let p := c.levelStart level + leaf / max 1 (c.span level)
    (s.ctrBase c + p / c.per, s.stBase c + p / 64)

/-- Whether an update of a level changes the pair's line, and whether it changes the status line: a flag it sets, or a lost line (13
R471, R473, R474). A STALE pair takes nothing. -/
def State.touches (s : State) (set leaf level pk by_ : Nat) : Bool × Bool :=
  match s.ceSet set with
  | none => (false, false)
  | some c =>
    let p := c.levelStart level + leaf / max 1 (c.span level)
    let v := s.stGet c set p
    if v.2.testBit 4 then (false, false)
    else
      let g := v.1.pairGet c set p
      let st := (g.1.stGet c set p).2
      (true, decide (st ||| (b2n (c.sum g.2.1 pk).2 + 2 * b2n (c.sum g.2.2 by_).2) ≠ v.2))

/-- One update of one level: applied, or held until the snoops of the lines it changes are answered (01 R42, R43; log 21). -/
def State.ceUpdate (s : State) (set leaf level pk by_ : Nat) : State :=
  let l := s.pairLine set leaf level
  let n := s.touches set leaf level pk by_
  let hold (s : State) : State := { s with ce := { s.ce with waiting := s.ce.waiting ++ [⟨l.1, set, leaf, level, pk, by_⟩] } }
  if n.1 && s.ce.waiting.any (fun w => w.line == l.1) then hold s
  else
    let lost := match s.ceSet set with
      | some c => s.restarts c (c.levelStart level + leaf / max 1 (c.span level))
      | none => []
    let a := s.allReady ((if n.1 then [l.1] else []) ++ (if n.2 then [l.2] else []) ++ lost)
    if a.2 then a.1.pairAdd set leaf level pk by_ else hold a.1

/-- Adds to a leaf and each of its ancestors (13 R467). -/
def State.ceAdd (s : State) (set leaf pk by_ : Nat) : State :=
  match s.ceSet set with
  | none => s
  | some c => (List.range (c.levels + 1)).foldl (fun s l => s.ceUpdate set leaf l pk by_) s

/-- Tries the held updates again, in their order (01 R43). -/
def State.ceResume (s : State) : State :=
  s.ce.waiting.foldl (fun s w => s.ceUpdate w.set w.leaf w.level w.pkts w.bytes) { s with ce := { s.ce with waiting := [] } }

/-! ### Posted records (13 R466, R467; 02 R70, R71) -/

/-- A malformed record or window write (13 R467, R481; 02 R70; log 68). -/
def State.ceMalf (s : State) (f window reason : Nat) (counts : Bool) : State :=
  let s1 := { s with ce := { s.ce with
    malformed := satAdd (2 ^ 32 - 1) s.ce.malformed 1
    malfInfo := reason + f * 16 + window * 256 } }
  let s2 := s1.reportAgg ceMalformed f 1000000000 reason (some f)
  if counts then s2.malformed f else s2

/-- The set that covers a global leaf number. -/
def State.setOfLeaf (s : State) (i : Nat) : Option (Nat × CSet) :=
  (oall s.ce.sets).find? (fun e => decide (e.2.first ≤ i ∧ i < e.2.first + e.2.leaves))

/-- Checks and applies one record (13 R467). -/
def State.ceRecord (s : State) (f window : Nat) (rec : Bytes) : State :=
  let v := unle (rec.take 16)
  let op := field v 80 8
  let delta := field v 48 32 * (if v.testBit 88 then 256 else 1)
  if op = 0 then s
  else if op ≠ 1 ∨ field v 89 7 ≠ 0 ∨ field v 96 32 ≠ 0 then s.ceMalf f window 1 true
  else match s.setOfLeaf (field v 0 32) with
    | none => s.ceMalf f window 2 true
    | some (n, c) =>
      if !ownerHas c.owner f then
        (s.report ceOwnerViolation (f * 2 ^ 32 + n * 2 ^ 16 + window) (some f)).freeze f 3
      else s.ceAdd n (field v 0 32 - c.first) (field v 32 16) delta

/-- Takes the front record of a function's oldest window write, where that is of the kind asked for (01 R49, 02 R71). -/
def State.takeRecord (s : State) (f : Nat) (enqueue : Bool) : Option (State × Nat × Bytes) :=
  let p := s.portAt (portOf f)
  match p.posted.find? (fun x => x.fn == f) with
  | none => none
  | some x =>
    if x.enqueue != enqueue then none
    else match x.records with
      | [] => none
      | r :: rest =>
        let next : Posted := { x with records := rest }
        let posted := if rest.isEmpty then p.posted.eraseP (fun y => y.fn == f)
          else (p.posted.takeWhile (fun y => y.fn != f)) ++ [next] ++ (p.posted.dropWhile (fun y => y.fn != f)).drop 1
        some (s.modPort (portOf f) (fun p => { p with posted := posted }), x.window, r)

/-- CE has an update pipeline that runs. -/
def State.ceRuns (s : State) : Bool := s.enginesRun && !s.ce.paused && decide (s.ce.halted ≠ BitVec.allOnes 12)

/-- A DMA context of CE halts with what it holds (13 R480). -/
def State.ceHalt (s : State) (ctx : Nat) : State :=
  { s with ce := { s.ce with
    halted := s.ce.halted ||| (1#12 <<< (ctx % 12))
    discarded := satAdd (2 ^ 32 - 1) s.ce.discarded 1 } }.report ceContextHalted (ctx % 12) (some 9)

/-- UPDATE_RECORD: the next record of a function (13 R467); `halt`: the update pipeline that takes it meets an uncorrectable SRAM
error (07 R261, 13 R480). A frozen or viral function's records are discarded and logged (13 R467; 14 R517; 02 R101). -/
def updateRecord (f : Nat) (halt : Option Nat) (s : State) : State :=
  if !s.ceRuns then s
  else match s.takeRecord f false with
    | none => s
    | some (s1, window, rec) =>
      if (s1.fnAt f).viral then s1.emit (.dropLog f window 3)
      else if s1.isFrozen f then s1.emit (.dropLog f window 2)
      else match halt with
        | some ctx => s1.ceHalt ctx
        | none => s1.ceRecord f window rec

/-! ### Queue and policer events (13 R469, R470) -/

/-- The default queue map (13 R470): slots of event codes 0 to 13. -/
def defaultQMap : List (Option Nat) :=
  [some 0, some 1, none, some 2, some 2, some 2, some 3, some 3, some 3, some 3, some 3, some 3, some 3, some 3]

/-- QUEUE_EVENT_COUNT: the oldest posted event is counted or discarded (13 R470). -/
def queueEventCount (s : State) : State :=
  if !s.ceRuns then s
  else match s.ce.events with
    | [] => s
    | e :: rest =>
      let s1 : State := { s with ce := { s.ce with events := rest } }
      let unbound : State := { s1 with ce := { s1.ce with unbound := satAdd (2 ^ 32 - 1) s1.ce.unbound 1 } }
      match (if e.policer then s1.ce.bindP else s1.ce.bindQ) with
      | none => unbound
      | some b =>
        match b.map.getD e.code none with
        | none => unbound
        | some slot =>
          if e.number < b.base ∨ b.base + b.count ≤ e.number then unbound
          else s1.ceAdd b.set (slot * b.count + (e.number - b.base)) e.packets e.bytes

/-! ### Recomputation (13 R474) -/

/-- The first stale ancestor of the lowest level. -/
def State.staleNext (s : State) : Option (Nat × Nat × Nat) := minBy (fun (x : Nat × Nat × Nat) => x.2.1) s.ce.stale

/-- CE_RECOMPUTE_STEP: starts the recomputation of a stale ancestor, reads its next child, or writes the sum (13 R474). -/
def ceRecomputeStep (s : State) : State :=
  if !s.ceRuns || s.bgPaused then s
  else match s.ce.recompute with
    | none =>
      match s.staleNext with
      | none => s
      | some (set, level, anc) =>
        match s.ceSet set with
        | none => { s with ce := { s.ce with stale := s.ce.stale.filter (fun x => x.1 != set) } }
        | some c => { s with ce := { s.ce with recompute := some ⟨set, level, anc, anc * c.fan.getD (level - 1) 1, 0, 0⟩ } }
    | some q =>
      match s.ceSet q.set with
      | none => { s with ce := { s.ce with recompute := none } }
      | some c =>
        let child := q.level - 1
        let last := min ((q.anc + 1) * c.fan.getD child 1) (c.levelLen child)
        if q.cursor < last then
          let p := c.levelStart child + q.cursor
          let a := s.allReady (s.restarts c p)
          let v := a.1.stGet c q.set p
          if !a.2 then a.1
          else if v.2.testBit 4 then
            { v.1 with ce := { v.1.ce with
              recompute := some ⟨q.set, child, q.cursor, q.cursor * c.fan.getD (child - 1) 1, 0, 0⟩ } }
          else
            let g := v.1.pairGet c q.set p
            match g.1.ce.recompute with
            | some q1 => { g.1 with ce := { g.1.ce with
                recompute := some { q1 with cursor := q1.cursor + 1, pkts := q1.pkts + g.2.1, bytes := q1.bytes + g.2.2 } } }
            | none => g.1
        else
          let p := c.levelStart q.level + q.anc
          let a := s.allReady ([s.ctrBase c + p / c.per, s.stBase c + p / 64] ++ s.restarts c p)
          if !a.2 then a.1
          else
            let pk := c.sum 0 q.pkts
            let by_ := c.sum 0 q.bytes
            let s1 := a.1.pairSet c q.set p pk.1 by_.1
            let v := s1.stGet c q.set p
            let st := stRestart (v.2 - (if v.2.testBit 4 then 16 else 0)) ||| (b2n pk.2 + 2 * b2n by_.2)
            let s2 := (v.1.stSet c q.set p st).ceEnded q.set
            { s2 with ce := { s2.ce with
              recompute := none
              stale := s2.ce.stale.filter (fun x => !(x.1 == q.set && x.2.1 == q.level && x.2.2 == q.anc))
              sets := omod s2.ce.sets q.set (fun c => { c with stale := c.stale - 1 }) } }

/-! ### Host accesses (13 R465, R477, R478, R681) -/

/-- The content of a line of a set, restarted where it is lost. -/
def State.ctrRead (s : State) (x : CtrLine) : State × Line :=
  match s.ceSet x.set with
  | none => (s, 0)
  | some c => if x.status then s.stLine c x.set x.idx else s.cLine c x.set x.idx

/-- The lines that the restart of lost lines modifies when an access reaches a line of a set. -/
def State.restartOf (s : State) (x : CtrLine) : List Nat :=
  match s.ceSet x.set with
  | none => []
  | some c => if x.status then s.restartSt c x.idx else s.restartCtr c x.idx

/-- Whether the filter has room for the line of a cached read, or may send the snoops of its oldest entry now (01 R43; 13 R477). -/
def State.filterRoom (s : State) (l : Nat) : Bool :=
  decide (l ∈ s.ce.filter) || decide (s.ce.filter.length < 262144) ||
    (match s.ce.filter with
      | [] => true
      | old :: _ => s.snoopRoom (s.snoopTargets (old * 64)))

/-- Whether an access to a line of a set has to wait for an earlier one, or for snoops: of the line it writes, and of the lines that a restart
modifies (01 R42, R43). -/
def State.ctrReady (s : State) (x : CtrLine) (l : Nat) (write full cached : Bool) : State × Bool :=
  if s.ce.held.any (fun w => w.dpa / 64 == l) then (s, false)
  else
    let a := s.allReady ((if write then [l] else []) ++ (if full then [] else s.restartOf x))
    (a.1, a.2 && (!cached || a.1.filterRoom l))

/-- Records a host's cached read in the host-read filter; a full filter frees its oldest entry (13 R477). -/
def State.filterRead (s : State) (l : Nat) : State :=
  if l ∈ s.ce.filter then s
  else if 262144 ≤ s.ce.filter.length then
    match s.ce.filter with
    | [] => s
    | old :: rest =>
      let fs := s.snoopTargets (old * 64)
      ({ s with ce := { s.ce with filter := rest ++ [l] } } : State).sendSnoops fs old
  else { s with ce := { s.ce with filter := s.ce.filter ++ [l] } }

/-- An SRAM error in a counter-cache line: a CLEAN line is read again, a DIRTY one is lost, and its pairs restart once their snoops are answered
(13 R473 to R475, R480; log 21). The line is named by its set, its kind and its number. -/
def State.ceBad (s : State) (x : CtrLine) : State :=
  match s.ceSet x.set with
  | none => s
  | some c =>
    let l := if x.status then s.stBase c + x.idx else s.ctrBase c + x.idx
    match s.ceHit l with
    | none => s
    | some e =>
      if !e.dirty then { s with ce := { s.ce with cache := s.ce.cache.filter (fun y => y.line != l) } }
      else
        let d : Line := if x.status then bytesLine (List.replicate 64 4#8) else 0
        let p := if x.status then x.idx * 64 else x.idx * c.per
        let lv := c.levelOf p
        let s1 : State := { s with ce := { s.ce with cache := s.ce.cache.map (fun (y : CLine) =>
          if y.line == l then { y with data := d, bad := true } else y) } }
        s1.ceUpdate x.set ((p - c.levelStart lv) * c.span lv) lv 0 0

/-- A write to a line of a set through the counter cache (13 R465). -/
def State.ctrWrite (s : State) (x : CtrLine) (l : Nat) (d : Line) (en : BitVec 64) : State :=
  let s1 := if en = fullEn then s.ceSetLine l d
    else
      let a := s.ctrRead x
      a.1.ceSetLine l (mergeLine a.2 d en)
  match s.ceSet x.set with
  | some c => if x.status then s1 else s1.reread c x.set (c.linePairs x.idx)
  | none => s1

/-! ### CE_CLEAR, CE_QUERY, CE_CTL -/

/-- The lines that a pair range of a level lies in. -/
def CSet.rangeLines (c : CSet) (level first count : Nat) : Nat :=
  let a := c.levelStart level + first
  (a + count - 1) / c.per - a / c.per + 1

/-- CE_CLEAR of a set, level and range (13 R472; 15 R551): a background operation over the lines of the range (log 33). -/
def ceClear : Body := fun p b s =>
  let obj := rd b 4 4
  if 4096 ≤ obj then (s, ans stObjectAbsent obj)
  else match s.ceSet obj with
    | none => (s, ans stSetAbsent obj)
    | some c =>
      let level := clampN 0 c.levels (rd b 8 1)
      let n := c.levelLen level
      let first := clampN 0 (n - 1) (rd b 12 4)
      let count := clampN 1 (n - first) (rd b 16 4)
      let cl := (if level = rd b 8 1 then [] else [(8, rd b 8 1, level)]) ++
        (if first = rd b 12 4 then [] else [(12, rd b 12 4, first)]) ++
        (if count = rd b 16 4 then [] else [(16, rd b 16 4, count)])
      let q := (s.direct p 0xC303 18 obj cl).startBg p 0xC303 obj (.ceClear obj level first count)
        (c.rangeLines level first count) (!cl.isEmpty)
      if q.2.status = stBgStarted then q else (s, q.2)

/-- Clears the pairs of one line of a CE_CLEAR; false where it waits for a snoop (13 R472; 01 R42). -/
def State.ceClearLine (s : State) (set level first count i : Nat) : State × Bool :=
  match s.ceSet set with
  | none => (s, true)
  | some c =>
    let lo := c.levelStart level + first
    let line := lo / c.per + i
    let ps := (c.linePairs line).filter (fun p => decide (lo ≤ p ∧ p < lo + count))
    let rdy := s.allReady ([s.ctrBase c + line] ++ (ps.map (fun p => (s.stBase c + p / 64) :: s.upLines c p)).flatten ++ s.restartCtr c line)
    if !rdy.2 then (rdy.1, false)
    else ((ps.foldl (fun s p =>
      let s1 := s.pairSet c set p 0 0
      let v := s1.stGet c set p
      let s2 := v.1.stSet c set p (v.2 / 16 * 16)
      (List.range (c.levels - level)).foldl (fun s k =>
        let a := c.levelStart (level + k + 1) + (p - c.levelStart level) / max 1 (c.span (level + k + 1) / max 1 (c.span level))
        let w := s.stGet c set a
        w.1.stSet c set a (w.2 ||| 4)) s2) rdy.1).reread c set ps, true)

/-- A sleep-gap log entry in bytes (13 R479; log 17). -/
def Gap.bytes (g : Gap) : Bytes :=
  le 8 g.entry ++ le 8 g.wake ++ le 8 g.interval ++ le 8 (b2n g.deep + 2 * b2n g.est + 4 * b2n g.coarse)

/-- A set's record: its configuration, then END count, lost leaves, stale ancestors and generation (15 R535; 13 R483). -/
def State.ceSetBytes (s : State) (n : Nat) : Bytes :=
  match s.ceSet n with
  | none => List.replicate 60 0
  | some c =>
    le 1 c.region ++ le 1 (b2n c.pair48) ++ le 1 (b2n c.wrap) ++ le 1 c.owner ++ le 1 c.levels ++ le 3 0 ++ le 4 c.first ++
      le 4 c.leaves ++ le 8 c.ctrOff ++ le 8 c.stOff ++ le 4 (c.fan.getD 0 16) ++ le 4 (c.fan.getD 1 16) ++ le 4 (c.fan.getD 2 16) ++
      le 4 c.endCnt ++ le 4 c.lost ++ le 4 c.stale ++ le 4 c.gen

/-- CE_QUERY: the records, then the sleep-gap log (13 R479, R483; log 17). -/
def ceQuery : Body := fun p b s =>
  let a := query p 0xC304 b s 4096 60 s.ceSetBytes
  if a.2.status = stObjectAbsent then a
  else (a.1, { a.2 with out := (a.2.out ++ (s.ce.gapLog.map Gap.bytes).flatten).take (pathMax p) })

/-- CE_CTL (15 R546): restarts halted update pipelines. -/
def ceCtl : Body := fun _ b s =>
  let obj := rd b 4 4
  if obj ≠ 0 then (s, ans stObjectAbsent obj)
  else ({ s with ce := { s.ce with halted := s.ce.halted &&& ~~~(BitVec.ofNat 12 (rd b 8 8)) } }, ans stSuccess obj)

/-- A read of an engine at level 2: from the counter engine for a line of a set, else through the near store (01 R23; 13 R465). -/
def State.memRead (s : State) (l w : Nat) : State × LineRead :=
  match s.ctrLine l with
  | some x =>
    let a := s.ctrRead x
    (a.1, ⟨a.2, false, false, false⟩)
  | none => s.orderedRead l w

def execCeClear (p : Path) (b : Bytes) (s : State) : Host.Outcome State Fault Refusal := .next (s.command p 0xC303 b ceClear)

def execCeQuery (p : Path) (b : Bytes) (s : State) : Host.Outcome State Fault Refusal := .next (s.command p 0xC304 b ceQuery)

def execCeCtl (p : Path) (b : Bytes) (s : State) : Host.Outcome State Fault Refusal := .next (s.command p 0xC305 b ceCtl)

end Sys2Proof.Machine
end

