-- ==== Sys2Proof/Machine/Path.lean ====
section
/-! DEFINITION. Host requests at the router, and how a line comes back from the channels (01 R35 to R46; 02 R59, R98 to R101;
03 R105; 07 R232 to R236, R243, R266; 08 R281 to R288; 13 R465, R681). -/

namespace Sys2Proof.Machine
open Sys2Proof

/-! ### Where a request goes (02 R59) -/

/-- The DPA that a decoder gives an HPA, if the HPA is of this device's ways. -/
def Decoder.dpaOf (d : Decoder) (hpa : Nat) : Option Nat :=
  if d.committed ∧ d.cfg.base ≤ hpa ∧ hpa < d.cfg.base + d.cfg.size then
    let o := hpa - d.cfg.base
    let g := max 1 d.cfg.gran
    let w := max 1 d.cfg.ways
    if o / g % w = d.cfg.way % w then some (d.dpa + o / (g * w) * g + o % g) else none
  else none

/-- The DPA a function's decoders give an HPA (log 22). -/
def State.hdm (s : State) (f hpa : Nat) : Option Nat := (s.fnAt f).decoders.findSome? (fun d => d.dpaOf hpa)

/-- How far a request of a host gets. -/
inductive Gate where
  /-- It does not reach the device, or the device does not serve CXL.mem for it (02 R54, R55, R95; 17 R596, R629). -/
  | lost
  /-- It waits for the link or the wake (02 R98; 17 R609). -/
  | held
  /-- It is held and wakes the device from SLEEP (17 R609). -/
  | wakes
  /-- A read is poisoned and a write dropped and logged with a cause (02 R101; 14 R517; log 22). -/
  | drop (cause : Nat)
  /-- It reaches the router with its DPA. -/
  | to (dpa : Nat)
  deriving DecidableEq, Repr

/-- The gate of a request (log 22). -/
def State.gate (s : State) (q : MemReq) : Gate :=
  let h := s.fnAt q.fn
  if !h.exist || h.slow || !s.mbReady || decide (h.link = .down) || decide (h.link = .disabled) then .lost
  else if s.pw.entry.any (fun e => decide (7 ≤ e.step)) then .wakes
  else match s.pw.state with
    | .deep => .lost
    | .off => .lost
    | .sleep => .wakes
    | .waking => .held
    | _ =>
      match h.link with
      | .l0 =>
        if h.viral then .drop 3
        else if s.isFrozen q.fn then .drop 2
        else match s.hdm q.fn q.hpa with
          | none => .drop 4
          | some dpa => .to dpa
      | .recovery => .held
      | .l1 => .held
      | _ => .lost

/-- The line whose ordering point a request reaches: its region exists and a write passes the owner check (01 R35). -/
def State.reaches (s : State) (q : MemReq) : Option Nat :=
  match s.gate q with
  | .to dpa =>
    match s.regionAt dpa with
    | some (_, r) => if isReadReq q || ownerHas r.owner q.fn then some (dpa / 64) else none
    | none => none
  | _ => none

/-! ### Fetching a line for a host (01 walks; 04 R131) -/

/-- Whether a channel queue holds a request of a fetch (log 82). -/
def State.idQueued (s : State) (id : Nat) : Bool :=
  s.mc.chans.any (fun m => m.subs.any (fun u => u.readQ.any (fun c => c.id == id)))

/-- Adds a request to those that wait for a line. -/
def State.waitFor (s : State) (l : Nat) (x : Waiter) : State :=
  { s with rr := { s.rr with fetches := s.rr.fetches.map (fun (f : Fetch) =>
    if f.line == l then { f with waiters := f.waiters ++ [x] } else f) } }

/-- Starts the fetch of a line of an extent for a request. A line of an unfilled block returns zeros without an access (07 R266),
and a line no channel can deliver is answered at once (09 R336). -/
def State.issueFetch (s : State) (n kind off l : Nat) (q : MemReq) (dpa : Nat) : State :=
  match s.region n with
  | none => s
  | some r =>
    let f : Fetch := ⟨l, s.mc.nextId, s.pickCopy (r.loc (r.ext kind) off), [⟨q, dpa⟩], .waiting⟩
    let s1 : State := { s with
      mc := { s.mc with nextId := s.mc.nextId + 1 }
      rr := { s.rr with fetches := s.rr.fetches ++ [f] } }
    if !(r.ext kind).filledAt off then s1.arrive l 0 false
    else
      let s2 := s1.queueRead (r.loc (r.ext kind) off) q.fn n f.id
      if s2.idQueued f.id then s2 else s2.settle l true

/-- A request that found no line in the near store: from a DIRECT extent or a T1 frame the line is fetched; from the yard the codec
delivers it (01 walks; 05 R162, R168; log 82). -/
def State.fetchFor (s : State) (l : Nat) (q : MemReq) (dpa : Nat) : State :=
  match s.lineRegion l with
  | none => s.answerRead q 0 true
  | some (n, r, off) =>
    let s0 := s.count (12 + nsQuad l) 1
    let yard (s : State) : State :=
      let b := s.readYard n (off / 512) (off / 64 % 8) q.fn
      let f : Fetch := ⟨l, 0, 0, [⟨q, dpa⟩], .waiting⟩
      ({ b.1 with rr := { b.1.rr with fetches := b.1.rr.fetches ++ [f] } }).arrive l b.2.data b.2.poison
    if r.tier = 0 then s0.issueFetch n 0 off l q dpa
    else if r.tier = 1 then yard s0
    else
      let a := s0.heat n (off / 4096) q.fn
      if a.2.state = 1 ∨ a.2.state = 3 then a.1.issueFetch n 1 (frameOff a.2.frame off) l q dpa else yard a.1

/-! ### Serving a request at its ordering point -/

/-- An access to a line of a counter set waits for snoop responses (01 R42, R43). -/
def State.ctrHold (s : State) (x : Waiter) : State := { s with ce := { s.ce with held := s.ce.held ++ [x] } }

/-- A read (01 walks; 13 R465, R477). -/
def State.serveRead (s : State) (q : MemReq) (dpa : Nat) (noCopy : Bool) : State :=
  let l := dpa / 64
  match s.ctrLine l with
  | some x =>
    let r := s.ctrReady x l false false (!noCopy)
    if r.2 then
      let a := r.1.ctrRead x
      (if noCopy then a.1 else a.1.filterRead l).answerRead q a.2 false
    else r.1.ctrHold ⟨q, dpa⟩
  | none =>
    match s.fetchOf l with
    | some _ => s.waitFor l ⟨q, dpa⟩
    | none =>
      let a := s.nsServe l
      match a.2 with
      | some (d, p) => a.1.answerRead q d p
      | none => a.1.fetchFor l q dpa

/-- The first write to an untouched fill block waits while FILL fills it (07 R266). -/
def State.touchFor (s : State) (l w : Nat) : State :=
  match s.lineRegion l with
  | none => s
  | some (n, r, off) =>
    if r.tier = 0 then s.touchBlock n 0 off
    else if r.tier = 1 then s
    else
      let a := s.pageGet n (off / 4096) w
      if a.2.state = 1 ∨ a.2.state = 3 then a.1.touchBlock n 1 (frameOff a.2.frame off) else a.1

/-- A write that waits for a victim buffer entry: what it merges into is the line's victim, or nothing (04 R129, R148). -/
def State.roomFetch (s : State) (l : Nat) (x : Waiter) : Fetch :=
  match s.victimOf l with
  | some v => ⟨l, 0, 0, [x], .room v.ent.data v.ent.poison false⟩
  | none => ⟨l, 0, 0, [x], .room 0 false false⟩

/-- A write at its ordering point (01 R38; 04 R131, R132; 13 R465, R681). Only a host's write has a completion. -/
def State.serveWrite (s : State) (q : MemReq) (dpa : Nat) (d : Line) (en : BitVec 64) (poison : Bool) : State :=
  let l := dpa / 64
  let done (s : State) : State := if q.fn < 4 then s.respond q.fn (.writeDone q.fn q.hpa) else s
  match s.ctrLine l with
  | some x =>
    if poison then s.ceMalf q.fn 0 4 false
    else
      let r := s.ctrReady x l true (decide (en = fullEn)) false
      if r.2 then done (r.1.ctrWrite x l d en) else r.1.ctrHold ⟨q, dpa⟩
  | none =>
    match s.fetchOf l with
    | some _ => done (s.waitFor l ⟨q, dpa⟩)
    | none =>
      let allocs := match s.lineRegion l with
        | some (_, r, _) => r.writeAllocs
        | none => false
      if allocs && s.needsRoom l && (((s.victimOf l).map (fun v => v.ent.dirty)).getD (decide (en = fullEn))) then
        -- the write needs no fetch, and waits for a victim buffer entry (04 R129)
        done { s with rr := { s.rr with fetches := s.rr.fetches ++ [s.roomFetch l ⟨q, dpa⟩] } }
      else if (s.nsFind l).isSome || (s.victimOf l).isSome || !allocs || decide (en = fullEn) then
        done (s.nsWrite l q.fn d en poison)
      else done ((s.captureBroken l).fetchFor l q dpa)

/-- The accesses to lines of counter sets that waited for snoops go on in their order (01 R42, R43). -/
def State.ctrResume (s : State) : State :=
  s.ce.held.foldl (fun s x => match x.req.kind with
    | .read noCopy => s.serveRead x.req x.dpa noCopy
    | .write d en p => s.serveWrite x.req x.dpa d en p) { s with ce := { s.ce with held := [] } }

/-- A host request of which no other of the same cycle is pending (01 R35; 02 R99, R101; 03 R105; 14 R517). `touch`: the write finds
its fill block untouched (log 31). -/
def State.hostOne (s : State) (touch : Bool) (q : MemReq) : State :=
  let refuse (s : State) (cause : Nat) : State :=
    if isReadReq q then s.answerRead q 0 true else s.emit (.dropLog q.fn q.hpa cause)
  match s.gate q with
  | .lost => s
  | .held => s.modFn q.fn (fun h => { h with held := h.held ++ [q] })
  | .wakes => (s.beginWake 4).modFn q.fn (fun h => { h with held := h.held ++ [q] })
  | .drop c => refuse s c
  | .to dpa =>
    let s1 := s.count (8 + portOf q.fn) (if isReadReq q then 0 else 1)
    match s1.regionAt dpa with
    | none => refuse (s1.report rrNoRegion dpa (some q.fn)) 4
    | some (_, r) =>
      let s2 := s1.count 10 0
      match q.kind with
      | .read noCopy => s2.serveRead q dpa noCopy
      | .write d en p =>
        if ownerHas r.owner q.fn then
          (if touch then s2.touchFor (dpa / 64) q.fn else s2).serveWrite q dpa d en p
        else (((s2.count 10 2).emit (.dropLog q.fn dpa 1)).freeze q.fn 1)

/-! ### In-flight entries of a port, and ties (01 R45 to R48) -/

/-- The outstanding requests of a function: reads that wait for a line, and requests that its port holds (01 R47). -/
def State.outstanding (s : State) (f : Nat) : Nat :=
  ((s.rr.fetches.map (fun x => (x.waiters.filter (fun w => isReadReq w.req && w.req.fn == f)).length)).sum) + (s.fnAt f).held.length

/-- Whether a function has no in-flight entry left: 4,096 for one function of a port; on a bifurcated port 1,536 for each and 1,024 that the
two share (01 R47). -/
def State.portFull (s : State) (f : Nat) : Bool :=
  let g := if f % 2 = 0 then f + 1 else f - 1
  if s.fnExists f && s.fnExists g then
    decide (1536 ≤ s.outstanding f) && decide (1024 ≤ (s.outstanding f - 1536) + (s.outstanding g - 1536))
  else decide (4096 ≤ s.outstanding f)

/-- A request of a host. Without an in-flight entry its port gives no credit: the host keeps the request, behind those it keeps already
(01 R48; log 91). -/
def State.hostEnter (s : State) (touch : Bool) (q : MemReq) : State :=
  if s.gate q ≠ .lost ∧ (s.portFull q.fn ∨ (s.fnAt q.fn).withheld ≠ []) then
    s.modFn q.fn (fun h => { h with withheld := h.withheld ++ [q] })
  else s.hostOne touch q

/-- Requests that hosts kept for want of credits enter as far as entries are free, in their order (01 R48). -/
def State.enterKept (s : State) : State :=
  [0, 1, 2, 3].foldl (fun s f =>
    if (s.fnAt f).withheld = [] then s
    else (s.fnAt f).withheld.foldl (fun s q => s.hostEnter false q) (s.modFn f (fun h => { h with withheld := [] }))) s

/-- The place of a requester code on the pointer of 01 R45: 0 to 3, then 8 to 15. -/
def codePlace (who : Nat) : Nat := if who < 4 then who else who - 4

/-- Orders the accesses that reach one line in the same cycle from different requesters: in ascending code order from the pointer,
which then advances by one of the 12 assigned codes (01 R45; log 8). -/
def State.tied (s : State) (group : List MemReq) : State × List MemReq :=
  if ((group.map (fun q => q.fn)).dedup).length < 2 then (s, group)
  else
    ({ s with rr := { s.rr with ptr := (s.rr.ptr + 1) % 12 } }.count 10 1,
      ((List.range 12).map (fun i => group.filter (fun q => (codePlace q.fn + 12 - s.rr.ptr) % 12 == i))).flatten)

/-- Serves accesses in their order. One whose code is an engine's stands for that engine's access, which is a command of its own: the
requests behind it wait for it (01 R45, R46; log 8). -/
def State.inOrder (s : State) (touch : Bool) (group : List MemReq) : State :=
  (group.foldl (fun (a : State × Option Nat) q =>
    if 8 ≤ q.fn then (a.1, some q.fn)
    else match a.2 with
      | none => (a.1.hostEnter touch q, none)
      | some e => ({ a.1 with rr := { a.1.rr with tied := a.1.rr.tied ++ [(e, [q])] } }, some e)) (s, none)).1

/-- The requests that were ordered behind an engine's access enter, once it is done (01 R45, R46). -/
def State.afterEngine (s : State) (who : Nat) : State :=
  ((s.rr.tied.filter (fun e => e.1 == who)).map (fun e => e.2)).flatten.foldl (fun s q => s.hostEnter false q)
    { s with rr := { s.rr with tied := s.rr.tied.filter (fun e => e.1 != who) } }

/-- A host request with the accesses that arrive in the same cycle: those that reach the same line tie (01 R44, R45; log 8). -/
def State.hostAccess (s0 : State) (touch : Bool) (q : MemReq) (tie : List MemReq) : State :=
  let s := s0.enterKept
  let line := s.reaches q
  let same (x : MemReq) : Bool := line.isSome && ((decide (8 ≤ x.fn) && decide (x.fn < 16)) || s.reaches x == line)
  let t := s.tied (q :: tie.filter same)
  (tie.filter (fun x => !same x && decide (x.fn < 8))).foldl (fun s x => s.hostEnter touch x) (t.1.inOrder touch t.2)

/-- Serves the requests that a function's port held (02 R98; 17 R611). -/
def State.releaseHeld (s : State) (f : Nat) : State :=
  (s.fnAt f).held.foldl (fun s q => s.hostOne false q) (s.modFn f (fun h => { h with held := [] }))

/-! ### A line comes back (07 R232 to R236; 08 R281 to R288) -/

/-- The requester a fetch is for. -/
def fetchWho (f : Fetch) : Nat := (f.waiters.head?.map (fun x => x.req.fn)).getD 0

/-- Whether a fetch is a speculative read: the first request is a read of a region with speculation ON (08 R285). -/
def fetchSpec (f : Fetch) (r : Region) : Bool := r.spec && (f.waiters.head?.map (fun x => isReadReq x.req)).getD false

/-- Where the line of a fetch lies: its region and location; none once its page lies in the yard. -/
def State.fetchLoc (s : State) (l w : Nat) : State × Option (Region × Loc) :=
  match s.lineRegion l with
  | none => (s, none)
  | some (n, r, off) =>
    if r.tier = 0 then (s, some (r, r.loc r.data off))
    else
      let a := s.pageGet n (off / 4096) w
      if a.2.state = 1 ∨ a.2.state = 3 then (a.1, some (r, r.loc r.t1 (frameOff a.2.frame off))) else (a.1, none)

/-- SX and line protection deliver a decoded copy to a fetch (07 R235; 08 R281, R285). -/
def State.fetchJudge (s : State) (f : Fetch) (r : Region) (l : Loc) (x : LineClass × Stored) : State :=
  match s.judge l r.scramble f.copy x with
  | .good p =>
    if fetchSpec f r then (s.count 21 1).setStage f.line (.spec p.data p.poison true)
    else s.arrive f.line p.data p.poison
  | .badTag p =>
    if fetchSpec f r then (s.count 21 1).setStage f.line (.spec p.data p.poison false)
    else s.setStage f.line (.repair true false p.data)
  | .media d a => s.setStage f.line (.repair false a d)

/-- DRAM_READ_RETURN: the codeword of a fetch arrives once its channel requests were issued (07 R232; 09 R319; log 82). -/
def dramReadReturn (line : Nat) (env : ReadEnv) (s : State) : State :=
  match s.fetchOf line with
  | none => s
  | some f =>
    if f.stage ≠ .waiting ∨ s.idQueued f.id then s
    else
      let w := fetchWho f
      let a := (s.upset env).fetchLoc line w
      match a.2 with
      | none => a.1.settle line true
      | some (r, l) =>
        if a.1.readable f.copy l.cla && !(a.1.holding f.copy && l.row.isSome) then
          let x := a.1.decodeCopy env l r.scramble f.copy
          let s1 := a.1.noteRead env (readBy w) l r.scramble f.copy x
          if x.1 = .addressError then s1.setStage line .reread else s1.fetchJudge f r l x
        else
          let x := a.1.readLine env (readBy w) l r.scramble
          x.1.arrive line x.2.data x.2.poison

/-- ADDRESS_ERROR_REREAD: the second read of a line decoded as ADDRESS_ERROR (07 R234). -/
def addressErrorReread (line : Nat) (env : ReadEnv) (s : State) : State :=
  match s.fetchOf line with
  | none => s
  | some f =>
    if f.stage ≠ .reread then s
    else
      let w := fetchWho f
      let a := (s.upset env).fetchLoc line w
      match a.2 with
      | none => a.1.settle line true
      | some (r, l) =>
        let x := a.1.decodeCopy env l r.scramble f.copy
        if x.1.good then
          (((a.1.noteRead env (readBy w) l r.scramble f.copy x).report lpAddressRetried
            (a.1.dramDetail f.copy l.cla))).fetchJudge f r l x
        else a.1.setStage line (.repair false true (openLine (a.1.keyFor l.cla) f.copy l.cla r.scramble x.2).data)

/-- What a repair starts from. -/
def badCopy (tag addr : Bool) (d : Line) : CopyRead := if tag then .badTag ⟨d, false, false, false⟩ else .media d addr

/-- LINE_REPAIR: a MEDIA or tag-failed line is repaired from redundancy or delivered poisoned (07 R243; 08 R282, R283). -/
def lineRepair (line : Nat) (env : ReadEnv) (s : State) : State :=
  match s.fetchOf line with
  | none => s
  | some f =>
    match f.stage with
    | .repair tag addr d =>
      let a := (s.upset env).fetchLoc line (fetchWho f)
      match a.2 with
      | none => a.1.settle line true
      | some (r, l) =>
        let x := a.1.repair env (readBy (fetchWho f)) l r.scramble f.copy (badCopy tag addr d)
        x.1.arrive line x.2.data x.2.poison
    | _ => s

/-- A late integrity alarm of a function (08 R287, R288; 02 R100). -/
def State.lateAlarm (s : State) (f c : Nat) (l : Loc) : State :=
  let s1 := (s.noteTag c l.cla 3 f true)
  ({ s1 with sx := { s1.sx with lateAlarms := satAdd (2 ^ 32 - 1) s1.sx.lateAlarms 1 } }.report sxLateAlarm
    (s1.dramDetail c l.cla) (some f)).goViral f

/-- SX_TAG_ERR_INFO says that the read was speculative (08 R307). -/
def State.noteSpec (s : State) : State := { s with sx := { s.sx with errInfo := s.sx.errInfo % 2 ^ 8 + 2 ^ 8 } }

/-- Takes the first waiter off a fetch: it has its answer. -/
def State.firstServed (s : State) (line : Nat) : State :=
  { s with rr := { s.rr with fetches := s.rr.fetches.map (fun (f : Fetch) =>
    if f.line == line then { f with waiters := f.waiters.drop 1 } else f) } }

/-- SPEC_VERIFY_RESULT: the tag result of a speculative line reaches the port (08 R286, R287). Data is committed by then only in
latency-optimised flit mode. -/
def specVerifyResult (line : Nat) (committed : Bool) (s : State) : State :=
  match s.fetchOf line with
  | none => s
  | some f =>
    match f.stage with
    | .spec d poison ok =>
      let w := fetchWho f
      let sent := committed && (s.fnAt w).latOpt && !(s.fnAt w).viral
      if ok then s.arrive line d poison
      else
        let a := s.fetchLoc line w
        match a.2 with
        | none => a.1.settle line true
        | some (r, l) =>
          let bad := badCopy true false d
          if !sent then
            let x := a.1.repair ⟨[], []⟩ (readBy w) l r.scramble f.copy bad
            x.1.noteSpec.arrive line x.2.data x.2.poison
          else
            let s1 := match f.waiters.head? with
              | some q => (a.1.answerRead q.req d poison).firstServed line
              | none => a.1
            let e := s1.redundant ⟨[], []⟩ (readBy w) l r.scramble f.copy
            let same := match e.2 with
              | some p => decide (p.data = d)
              | none => false
            if same then
              let s2 := ((e.1.mendCopy l r.scramble f.copy d poison false).count 21 0).report sxSpecConfirmed
                (f.copy * 2 ^ 33 + l.cla) (some w)
              (s2.noteTag f.copy l.cla 4 w true).arrive line d poison
            else
              let x := e.1.repair ⟨[], []⟩ (readBy w) l r.scramble f.copy bad
              (x.1.lateAlarm w f.copy l).arrive line x.2.data x.2.poison
    | _ => s

/-! ### The commands -/

def execCxlmemRead (fn hpa : Nat) (noCopy : Bool) (tie : List MemReq) (s : State) : Host.Outcome State Fault Refusal :=
  .next (s.hostAccess false ⟨fn, hpa, .read noCopy⟩ tie)

def execCxlmemWrite (fn hpa : Nat) (data : Line) (enables : BitVec 64) (poisoned : Bool) (tie : List MemReq) (s : State) :
    Host.Outcome State Fault Refusal :=
  .next (s.hostAccess false ⟨fn, hpa, .write data enables poisoned⟩ tie)

/-- FILL_ON_TOUCH_WRITE (07 R266). -/
def execFillOnTouchWrite (fn hpa : Nat) (data : Line) (enables : BitVec 64) (poisoned : Bool) (s : State) :
    Host.Outcome State Fault Refusal :=
  .next (s.hostOne true ⟨fn, hpa, .write data enables poisoned⟩)

def execDramReadReturn (line : Nat) (env : ReadEnv) (s : State) : Host.Outcome State Fault Refusal :=
  .next (dramReadReturn line env s).enterKept

def execAddressErrorReread (line : Nat) (env : ReadEnv) (s : State) : Host.Outcome State Fault Refusal :=
  .next (addressErrorReread line env s).enterKept

def execLineRepair (line : Nat) (env : ReadEnv) (s : State) : Host.Outcome State Fault Refusal :=
  .next (lineRepair line env s).enterKept

def execSpecVerifyResult (line : Nat) (committed : Bool) (s : State) : Host.Outcome State Fault Refusal :=
  .next (specVerifyResult line committed s).enterKept

end Sys2Proof.Machine
end

