-- ==== Sys2Proof/Machine/Perf.lean ====
section
/-! DEFINITION. The performance monitor: selections, reads and dump records (18; 15 R555). -/

namespace Sys2Proof.Machine
open Sys2Proof

/-- How many events the table of 18 R636 lists for a node; nodes 38 and up have none. -/
def eventCount (node : Nat) : Nat :=
  if node = 0 then 6 else if node = 1 then 5 else if node = 2 then 9 else if node = 3 then 2 else if node = 4 then 5
  else if node = 5 then 3 else if node = 6 then 1 else if node = 7 then 2 else if node = 8 ∨ node = 9 then 7
  else if node = 10 ∨ node = 11 then 4 else if node ≤ 15 then 6 else if node = 16 then 5 else if node ≤ 18 then 8
  else if node = 19 then 3 else if node = 20 then 5 else if node = 21 then 3 else if node = 22 then 8
  else if node = 23 then 5 else if node = 24 then 3 else if node = 25 then 5 else if node ≤ 37 then 9 else 0

/-- Whether 18 R636 lists an event number; MUCK repacks are listed for node 17 only. -/
def eventListed (ev : Nat) : Bool := decide (ev % 64 < eventCount (ev / 64)) && ev != 18 * 64 + 5

/-- Whether the event is a level event (18 R636, R637). -/
def levelEvents : List Nat :=
  [5, 4 * 64 + 2, 4 * 64 + 4, 8 * 64 + 6, 9 * 64 + 6, 10 * 64 + 3, 12 * 64 + 5, 13 * 64 + 5, 14 * 64 + 5, 15 * 64 + 5,
   17 * 64 + 6, 17 * 64 + 7, 18 * 64 + 6, 18 * 64 + 7] ++ (List.range 12).map (fun c => (26 + c) * 64 + 4)

/-- Clocks or gates domain `d`, 1 to 40, and counts the change (17 R620, R621; 18 R636 node 5). -/
def State.setDomain (s : State) (d : Nat) (on : Bool) : State :=
  if s.ck.domains.getLsbD (d - 1) = on then s
  else
    let m := 1#40 <<< (d - 1)
    let s1 := { s with ck := { s.ck with domains := if on then s.ck.domains ||| m else s.ck.domains &&& ~~~m } }
    s1.count 5 (if on then 1 else 0)

/-- Domain 31 is clocked while a counter is enabled or a dump is configured (17 R620). -/
def State.pmClock (s : State) : State := s.setDomain 31 (!s.pm.en.isEmpty || decide (s.pm.interval ≠ 0))

/-- PM_CFG (18 R636, R639; 15 R555). -/
def pmCfg : Body := fun p b s =>
  let c := rd b 4 4
  if 512 ≤ c then (s, ans stObjectAbsent c)
  else
    let cur := sget 0 s.pm.evt c
    let r := applyRules [⟨8, 2, fun v => if eventListed (v % 4096) then v else cur⟩] b
    let flags := rd b 10 1
    let pm1 := { s.pm with
      evt := sset 0 s.pm.evt c (rd r.1 8 2 % 4096)
      en := if flags.testBit 0 then (if c ∈ s.pm.en then s.pm.en else s.pm.en ++ [c]) else s.pm.en.filter (· != c) }
    let pm2 := if flags.testBit 1 then { pm1 with
      cnt := sset 0 pm1.cnt c 0, sticky := pm1.sticky.filter (· != c), parityAt := sset 0 pm1.parityAt c pm1.parity }
      else pm1
    (({ s with pm := pm2 }.pmClock).direct p 0xC600 20 c r.2, ans (okStatus r.2) c)

/-- PM_DUMP_CFG (18 R641; 15 R555). -/
def pmDumpCfg : Body := fun p b s =>
  let obj := rd b 4 4
  if obj ≠ 0 then (s, ans stObjectAbsent obj)
  else
    let r := applyRules [⟨8, 8, roundDown 4096⟩, ⟨16, 4, pow2Below 1 16⟩, ⟨20, 4, min 1000000⟩,
      ⟨24, 1, fun v => if v < 4 ∧ s.fnExists v then v else s.mb.mgmt⟩] b
    let base := rd r.1 8 8
    let recs := rd r.1 16 4
    let itv := rd r.1 20 4
    let f := rd r.1 24 1
    let anew := base != s.pm.base || recs != s.pm.records || f != s.pm.fn
    let pm := { s.pm with
      base := base, records := recs, interval := itv, fn := f
      seq := if anew then 0 else s.pm.seq
      nextAt := if s.pm.interval = 0 ∨ anew then s.now + itv * 1000 else s.pm.nextAt }
    (({ s with pm := pm }.pmClock).direct p 0xC601 20 obj r.2, ans (okStatus r.2) obj)

/-- What PM_READ returns of a counter: value, sticky bit, and whether PM_PARITY has changed since its last clear (18 R648;
15 R555). -/
def pmValue (pm : Pm) (c : Nat) : Nat :=
  sget 0 pm.cnt c + b2n (decide (c ∈ pm.sticky)) * 2 ^ 48 + b2n (pm.parity != sget 0 pm.parityAt c) * 2 ^ 49

/-- PM_READ (18 R648; 15 R555). -/
def pmRead : Body := fun p b s =>
  let obj := rd b 4 4
  if obj ≠ 0 then (s, ans stObjectAbsent obj)
  else
    let first := clampN 0 511 (rd b 8 2)
    let r := applyRules [fRange 8 2 0 511, ⟨10, 2, fun v => min (clampN 1 64 v) (512 - first)⟩] b
    let n := rd r.1 10 2
    (s.direct p 0xC602 20 obj r.2,
      ans (okStatus r.2) obj (((List.range n).map (fun i => le 8 (pmValue s.pm (first + i)))).flatten))

/-- The blocks of 16 counters that hold an enabled counter (18 R635, R642). -/
def pmBlocks (pm : Pm) : List Nat := (List.range 32).filter (fun k => pm.en.any (fun c => c / 16 == k))

/-- Bytes 4 onward of a dump record (18 R642, R646). -/
def dumpBody (s : State) (valid : Bool) : Bytes :=
  let pm := s.pm
  let blocks := pmBlocks pm
  le 4 (b2n valid + 2 * b2n pm.gap + 4 * b2n s.tu.estimated + 8 * b2n s.tu.coarse) ++ le 6 s.netS ++ le 4 s.netN ++
    le 4 (bitsOf blocks) ++ le 2 (min 65535 pm.missedSince) ++ List.replicate 40 0 ++
    le 64 (if valid then bitsOf pm.sticky else 0) ++
    ((blocks.map (fun k => ((List.range 16).map (fun i =>
      le 6 (if valid then sget 0 pm.cnt (16 * k + i) else 0))).flatten)).flatten)

/-- A latch: a record is written, or the latch is skipped (18 R641, R643, R644, R646, R647). -/
def pmLatch (ue : Bool) (s0 : State) : State :=
  if s0.pm.interval = 0 || !s0.awake || s0.fc.safe then s0
  else
    let s := s0.advance s0.pm.nextAt
    let f := s.pm.fn
    let seq := s.pm.seq
    let s1 := { s with pm := { s.pm with seq := (seq + 1) % 2 ^ 32, nextAt := s.now + s.pm.interval * 1000 } }
    if !s.canSend f || (s.fnAt f).viral then
      ({ s1 with pm := { s1.pm with
        missed := satAdd (2 ^ 32 - 1) s1.pm.missed 1, missedSince := satAdd 65535 s1.pm.missedSince 1 } }).count 3 1
    else
      let at_ := s.pm.base + seq % s.pm.records * 4096
      let s2 := ((s1.sendWrite f at_ (le 4 0xFFFFFFFF) 15).sendWrite f (at_ + 4) (dumpBody s (!ue)) 15).sendWrite f at_
        (le 4 seq) 15
      let s3 := { s2 with pm := { s2.pm with missedSince := 0, gap := false } }
      let s4 := (s3.count 3 0).cause f 4
      if ue then s4.report (sramUe 3) seq else s4

/-- A counter parity error (18 R640). -/
def pmParity (c : Nat) (s : State) : State :=
  if 512 ≤ c then s
  else { s with pm := { s.pm with
    cnt := sset 0 s.pm.cnt c 0
    sticky := if c ∈ s.pm.sticky then s.pm.sticky else s.pm.sticky ++ [c]
    parity := satAdd (2 ^ 32 - 1) s.pm.parity 1 } }

/-! ### The commands -/

def execPmCfg (p : Path) (b : Bytes) (s : State) : Host.Outcome State Fault Refusal :=
  .next (s.command p 0xC600 b pmCfg)

def execPmDumpCfg (p : Path) (b : Bytes) (s : State) : Host.Outcome State Fault Refusal :=
  .next (s.command p 0xC601 b pmDumpCfg)

def execPmRead (p : Path) (b : Bytes) (s : State) : Host.Outcome State Fault Refusal :=
  .next (s.command p 0xC602 b pmRead)

/-- PM_DUMP_LATCH: `sramUe` is an uncorrectable error in the record buffer (18 R646). -/
def execPmDumpLatch (sramUe : Bool) (s : State) : Host.Outcome State Fault Refusal := .next (pmLatch sramUe s)

def execPmParityError (counter : Nat) (s : State) : Host.Outcome State Fault Refusal := .next (pmParity counter s)

end Sys2Proof.Machine
end

