-- ==== Sys2Proof/Machine/Rekey.lean ====
section
/-! DEFINITION. Re-keying: the device key, its epoch and the sweep (08 R289 to R301, R305). -/

namespace Sys2Proof.Machine
open Sys2Proof

/-- Status codes of 08 R308. -/
def stRekeyActive : Nat := 0x0800
def stRekeyNoAbort : Nat := 0x0801
def stRngFail : Nat := 0x0802

/-- Draws a key: at most three draws, each with its health test (08 R290, R305; log 3). -/
def State.drawKey (s : State) : Nat → State × Option (BitVec 256)
  | 0 => (s, none)
  | n + 1 =>
    if Config.rngHealthy s.fresh then (s.drawn, some (Config.randomKey s.fresh)) else s.drawn.drawKey n

/-- One more than the highest populated channel line address (08 R297). -/
def State.topCla (s : State) : Nat := (List.range 12).foldl (fun m c => max m (s.chanLines c)) 0

/-- The re-key work among background operations. -/
def isRekey (w : BgWork) : Bool :=
  match w with
  | .rekey => true
  | _ => false

/-- REKEY_START (08 R289, R290, R296): a new key and a sweep, or the resumption of a halted one. -/
def rekeyStart : Body := fun p b s =>
  let obj := rd b 4 4
  let r := applyRules [fRange 8 1 0 40] b
  let rate := rd r.1 8 1
  let s0 := s.direct p 0xC710 15 obj r.2
  if s.sx.sweep && !s.sx.halted then (s, ans stRekeyActive obj)
  else if s.sx.sweep then
    let q := s0.startBg p 0xC710 obj .rekey s.topCla (!r.2.isEmpty)
    if q.2.status = stBgStarted then
      (({ q.1 with sx := { q.1.sx with halted := false, rate := if rate = 0 then q.1.sx.rate else rate } } : State).setDomain 40 true, q.2)
    else (s, q.2)
  else if s.sx.epoch = 0xFFFFFFFF then (s, ans stEpochExhausted obj)
  else if !s.bgRoom (who p) then (s, ans stBusy obj)
  else
    let k := s0.drawKey 3
    match k.2 with
    | none => ({ k.1 with mb := s.mb }, ans stRngFail obj)
    | some key =>
      let q := k.1.startBg p 0xC710 obj .rekey s.topCla (!r.2.isEmpty)
      (({ q.1 with sx := { q.1.sx with
        oldKey := q.1.sx.key
        key := some key
        epoch := q.1.sx.epoch + 1
        buoy := 0
        sweep := true
        halted := false
        rate := if rate = 0 then q.1.sx.rate else rate } } : State).setDomain 40 true, q.2)

/-- A line the step carries to the new key: the copy it is written to, and its data (08 R292, R295). -/
structure Rekeyed where
  ch     : Nat
  loc    : Loc
  scr    : Bool
  data   : Line
  poison : Bool
  kind   : Bool
  deriving DecidableEq, Repr

/-- Reads the copy on channel `c` under the old key, with its repair; what stays bad goes on poisoned (08 R295). -/
def State.rekeyRead (s : State) (l : Loc) (scr : Bool) (c : Nat) : State × Rekeyed :=
  if s.readable c l.cla then
    let r := s.readCopy ⟨[], []⟩ (readBy 12) l scr c
    match r.2 with
    | .good p => (r.1, ⟨c, l, scr, p.data, p.poison, p.kind⟩)
    | bad =>
      let m := r.1.repair ⟨[], []⟩ (readBy 12) l scr c bad
      (m.1, ⟨c, l, scr, m.2.data, m.2.poison, m.2.kind⟩)
  else
    let r := s.redundant ⟨[], []⟩ (readBy 12) l scr c
    match r.2 with
    | some p => (r.1, ⟨c, l, scr, p.data, p.poison, p.kind⟩)
    | none => (r.1, ⟨c, l, scr, 0, true, false⟩)

/-- Whether a line has to be carried to the new key: it was written, or is upset. What FILL writes is formed under either key (log 5). -/
def State.carried (s : State) (c cla : Nat) : Bool := s.written c cla || s.mc.upsets.any (fun u => u.1 == c && u.2.1 == cla)

/-- The accesses of a step at one channel, as requester REKEY in the class of the line's region: its line is read and written; at the parity
unit of a row, its data units are read and the row is written whole (00 R7; 03 R121; 08 R292; 10 R348). -/
def State.rekeyQueue (s : State) (c cla : Nat) : State :=
  if s.chanLines c ≤ cla ∨ !s.lineFilled c cla then s
  else
    let h := s.holder c cla
    let row := rowOf (h.bind (fun h => h.region))
    let reads (s : State) (cs : List Nat) : State := (cs.filter (fun d => s.readable d cla)).foldl (fun s d => s.enterQueue d cla false 12 row 0) s
    let writes (s : State) (cs : List Nat) : State := (cs.filter (fun d => s.writable d cla)).foldl (fun s d => s.enterQueue d cla true 12 row 0) s
    match h.bind (fun h => h.loc.row) with
    | some r => if c = r.2 then writes (reads s r.1) (r.1 ++ [r.2]) else s
    | none => writes (reads s [c]) [c]

/-- What a step reads at one channel: the copy that lies there, or, at the parity unit of a row, every data unit of the row,
those of a fenced channel by reconstruction (08 R292, R294). -/
def State.rekeyAt (s : State) (c cla : Nat) : State × List Rekeyed × Option Loc :=
  if s.chanLines c ≤ cla ∨ !s.lineFilled c cla then (s, [], none)
  else match s.holder c cla with
    | none =>
      if s.readable c cla && s.carried c cla then
        let r := s.rekeyRead ⟨c, cla, none, none⟩ true c
        (r.1, [r.2], none)
      else (s, [], none)
    | some h =>
      match h.loc.row with
      | some row =>
        if h.parity && (row.1 ++ [row.2]).any (fun d => s.carried d cla) then
          let r := row.1.foldl (fun (acc : State × List Rekeyed) d =>
            let x := acc.1.rekeyRead { h.loc with ch := d } h.scr d
            (x.1, acc.2 ++ [x.2])) (s, [])
          (r.1, r.2, some h.loc)
        else (s, [], none)
      | none =>
        if s.readable c cla && s.carried c cla then
          let r := s.rekeyRead h.loc h.scr c
          (r.1, [r.2], none)
        else (s, [], none)

/-- Writes what a step read under the new key, each row with its parity (08 R292). -/
def State.rekeyWrite (s : State) (xs : List Rekeyed) (parity : Option Loc) : State :=
  let form (x : Rekeyed) := sealLine (s.keyFor x.loc.cla) x.ch x.loc.cla x.scr x.data x.poison x.kind
  let s1 := xs.foldl (fun s x => s.putCopy x.loc x.ch (form x)) s
  match parity with
  | some l => match l.row with
    | some row => s1.putCopy l row.2 ((xs.map form).foldl Stored.xor Stored.zero)
    | none => s1
  | none => s1

/-- The sweep ends: the old key is erased (08 R297). -/
def State.rekeyEnd (s : State) : State :=
  let s0 : State := { s with sx := { s.sx with sweep := false, halted := false, oldKey := none } }
  let s1 := (s0.setDomain 40 false).report sxRekeyDone s.sx.epoch
  ((s1.running.filter (fun o => isRekey o.work)).map (fun o => o.handle)).foldl (fun s h => s.endOp h stSuccess) s1

/-- Progress of REKEY_START (14 R684). -/
def State.rekeyProgress (s : State) : State :=
  { s with mb := { s.mb with ops := s.mb.ops.map (fun (o : BgOp) =>
    if isRekey o.work && o.running then { o with done := s.sx.buoy } else o) } }

/-- The step at the buoy: every channel is read under the old key, the buoy moves on, and every line is written under the
new one (08 R292). -/
def State.rekeyLines (s : State) : State :=
  let b := s.sx.buoy
  let r := (List.range 12).foldl (fun (acc : State × List (List Rekeyed × Option Loc)) c =>
    let x := (acc.1.rekeyQueue c b).rekeyAt c b
    (x.1, acc.2 ++ [x.2])) (s, [])
  let s1 := { r.1 with sx := { r.1.sx with buoy := b + 1 } }
  let s2 := r.2.foldl (fun s x => s.rekeyWrite x.1 x.2) s1
  (s2.count 21 2).rekeyProgress

/-- REKEY_STEP (08 R292 to R299): `halt`, an uncorrectable SRAM error on its DMA read, halts the sweep after the step. -/
def rekeyStep (halt : Bool) (s : State) : State :=
  if !s.sx.sweep || s.sx.halted || s.sx.paused || s.bgPaused then s
  else
    let s1 := s.rekeyLines
    if s1.topCla ≤ s1.sx.buoy then s1.rekeyEnd
    else if halt then { s1 with sx := { s1.sx with halted := true } }.report sxRekeyHalted s1.sx.buoy (some 12)
    else s1

def execRekeyStart (p : Path) (b : Bytes) (s : State) : Host.Outcome State Fault Refusal :=
  .next (s.command p 0xC710 b rekeyStart)

end Sys2Proof.Machine
end

