-- ==== Sys2Proof/Machine/Scrub.lean ====
section
/-! DEFINITION. Patrol and demand scrub, failing rows, post-package repair, page retirement, resilvering and fuses (07 R237
to R272; 15 R556, R557). -/

namespace Sys2Proof.Machine
open Sys2Proof

/-- Status codes of 07 R272 and 09's channel codes that PPR_CTL returns. -/
def stFuseExhausted : Nat := 0x0700
def stPprNoResource : Nat := 0x0701
def stPprPlainRank : Nat := 0x0702
def stResilverActive : Nat := 0x0703
def stChannelEmpty : Nat := 0x0900
def stChannelFenced : Nat := 0x0901

/-- Whether the patrol, resilvering and FILL may run (16 R570, R586; 17 R600). -/
def State.lpRuns (s : State) : Bool := !s.bgPaused && !s.lp.paused

/-! ### Row errors (07 R252, R253) -/

/-- Scrub has written back a correction in a row (07 R252): a row with no entry gets one, whose count of later corrections is 0; an entry's
last write-back is now. A full table replaces the oldest entry (log 48). -/
def State.rowWritten (s : State) (row : Nat) : State :=
  let live := s.lp.rows.filter (fun e => e.row != row || decide (s.now < e.start + s.lp.rowWin * hourNs))
  if live.any (fun e => e.row == row) then
    { s with lp := { s.lp with rows := live.map (fun (e : RowErr) => if e.row = row then { e with last := s.now } else e) } }
  else
    let full := decide (4096 ≤ live.length)
    let oldest := (minBy (fun (x : RowErr) => x.last) live).map (fun x => x.row)
    let kept := if full then live.filter (fun x => some x.row != oldest) else live
    { s with lp := { s.lp with
      rows := kept ++ [⟨row, 0, s.now, s.now⟩], rowsReplaced := if full then s.lp.rowsReplaced + 1 else s.lp.rowsReplaced } }

/-! ### One line read, repaired and written back (07 R249, R250) -/

/-- A line access of SCRUB enters its channel's queue, in the class of its region (10 R348). -/
def State.scrubQueue (s : State) (c cla : Nat) (write : Bool) : State :=
  s.enterQueue c cla write 11 (rowOf ((s.holder c cla).bind (fun h => h.region))) 0

/-- A line of channel `c` is read, and written back corrected, repaired, or with STORED poison where the repair fails; a MEDIA line of media that
holds no data is written as zero. Whether a correction was written back (07 R234, R243, R249). -/
def State.scrubFix (s : State) (env : ReadEnv) (q : ReadFor) (c cla : Nat) : State × Bool :=
  let ls := s.scrubLoc c cla
  let l := ls.1
  let held := (s.holder c cla).filter (fun h => !s.inSpare h)
  let parity := (held.map (fun h => h.parity)).getD false
  let stored (d : Line) (poison : Bool) : Stored := sealLine (s.keyFor cla) c cla ls.2 d poison false
  let r := (s.scrubQueue c cla false).readDecoded env q l ls.2 c
  if r.2.1.fixed then ((r.1.putCopy l c r.2.2).scrubQueue c cla true, true)
  else if r.2.1 = .clean then
    if parity || (openLine (s.keyFor cla) c cla ls.2 r.2.2).tagOk then (r.1, false)
    else (((r.1.repair env q l ls.2 c (r.1.judge l ls.2 c r.2)).1).scrubQueue c cla true, false)
  else match held, l.row with
    | none, _ => ((r.1.putCopy l c (stored 0 false)).scrubQueue c cla true, false)
    | some _, row =>
      if parity then
        let b := r.1.rebuild env q l ls.2 (row.getD ([], c)) c
        match b.2 with
        | some x => (((b.1.putCopy l c x).report lpRepaired (s.dramDetail c cla) (some q.who)).scrubQueue c cla true, false)
        | none => ((b.1.putCopy l c (stored 0 true)).scrubQueue c cla true, false)
      else
        let m := r.1.repair env q l ls.2 c (r.1.judge l ls.2 c r.2)
        ((if m.2.lost then (m.1.mendCopy l ls.2 c m.2.data true false).refreshParity l ls.2 else m.1).scrubQueue c cla true, false)

/-- One SCRUB operation on a line of channel `c` (07 R249, R250, R252). -/
def State.scrubLine (s : State) (env : ReadEnv) (q : ReadFor) (c cla : Nat) : State :=
  let r := s.scrubFix env q c cla
  if r.2 then r.1.rowWritten (rowId c (s.placeOf c (s.remap c cla))) else r.1

/-- The patrol's position moves on; a pass over all channels is counted (07 R248, R270). -/
def State.patrolAdvance (s : State) (c : Nat) : State :=
  let pos := s.lp.patrolPos.getD c 0 + 1
  if pos < s.chanLines c then { s with lp := { s.lp with patrolPos := lset s.lp.patrolPos c pos } }
  else
    let doneL := lset s.lp.patrolDone c true
    let all := (List.range 12).all (fun c => s.fenced c || doneL.getD c false)
    { s with lp := { s.lp with
      patrolPos := lset s.lp.patrolPos c 0
      patrolStart := lset s.lp.patrolStart c s.now
      patrolLate := lset s.lp.patrolLate c false
      patrolDone := if all then List.replicate 12 false else doneL
      patrolPasses := if all then satAdd (2 ^ 32 - 1) s.lp.patrolPasses 1 else s.lp.patrolPasses } }

/-- PATROL_READ: the next line of a channel; it skips media above a fill or resilver buoy (07 R248, R249). `halt`: an
uncorrectable SRAM error on the DMA read halts the context (07 R261, R262). -/
def patrolRead (c : Nat) (env : ReadEnv) (halt : Bool) (s : State) : State :=
  if !s.lpRuns || s.lp.scrubHalted || s.fenced c || s.chanLines c = 0 then s
  else
    let cla := s.lp.patrolPos.getD c 0
    if halt then { s with lp := { s.lp with scrubHalted := true } }.report lpScrubHalted c (some 11)
    else if !s.lineFilled c cla || !s.readable c cla then s.patrolAdvance c
    else (((s.upset env).count 20 3).scrubLine env ⟨11, true, false⟩ c cla).patrolAdvance c

/-- DEMAND_SCRUB: the oldest queued line is reread, corrected and written back (07 R250). `halt`: its DMA read halts the context, and the line
stays queued (07 R262). -/
def demandScrub (env : ReadEnv) (halt : Bool) (s : State) : State :=
  if !s.enginesRun || s.lp.scrubHalted then s
  else match s.lp.demandQ with
    | [] => s
    | (c, cla) :: rest =>
      if halt then { s with lp := { s.lp with scrubHalted := true } }.report lpScrubHalted c (some 11)
      else
      let s1 := ({ s with lp := { s.lp with demandQ := rest } } : State).upset env
      if s.readable c cla then (s1.count 20 4).scrubLine env ⟨11, false, true⟩ c cla else s1

/-- PATROL_LATE: a channel's patrol not finished within 110 % of the period (07 R251). -/
def patrolLate (c : Nat) (s : State) : State :=
  if 12 ≤ c || s.fenced c || s.lp.patrolLate.getD c false then s
  else
    let s1 := s.advance (s.lp.patrolStart.getD c 0 + s.lp.patrolH * hourNs / 10 * 11)
    { s1 with lp := { s1.lp with patrolLate := lset s1.lp.patrolLate c true } }.report lpPatrolLate c

/-- ROW_ERROR_WINDOW_END: an entry that has not reached the threshold is discarded (07 R253). -/
def rowWindowEnd (row : Nat) (s : State) : State :=
  match s.lp.rows.find? (fun e => e.row == row) with
  | none => s
  | some e =>
    let s1 := (s.advance (e.start + s.lp.rowWin * hourNs)).hardenRows
    { s1 with lp := { s1.lp with rows := s1.lp.rows.filter (fun x => x.row != row) } }

/-! ### Repair of hard rows (07 R254 to R257) -/

/-- The fields of a row number. -/
def rowChan (row : Nat) : Nat := row / 2 ^ 27
def rowSub (row : Nat) : Nat := row / 2 ^ 26 % 2
def rowRank (row : Nat) : Nat := row / 2 ^ 23 % 8
def rowBg (row : Nat) : Nat := row / 2 ^ 20 % 8

/-- The soft PPR resource of a row: its bank group on its DIMM (07 R254; log 86). -/
def softRes (row : Nat) : Nat := ((rowChan row * 2 + rowSub row) * 2 + rowRank row / 4) * 8 + rowBg row

/-- The hard PPR resource of a row's bank group: by channel, subchannel, rank and bank group. -/
def hardRes (row : Nat) : Nat := row / 2 ^ 20

/-- Whether the DIMM reports a hard PPR resource left for a row's bank group (07 R254; log 3). -/
def State.hardLeft (s : State) (row : Nat) : Bool :=
  Config.hardPpr (rowChan row) (rowRank row) (rowBg row) (sget 0 s.lp.hardUsed (hardRes row))

/-- The line whose content lies at a place of a channel: of a spare page in use, the retired page's; of a retired page, none (07 R256). -/
def State.lineHere (s : State) (c cla : Nat) : Option Nat :=
  match s.lp.retired.find? (fun e => e.1 == c && e.2.2 == cla / 64) with
  | some e => some (e.2.1 * 64 + cla % 64)
  | none => if s.lp.retired.any (fun e => e.1 == c && e.2.1 == cla / 64) then none else some cla

/-- The lines whose content lies in a row (09 R314). -/
def State.linesIn (s : State) (row : Nat) : List Nat :=
  match (s.chan (rowChan row)).pop with
  | some p => (rowLines p ⟨rowSub row, rowRank row, rowBg row, row / 2 ^ 18 % 4, row % 2 ^ 18, 0⟩).filterMap (s.lineHere (rowChan row))
  | none => []

/-- SOFT_PPR of a hard row whose resource is free: the row's lines are read corrected and written back to the new row, whose cells hold no
error, and the repair is logged (07 R254 step 1). Otherwise the row waits (step 2) or its pages are retired (step 3, PAGE_RETIREMENT). -/
def softPpr (row : Nat) (s : State) : State :=
  if row ∈ s.lp.hardRows ∧ ¬ softRes row ∈ s.lp.softUsed ∧ s.enginesRun then
    let c := rowChan row
    let ls := s.linesIn row
    let s1 := (ls.filter (fun l => s.lineFilled c l && s.readable c l)).foldl (fun s l => (s.scrubFix ReadEnv.clean ⟨11, false, true⟩ c l).1) s
    { s1 with
      mc := { s1.mc with upsets := s1.mc.upsets.filter (fun u => !(u.1 == c && ls.contains u.2.1)) }
      lp := { s1.lp with
        hardRows := s1.lp.hardRows.filter (· != row)
        softUsed := s1.lp.softUsed ++ [softRes row]
        repairLog := s1.lp.repairLog ++ [RepairNote.softPpr row] } }.report lpPprSoft row
  else s

/-- Whether the content of a channel page has a line in a row. -/
def State.pageInRow (s : State) (c page row : Nat) : Bool :=
  rowChan row == c && (List.range 64).any (fun i => rowId c (s.placeOf c (s.remap c (page * 64 + i))) == row)

/-- Takes a spare page of a channel (07 R256): spans of (first page, count). -/
def takeSpare : List (Nat × Nat) → Option (Nat × List (Nat × Nat))
  | [] => none
  | (p, n) :: rest =>
    if n = 0 then takeSpare rest
    else if n = 1 then some (p, rest)
    else some (p, (p + 1, n - 1) :: rest)

/-- The stored lines of a channel page that were written. -/
def State.pageLines (s : State) (c page : Nat) : List (Nat × Stored) :=
  (List.range 64).filterMap (fun i =>
    let cla := page * 64 + i
    if s.written c cla then some (cla, s.storedAt (s.scrubLoc c cla).1 (s.scrubLoc c cla).2 c) else none)

/-- Retires a channel page (07 R256, R257): its lines are copied, corrected, to a spare page, and the mapping is entered and logged. A page
retired before moves on to another spare page. -/
def State.retire (s : State) (c page : Nat) : State :=
  let others := s.lp.retired.filter (fun e => !(e.1 == c && e.2.1 == page))
  match takeSpare (s.lp.spareFree.getD c []) with
  | some (sp, rest) =>
    if 131072 ≤ (others.filter (fun e => e.1 == c)).length then s.report lpSpareExhausted (c * 2 ^ 32 + page)
    else
      let lines := (List.range 64).map (fun i => page * 64 + i)
      let s1 := (lines.filter (fun l => s.lineFilled c l && s.readable c l)).foldl (fun s l =>
        (s.scrubFix ReadEnv.clean ⟨11, false, true⟩ c l).1) s
      let copied := s1.pageLines c page
      let s2 := { s1 with
        dram := s1.dram.filter (fun e => !(decide (lineKey c (sp * 64) ≤ e.1) && decide (e.1 < lineKey c (sp * 64 + 64))))
        mc := { s1.mc with upsets := s1.mc.upsets.filter (fun u => !(u.1 == c && decide (u.2.1 / 64 = page))) }
        lp := { s1.lp with
          retired := others ++ [(c, page, sp)]
          spareFree := lset s1.lp.spareFree c rest
          repairLog := s1.lp.repairLog ++ [RepairNote.retire c page sp] } }
      (copied.foldl (fun s x => s.putStored c x.1 x.2) s2).report lpPageRetired (c * 2 ^ 32 + page)
  | none => s.report lpSpareExhausted (c * 2 ^ 32 + page)

/-- PAGE_RETIREMENT of a page with a line in a hard row that neither PPR can repair (07 R254 step 3, R256). -/
def pageRetirement (c page : Nat) (s : State) : State :=
  if s.enginesRun && s.lp.hardRows.any (fun row =>
      decide (softRes row ∈ s.lp.softUsed) && !s.hardLeft row && s.pageInRow c page row) then s.retire c page
  else s

/-- The rows of a PPR_CTL: the named row, or every hard row waiting on the channel (15 R556). -/
def pprRows (s : State) (c : Nat) (b : Bytes) : List Nat :=
  if (rd b 16 1).testBit 1 then s.lp.hardRows.filter (fun r => rowChan r == c)
  else [((((c * 2 + rd b 8 1) * 8 + rd b 9 1) * 8 + rd b 10 1) * 4 + rd b 11 1) * 2 ^ 18 + rd b 12 4]

/-- Whether a channel holds media of a PLAIN extent (07 R255): every extent takes lines of every rank of its channels. -/
def State.holdsPlain (s : State) (c : Nat) : Bool :=
  (oall s.rg.regions).any (fun r => decide (r.2.protect = 0) && r.2.mask.testBit c)

/-- The pages with a line in a row. -/
def State.rowPages (s : State) (row : Nat) : List Nat := ((s.linesIn row).map (fun l => l / 64)).dedup

/-- The fields of PPR_CTL: a row, unless all rows of the hard list are named (15 R556). -/
def pprRules (pop : PopCfg) (b : Bytes) : List FieldRule :=
  if (rd b 16 1).testBit 1 then []
  else [fRange 8 1 0 1, fRange 9 1 0 7, fRange 10 1 0 7, fRange 11 1 0 3, fRange 12 4 0 (2 ^ popN pop - 1)]

/-- PPR_CTL (07 R255, R272; 15 R556): rows without a hard resource are retired instead. -/
def pprCtl : Body := fun p b s =>
  let c := rd b 4 4
  if 12 ≤ c then (s, ans stObjectAbsent c)
  else match (s.chan c).pop with
    | none => (s, ans stChannelEmpty c)
    | some pop =>
      let r := applyRules (pprRules pop b) b
      if s.fenced c then (s, ans stChannelFenced c)
      else if (s.lp.resilver.getD c Resilver.none).active then (s, ans stResilverActive c)
      else if s.holdsPlain c && !(rd b 16 1).testBit 0 then (s, ans stPprPlainRank c)
      else
        let rows := pprRows s c r.1
        let bad := rows.filter (fun x => !s.hardLeft x)
        let good := rows.filter (fun x => s.hardLeft x)
        let s0 := s.direct p 0xC721 15 c r.2
        let retired := bad.foldl (fun s row => (s.rowPages row).foldl (fun s pg => s.retire c pg) s) s0
        if good.isEmpty then
          if bad.isEmpty then (s0, ans (okStatus r.2) c) else (retired, ans stPprNoResource c)
        else
          let q := retired.startBg p 0xC721 c (.ppr c good) good.length (!r.2.isEmpty)
          if q.2.status = stBgStarted then
            let rk := good.headD 0
            ({ q.1 with lp := { q.1.lp with rankOut := q.1.lp.rankOut ++ [(c, rowSub rk, rowRank rk)] } }, q.2)
          else (s, q.2)

/-- Background work that has a row of channel `c` still to repair (07 R255). -/
def repairing (c : Nat) : BgWork → Bool
  | .ppr ch rows => ch == c && !rows.isEmpty
  | _ => false

/-- HARD_PPR_DONE: the rank is back and its lines are resilvered (07 R255). -/
def hardPprDone (c : Nat) (s : State) : State :=
  match s.bgOf (repairing c) with
  | none => s
  | some o =>
    match s.lp.rankOut.find? (fun x => x.1 == c) with
    | none => s
    | some (_, u, r) =>
      let rows := match o.work with
        | .ppr _ rows => rows
        | _ => []
      let fixed := rows.filter (fun x => rowSub x == u && rowRank x == r)
      let used := fixed.foldl (fun m x => smod 0 m (hardRes x) (· + 1)) s.lp.hardUsed
      { s with lp := { s.lp with
        rankOut := s.lp.rankOut.filter (fun x => x.1 != c)
        hardUsed := used
        hardRows := s.lp.hardRows.filter (fun x => !(x ∈ fixed))
        resilver := lset s.lp.resilver c ⟨0, true, some (u, r)⟩ } }

/-- After a rank's resilver pass, PPR_CTL goes on with its next rank or ends (07 R255; 14 R684). -/
def State.pprNext (s : State) (c u r : Nat) : State :=
  match s.bgOf (fun w => match w with
    | .ppr ch _ => ch == c
    | _ => false) with
  | none => s
  | some o =>
    let rows := match o.work with
      | .ppr _ rows => rows
      | _ => []
    let rest := rows.filter (fun x => !(rowSub x == u && rowRank x == r))
    let s1 := s.modOp o.handle (fun o => { o with work := .ppr c rest, done := o.total - rest.length })
    match rest with
    | [] => s1.endOp o.handle stSuccess
    | x :: _ => { s1 with lp := { s1.lp with rankOut := s1.lp.rankOut ++ [(c, rowSub x, rowRank x)] } }

/-! ### Resilvering (07 R245 to R247) -/

/-- What the resilver pass writes to a line of the returning channel, and its traffic (07 R245, R247). -/
def State.resilverOne (s : State) (c cla : Nat) : State :=
  if !s.lineFilled c cla then s
  else
    let zero := sealLine (s.keyFor cla) c cla true 0 false false
    match (s.holder c cla).filter (fun h => !s.inSpare h) with
    | none => (s.putCopy ⟨c, cla, none, none⟩ c zero).scrubQueue c cla true
    | some h =>
      let poisoned := sealLine (s.keyFor cla) c cla h.scr 0 true false
      match h.loc.mirror, h.loc.row with
      | some m, _ =>
        let r := (s.scrubQueue (if c = h.loc.ch then m else h.loc.ch) cla false).redundant ⟨[], []⟩ (readBy 11) h.loc h.scr c
        (match r.2 with
        | some p => r.1.putCopy h.loc c (sealLine (s.keyFor cla) c cla h.scr p.data p.poison p.kind)
        | none => r.1.putCopy h.loc c poisoned).scrubQueue c cla true
      | none, some row =>
        let q := (rowOthers row c).foldl (fun s d => s.scrubQueue d cla false) s
        let b := q.rebuild ⟨[], []⟩ (readBy 11) h.loc h.scr row c
        (match b.2 with
        | some x => b.1.putCopy h.loc c x
        | none => b.1.putCopy h.loc c poisoned).scrubQueue c cla true
      | none, none => (s.putCopy h.loc c poisoned).scrubQueue c cla true

/-- RESILVER_LINE (07 R245 to R247, R255). `halt`: its DMA read halts the context, and the buoy stands (07 R262). -/
def resilverLine (c : Nat) (halt : Bool) (s : State) : State :=
  match s.lp.resilver[c]? with
  | none => s
  | some v =>
    if !v.active || !s.lpRuns || s.lp.scrubHalted || s.fenced c then s
    else if halt then { s with lp := { s.lp with scrubHalted := true } }.report lpScrubHalted c (some 11)
    else
      let p := s.placeOf c (s.remap c v.buoy)
      let here := match v.rank with
        | some (u, r) => decide (p.sub = u ∧ p.rank = r)
        | none => true
      let s1 := if here then s.resilverOne c v.buoy else s
      if v.buoy + 1 < s1.chanLines c then
        { s1 with lp := { s1.lp with resilver := lset s1.lp.resilver c { v with buoy := v.buoy + 1 } } }
      else
        let s2 := { s1 with lp := { s1.lp with resilver := lset s1.lp.resilver c Resilver.none } }.report lpResilverDone c
        match v.rank with
        | some (u, r) => s2.pprNext c u r
        | none => s2

/-! ### SCRUB_CTL and FUSE_BURN -/

/-- Restarts halted SCRUB or FILL contexts (07 R262). -/
def State.restartScrub (s : State) : State := { s with lp := { s.lp with scrubHalted := false } }
def State.restartFill (s : State) : State := { s with lp := { s.lp with fillHalted := false } }

/-- SCRUB_CTL (15 R556). -/
def scrubCtl : Body := fun p b s =>
  let obj := rd b 4 4
  if obj ≠ 0 then (s, ans stObjectAbsent obj)
  else
    let r := applyRules (validRules b [(0, fRange 8 1 1 168), (1, fRange 9 1 1 15), (2, fRange 10 1 1 168),
      (3, fRange 11 1 1 64), (4, fRange 12 1 1 80)]) b
    let v (n off cur : Nat) := if validBit b n then rd r.1 off 1 else cur
    let s1 := State.hardenRows { s with lp := { s.lp with
      patrolH := v 0 8 s.lp.patrolH
      rowThr := v 1 9 s.lp.rowThr
      rowWin := v 2 10 s.lp.rowWin
      devThr := v 3 11 s.lp.devThr
      resilverRate := v 4 12 s.lp.resilverRate } }
    let s2 := if validBit b 5 && (rd b 13 1).testBit 0 then s1.restartScrub else s1
    let s3 := if validBit b 5 && (rd b 13 1).testBit 1 then s2.restartFill else s2
    (s3.direct p 0xC720 15 obj r.2, ans (okStatus r.2) obj)

/-- FUSE_BURN (07 R260; 15 R557): an empty soft map burns nothing. -/
def fuseBurn : Body := fun p b s =>
  let obj := rd b 4 4
  let r := applyRules [fRange 8 1 1 16] b
  let s0 := s.direct p 0xC722 15 obj r.2
  if s.fu.soft.isEmpty then (s0, ans (okStatus r.2) obj)
  else if s.fu.burnsLeft = 0 then (s, ans stFuseExhausted obj)
  else
    let n := min (rd r.1 8 1) s.fu.soft.length
    let q := s0.startBg p 0xC722 obj (.fuse n) n (!r.2.isEmpty)
    if q.2.status = stBgStarted then ({ q.1 with fu := { q.1.fu with burnsLeft := q.1.fu.burnsLeft - 1 } }, q.2)
    else (s, q.2)

/-- Burns the oldest soft entry (07 R260). -/
def State.burnOne (s : State) : State :=
  { s with fu := { s.fu with soft := s.fu.soft.drop 1, burned := s.fu.burned ++ s.fu.soft.take 1 } }

/-! ### The commands -/

def execScrubCtl (p : Path) (b : Bytes) (s : State) : Host.Outcome State Fault Refusal :=
  .next (s.command p 0xC720 b scrubCtl)

def execPprCtl (p : Path) (b : Bytes) (s : State) : Host.Outcome State Fault Refusal :=
  .next (s.command p 0xC721 b pprCtl)

def execFuseBurn (p : Path) (b : Bytes) (s : State) : Host.Outcome State Fault Refusal :=
  .next (s.command p 0xC722 b fuseBurn)

def execPatrolLate (channel : Nat) (s : State) : Host.Outcome State Fault Refusal := .next (patrolLate channel s)

def execRowErrorWindowEnd (row : Nat) (s : State) : Host.Outcome State Fault Refusal := .next (rowWindowEnd row s)

def execSoftPpr (row : Nat) (s : State) : Host.Outcome State Fault Refusal := .next (softPpr row s)

def execPageRetirement (channel page : Nat) (s : State) : Host.Outcome State Fault Refusal :=
  .next (pageRetirement channel page s)

def execHardPprDone (channel : Nat) (s : State) : Host.Outcome State Fault Refusal := .next (hardPprDone channel s)

end Sys2Proof.Machine
end

