-- ==== Sys2Proof/Machine/Maint.lean ====
section
/-! DEFINITION. Maintenance by address, way groups, muck-out, filling, and the codec and tier controls (04 R140 to R154; 06 R214 to
R225; 07 R262 to R268; 15 R544, R553, R556, R559; 01 R43). -/

namespace Sys2Proof.Machine
open Sys2Proof

/-! ### NS_MAINT and ZERO_RANGE (04 R140 to R148) -/

/-- Whether the granule that begins at a line is zeroed whole: of a YARD region or T2 page, all in the range, and of no counter set
(04 R146). -/
def State.wholeGranule (s : State) (n : Nat) (r : Region) (dpa stop : Nat) : State × Bool :=
  let off := dpa - r.base
  if r.tier = 0 ∨ off % 512 ≠ 0 ∨ stop < dpa + 512 then (s, false)
  else if (List.range 8).any (fun i => (s.ctrLine (dpa / 64 + i)).isSome) then (s, false)
  else if r.tier = 1 then (s, true)
  else
    let a := s.pageGet n (off / 4096) 15
    (a.1, decide (a.2.state = 0 ∨ a.2.state = 2))

/-- What an operation waits for at a line: a fill in progress ends, and the line's older write-backs are acknowledged (04 R148). -/
def State.lineSettled (s : State) (op l : Nat) : State := (s.settle l (decide (op ≠ 3))).drainVictims l 64

/-- A granule becomes ZERO (04 R146; 06 R207). -/
def State.zeroGranule (s0 : State) (n : Nat) (r : Region) (dpa : Nat) : State :=
  let lines := (List.range 8).map (fun i => dpa / 64 + i)
  let s := lines.foldl (fun s l => ((s.lineSettled 3 l).moveBroken l).nsDiscard l) s0
  let k := (dpa - r.base) / 512
  let g := s.getGran n k 15
  if g.2.kind = 0 then g.1
  else ((g.1.descSet n k 15 (mkDesc 0 0 false 0 0 (min 4095 (g.2.rewrites + 1)) 0)).freeGran n g.2.idx g.2.m g.2.links).checkLow n

/-- One line of an operation: 0 CLEAN, 1 INVALIDATE, 2 CLEAN_INVALIDATE, 3 ZERO-LINE (04 R140; 13 R465). -/
def State.lineOp (s : State) (op l : Nat) : State :=
  match s.ctrLine l with
  | some x => if op = 3 then s.ctrWrite x l 0 fullEn else s
  | none => if op = 3 then s.zeroLine l else s.maintain op l

/-- Whether the near store holds a line DIRTY. -/
def State.nsDirty (s : State) (l : Nat) : Bool :=
  match s.nsFind l with
  | some (_, e) => e.dirty
  | none => false

/-- Whether a granule that is zeroed whole is ZERO already (04 R146; log 40). -/
def State.zeroAlready (s : State) (n : Nat) (r : Region) (dpa : Nat) (whole : Bool) : State × Bool :=
  if whole && r.hdmDb then
    let g := s.getGran n ((dpa - r.base) / 512) 15
    (g.1, decide (g.2.kind = 0))
  else (s, false)

/-- Whether an operation on a line changes what hosts read; in a granule that is ZERO already, only a DIRTY line does (04 R146,
R147; log 40). -/
def State.changes (s : State) (op l : Nat) (zero : Bool) : Bool :=
  if zero then s.nsDirty l else op == 3 || (op == 1 && s.nsDirty l)

/-- The lines of the stripe row that a line of a DIRECT STRIPE region lies in, where a clean of `lo` to `hi` covers the row whole, every line
of it is in the near store and one is DIRTY (04 R139; log 101). -/
def State.wholeRow (s : State) (op : Nat) (r : Region) (dpa lo hi : Nat) : Option (List Nat) :=
  let bytes := 2 ^ (8 + r.grain) * max 1 (unitsPerRow r.protect r.mask)
  let first := r.base + (dpa - r.base) / bytes * bytes
  let ls := (List.range (bytes / 64)).map (fun i => first / 64 + i)
  if r.tier = 0 ∧ r.protect = 2 ∧ (op = 0 ∨ op = 2) ∧ lo ≤ first ∧ first + bytes ≤ min hi (r.base + r.size) ∧
      ls.all (fun l => (s.nsFind l).isSome) ∧ ls.any s.nsDirty then some ls
  else none

/-- Cleans a whole stripe row: its lines and its parity are written as one full-row write (03 R121; 04 R139). -/
def State.cleanRow (s : State) (op n : Nat) (r : Region) (ls : List Nat) : State :=
  ls.foldl (fun s l =>
    let s1 := s.drainVictims l 64
    match s1.nsFind l with
    | none => s1
    | some (key, e) =>
      let s2 := (s1.extWrite n 0 (l * 64 - r.base) e.writer e.data e.poison .full).nsSetAt key (if op = 0 then some { e with dirty := false } else none)
      if e.dirty then s2.count (12 + nsQuad l) 4 else s2) s

/-- A range in progress: operation, region, first byte, bytes, lines or entries done, and whether the snoops of the next line were sent. -/
structure RangeAt where
  op      : Nat
  region  : Nat
  start   : Nat
  len     : Nat
  cursor  : Nat
  snooped : Bool
  deriving DecidableEq, Repr

/-- The lines of a range. -/
def RangeAt.lines (x : RangeAt) : Nat := x.len / 64

/-- Whether the quadrants scan their entries in place of looking up each address: above 64 MiB. A ZERO_RANGE also writes lines that no entry
holds, so it goes on by address (04 R140, R145; log 23). -/
def RangeAt.scans (x : RangeAt) : Bool := decide (2 ^ 26 < x.len) && decide (x.op ≠ 3)

/-- Where a range ends: its lines, or every entry of a quadrant, in the four quadrants at once. -/
def RangeAt.last (x : RangeAt) : Nat := if x.scans then 2 ^ 20 else x.lines

/-- The operation on a line or a whole granule at `dpa`; false where it waits for snoops (01 R43; 04 R139, R146, R147). `count`: what the cursor
passes. -/
def State.rangeLine (s0 : State) (x : RangeAt) (r : Region) (dpa : Nat) : State × RangeAt × Bool :=
  let s := (if x.op = 3 ∧ r.tier ≠ 0 ∧ (dpa - r.base) % 512 = 0 then (List.range 8).map (fun i => dpa / 64 + i) else [dpa / 64]).foldl
    (fun s l => s.lineSettled x.op l) s0
  let w := if x.op = 3 then s.wholeGranule x.region r dpa (x.start + x.len) else (s, false)
  let z := w.1.zeroAlready x.region r dpa w.2
  let g : State × Bool := (z.1, w.2)
  let lines := if g.2 then (List.range 8).map (fun i => dpa / 64 + i) else [dpa / 64]
  let todo := if r.hdmDb then (lines.filter (fun l => g.1.changes x.op l z.2)).map (fun l => (l, g.1.snoopTargets (l * 64))) else []
  let sends := (todo.map (fun t => t.2)).flatten
  if !x.snooped && !sends.isEmpty then
    if g.1.snoopRoom sends then
      (todo.foldl (fun s t => s.sendSnoops t.2 t.1) g.1, { x with snooped := true }, false)
    else (g.1, x, false)
  else if x.snooped && lines.any (fun l => g.1.snoopWaits l) then (g.1, x, false)
  else
    let row := g.1.wholeRow x.op r dpa (if x.scans then x.start else dpa) (x.start + x.len)
    match row with
    | some ls => (g.1.cleanRow x.op x.region r ls, { x with cursor := x.cursor + (if x.scans then 1 else ls.length), snooped := false }, true)
    | none =>
      let s1 := if g.2 then g.1.zeroGranule x.region r dpa else g.1.lineOp x.op (dpa / 64)
      (s1, { x with cursor := x.cursor + lines.length, snooped := false }, true)

/-- The place of a near-store entry in a quadrant's scan, whose four quadrants go on in turn (log 23). -/
def scanPlace (key : Nat) : Nat := key % 262144 * 4 + key / 262144

/-- The entries that a scan from `cursor` to `stop` meets in a range, with their lines. -/
def State.scanned (s : State) (x : RangeAt) (stop : Nat) : List (Nat × Nat) :=
  ((oall s.ns.lines).map (fun e => (scanPlace e.1, nsLine (e.1 / 262144) (e.1 / 16 % 16384) e.2.tag))).filter (fun e =>
    decide (x.cursor ≤ e.1) && decide (e.1 < stop) && s.wayLive (e.1 / 4 % 16) && decide (x.start ≤ e.2 * 64) && decide (e.2 * 64 < x.start + x.len))

/-- A scan begins: fills in progress in the range end, and its write-backs under way are acknowledged (04 R148). -/
def State.scanBegin (s : State) (x : RangeAt) : State :=
  let inside (l : Nat) : Bool := decide (x.start ≤ l * 64) && decide (l * 64 < x.start + x.len)
  if x.cursor = 0 ∧ !x.snooped then
    (((s.rr.fetches.map (fun f => f.line)) ++ (s.ns.victims.map (fun v => v.line))).filter inside).foldl (fun s l => s.lineSettled x.op l) s
  else s

/-- The operation on the next line, granule or entry before `stop`; false where it waits for snoops (04 R144, R145). What is left of a range
whose region is gone is skipped (04 R148). -/
def State.rangeNext (s : State) (x : RangeAt) (stop : Nat) : State × RangeAt × Bool :=
  match s.region x.region with
  | none => (s, { x with cursor := x.last }, true)
  | some r =>
    if x.scans then
      let s1 := s.scanBegin x
      match minBy (fun e => e.1) (s1.scanned x stop) with
      | none => (s1, { x with cursor := stop }, true)
      | some e => s1.rangeLine { x with cursor := e.1 } r (e.2 * 64)
    else
      let dpa := x.start + 64 * x.cursor
      if dpa < r.base ∨ r.base + r.size ≤ dpa then (s, { x with cursor := x.lines }, true) else s.rangeLine x r dpa

/-- Works on a range until `stop` lines or entries are done or it waits. -/
def State.rangeTo (s : State) (x : RangeAt) (stop : Nat) : Nat → State × RangeAt
  | 0 => (s, x)
  | fuel + 1 =>
    if stop ≤ x.cursor then (s, x)
    else
      let a := s.rangeNext x stop
      if a.2.2 then a.1.rangeTo a.2.1 stop fuel else (a.1, a.2.1)

/-- The work of a range. -/
def RangeAt.work (x : RangeAt) : BgWork := .range x.op x.region x.start x.len x.cursor x.snooped

/-- The range of a work. -/
def rangeOf (w : BgWork) : Option RangeAt :=
  match w with
  | .range op region start len cursor snooped => some ⟨op, region, start, len, cursor, snooped⟩
  | _ => none

/-- The units of a range: its lines, or the near store's entries above 64 MiB (04 R145; 14 R684; log 23). -/
def RangeAt.units (x : RangeAt) : Nat := if x.len ≤ 2 ^ 26 then x.lines else 2 ^ 20

/-- The units done (log 23). -/
def RangeAt.doneUnits (x : RangeAt) : Nat := if x.len ≤ 2 ^ 26 ∨ x.scans then x.cursor else x.cursor * 2 ^ 20 / max 1 x.lines

/-- The lines or entries that end a unit (log 23). -/
def RangeAt.stopOf (x : RangeAt) (unit : Nat) : Nat :=
  if x.len ≤ 2 ^ 26 ∨ x.scans then min x.last unit else min x.lines ((unit * x.lines + 2 ^ 20 - 1) / 2 ^ 20)

/-- A length of a range: the nearest multiple of 64 B from 64 B to 1 GiB, the lower at halfway (14 R512; 15 R556). -/
def fixRange (v : Nat) : Nat := clampN 64 (2 ^ 30) ((v + 31) / 64 * 64)

/-- A class S command that waited answers (15 R557; 04 R145; log 81). -/
def State.endS (s : State) (x : SOp) (st : Nat) : State :=
  match cmdInfo x.op with
  | none => s
  | some i =>
    let s1 : State := { s with mb := { s.mb with sActive := s.mb.sActive.erase x } }
    let r := ans (if st = stSuccess ∧ x.clamped then stClamped else st) x.obj
    let late := ans stTooLate
    let s2 : State := { s1 with mb := { s1.mb with abortWaits := s1.mb.abortWaits.filter (fun w => decide (w.target ≠ x.path)) } }
    (s.mb.abortWaits.filter (fun w => decide (w.target = x.path))).foldl (fun s w =>
      (match cmdInfo 0xC011 with
        | some j => s.countAnswer j (late w.obj)
        | none => s).complete w.path (late w.obj) true) ((s2.countAnswer i r).complete x.path r true)

/-- NS_MAINT and ZERO_RANGE (04 R142 to R147; 15 R556): up to 1 MiB in class S, more as a background operation (log 39). -/
def rangeCmd (opcode : Nat) : Body := fun p b s =>
  let obj := rd b 4 4
  let op := if opcode = 0xC700 then 3 else rd b 24 1
  let start := rd b 8 8 / 64 * 64
  match s.regionAt start with
  | none => (s, ans stObjectAbsent obj)
  | some (n, r) =>
    let rules : List FieldRule := [⟨8, 8, roundDown 64⟩, ⟨16, 8, fun v => min (fixRange v) (r.base + r.size - start)⟩] ++
      (if opcode = 0xC700 then [] else [fEnum 24 1 2 0])
    let c := applyRules rules b
    let op := if opcode = 0xC700 then 3 else if op ≤ 2 then op else 0
    if (op = 1 ∨ op = 3) ∧ !ownerHas r.owner (who p) then (s, ans stNotPermitted obj)
    else
      let x : RangeAt := ⟨op, n, start, rd c.1 16 8, 0, false⟩
      let s0 := s.direct p opcode 18 obj c.2
      if x.len ≤ 2 ^ 20 then
        if 4 ≤ s.mb.sActive.length then (s, ans stBusy obj)
        else
          let a := s0.rangeTo x x.last (x.lines + 1)
          if x.last ≤ a.2.cursor then (a.1, ans (okStatus c.2) obj)
          else ({ a.1 with mb := { a.1.mb with
            sActive := a.1.mb.sActive ++ [SOp.mk p opcode obj a.2.work (!c.2.isEmpty)] } }, owedLater)
      else
        let q := s0.startBg p opcode obj x.work x.units (!c.2.isEmpty)
        if q.2.status = stBgStarted then q else (s, q.2)

/-- Class S ranges that waited for snoops go on (01 R43; log 81). -/
def State.resumeRanges (s : State) : State :=
  s.mb.sActive.foldl (fun s x =>
    match rangeOf x.work with
    | none => s
    | some w =>
      let a := s.rangeTo w w.last (w.lines + 1)
      let y : SOp := { x with work := a.2.work }
      let s1 : State := { a.1 with mb := { a.1.mb with sActive := a.1.mb.sActive.map (fun z => if z = x then y else z) } }
      if w.last ≤ a.2.cursor then s1.endS y stSuccess else s1) s

/-- BACK_INVALIDATE_RESPONSE: the snoop is answered, and what waited for it goes on (01 R42, R43). -/
def backInvalidateResponse (f line : Nat) (s : State) : State :=
  let p := s.portAt (portOf f)
  if (f, line) ∈ p.snoops then
    (((s.modPort (portOf f) (fun p => { p with snoops := p.snoops.erase (f, line) })).ceResume).ctrResume.resumeRanges)
  else s

/-- Every snoop outstanding to a function counts as answered (02 R95, R683). -/
def State.snoopsGone (s : State) (f : Nat) : State :=
  ((s.modPort (portOf f) (fun p => { p with snoops := p.snoops.filter (fun x => x.1 != f) })).ceResume).ctrResume.resumeRanges

/-! ### Way groups (04 R149 to R154) -/

/-- The groups of a mask. -/
def groupsOf (m : BitVec 4) : List Nat := (List.range 4).filter (fun g => m.getLsbD g)

/-- Sets the state of way groups. -/
def State.setWays (s : State) (gs : List Nat) (w : WayState) : State :=
  { s with ns := { s.ns with ways := gs.foldl (fun l g => lset l g w) s.ns.ways } }

/-- NS_WAYS (04 R150, R151; 15 R553). -/
def nsWays : Body := fun p b s =>
  let obj := rd b 4 4
  if obj ≠ 0 then (s, ans stObjectAbsent obj)
  else if (s.bgOf (fun w => match w with
      | .ways _ _ => true
      | _ => false)).isSome then (s, ans stBusy obj)
  else
    let c := applyRules [⟨8, 1, fun v => v ||| 1⟩] b
    let m := BitVec.ofNat 4 (rd c.1 8 1)
    let off := s.ns.enabled &&& ~~~m
    let on := m &&& ~~~s.ns.enabled
    let q := (s.direct p 0xC510 19 obj c.2).startBg p 0xC510 obj (.ways off on)
      (262144 * (groupsOf off).length + 128 * (groupsOf on).length) (!c.2.isEmpty)
    if q.2.status = stBgStarted then ((q.1.setWays (groupsOf off) .draining).setWays (groupsOf on) .waking, q.2) else (s, q.2)

/-- The walk of one entry of a draining group: a DIRTY line is written back after the older write-backs of the line, and the entry is invalid (04
R133, R151). -/
def State.drainEntry (s : State) (g i : Nat) : State :=
  let set := i / 4 % 16384
  let q := i / 65536
  let key := nsKey q set (4 * g + i % 4)
  match oget s.ns.lines key with
  | none => s
  | some e =>
    let l := nsLine q set e.tag
    let s1 := s.nsSetAt key none
    if e.dirty then (s1.drainVictims l 64).nsBack l e else s1

/-- Drains what the walk has left of a group, and gates it (04 R151). -/
def State.gateGroup (s : State) (g : Nat) : State :=
  let live := (oall s.ns.lines).filter (fun e => e.1 % 16 / 4 == g)
  let s1 := live.foldl (fun s e => s.drainEntry g (e.1 / 262144 * 65536 + e.1 / 16 % 16384 * 4 + e.1 % 4)) s
  let s2 := s1.setWays [g] .off
  { s2 with ns := { s2.ns with enabled := s2.ns.enabled &&& ~~~(1#4 <<< g) } }

/-- A group is back, empty; the soft fuse-map repairs of its 128 banks are applied (04 R152; 07 R259; 17 R605; log 98). -/
def State.wakeGroup (s : State) (g : Nat) : State :=
  let s1 := (s.setWays [g] .on).applySoft (128 * g) (128 * g + 128)
  { s1 with ns := { s1.ns with
    enabled := s1.ns.enabled ||| (1#4 <<< g)
    lines := s1.ns.lines.filter (fun e => e.1 % 16 / 4 != g) } }

/-- The groups in a state. -/
def State.groupsIn (s : State) (w : WayState) : List Nat := (List.range 4).filter (fun g => decide (s.ns.ways.getD g .on = w))

/-- NS_WAYS ends once no group drains or wakes. -/
def State.waysEnd (s : State) : State :=
  if !(s.groupsIn .draining).isEmpty || !(s.groupsIn .waking).isEmpty then s
  else match s.bgOf (fun w => match w with
    | .ways _ _ => true
    | _ => false) with
  | some o => (s.modOp o.handle (fun o => { o with done := o.total })).endOp o.handle stSuccess
  | none => s

/-- NS_WAYS_DRAIN_DONE: every write-back of the walk of the next draining group is acknowledged, and the group is gated (04
R151). -/
def nsWaysDrainDone (s : State) : State :=
  match s.groupsIn .draining with
  | [] => s
  | g :: _ => (s.gateGroup g).waysEnd

/-- NS_WAYS_ENABLE_DONE: the banks are re-initialised (04 R152). -/
def nsWaysEnableDone (s : State) : State :=
  match s.groupsIn .waking with
  | [] => s
  | gs => (gs.foldl (fun s g => s.wakeGroup g) s).waysEnd

/-- An abort of NS_WAYS: every group not yet gated is enabled again; TOO_LATE when all named groups are gated (04 R153). A group that is WAKING
goes back to OFF, and NS_WAYS ends ABORTED (DESIGN CHOICE: the rule speaks of gating alone; log 101). -/
def State.waysAbort (s : State) (off : BitVec 4) : State × Bool :=
  let pend := s.groupsIn .draining
  let wait := s.groupsIn .waking
  if off ≠ 0 ∧ pend.isEmpty ∧ wait.isEmpty then (s, false)
  else ((s.setWays pend .on).setWays wait .off, true)

/-! ### The muck-out pass (06 R214, R216 to R218) -/

/-- Whether MUCK walks a region. -/
def State.mucks (s : State) (n : Nat) : Bool := ((s.region n).map (fun r => decide (r.tier ≠ 0))).getD false

/-- The next region MUCK walks: one whose yard is low first, then in ascending order, starting again at the end (06 R214, R216). A region whose yard
falls low while another is walked comes next, not at once (DESIGN CHOICE, log 100). -/
def State.muckPick (s : State) : State :=
  match s.cd.muckFirst.filter s.mucks with
  | n :: _ => { s with cd := { s.cd with muckRegion := n, muckPos := 0, muckFirst := s.cd.muckFirst.filter (· != n) } }
  | [] =>
    match ((List.range 64).filter (fun n => s.mucks n && decide (s.cd.muckNext ≤ n))).head? with
    | some n => { s with cd := { s.cd with muckRegion := n, muckPos := 0, muckNext := n + 1 } }
    | none =>
      match ((List.range 64).filter s.mucks).head? with
      | some n => { s with cd := { s.cd with
          muckRegion := n, muckPos := 0, muckNext := n + 1, muckPasses := satAdd (2 ^ 32 - 1) s.cd.muckPasses 1 } }
      | none => s

/-- Sets REWRITES of a stored granule to 0 (06 R216). -/
def State.muckReset (s : State) (n k : Nat) (g : Gran) : State :=
  if g.rewrites = 0 then s
  else
    let s1 := s.descSet n k 14 (g.desc - g.rewrites * 2 ^ 37)
    s1.modRegion n (fun r =>
      let o := r.ownsAt k
      r.setOwns k (if o.m = 0 then none else some { o with churn := false }))

/-- Repacks a chained granule into a run of its own, where one is free, and counts it otherwise (06 R216, R212 step 4). -/
def State.muckChain (s : State) (n k : Nat) (g : Gran) (r : Region) : State :=
  let out := if g.poison ≠ 0 then 512 else match encodeGranule (r.effort == 1) g.data with
    | some (_, b) => b.length
    | none => 512
  if (r.freshRun (max 1 ((out + 63) / 64))).isSome then
    let q := s.storeGran n k 14 { g with m := 0, idx := 0, links := [] } g.data g.poison 0 false none
    ((q.1.freeGran n g.idx g.m g.links).checkLow n).count 17 5
  else { s.muckReset n k g with cd := { (s.muckReset n k g).cd with muckLeft := satAdd (2 ^ 32 - 1) (s.muckReset n k g).cd.muckLeft 1 } }

/-- MUCK's action on granule `k` of region `n` (06 R216). -/
def State.muckGran (s : State) (n k : Nat) : State :=
  let a := s.getGran n k 14
  match a.1.region n with
  | none => a.1
  | some r =>
    let g := a.2
    if !g.links.isEmpty then a.1.muckChain n k g r
    else if g.kind = 2 ∧ g.poison = 0 then
      let small := match encodeGranule (r.effort == 1) g.data with
        | some (_, b) => decide (b.length ≤ 448)
        | none => false
      if small || g.data.all (· == 0) then (a.1.storeGran n k 14 g g.data 0 0 false none).1.count 17 5
      else a.1.muckReset n k g
    else if g.kind = 0 ∨ g.kind = 3 then
      if g.rewrites = 0 then a.1 else a.1.descSet n k 14 (mkDesc g.kind 0 false 0 0 0 0)
    else a.1.muckReset n k g

/-- The granules of the region that MUCK walks. -/
def State.muckEnd (s : State) : Nat := ((s.region s.cd.muckRegion).map (fun r => r.size / 512)).getD 0

/-- MUCK_VISIT (06 R216; 07 R261, R262). The granules of a page that is moving up are left to MIG (DESIGN CHOICE, log 100). -/
def muckVisit (halt : Bool) (s : State) : State :=
  if s.bgPaused || s.cd.muckHalted || decide (0 ∈ s.cd.isolated) then s
  else if halt then { s with cd := { s.cd with muckHalted := true } }.report cdMuckHalted 0 (some 14)
  else
    let s1 := if s.mucks s.cd.muckRegion && decide (s.cd.muckPos < s.muckEnd) then s else s.muckPick
    if !s1.mucks s1.cd.muckRegion then s1
    else
      let n := s1.cd.muckRegion
      let k := s1.cd.muckPos
      let tier := ((s1.region n).map (fun r => r.tier)).getD 0
      let pg := if tier = 2 then s1.pageGet n (k / 8) 14 else (s1, ⟨0, 0, 0⟩)
      let s2 := if pg.2.state = 0 then pg.1.muckGran n k else pg.1
      if k + 1 < s2.muckEnd then { s2 with cd := { s2.cd with muckPos := k + 1 } } else s2.muckPick

/-! ### FILL (07 R262, R264 to R268) -/

/-- The first block of an extent that is neither filled nor touched, from `b` on. -/
def Extent.nextBlock (x : Extent) : Nat → Nat → Nat
  | 0, b => b
  | fuel + 1, b => if b ∈ x.touched then x.nextBlock fuel (b + 1) else b

/-- Where FILL stands in an extent: the next block it writes, none where the extent is filled; past the last block where all that is left has
been filled on touch. -/
def Extent.toFill (x : Extent) : Option Nat :=
  if x.filled < x.blocks then Option.some (min x.blocks (x.nextBlock (x.touched.length + 1) x.filled)) else Option.none

/-- The extent once FILL has written a block; touched blocks that the buoy passes are forgotten (07 R264, R266; log 42). -/
def Extent.fill (x : Extent) (b : Nat) : Extent :=
  let n := min x.blocks (x.nextBlock (x.touched.length + 1) (b + 1))
  { x with filled := n, touched := x.touched.filter (fun t => decide (n ≤ t)) }

/-- The writes of a fill block of an extent, as requester FILL in the class of a row: full stripe rows and mirror pairs (07 R264; 10 R348). -/
def State.fillQueue (s : State) (protect grain mask row : Nat) (x : Extent) (b : Nat) : State :=
  if x.blocks ≤ b then s
  else (List.range (min 16384 ((x.size - b * 2 ^ 20 + 63) / 64))).foldl (fun s i =>
    s.queueWrite (locate protect grain mask x.bases (b * 2 ^ 20 + i * 64)) 13 row .full) s

/-- The first reserved structure that is not filled, with its place among them. -/
def State.reservedFill (s : State) : Option (Nat × Nat × Nat × Nat × Extent × Nat) :=
  (List.range s.reserved.length).findSome? (fun i =>
    (s.reserved[i]?).bind (fun e => (e.2.2.2.toFill).map (fun b => (i, e.1, e.2.1, e.2.2.1, e.2.2.2, b))))

/-- Puts a reserved structure's extent back in its place. -/
def State.setReserved (s : State) (i : Nat) (x : Extent) : State :=
  if i = 0 then { s with rg := { s.rg with qstate := x } }
  else if i ≤ s.rg.links.length then { s with rg := { s.rg with links := lmod s.rg.links (i - 1) (fun e => (e.1, x)) } }
  else { s with rg := { s.rg with spare := x } }

/-- FILL of a step of unallocated media on every channel (07 R264; log 42). -/
def State.fillFree (s : State) : State :=
  let lo := s.rg.freeFill
  let free (c cla : Nat) : Bool := decide (cla < s.chanLines c) && (s.holder c cla).isNone
  let s1 := (List.range 12).foldl (fun s0 c => (List.range 16384).foldl (fun s0 i =>
    if free c (lo + i) then s0.enterQueue c (lo + i) true 13 64 0 else s0) s0) s
  { s1 with
    rg := { s1.rg with freeFill := lo + 16384 }
    mc := { s1.mc with upsets := s1.mc.upsets.filter (fun u => !(decide (lo ≤ u.2.1) && decide (u.2.1 < lo + 16384) && free u.1 u.2.1)) } }

/-- FILL_BLOCK: the next block in the order of 07 R264; `halt`: an uncorrectable SRAM error halts the context (07 R261, R262; log 42). -/
def fillBlock (halt : Bool) (s : State) : State :=
  if s.bgPaused || s.lp.fillHalted || s.lp.paused || !s.mediaReady then s
  else if halt then { s with lp := { s.lp with fillHalted := true } }.report lpFillHalted 0 (some 13)
  else match s.reservedFill with
    | some (i, p, g, m, x, b) => ((s.fillQueue p g m 64 x b).setReserved i (x.fill b)).fillUpsets p g m x b
    | none =>
      match (oall s.rg.regions).findSome? (fun e => e.2.extents.findSome? (fun x => (x.2.toFill).map (fun b => (e.1, e.2, x.1, b)))) with
      | some (n, r, kind, b) =>
        let x := r.ext kind
        let s1 := (s.fillQueue r.protect r.grain r.mask n x b).modRegion n (fun r => r.setExt kind (x.fill b))
        if x.blocks ≤ b then s1
        else ((s1.modRegion n (fun r => r.fillBlock kind b)).fillUpsets r.protect r.grain r.mask x b).writeFree n
      | none => if s.rg.freeFill < s.topCla then s.fillFree else s

/-! ### TIER_CTL, CD_CTL and the codec's queries (06 R225; 15 R535, R544, R559) -/

/-- NOT_COMPRESSED and GRANULE_POISONED (06 R225). -/
def stNotCompressed : Nat := 0x0600
def stGranulePoisoned : Nat := 0x0601

/-- TIER_CTL (15 R544). -/
def tierCtl : Body := fun p b s =>
  let obj := rd b 4 4
  if obj ≠ 0 then (s, ans stObjectAbsent obj)
  else
    let c := applyRules (validRules b [(0, fRange 8 1 1 40), (1, fRange 9 1 1 40), (2, fEnum 10 1 1 0)]) b
    let s1 : State := { s with tr := { s.tr with
      migRate := if validBit b 0 then rd c.1 8 1 else s.tr.migRate
      sweepRate := if validBit b 1 then rd c.1 9 1 else s.tr.sweepRate } }
    let s2 := if validBit b 2 && decide (rd c.1 10 1 = 1) then s1.restartMig else s1
    (s2.direct p 0xC111 15 obj c.2, ans (okStatus c.2) obj)

/-- CD_CTL (06 R210, R214, R217; 07 R262; 15 R544). -/
def cdCtl : Body := fun p b s =>
  let n := rd b 4 4
  let named := validBit b 0 || validBit b 1
  if named && (s.region n).isNone then (s, ans stObjectAbsent n)
  else if named && ((s.region n).map (fun r => decide (r.tier = 0))).getD false then (s, ans stNotCompressed n)
  else
    let c := applyRules (validRules b [(0, fEnum 8 1 1 0), (1, fRange 9 1 1 25), (2, fRange 10 1 1 40), (3, fEnum 11 1 1 0)]) b
    let s1 := if named then s.modRegion n (fun r => { r with
      effort := if validBit b 0 then rd c.1 8 1 else r.effort
      lowPct := if validBit b 1 then rd c.1 9 1 else r.lowPct }) else s
    let s2 := if validBit b 1 then s1.checkLow n else s1
    let s3 : State := { s2 with cd := { s2.cd with
      muckRate := if validBit b 2 then rd c.1 10 1 else s2.cd.muckRate
      muckHalted := s2.cd.muckHalted && !(validBit b 3 && decide (rd c.1 11 1 = 1)) } }
    (s3.direct p 0xC130 15 n c.2, ans (okStatus c.2) n)

/-- A region's record: its codec controls, the free stalls of each list, free links, chained and churning granules; zeros for a
DIRECT region (06 R225; 15 R535; log 17). -/
def State.yardRecord (s : State) (n : Nat) : Bytes :=
  match s.region n with
  | none => List.replicate 96 0
  | some r =>
    if r.tier = 0 then List.replicate 96 0
    else
      le 1 r.effort ++ le 1 r.lowPct ++ le 1 s.cd.muckRate ++ le 5 0 ++
        ((List.range 8).map (fun i => le 8 ((r.freeRuns.getD i []).length * (i + 1)))).flatten ++ le 8 r.freeLinks.length ++
        le 8 ((oall r.owns).filter (fun x => !x.2.links.isEmpty)).length ++ le 8 ((oall r.owns).filter (fun x => x.2.churn)).length

/-- CD_YARD_QUERY (log 39). -/
def cdYardQuery : Body := fun p b s => query p 0xC131 b s 64 96 s.yardRecord

/-- CD_GRANULE_READ (06 R225; 15 R558, R559): a T1 page holds no granules (log 41). -/
def cdGranuleRead : Body := fun p b s =>
  let obj := rd b 4 4
  if obj ≠ 0 then (s, ans stObjectAbsent obj)
  else
    let c := applyRules [⟨8, 8, roundDown 512⟩] b
    let dpa := rd c.1 8 8
    match s.regionAt dpa with
    | none => (s, ans stObjectAbsent obj)
    | some (n, r) =>
      let k := (dpa - r.base) / 512
      let pg := if r.tier = 2 then s.pageGet n (k / 8) 15 else (s, ⟨0, 0, 0⟩)
      if r.tier = 0 ∨ pg.2.state = 1 ∨ pg.2.state = 3 then (s, ans stNotCompressed obj)
      else
        let d := pg.1.descGet n k 15
        match d.2 with
        | none => ((d.1.lostDescs n k 15).direct p 0xC810 21 obj c.2, ans stGranulePoisoned obj (le 8 (3 * 2 ^ 62)))
        | some v =>
          if field v 62 2 = 3 then (d.1.direct p 0xC810 21 obj c.2, ans stGranulePoisoned obj (le 8 v))
          else
            let g := d.1.readGranAt n k 15 0 r v
            (g.1.direct p 0xC810 21 obj c.2,
              ans (okStatus c.2) obj (le 8 v ++ (g.2.ptrs.map (fun x => le 8 x)).flatten ++ g.2.stored))

/-! ### The commands -/

def execZeroRange (p : Path) (b : Bytes) (s : State) : Host.Outcome State Fault Refusal :=
  .next (s.command p 0xC700 b (rangeCmd 0xC700))

def execNsMaint (p : Path) (b : Bytes) (s : State) : Host.Outcome State Fault Refusal :=
  .next (s.command p 0xC701 b (rangeCmd 0xC701))

def execNsWays (p : Path) (b : Bytes) (s : State) : Host.Outcome State Fault Refusal := .next (s.command p 0xC510 b nsWays)

def execTierCtl (p : Path) (b : Bytes) (s : State) : Host.Outcome State Fault Refusal := .next (s.command p 0xC111 b tierCtl)

def execCdCtl (p : Path) (b : Bytes) (s : State) : Host.Outcome State Fault Refusal := .next (s.command p 0xC130 b cdCtl)

def execCdYardQuery (p : Path) (b : Bytes) (s : State) : Host.Outcome State Fault Refusal :=
  .next (s.command p 0xC131 b cdYardQuery)

def execCdGranuleRead (p : Path) (b : Bytes) (s : State) : Host.Outcome State Fault Refusal :=
  .next (s.command p 0xC810 b cdGranuleRead)

def execBackInvalidateResponse (fn line : Nat) (s : State) : Host.Outcome State Fault Refusal :=
  .next (backInvalidateResponse fn line s)

def execNsWaysDrainDone (s : State) : Host.Outcome State Fault Refusal := .next (nsWaysDrainDone s)

def execNsWaysEnableDone (s : State) : Host.Outcome State Fault Refusal := .next (nsWaysEnableDone s)

end Sys2Proof.Machine
end

