-- ==== Sys2Proof/Machine/Channel.lean ====
section
/-! DEFINITION. The channel controllers: scheduling, refresh and row-hammer mitigation, alerts, retraining, fencing and speed
changes (09 R309 to R347; 10 R362, R363; 15 R556, R557). -/

namespace Sys2Proof.Machine
open Sys2Proof

/-- Status codes of 09 R347. -/
def stRetrainFailed : Nat := 0x0902
def stChannelBusy : Nat := 0x0903

/-- Subchannel `u` of channel `c`. -/
def State.subAt (s : State) (c u : Nat) : SubCh := (s.chan c).subs.getD u SubCh.reset

/-- The state of a channel. -/
def State.chanIs (s : State) (c : Nat) (x : McState) : Bool := decide ((s.chan c).state = x)

/-- Sets the state of a channel. -/
def State.setChan (s : State) (c : Nat) (x : McState) : State := s.modChan c (fun m => { m with state := x })

/-! ### Refresh and row hammer (09 R323 to R327) -/

/-- tREFI in ns (09 R323). -/
def tRefi (m : Mc) : Nat := if m.hot then 1950 else 3900

/-- Rank numbers of a population: slot × 4 + logical rank (09 R313). -/
def popRankList (p : PopCfg) : List Nat := ((List.range p.dimms).map (fun d => (List.range (popRanks p)).map (fun r => d * 4 + r))).flatten

/-- The bank indices of a channel, as rank × 4 + bank index. -/
def State.refKeys (s : State) (c : Nat) : List Nat :=
  match (s.chan c).pop with
  | some p => ((popRankList p).map (fun r => [r * 4, r * 4 + 1, r * 4 + 2, r * 4 + 3])).flatten
  | none => []

/-- Whether a channel is refreshed by its controller: in service, or retraining (09 R335). In a step of a speed change its ranks are in
self-refresh (R341). -/
def State.refreshes (s : State) (c : Nat) : Bool := s.chanIs c .service || s.chanIs c .retraining

/-- Refresh intervals that have passed since `owed` was counted. -/
def State.refPassed (s : State) (c u : Nat) : Nat := if s.refreshes c then (s.now - (s.subAt c u).refAt) / tRefi (s.chan c) else 0

/-- Refreshes owed to a bank index now, at most 5 (09 R324). -/
def State.owedNow (s : State) (c u key : Nat) : Int := min 5 (sget 0 (s.subAt c u).owed key + (s.refPassed c u : Int))

/-- Brings the owed counts of a subchannel up to now. -/
def State.settleRef (s : State) (c u : Nat) : State :=
  let k := s.refPassed c u
  let owed := (s.refKeys c).foldl (fun m key => sset 0 m key (s.owedNow c u key)) (s.subAt c u).owed
  s.modSub c u (fun x => { x with owed := owed, refAt := x.refAt + k * tRefi (s.chan c) })

/-- The bank of a queued access, as rank × 32 + bank group × 4 + bank. -/
def State.bankOf (s : State) (c : Nat) (q : ChanReq) : Nat :=
  let p := s.placeOf c (s.remap c q.cla)
  p.rank * 32 + p.bg * 4 + p.bank

/-- The bank index of a bank, as rank × 4 + bank index. -/
def indexOf (bank : Nat) : Nat := bank / 32 * 4 + bank % 4

/-- Whether a bank takes no activation: a fifth refresh is owed, or its RAA counter is at the maximum (09 R324, R327). -/
def State.bankBlocked (s : State) (c u bank : Nat) : Bool :=
  decide (s.owedNow c u (indexOf bank) = 5) || decide (Config.raaMaximum c ≤ sget 0 (s.subAt c u).raa bank)

/-- The commands that still occupy the retry buffer: 60 ns each (09 R328). -/
def SubCh.live (x : SubCh) (now : Nat) : List (Nat × Nat) := x.retry.filter (fun e => decide (now < e.2 + 60))

/-- Whether `n` more commands find no entry in the retry buffer: then none is issued (09 R328). -/
def State.retryFull (s : State) (c u n : Nat) : Bool := decide (64 < ((s.subAt c u).live s.now).length + n)

/-- A refresh of a bank index is issued: one owed less, and DDR5 lowers the RAA counters of its banks (09 R323, R327). -/
def State.refreshed (s : State) (c u rank bank : Nat) : State :=
  let key := rank * 4 + bank
  let s1 := s.settleRef c u
  (s1.modSub c u (fun x => { x with
    owed := smod 0 x.owed key (· - 1)
    raa := (List.range 8).foldl (fun m g => smod 0 m (rank * 32 + g * 4 + bank) (Config.raaLowered c)) x.raa
    sinceAlert := x.sinceAlert + 1
    retry := x.live s.now ++ [(0, s.now)] })).count (26 + c) 6

/-- The requests in the queues that a scheduler considers: in write drain the writes and the promoted reads (09 R317, R319, R321; log 37). -/
def SubCh.considered (x : SubCh) : List ChanReq := (if x.drain then x.writeQ ++ x.readQ.filter (fun q => q.promoted) else x.readQ ++ x.writeQ).filter (fun q => !q.held)

/-- REFRESH_ISSUE: none of the 8 banks has a candidate, and the refresh runs at most 4 intervals ahead (09 R323, R324). -/
def refreshIssue (c u rank bank : Nat) (s : State) : State :=
  if !s.refreshes c || !(rank * 4 + bank) ∈ s.refKeys c || 4 ≤ bank || 2 ≤ u then s
  else
    let busy := s.chanIs c .service && (s.subAt c u).considered.any (fun q => indexOf (s.bankOf c q) == rank * 4 + bank)
    if busy || decide (s.owedNow c u (rank * 4 + bank) ≤ -4) || s.retryFull c u 1 then s else s.refreshed c u rank bank

/-- REFRESH_FORCED: the fifth refresh falls due and is issued ahead of every request (09 R324). -/
def refreshForced (c u rank bank : Nat) (s : State) : State :=
  if !s.refreshes c || !(rank * 4 + bank) ∈ s.refKeys c || 4 ≤ bank || 2 ≤ u then s
  else
    let short := (5 - s.owedNow c u (rank * 4 + bank)).toNat
    let s1 := if short = 0 then s
      else s.advance ((s.subAt c u).refAt + (s.refPassed c u + short) * tRefi (s.chan c))
    if s1.retryFull c u 1 then s
    else
      let s2 := (s1.refreshed c u rank bank).modChan c (fun m => { m with refForced := satAdd (2 ^ 32 - 1) m.refForced 1 })
      s2.reportAgg (mcRefreshForced c) 0 1000000000 (c * 2 ^ 8 + u * 2 ^ 4 + rank)

/-- RFM_ISSUE: a bank at the initial threshold is refreshed by RFMsb (09 R327). -/
def rfmIssue (c u rank group bank : Nat) (s : State) : State :=
  let b := rank * 32 + group * 4 + bank
  if s.refreshes c && decide (u < 2) && decide (Config.raaInitial c ≤ sget 0 (s.subAt c u).raa b) && !s.retryFull c u 1 then
    ((s.modSub c u (fun x => { x with
      raa := smod 0 x.raa b (Config.raaLowered c), sinceAlert := x.sinceAlert + 1, retry := x.live s.now ++ [(0, s.now)] })).modChan c
      (fun m => { m with rfmIssued := satAdd (2 ^ 32 - 1) m.rfmIssued 1 })).count (26 + c) 7
  else s

/-! ### Scheduling (09 R316 to R322, R328; 10 R362, R363) -/

/-- Enters or leaves write drain (09 R321). -/
def SubCh.drainState (x : SubCh) : SubCh :=
  if x.drain then
    if x.writeQ.length ≤ 16 ∧ !(x.drainIdle && x.readQ.isEmpty && !x.writeQ.isEmpty) then { x with drain := false, drainIdle := false } else x
  else if 48 ≤ x.writeQ.length then { x with drain := true, drainIdle := false }
  else if !x.writeQ.isEmpty && x.readQ.isEmpty then { x with drain := true, drainIdle := true }
  else x

/-- Whether an older request to the same line waits (09 R318). -/
def SubCh.behind (x : SubCh) (q : ChanReq) : Bool := (x.readQ ++ x.writeQ).any (fun y => y.cla == q.cla && decide (y.tag < q.tag))

/-- The order of 09 R319 within a slot whose owner class is `own`: promoted, owner, class, stamp, requester, age. -/
def State.rank (s : State) (x : SubCh) (own : Option Nat) (q : ChanReq) : Nat :=
  if q.promoted then q.tag
  else
    let ownClass := if own = some q.cls then 0 else 1
    (((ownClass + 1) * 8 + q.cls) * 2 ^ 200 + s.stampAt x q.cls q.who) * 2 ^ 100 + q.who * 2 ^ 90 + q.tag % 2 ^ 90

/-- The request that a subchannel issues in this slot of those whose ACTIVATE is permitted, with the slot's owner class and the
candidates (09 R319 to R322, R324, R327). -/
def State.pickReq (s : State) (c u : Nat) (ready : List Nat) :
    Option (ChanReq × Option Nat × List ChanReq) :=
  let x := s.subAt c u
  let reserved := ((x.readQ ++ x.writeQ).filter (fun q => q.promoted && !ready.contains q.tag)).map (s.bankOf c)
  let cand := x.considered.filter (fun q =>
    ready.contains q.tag && !x.behind q && !s.bankBlocked c u (s.bankOf c q) && !reserved.contains (s.bankOf c q))
  let owner := slotOwner x.frame x.credit x.since
  (minBy (s.rank x owner) cand).map (fun q => (q, owner, cand))

/-- SUBCHANNEL_ISSUE: one command slot (09 R316 to R322, R328; 10 R362); under the DRAM throttle one ACTIVATE in 4 slots (16 R586)
(log 64, 66). -/
def subchannelIssue (c u : Nat) (ready : List Nat) (s0 : State) : State :=
  if !s0.chanIs c .service || 2 ≤ u || !s0.awake then s0
  else
    let s := ((if (s0.subAt c u).slot = 0 then s0.startFrame c u else s0).letIn c u).modSub c u SubCh.drainState
    let x := s.subAt c u
    let pass (s : State) (owner : Option Nat) : State := s.modSub c u (fun x => { x with
      slot := (x.slot + 1) % 1024, credit := slotPass x.frame x.credit owner, since := slotSince x.frame x.since owner })
    if (!s.pw.dramBy.isEmpty && decide (x.slot % 4 ≠ 0)) || s.retryFull c u 2 then pass s (slotOwner x.frame x.credit x.since)
    else match s.pickReq c u ready with
      | none => pass s (slotOwner x.frame x.credit x.since)
      | some (q, owner, cand) =>
        let s1 := s.modSub c u (fun x => { x with
          readQ := x.readQ.filter (· != q), writeQ := x.writeQ.filter (· != q)
          raa := smod 0 x.raa (s.bankOf c q) (· + 1)
          retry := x.live s.now ++ [(q.tag, s.now), (q.tag, s.now)]
          sinceAlert := x.sinceAlert + 2, lastWr := q.write })
        let s2 := ((s1.served c u q).count (26 + c) 0).count (26 + c) (if q.write then 2 else 1)
        let s3 := if q.write ≠ x.lastWr then s2.count (26 + c) 3 else s2
        let s4 := match owner with
          | some k => if k = q.cls then s3.count 11 0 else if cand.any (fun y => y.cls == k) then s3 else s3.count 11 1
          | none => s3
        let s5 := if !q.promoted && cand.any (fun y => y.cls == q.cls && y.who != q.who && !y.promoted) then s4.count 11 3 else s4
        ((pass s5 owner).letIn c u).modSub c u SubCh.drainState

/-- AGE_PROMOTION: a request has waited longer than the age limit (09 R320). -/
def agePromotion (c u id : Nat) (s : State) : State :=
  let x := s.subAt c u
  match (x.readQ ++ x.writeQ).find? (fun q => q.tag == id && !q.promoted && !q.held) with
  | none => s
  | some q =>
    if 2 ≤ u then s
    else
      let up (l : List ChanReq) : List ChanReq := l.map (fun (y : ChanReq) => if y == q then { y with promoted := true } else y)
      ((s.advance (q.at_ + (s.chan c).ageLimit + 1)).modSub c u (fun x => { x with readQ := up x.readQ, writeQ := up x.writeQ })).count
        (26 + c) 5

/-! ### Alerts (09 R328 to R330) -/

/-- ALERT_N of a subchannel: up to 3 replays of the retry buffer in an episode, then retraining (09 R329, R330, R334). -/
def alertN (c u : Nat) (writeCrc : Bool) (s : State) : State :=
  if !s.chanIs c .service || 2 ≤ u || (writeCrc && !(s.chan c).wcrc) then s
  else
    let x := s.subAt c u
    if 3 ≤ x.alerts then (s.modSub c u (fun x => { x with alerts := 0, sinceAlert := 0, retry := [] })).trigger c
    else
      let s1 := s.modSub c u (fun x => { x with
        alerts := x.alerts + 1, sinceAlert := 0, retry := (x.live s.now).map (fun e => (e.1, s.now)) })
      let s2 := s1.modChan c (fun m => if writeCrc then { m with wcrcRetries := satAdd (2 ^ 32 - 1) m.wcrcRetries 1 }
        else { m with caRetries := satAdd (2 ^ 32 - 1) m.caRetries 1 })
      (s2.reportAgg (if writeCrc then mcWcrcReplayed c else mcCaReplayed c) 0 1000000000 (c * 2 ^ 8 + u)).count (26 + c) 8

/-- ALERT_EPISODE_END: 64 commands have completed without a further alert (09 R329). -/
def alertEpisodeEnd (c u : Nat) (s : State) : State :=
  let x := s.subAt c u
  if x.alerts = 0 ∨ x.sinceAlert < 64 ∨ 2 ≤ u then s else s.modSub c u (fun x => { x with alerts := 0, sinceAlert := 0 })

/-! ### Fencing (09 R336) -/

/-- The clock domain of a channel (17 R620). -/
def chanDomain (c : Nat) : Nat := c + 1

/-- A queued access of a PLAIN extent. -/
def State.plainReq (s : State) (c : Nat) (q : ChanReq) : Bool :=
  match s.holder c q.cla with
  | some h => h.loc.mirror.isNone && h.loc.row.isNone
  | none => false

/-- Steps 1 and 2 of 09 R336: held PLAIN reads complete poisoned, held PLAIN writes are lost. -/
def State.failQueues (s : State) (c : Nat) (qs : List ChanReq) : State :=
  qs.foldl (fun s q =>
    if s.plainReq c q then
      let s1 := s.report lpUncorrectable (s.dramDetail c q.cla) (some q.who)
      match s1.rr.fetches.find? (fun f => f.id == q.id && q.id != 0) with
      | some f => s1.finishFetch f.line 0 true true
      | none => s1
    else s) s

/-- The moves of the PLAIN regions on a channel are aborted: their pages stay in their source states (05 R181). -/
def State.abortPlain (s : State) (c : Nat) : State :=
  (s.tr.moves.filter (fun m => ((s.region m.region).map (fun r => r.protect == 0 && r.mask.testBit c)).getD false)).foldl
    (fun s m => s.abortMove m.region m.page 10) s

/-- Fences a channel with its cause, by 09 R336: its queues fail, its content is lost, its clock is gated, the guarantees are
rescaled, the moves of its PLAIN regions are aborted, and MC_FENCED is raised. Protected reads that waited are served from redundancy (log 65). -/
def State.fence (s : State) (c cause : Nat) : State :=
  let qs := ((s.chan c).subs.map (fun u => u.readQ ++ u.writeQ)).flatten
  let s := if s.reacting (26 + c) then s.closeShadow (26 + c) (mcFenced c) else s.flashShadow (26 + c) (mcFenced c)
  let s1 := s.modChan c (fun m => { m with
    state := .fenced, fenceInfo := cause, subs := [SubCh.reset, SubCh.reset] })
  let s2 := s1.failQueues c qs
  let s3 : State := { s2 with
    dram := s2.dram.filter (fun e => decide (e.1 / 128 / 2 ^ 33 ≠ c))
    mc := { s2.mc with
      trigQ := s2.mc.trigQ.filter (· != c)
      upsets := s2.mc.upsets.filter (fun u => u.1 != c) }
    lp := { s2.lp with
      resilver := lset s2.lp.resilver c Resilver.none
      demandQ := s2.lp.demandQ.filter (fun e => e.1 != c) } }
  let waits := (qs.filter (fun q => q.id != 0)).filterMap (fun q => (s3.rr.fetches.find? (fun f => f.id == q.id)).map (fun f => f.line))
  let s4 := waits.foldl (fun s l => s.settle l true) (s3.abortPlain c)
  ((s4.setDomain (chanDomain c) false).rescale).report (mcFenced c) (c * 2 ^ 8 + cause)

/-! ### Retraining (09 R334 to R337, R344) -/

/-- The class S RETRAIN that waits for a channel. -/
def State.retrainOp (s : State) (c : Nat) : Option SOp :=
  s.mb.sActive.find? (fun x => match x.work with
    | .retrain d => d == c
    | _ => false)

/-- The commanded full training of a fenced channel. -/
def State.fullTraining (s : State) (c : Nat) : Option BgOp :=
  s.bgOf (fun w => match w with
    | .retrain d => d == c
    | _ => false)

/-- Whether hard repair of a channel runs (07 R255). -/
def State.hardPprOn (s : State) (c : Nat) : Bool :=
  (s.bgOf (fun w => match w with
    | .ppr d _ => d == c
    | _ => false)).isSome

/-- Answers the command that waits for a channel's retraining. -/
def State.answerRetrain (s : State) (c st : Nat) : State :=
  match s.retrainOp c with
  | some x => s.endS x st
  | none => s

/-- Whether any channel trains: initial, error-driven or commanded (09 R342). -/
def State.anyTraining (s : State) : Bool :=
  s.mc.training.isSome || (List.range 12).any (fun c => s.chanIs c .training)

/-- The protected reads queued at a channel that begins to hold are served from redundancy (09 R335). -/
def State.shiftReads (s : State) (c : Nat) : State :=
  let qs := (((s.chan c).subs.map (fun u => u.readQ)).flatten).filter (fun q => q.id != 0 && !s.plainReq c q)
  let s1 := s.modChan c (fun m => { m with subs := m.subs.map (fun (u : SubCh) => { u with readQ := u.readQ.filter (fun q => !qs.contains q) }) })
  qs.foldl (fun s q => match s.rr.fetches.find? (fun f => f.id == q.id) with
    | some f => s.settle f.line true
    | none => s) s1

/-- A channel enters its step of a speed change: its ranks are in self-refresh, and it holds its requests (09 R341). -/
def State.speedStep (s : State) (c : Nat) : State :=
  ((s.setChan c .speedChange).modChan c (fun m => { m with subs := m.subs.map (fun (u : SubCh) => { u with owed := [], retry := [] }) })).shiftReads c

/-- MC_SPEED goes on: it starts once no channel trains, then changes the channels in ascending order, skipping those out of service and
waiting for one that is to retrain first (09 R341, R342, R344). -/
def State.speedGo (s : State) : State :=
  match s.mc.speed with
  | none => s
  | some v =>
    if (List.range 12).any (fun c => s.chanIs c .speedChange) || (!v.started && s.anyTraining) then s
    else match ((List.range 12).filter (fun c => decide (v.next ≤ c) && !s.fenced c)).head? with
      | none =>
        let s1 : State := { s with mc := { s.mc with speed := none, rate := v.target } }
        match s1.bgOf (fun w => match w with
          | .speed => true
          | _ => false) with
        | some o => s1.endOp o.handle stSuccess
        | none => s1
      | some c =>
        let s1 : State := { s with mc := { s.mc with speed := some { v with next := c, started := true } } }
        if s.chanIs c .retraining ∨ c ∈ s.mc.trigQ then s1 else s1.speedStep c

/-- RETRAINING_START: the first trigger whose channel may retrain now; one channel at a time (09 R335, R344). -/
def retrainingStart (s : State) : State :=
  if s.mc.training.isSome || !s.awake then s
  else match s.mc.trigQ.find? (fun c => s.chanIs c .service && !s.hardPprOn c) with
    | none => s
    | some c =>
      let cmd := (s.retrainOp c).isSome
      let s1 : State := { s with mc := { s.mc with training := some c, trigQ := s.mc.trigQ.filter (· != c) } }
      ((s1.modChan c (fun m => { m with
        state := .retraining
        retrainsErr := if cmd then m.retrainsErr else satAdd 65535 m.retrainsErr 1
        retrainsCmd := if cmd then satAdd 65535 m.retrainsCmd 1 else m.retrainsCmd })).openShadow (26 + c) none none (mcRetrained c)).shiftReads c

/-- RETRAINING_DONE: the channel serves again, or is fenced with cause 1 (09 R336). -/
def retrainingDone (ok : Bool) (s : State) : State :=
  match s.mc.training with
  | none => s
  | some c =>
    let s1 : State := { s with mc := { s.mc with training := none } }
    let s2 := (s1.modChan c (fun m => { m with subs := m.subs.map (fun (u : SubCh) => { u with alerts := 0, sinceAlert := 0, retry := [] }) })).actionEnds (26 + c)
    (if ok then (((s2.setChan c .service).closeShadow (26 + c) (mcRetrained c)).report (mcRetrained c) c).answerRetrain c stSuccess
      else (s2.fence c 1).answerRetrain c stRetrainFailed).speedGo

/-- The bit of a data rate in the stored settings (09 R346). -/
def rateBit (rate : Nat) : Nat :=
  if rate = 4800 then 0 else if rate = 5600 then 1 else if rate = 6400 then 2 else if rate = 7200 then 3 else if rate = 8000 then 4 else 5

/-- The data rates of a population (09 R311). -/
def popRates (p : PopCfg) : List Nat :=
  if p.mrdimm then [7200, 8000, 8800] else if p.dimms = 2 then [4800, 5600] else [4800, 5600, 6400]

/-- Whether a channel's population keeps the rules of 09 R310. -/
def popLegal (p : PopCfg) : Bool :=
  let row (cap : Nat) (die ds : Bool) : Bool := p.capGib == cap && p.die32 == die && p.threeDs == ds
  let rdimm := row 32 false false || row 64 false false || row 64 true false || row 128 true false || row 128 false true || row 256 true true
  let mrdimm := row 64 false false || row 128 true false || row 256 true true
  (p.dimms == 1 || p.dimms == 2) && (if p.mrdimm then mrdimm && p.dimms == 1 else rdimm)

/-- Whether two channels have the same population. -/
def popSame (p q : PopCfg) : Bool :=
  p.dimms == q.dimms && p.mrdimm == q.mrdimm && p.capGib == q.capGib && p.die32 == q.die32 && p.threeDs == q.threeDs

/-- The reference population: that of the lowest-numbered populated channel (09 R310). -/
def State.refPop (s : State) : Option PopCfg := (List.range 12).findSome? (fun c => (s.chan c).pop)

/-- Whether the population of a channel keeps the rules, and is that of the reference (09 R310). -/
def State.popOk (s : State) (c : Nat) : Bool := match (s.chan c).pop, s.refPop with
  | some p, some q => popLegal p && popSame p q
  | _, _ => false

/-- Ends the full training of a fenced channel (09 R337; 07 R245). A channel that breaks the population rules is not brought into service (R310;
log 65). -/
def State.fullTrained (s : State) (o : BgOp) (c : Nat) (trained : Bool) : State :=
  let ok := trained && s.popOk c
  let s1 := s.modOp o.handle (fun o => if ok then { o with done := o.total } else o)
  if ok then
    let s2 := s1.modChan c (fun m => { m with
      state := .service, rate := s.mc.rate, stored := 1#6 <<< rateBit s.mc.rate
      subs := [{ SubCh.reset with refAt := s.now }, { SubCh.reset with refAt := s.now }] })
    let s3 : State := { s2 with lp := { s2.lp with resilver := lset s2.lp.resilver c ⟨0, true, none⟩ } }
    (((s3.setDomain (chanDomain c) true).rescale).endOp o.handle stSuccess).speedGo
  else ((s1.setChan c .fenced).endOp o.handle stRetrainFailed).speedGo

/-- FENCED_CHANNEL_RETRAIN_DONE (09 R337). -/
def fencedRetrainDone (c : Nat) (ok : Bool) (s : State) : State :=
  match s.fullTraining c with
  | some o => s.fullTrained o c ok
  | none => s

/-- SPEED_CHANGE_STEP_DONE: the channel runs at the new rate, whose settings are stored now (09 R341; 10 R364). -/
def speedStepDone (s : State) : State :=
  match s.mc.speed with
  | none => s
  | some v =>
    if !s.chanIs v.next .speedChange then s
    else
      let s1 := s.modChan v.next (fun m => { m with
        state := .service, rate := v.target, stored := m.stored ||| (1#6 <<< rateBit v.target)
        subs := m.subs.map (fun (u : SubCh) => { u with refAt := s.now }) })
      let s2 : State := { s1 with mc := { s1.mc with speed := some { v with next := v.next + 1 } } }
      let s3 := match s2.bgOf (fun w => match w with
        | .speed => true
        | _ => false) with
        | some o => s2.modOp o.handle (fun o => { o with done := o.done + 1 })
        | none => s2
      (s3.rescale).speedGo

/-- SPEED_CHANGE_WAIT_TIMEOUT: 50 ms from acceptance (09 R342). -/
def speedTimeout (s : State) : State :=
  match s.mc.speed with
  | none => s
  | some v =>
    if v.started then s
    else
      let s1 := s.advance (v.at_ + 50000000)
      let s2 : State := { s1 with mc := { s1.mc with speed := none } }
      match s2.bgOf (fun w => match w with
        | .speed => true
        | _ => false) with
      | some o => s2.endOp o.handle stBusyTraining
      | none => s2

/-! ### Sensors and tracking (09 R325, R333) -/

/-- DQS_TRACKING: a drift of more than 1/4 UI triggers retraining (09 R333, R334; log 66). -/
def dqsTracking (c _rank : Nat) (drift : Bool) (s : State) : State := if drift && s.chanIs c .service then s.trigger c else s

/-- ZQ_CALIBRATION holds a rank for at most 1 µs and changes nothing (09 R333; log 66). -/
def zqCalibration (_c _rank : Nat) (s : State) : State := s

/-- The sensors that did not answer, as a bit set. -/
def silent (temps : List (Option Int)) : Nat := bitsOf ((List.range temps.length).filter (fun i => ((temps.getD i none)).isNone))

/-- DIMM_TEMP_READ (09 R325, R326). -/
def dimmTempRead (c : Nat) (temps : List (Option Int)) (s : State) : State :=
  let m := s.chan c
  if m.pop.isNone ∨ s.fenced c ∨ 12 ≤ c then s
  else
    let now1 := silent temps % 2 ^ 32
    let last := m.sensorMiss % 2 ^ 32
    let failed := (last ||| m.sensorMiss / 2 ^ 32) &&& now1
    let known := temps.filterMap id
    let hot :=
      if failed ≠ 0 ∨ known.any (fun t => decide (85 < t)) then true
      else if m.hot ∧ !(known.all (fun t => decide (t < 82)) && decide (now1 = 0)) then true
      else false
    let turn (s : State) : State := if hot = m.hot then s else ((s.settleRef c 0).settleRef c 1)
    let s1 := (turn s).modChan c (fun m => { m with
      hot := hot
      temp := match known with
        | [] => m.temp
        | t :: ts => ts.foldl max t
      sensorMiss := now1 + failed * 2 ^ 32 })
    let s2 := if failed ||| m.sensorMiss / 2 ^ 32 ≠ m.sensorMiss / 2 ^ 32 then s1.report (mcTempSensor c) (c + failed * 2 ^ 8) else s1
    if hot = m.hot then s2 else (s2.report (mcHot c) (c * 2 + b2n hot)).rescale

/-! ### Initial training (09 R310 to R312, R331, R332) -/

/-- The rate of a cold start: the highest of 09 R311 that every DIMM's SPD permits, or the board's lower one (09 R312). -/
def State.startRate (s : State) (board : Option Nat) : Nat :=
  match s.refPop with
  | none => 0
  | some p =>
    let spd := (List.range 12).foldl (fun m c => match (s.chan c).pop with
      | some q => min m q.spdMax
      | none => m) 8800
    let ok := (popRates p).filter (fun r => decide (r ≤ spd))
    let top := ok.foldl max ((popRates p).headD 0)
    match board with
    | some r => if r < top ∧ r ∈ popRates p then r else top
    | none => top

/-- INITIAL_TRAINING_DONE: the channels that trained serve; the others are fenced (09 R331, R332). -/
def State.trained (s : State) (failed : List Nat) : State :=
  if s.pw.cold ≠ .step 6 then s
  else (List.range 12).foldl (fun s c =>
    if !s.chanIs c .training then s
    else if c ∈ failed then (s.fence c 3).report (mcTrainFailed c) c
    else s.modChan c (fun m => { m with
      state := .service, rate := s.mc.rate
      stored := match m.pop with
        | some p => (popRates p).foldl (fun v r => v ||| (1#6 <<< rateBit r)) 0
        | none => 0
      subs := [{ SubCh.reset with refAt := s.now }, { SubCh.reset with refAt := s.now }] })) s

/-! ### MC_CTL and MC_SPEED (09 R320, R330, R334, R337 to R342, R347; 15 R554, R556, R557) -/

/-- MC_CTL (09 R347; 15 R556, R557; log 65). -/
def mcCtl : Body := fun p b s =>
  let c := rd b 4 4
  if 12 ≤ c then (s, ans stObjectAbsent c)
  else if (s.chan c).pop.isNone then (s, ans stChannelEmpty c)
  else
    let act := if rd b 8 1 ≤ 2 then rd b 8 1 else 0
    let rules : List FieldRule := fEnum 8 1 2 0 ::
      (if act = 0 then validRules b [(0, fRange 10 2 200 20000), (1, fEnum 12 1 1 0), (2, fRange 14 2 16 4096)] else [])
    let r := applyRules rules b
    let s0 := s.direct p 0xC730 15 c r.2
    let busy := s.chanIs c .retraining || s.chanIs c .speedChange
    if act = 0 then
      if 4 ≤ s.mb.sActive.length then (s, ans stBusy c)
      else
        (s0.modChan c (fun m => { m with
          ageLimit := if validBit b 0 then rd r.1 10 2 else m.ageLimit
          wcrc := if validBit b 1 then decide (rd r.1 12 1 = 1) else m.wcrc
          retrainThr := if validBit b 2 then rd r.1 14 2 else m.retrainThr }), ans (okStatus r.2) c)
    else if act = 1 then
      if s.chanIs c .fenced then (s, ans stChannelFenced c)
      else if 4 ≤ s.mb.sActive.length then (s, ans stBusy c)
      else if busy || s.chanIs c .training then (s, ans stChannelBusy c)
      else (((s0.fence c 2).answerRetrain c stRetrainFailed).speedGo, ans (okStatus r.2) c)
    else if s.chanIs c .fenced then
      let q := s0.startBg p 0xC730 c (.retrain c) 5 (!r.2.isEmpty)
      if q.2.status = stBgStarted then
        ((q.1.modChan c (fun m => { m with
          state := .training, retrainsCmd := satAdd 65535 m.retrainsCmd 1, stored := m.stored &&& (1#6 <<< rateBit s.mc.rate) })), q.2)
      else (s, q.2)
    else if 4 ≤ s.mb.sActive.length then (s, ans stBusy c)
    else if busy || s.chanIs c .training then (s, ans stChannelBusy c)
    else
      let s1 := s0.trigger c
      ({ s1 with mb := { s1.mb with sActive := s1.mb.sActive ++ [SOp.mk p 0xC730 c (.retrain c) (!r.2.isEmpty)] } }, owedLater)

/-- The permitted rate nearest to a value; the lower of two equally near (09 R340; 14 R512; log 65). -/
def nearestRate (rates : List Nat) (v : Nat) : Nat := (minBy (fun r => if r ≤ v then v - r else r - v) rates).getD v

/-- MC_SPEED (09 R340 to R342; 15 R554; log 65). -/
def mcSpeed : Body := fun p b s =>
  let obj := rd b 4 4
  if obj ≠ 0 then (s, ans stObjectAbsent obj)
  else if s.mc.speed.isSome then (s, ans stBusy obj)
  else
    let rates := ((s.refPop.map popRates).getD [])
    let r := applyRules [⟨8, 2, nearestRate rates⟩] b
    let q := (s.direct p 0xC520 19 obj r.2).startBg p 0xC520 obj .speed s.serving.length (!r.2.isEmpty)
    if q.2.status = stBgStarted then
      ({ q.1 with mc := { q.1.mc with speed := some ⟨rd r.1 8 2, 0, false, s.now⟩ } }.speedGo, q.2)
    else (s, q.2)

/-- The channels enter self-refresh for SLEEP or DEEP with nothing owed, and their clocks stop (09 R343). -/
def State.selfRefresh (s : State) : State :=
  (List.range 12).foldl (fun s c => if s.chanIs c .service then
    s.modChan c (fun m => { m with state := .selfRefresh, subs := m.subs.map (fun (u : SubCh) => { u with owed := [], retry := [] }) })
    else s) s

/-- The channels leave self-refresh (09 R343). -/
def State.leaveSelfRefresh (s : State) : State :=
  (List.range 12).foldl (fun s c => if s.chanIs c .selfRefresh then
    s.modChan c (fun m => { m with state := .service, subs := m.subs.map (fun (u : SubCh) => { u with refAt := s.now }) })
    else s) s

/-! ### The commands -/

def execMcCtl (p : Path) (b : Bytes) (s : State) : Host.Outcome State Fault Refusal := .next (s.command p 0xC730 b mcCtl)

def execMcSpeed (p : Path) (b : Bytes) (s : State) : Host.Outcome State Fault Refusal := .next (s.command p 0xC520 b mcSpeed)

def execRefreshIssue (channel sub rank bank : Nat) (s : State) : Host.Outcome State Fault Refusal :=
  .next (refreshIssue channel sub rank bank s)

def execRefreshForced (channel sub rank bank : Nat) (s : State) : Host.Outcome State Fault Refusal :=
  .next (refreshForced channel sub rank bank s)

def execRfmIssue (channel sub rank group bank : Nat) (s : State) : Host.Outcome State Fault Refusal :=
  .next (rfmIssue channel sub rank group bank s)

def execSubchannelIssue (channel sub : Nat) (ready : List Nat) (s : State) : Host.Outcome State Fault Refusal :=
  .next (subchannelIssue channel sub ready s)

def execAgePromotion (channel sub id : Nat) (s : State) : Host.Outcome State Fault Refusal := .next (agePromotion channel sub id s)

def execAlertNAssert (channel sub : Nat) (writeCrc : Bool) (s : State) : Host.Outcome State Fault Refusal :=
  .next (alertN channel sub writeCrc s)

def execAlertEpisodeEnd (channel sub : Nat) (s : State) : Host.Outcome State Fault Refusal := .next (alertEpisodeEnd channel sub s)

def execDqsTracking (channel rank : Nat) (drift : Bool) (s : State) : Host.Outcome State Fault Refusal :=
  .next (dqsTracking channel rank drift s)

def execZqCalibration (channel rank : Nat) (s : State) : Host.Outcome State Fault Refusal := .next (zqCalibration channel rank s)

def execDimmTempRead (channel : Nat) (temps : List (Option Int)) (s : State) : Host.Outcome State Fault Refusal :=
  .next (dimmTempRead channel temps s)

def execRetrainingStart (s : State) : Host.Outcome State Fault Refusal := .next (retrainingStart s)

def execRetrainingDone (ok : Bool) (s : State) : Host.Outcome State Fault Refusal := .next (retrainingDone ok s)

def execFencedChannelRetrainDone (channel : Nat) (ok : Bool) (s : State) : Host.Outcome State Fault Refusal :=
  .next (fencedRetrainDone channel ok s)

def execSpeedChangeStepDone (s : State) : Host.Outcome State Fault Refusal := .next (speedStepDone s)

def execSpeedChangeWaitTimeout (s : State) : Host.Outcome State Fault Refusal := .next (speedTimeout s)

/-- INITIAL_TRAINING_DONE (09 R331, R332). -/
def execInitialTrainingDone (failed : List Nat) (s : State) : Host.Outcome State Fault Refusal := .next (s.trained failed)

end Sys2Proof.Machine
end

