-- ==== Sys2Proof/Machine/Alloc.lean ====
section
/-! DEFINITION. Where media lies: the reserved structures and the place of a new extent on each channel (03 R106 to R108, R112; log 9). -/

namespace Sys2Proof.Machine
open Sys2Proof

/-- The bytes of the spare-page pool: 0.1 % of the installed capacity, rounded up to 1 GiB (03 R107). -/
def State.spareBytes (s : State) : Nat := roundUp gib (((s.populated.map (fun c => s.chanLines c * 64)).foldl (· + ·) 0) / 1000)

/-- Spare pages of a channel: the pool is spread evenly over the populated channels, page by page (07 R257). -/
def State.sparePages (s : State) (c : Nat) : Nat :=
  match memberIndex s.populated c with
  | some i => s.spareBytes / 4096 / s.populated.length + (if i < s.spareBytes / 4096 % s.populated.length then 1 else 0)
  | none => 0

/-- The pool's extent: at the top of each channel. -/
def State.spareExtent (s : State) : Extent :=
  ⟨if s.populated.isEmpty then 0 else s.spareBytes, (List.range 12).map (fun c => s.chanLines c - s.sparePages c * 64), 0, []⟩

/-- The lines of a channel that extents may take, from 0 up; the spare pages lie at the top. -/
def State.openLines (s : State) (c : Nat) : Nat := s.chanLines c - s.sparePages c * 64

/-- The spans (first line, count) of a channel that extents take (log 9). -/
def State.takenSpans (s : State) (c : Nat) : List (Nat × Nat) :=
  let q := if c ∈ members s.popMask then
      ((s.rg.qstate :: s.rg.links.map (fun x => x.2)).filter (fun x => decide (x.size ≠ 0))).map (fun x =>
        (x.bases.getD c 0, linesPerChannel 1 0 s.popMask x.size))
    else []
  q ++ ((oall s.rg.regions).map (fun r =>
    if c ∈ members r.2.mask then
      ((r.2.extents.map (fun x => x.2)) ++ [r.2.slack]).map (fun x =>
        (x.bases.getD c 0, linesPerChannel r.2.protect r.2.grain r.2.mask x.size))
    else [])).flatten

/-- The lowest base at which `n` lines overlap no span and end within `room`, tried at 0 and after each span (log 9). -/
def firstFit (spans : List (Nat × Nat)) (room n : Nat) : Option Nat :=
  let tries := 0 :: spans.map (fun x => x.1 + x.2)
  let fits (b : Nat) : Bool := decide (b + n ≤ room) && spans.all (fun x => decide (b + n ≤ x.1) || decide (x.1 + x.2 ≤ b))
  minBy (fun b => b) (tries.filter fits)

/-- The bases of an extent of a size on the members of a mask; a line and its copy, and the units of a row, lie at the
same channel address (03 R110 to R112). None:
it does not fit (log 9). -/
def State.placeExtent (s : State) (protect grain mask size : Nat) : Option Extent :=
  if size = 0 then some Extent.none
  else
    let n := linesPerChannel protect grain mask size
    let joint (c : Nat) : List Nat := if protect = 1 then [c, if c < 6 then c + 6 else c - 6] else if protect = 2 then members mask else [c]
    let base (c : Nat) : Option Nat :=
      firstFit ((joint c).map s.takenSpans).flatten ((joint c).foldl (fun m d => min m (s.openLines d)) (s.openLines c)) n
    if (members mask).all (fun c => (base c).isSome) then
      some ⟨size, (List.range 12).map (fun c => if c ∈ members mask then (base c).getD 0 else 0), 0, []⟩
    else none

end Sys2Proof.Machine
end

