-- ==== Sys2Proof/Machine/Staging.lean ====
section
/-! DEFINITION. Staging sessions, clamp reports and every command that stages an object (14 R505 to R513; 15 R537 to R551). -/

namespace Sys2Proof.Machine
open Sys2Proof

/-! ### Sessions -/

/-- STAGE_OPEN: at most 4 open sessions; the number names no open session and no retained report (14 R505, R513; log 11). -/
def stageOpen : Body := fun p b s =>
  let obj := rd b 4 4
  if 4 ≤ s.mb.sessions.length then (s, ans stSessionLimit obj)
  else
    let n := firstFree (fun n => s.mb.sessions.any (fun x => x.number == n) || s.mb.retained.any (fun x => x.2.1 == n))
      (s.mb.sessions.length + s.mb.retained.length + 1) 1
    ({ s with mb := { s.mb with sessions := s.mb.sessions ++ [⟨n, who p, [], ⟨[], 0⟩, s.now⟩] } },
      ans stSuccess obj (le 2 n))

/-- A session ends without trace (14 R509). -/
def State.endSession (s : State) (n : Nat) : State :=
  { s with mb := { s.mb with sessions := s.mb.sessions.filter (fun x => x.number != n) } }

/-- The sessions of a function end, and its retained report (14 R509, R513). -/
def State.endSessionsOf (s : State) (w : Nat) : State :=
  { s with mb := { s.mb with
    sessions := s.mb.sessions.filter (fun x => x.who != w)
    retained := s.mb.retained.filter (fun x => x.1 != w) } }

/-- STAGE_ABORT (14 R509). -/
def stageAbort : Body := fun p b s =>
  match s.session (rd b 0 2) (who p) with
  | none => (s, ans stSessionUnknown (rd b 4 4))
  | some x => (s.endSession x.number, ans stSuccess (rd b 4 4))

/-- The report that CLAMP_REPORT_GET names: the direct report, an open session's, or the retained one (14 R513). -/
def State.reportOf (s : State) (n w : Nat) : Option Report :=
  if n = 0 then some (sget ⟨[], 0⟩ s.mb.direct w)
  else match s.session n w with
    | some x => some x.report
    | none => (s.mb.retained.find? (fun x => x.1 == w && x.2.1 == n)).map (fun x => x.2.2)

/-- CLAMP_REPORT_GET (14 R513; 15 R537). -/
def clampReportGet : Body := fun p b s =>
  let obj := rd b 4 4
  match s.reportOf (rd b 0 2) (who p) with
  | none => (s, ans stSessionUnknown obj)
  | some r =>
    let c := applyRules [fRange 8 2 0 1023] b
    let es := r.entries.drop (rd c.1 8 2)
    let fit := match p with
      | .ring _ _ _ => es.length
      | _ => (pathMax p - 16) / 32
    let s1 := { s with mb := { s.mb with
      sessions := s.mb.sessions.map (fun (y : Session) =>
        if y.number == rd b 0 2 && y.who == who p then { y with lastAt := s.now } else y) } }
    (s1.direct p 0xC003 22 obj c.2,
      ans (okStatus c.2) obj (le 4 (min es.length fit) ++ le 4 r.lost ++ ((es.take fit).map Clamp.bytes).flatten))

/-- A session idle for 1 s ends without trace (14 R509); the event of one that is not due does nothing (log 6). -/
def sessionExpiry (n : Nat) (s : State) : State :=
  match s.mb.sessions.find? (fun x => x.number == n) with
  | none => s
  | some x =>
    let s1 := s.advance (x.lastAt + 1000000000)
    (s1.endSession n).report mbSessionExpired n (some x.who)

/-! ### Staged commands -/

/-- Stages an object of a command's own range with its field rules. -/
def stageWith (op kind n : Nat) (rules : List FieldRule) : Body := fun p b s =>
  s.stage p op kind (rd b 4 4) 0 (decide (rd b 4 4 < n)) b rules

/-- REGION_CFG fields (15 R541); clearing a reserved bit of OWNER is a clamp (03 R113; log 44). -/
def regionRules : List FieldRule :=
  [fRange 8 2 0 16383, fRange 10 2 1 16384, fEnum 12 1 2 0, fEnum 13 1 2 0, fEnum 14 1 4 0, fEnum 15 1 2 0,
   ⟨16, 2, fun v => if v % 4096 = 0 then 0xFFF else v⟩, ⟨18, 2, fun v => v &&& 0xFF0F⟩, fRange 20 1 16 128]

/-- REGION_CFG. -/
def regionCfg : Body := stageWith 0xC100 1 64 regionRules

/-- REGION_DELETE (15 R532, R541). -/
def regionDelete : Body := stageWith 0xC101 1 64 []

/-- The T1 extent and region sizes that bound TIER_CFG's quotas, in GiB: of the region as staged in the session or as it
stands (05 R165; 15 R542). -/
def State.stagedSize (s : State) (n w r : Nat) : Nat :=
  let staged := (s.session n w).bind (fun x => x.staged.find? (fun y => y.op == 0xC100 && y.obj == r))
  match staged with
  | some y => rd y.b 10 2
  | none => ((oget s.rg.regions r).map (fun x => x.size / 2 ^ 30)).getD 16

/-- TIER_CFG fields (15 R542): QUOTA_INIT at most the region size, QUOTA at most the T1 extent where the region has one. -/
def State.tierRules (s : State) (p : Path) (b : Bytes) : List FieldRule :=
  let size := s.stagedSize (rd b 0 2) (who p) (rd b 4 4)
  let t1 := match oget s.rg.regions (rd b 4 4) with
    | some x => if x.tier = 2 then x.quotaInit else 255
    | none => 255
  [fRange 8 1 1 (max 1 (min 16 size)), fRange 9 1 0 t1, fRange 10 1 50 100, fRange 11 1 1 255, fRange 12 1 0 254,
   fEnum 13 1 1 1, fRange 14 2 1 10000]

/-- TIER_CFG. -/
def tierCfg : Body := fun p b s =>
  s.stage p 0xC110 2 (rd b 4 4) 0 (decide (rd b 4 4 < 64)) b (s.tierRules p b)

/-- MSC_ROW_CFG: every class number is legal; entries for codes 4 to 7 are ignored and recorded (10 R351; 15 R542). -/
def mscRowCfg : Body := stageWith 0xC120 3 65 [⟨8, 8, fun v => v - v / 4096 % 4096 * 4096⟩]

/-- BW_REQ_CFG of a requester code 0 to 3 or 8 to 15 (15 R543). -/
def bwReqCfg : Body := fun p b s =>
  let r := rd b 4 4
  s.stage p 0xC420 4 r 0 (decide (r < 4 ∨ (8 ≤ r ∧ r < 16))) b [fRange 8 4 0 1048576, fRange 12 1 1 255]

/-- BW_GUAR_CFG and BW_WINDOW_CFG (15 R543). -/
def bwGuarCfg : Body := stageWith 0xC421 4 8 [fRange 8 2 0 1100]
def bwWindowCfg : Body := stageWith 0xC422 4 1 [fRange 8 2 1 1000]

/-- The default attributes of a queue (11 R391). -/
def Queue.default : Queue := ⟨false, 0, 65536, 0, 0, none, none, 0, 0, 0, none, none⟩

/-- Queue `q`. -/
def State.queueAt (s : State) (q : Nat) : Queue := (oget s.qe.queues q).getD Queue.default

/-- QE_QUEUE_CFG fields: an egress function or ring out of range keeps the current value (15 R545). -/
def State.queueRules (s : State) (b : Bytes) : List FieldRule :=
  let cur := s.queueAt (rd b 4 4)
  [fEnum 8 1 1 0, ⟨9, 1, (· % 16)⟩, fEnum 10 1 3 cur.efn, fEnum 11 1 63 cur.ering, fRange 12 4 16 4294967294]

/-- QE_QUEUE_CFG. -/
def qeQueueCfg : Body := fun p b s =>
  s.stage p 0xC230 9 (rd b 4 4) 0 (decide (rd b 4 4 < 262144)) b (s.queueRules b)

/-- QE_POLICER_CFG fields: PIR is a field of mode TR only (15 R545; log 46). -/
def policerRules (b : Bytes) : List FieldRule :=
  let pir := if rd b 8 1 = 2 then [fRange 32 8 1000 100000000000] else []
  [fEnum 8 1 2 0, fEnum 9 1 1 0, fRange 12 4 64 268435456, fRange 16 4 64 268435456, fRange 24 8 1000 100000000000] ++ pir

/-- QE_POLICER_CFG. -/
def qePolicerCfg : Body := fun p b s =>
  s.stage p 0xC231 10 (rd b 4 4) 0 (decide (rd b 4 4 < 1048576)) b (policerRules b)

/-- How many nodes a scheduler level has (12 R416). -/
def levelSize (lvl : Nat) : Nat :=
  if lvl = 1 then 64 else if lvl = 2 then 4096 else if lvl = 3 then 65536 else if lvl = 4 then 262144 else 0

/-- SC_NODE_CFG fields (15 R547). -/
def nodeRules (b : Bytes) : List FieldRule :=
  let lvl := rd b 8 1
  let tc := if lvl = 4 then [fEnum 11 1 7 0] else []
  [fEnum 9 1 7 0, fRange 10 1 1 255] ++ tc ++
    [⟨16, 4, fun v => if v < levelSize (lvl - 1) then v else 0xFFFFFFFF⟩, fRange 20 4 64 16777216, fRange 24 8 8000 800000000000]

/-- SC_NODE_CFG (15 R547): LEVEL with OBJECT names the node. -/
def scNodeCfg : Body := fun p b s =>
  let lvl := rd b 8 1
  let n := rd b 4 4
  s.stage p 0xC240 5 n lvl (decide (2 ≤ lvl ∧ lvl ≤ 4 ∧ n < levelSize lvl)) b (nodeRules b)

/-- SC_PORT_CFG fields (15 R547). -/
def portRules : List FieldRule := [fRange 8 4 10 800000, fRange 12 1 0 63, fEnum 13 1 1 0]

/-- SC_PORT_CFG. -/
def scPortCfg : Body := stageWith 0xC241 6 64 portRules

/-- The nearest legal CYCLE: 0, or 1,000 to 4,000,000,000 ns; the lower at halfway (14 R512, 15 R548). -/
def fixCycle (v : Nat) : Nat := if v ≤ 500 then 0 else clampN 1000 4000000000 v

/-- SC_GATE_LIST fields (15 R548): COUNT at most the entries the payload holds; a duration of 0 is applied as 1. -/
def gateRules (b : Bytes) : List FieldRule :=
  let fit := min 256 ((b.length - 48) / 4)
  let entries := (List.range (clampN 1 fit (rd b 40 2))).map (fun i => (⟨48 + 4 * i, 3, max 1⟩ : FieldRule))
  [⟨8, 4, fixCycle⟩, fRange 12 4 0 999999999, fRange 24 4 0 999999999, ⟨40, 2, clampN 1 fit⟩] ++ entries

/-- SC_GATE_LIST. -/
def scGateList : Body := fun p b s =>
  s.stage p 0xC242 7 (rd b 4 4) 0 (decide (rd b 4 4 < 64)) b (gateRules b)

/-- CE_SET_CFG fields (15 R550; log 44). -/
def setRules : List FieldRule :=
  [fEnum 9 1 1 0, fEnum 10 1 1 0, ⟨11, 1, (· % 16)⟩, fRange 12 1 0 3, fRange 16 4 0 268435455, fRange 20 4 1 268435456,
   ⟨24, 8, roundDown 64⟩, ⟨32, 8, roundDown 64⟩, fRange 40 4 2 65536, fRange 44 4 2 65536, fRange 48 4 2 65536]

/-- CE_SET_CFG. -/
def ceSetCfg : Body := stageWith 0xC300 11 4096 setRules

/-- CE_SET_DELETE (15 R532, R550). -/
def ceSetDelete : Body := stageWith 0xC301 11 4096 []

/-- The set of the queue binding (OBJECT 0) or the policer binding (OBJECT 1) as it stands (13 R469). -/
def State.boundSet (s : State) (o : Nat) : Nat := ((if o = 0 then s.ce.bindQ else s.ce.bindP).map (fun x => x.set)).getD 0xFFFF

/-- CE_QE_BIND fields (15 R551). -/
def State.bindRules (s : State) (b : Bytes) : List FieldRule :=
  let o := rd b 4 4
  let q := decide (o = 0)
  let dflt := (rd b 11 1).testBit 0
  let slots := if q then clampN 1 8 (rd b 10 1) else 3
  let maps := if dflt then [] else
    ((if q && !dflt then [fRange 10 1 1 8] else []) ++
      (List.range (if q then 14 else 3)).map (fun e => (⟨20 + e, 1, fun v => if v < slots then v else 0xFF⟩ : FieldRule)))
  [⟨8, 2, fun v => if v < 4096 ∨ v = 0xFFFF then v else s.boundSet o⟩,
    fRange 12 4 0 (if q then 262143 else 1048575), fRange 16 4 1 (if q then 262144 else 1048576)] ++ maps

/-- CE_QE_BIND (15 R551; 13 R482): OBJECT 0 the queue binding, 1 the policer binding (log 87). -/
def ceQeBind : Body := fun p b s =>
  let o := rd b 4 4
  let set := if rd b 8 2 < 4096 ∨ rd b 8 2 = 0xFFFF then rd b 8 2 else s.boundSet o
  let other := if o = 0 then s.ce.bindP else s.ce.bindQ
  if (s.session (rd b 0 2) (who p)).isSome && decide (o < 2) && other.any (fun x => x.set == set) then
    (s, ans stBindActive o)
  else s.stage p 0xC302 12 o 0 (decide (o < 2)) b (s.bindRules b)

/-! ### The commands -/

def execStageOpen (p : Path) (b : Bytes) (s : State) : Host.Outcome State Fault Refusal :=
  .next (s.command p 0xC000 b stageOpen)

def execStageAbort (p : Path) (b : Bytes) (s : State) : Host.Outcome State Fault Refusal :=
  .next (s.command p 0xC002 b stageAbort)

def execClampReportGet (p : Path) (b : Bytes) (s : State) : Host.Outcome State Fault Refusal :=
  .next (s.command p 0xC003 b clampReportGet)

def execRegionCfg (p : Path) (b : Bytes) (s : State) : Host.Outcome State Fault Refusal :=
  .next (s.command p 0xC100 b regionCfg)

def execRegionDelete (p : Path) (b : Bytes) (s : State) : Host.Outcome State Fault Refusal :=
  .next (s.command p 0xC101 b regionDelete)

def execTierCfg (p : Path) (b : Bytes) (s : State) : Host.Outcome State Fault Refusal :=
  .next (s.command p 0xC110 b tierCfg)

def execMscRowCfg (p : Path) (b : Bytes) (s : State) : Host.Outcome State Fault Refusal :=
  .next (s.command p 0xC120 b mscRowCfg)

def execQeQueueCfg (p : Path) (b : Bytes) (s : State) : Host.Outcome State Fault Refusal :=
  .next (s.command p 0xC230 b qeQueueCfg)

def execQePolicerCfg (p : Path) (b : Bytes) (s : State) : Host.Outcome State Fault Refusal :=
  .next (s.command p 0xC231 b qePolicerCfg)

def execScNodeCfg (p : Path) (b : Bytes) (s : State) : Host.Outcome State Fault Refusal :=
  .next (s.command p 0xC240 b scNodeCfg)

def execScPortCfg (p : Path) (b : Bytes) (s : State) : Host.Outcome State Fault Refusal :=
  .next (s.command p 0xC241 b scPortCfg)

def execScGateList (p : Path) (b : Bytes) (s : State) : Host.Outcome State Fault Refusal :=
  .next (s.command p 0xC242 b scGateList)

def execCeSetCfg (p : Path) (b : Bytes) (s : State) : Host.Outcome State Fault Refusal :=
  .next (s.command p 0xC300 b ceSetCfg)

def execCeSetDelete (p : Path) (b : Bytes) (s : State) : Host.Outcome State Fault Refusal :=
  .next (s.command p 0xC301 b ceSetDelete)

def execCeQeBind (p : Path) (b : Bytes) (s : State) : Host.Outcome State Fault Refusal :=
  .next (s.command p 0xC302 b ceQeBind)

def execBwReqCfg (p : Path) (b : Bytes) (s : State) : Host.Outcome State Fault Refusal :=
  .next (s.command p 0xC420 b bwReqCfg)

def execBwGuarCfg (p : Path) (b : Bytes) (s : State) : Host.Outcome State Fault Refusal :=
  .next (s.command p 0xC421 b bwGuarCfg)

def execBwWindowCfg (p : Path) (b : Bytes) (s : State) : Host.Outcome State Fault Refusal :=
  .next (s.command p 0xC422 b bwWindowCfg)

/-- SESSION_IDLE_EXPIRY (14 R509). -/
def execSessionIdleExpiry (session : Nat) (s : State) : Host.Outcome State Fault Refusal :=
  .next (sessionExpiry session s)

end Sys2Proof.Machine
end

