-- ==== Sys2Proof/Machine/Queue.lean ====
section
/-! DEFINITION. Spill buffer: cells and runs, free rings, the check of enqueue descriptors, policing, queues and their events,
and the egress ring a queue goes to (11 R373 to R398, R402, R403; 02 R85, R93, R101). -/

namespace Sys2Proof.Machine
open Sys2Proof

/-! ### Status codes of 11 R414 -/

def stBufRange : Nat := 0x1100
def stRingActive : Nat := 0x1101
def stFlushActive : Nat := 0x1102
def stBufInUse : Nat := 0x1103

/-! ### Queue event codes (11 R415; 12 R443) -/

def evEnqueue : Nat := 0
def evDequeue : Nat := 1
def evReturned : Nat := 2
def evPolice : Nat := 3
def evLimit : Nat := 4
def evDisabled : Nat := 5
def evFence : Nat := 6
def evBufErr : Nat := 7
def evHeader : Nat := 8
def evOversize : Nat := 9
def evFlush : Nat := 10
def evMedia : Nat := 11
def evDiscard : Nat := 12
def evGate : Nat := 13

/-! ### Cells (11 R373 to R376) -/

/-- The null pointer (11 R374). -/
def nullPtr : Nat := 0xFFFFFFFF

/-- The cells of a buffer region: the first cell pointer and their number; the null pointer names none (11 R374). -/
def Region.cellSpan (r : Region) : Nat × Nat := (r.base / 256, min (r.size / 256) (nullPtr - r.base / 256))

/-- The buffer regions that exist, in the order of their registration. -/
def State.bufs (s : State) : List (Nat × Region) := s.qe.bufs.filterMap (fun n => (s.region n).map (fun r => (n, r)))

/-- The buffer region a cell belongs to. -/
def State.bufOf (s : State) (ptr : Nat) : Option (Nat × Region) :=
  s.bufs.find? (fun b => decide (b.2.cellSpan.1 ≤ ptr ∧ ptr < b.2.cellSpan.1 + b.2.cellSpan.2))

/-- The state of a cell: 0 FREE, 1 HELD, 2 QUEUED (11 R375). -/
def State.cellState (s : State) (ptr : Nat) : Nat := sget 0 s.qe.cells ptr

/-- Sets the state of `n` cells; the link entries of cells made FREE are unused. -/
def State.setCells (s : State) (first n st : Nat) : State :=
  { s with qe := { s.qe with
    cells := (List.range n).foldl (fun m i => sset 0 m (first + i) st) s.qe.cells
    links := if st = 0 then (List.range n).foldl (fun m i => sset 0 m (first + i) 0) s.qe.links else s.qe.links } }

/-- The link entry of a cell; it is kept one higher, 0 for none. -/
def State.setLink (s : State) (ptr v : Nat) : State := { s with qe := { s.qe with links := sset 0 s.qe.links ptr (v + 1) } }

/-- The link entry of a cell. -/
def State.linkOf (s : State) (ptr : Nat) : Option Nat :=
  match sget 0 s.qe.links ptr with
  | 0 => none
  | v + 1 => some v

/-- The link entry of a HELD run (11 R375). -/
def heldEntry (f m size : Nat) : Nat := f + 16 * m + 256 * size

/-- Who holds the run whose first cell is `ptr`: function, ring, run size code (11 R375). -/
def State.heldRun (s : State) (ptr : Nat) : Option (Nat × Nat × Nat) :=
  if s.cellState ptr = 1 then (s.linkOf ptr).map (fun e => (e % 16, e / 16 % 16, e / 256 % 8)) else none

/-- FREE cells of a buffer region. -/
def State.freeCount (s : State) (r : Region) : Nat :=
  let c := r.cellSpan
  c.2 - (s.qe.cells.filter (fun e => decide (c.1 ≤ e.1 ∧ e.1 < c.1 + c.2))).length

/-- Raises QE_POOL_LOW for each buffer region whose FREE cells have fallen below the threshold, once per crossing (11 R413; log 87). -/
def State.poolCheck (s : State) : State :=
  s.bufs.foldl (fun s b =>
    let low := decide (s.freeCount b.2 < s.qe.poolThr)
    let was := decide (b.1 ∈ s.qe.poolLow)
    if low && !was then { s with qe := { s.qe with poolLow := s.qe.poolLow ++ [b.1] } }.report qePoolLow b.1
    else if !low && was then { s with qe := { s.qe with poolLow := s.qe.poolLow.filter (· != b.1) } }
    else s) s

/-- Makes cells FREE. -/
def State.freeCells (s : State) (first n : Nat) : State := (s.setCells first n 0).poolCheck

/-- Whether a cell lies on a fenced channel: stored uncompressed in a PLAIN region on one (11 R376). -/
def State.cellFenced (s : State) (ptr : Nat) : Bool :=
  match s.bufOf ptr with
  | none => false
  | some (n, r) =>
    let off := ptr * 256 - r.base
    if r.protect ≠ 0 ∨ r.tier = 1 then false
    else if r.tier = 0 then s.fenced (r.loc r.data off).ch
    else match r.frames.find? (fun e => e.1 == off / 4096) with
      | some e =>
        if s.tr.moves.any (fun m => m.region == n && m.page == e.1 && m.up) then false
        else s.fenced (r.loc r.t1 (frameOff e.2 off)).ch
      | none => false

/-- Whether a run can be issued: every cell FREE and none on a fenced channel (11 R376). -/
def State.runFree (s : State) (first n : Nat) : Bool :=
  (List.range n).all (fun i => s.cellState (first + i) == 0 && !s.cellFenced (first + i))

/-- The lowest aligned run of `n` cells below `stop` that can be issued (log 10). -/
def State.findRun (s : State) (stop n : Nat) : Nat → Nat → Option Nat
  | 0, _ => none
  | fuel + 1, p => if stop < p + n then none else if s.runFree p n then some p else s.findRun stop n fuel (p + n)

/-- A run of a size code of a buffer region (log 10). -/
def State.pickRun (s : State) (r : Region) (code : Nat) : Option Nat :=
  let c := r.cellSpan
  s.findRun (c.1 + c.2) (2 ^ code) ((s.qe.cells.length + 1) * 200 + 16 * r.frames.length) (roundUp (2 ^ code) c.1)

/-! ### Free rings (11 R377 to R382, R405) -/

/-- Free ring `m` of a function. -/
def State.freeRing (s : State) (f m : Nat) : Option FreeRing := oget (s.fnAt f).freeRings m

/-- Changes free ring `m` of a function. -/
def State.modFree (s : State) (f m : Nat) (g : FreeRing → FreeRing) : State :=
  s.modFn f (fun h => { h with freeRings := omod h.freeRings m g })

/-- Takes `k` runs for a ring; each becomes HELD with its link entry (11 R375, R379). -/
def State.takeRuns (s : State) (f m : Nat) (q : FreeRing) (r : Region) : Nat → List Nat → Option (State × List Nat)
  | 0, runs => some (s, runs)
  | k + 1, runs =>
    match s.pickRun r q.sizeCode with
    | none => none
    | some p =>
      (((s.setCells p (2 ^ q.sizeCode) 1).setLink p (heldEntry f m q.sizeCode))).takeRuns f m q r k (runs ++ [p])

/-- Whether the device may write a batch into a ring now: it has space, and the function may be written to (11 R379; 02 R85, R101;
14 R517). -/
def State.freeReady (s : State) (f m : Nat) : Bool :=
  match s.freeRing f m with
  | some q => s.canSend f && !(s.fnAt f).viral && !s.isFrozen f && decide (q.inSlots.length < q.slots)
  | none => false

/-- The vector of a moderated ring event: the new moderation state is given by the caller (11 R405). -/
def State.ringVector (s : State) (f v : Nat) (send : Bool) : State := if send then s.vector f v else s

/-- A batch of 16 runs is written into a ring (11 R378, R379, R405; 02 R77). -/
def State.writeBatch (s : State) (f m : Nat) (q : FreeRing) (runs : List Nat) : State :=
  let k := moderate q.unsig q.unsigAt q.modCount s.now
  let s1 := s.sendWrite f (q.base + q.prod % q.slots * 64) ((runs.map (le 4)).flatten) 8
  let s2 := s1.modFree f m (fun q => { q with
    prod := q.prod + 1, inSlots := q.inSlots ++ [runs], unsig := k.2.1, unsigAt := k.2.2 })
  (((s2.cause f 1).ringVector f (80 + m) k.1).count 22 0 16).poolCheck

/-- A context of the queue engine halts (11 R409). -/
def State.qeHalt (s : State) (ctx : Nat) : State :=
  { s with qe := { s.qe with ctxHalted := s.qe.ctxHalted ||| (1#40 <<< ctx) } }.report qeContextHalted ctx (some 8)

/-- A context of `n` at bit `lo` that runs. -/
def State.ctxFree (s : State) (lo n : Nat) : Bool := (List.range n).any (fun i => !s.qe.ctxHalted.getLsbD (lo + i))

/-- The turn of a ring in the refill: a batch, or the ring is passed over and counted (11 R381). -/
def State.refillRing (s : State) (halt : Option Nat) (key : Nat) : Option State :=
  let f := key / 16
  let m := key % 16
  match s.freeRing f m with
  | none => none
  | some q =>
    if !s.freeReady f m then none
    else match (s.bufs.find? (fun b => b.1 == q.region)).bind (fun b => s.takeRuns f m q b.2 16 []) with
      | none => none
      | some (s1, runs) =>
        match halt with
        | some i => some (s.qeHalt (36 + i % 4))
        | none => some (s1.writeBatch f m q runs)

/-- FREE_RING_REFILL: one batch to the next ring, in round robin over the registered rings, that has space and 16 free runs (11
R381). `halt`: the free-ring context that carries it meets an uncorrectable SRAM error; the batch is not written and its runs are FREE
(11 R409). -/
def freeRingRefill (halt : Option Nat) (s : State) : State :=
  if !s.enginesRun || s.qe.draining || !s.ctxFree 36 4 then s
  else
    let order := (List.range 64).map (fun i => (s.qe.rrRing + i) % 64)
    let rec go : List Nat → State → State
      | [], s => s
      | k :: ks, s =>
        match s.refillRing halt k with
        | some s1 => { s1 with qe := { s1.qe with rrRing := (k + 1) % 64 } }
        | none =>
          go ks (if s.freeReady (k / 16) (k % 16) then s.modFree (k / 16) (k % 16) (fun q => { q with passed := q.passed + 1 }) else s)
    go order s

/-- A free ring is deregistered: with `give`, the runs of its unconsumed slots that its function still holds become FREE (11 R382,
R408). -/
def State.dropFreeRing (s : State) (f m : Nat) (give : Bool) : State :=
  match s.freeRing f m with
  | none => s
  | some q =>
    let s1 := s.modFn f (fun h => { h with freeRings := oset h.freeRings m none })
    if give then
      (q.inSlots.flatten.foldl (fun s p => if s.heldRun p = some (f, m, q.sizeCode) then s.setCells p (2 ^ q.sizeCode) 0 else s) s1).poolCheck
    else s1

/-- The free rings registered, as function and ring number. -/
def State.allFree (s : State) : List (Nat × Nat) :=
  ((List.range 4).map (fun f => ((oall (s.fnAt f).freeRings).map (fun e => (f, e.1))))).flatten

/-! ### Queues (11 R391, R399) -/

/-- Changes a queue. -/
def State.modQueue (s : State) (q : Nat) (g : Queue → Queue) : State :=
  { s with qe := { s.qe with queues := oset s.qe.queues q (some (g (s.queueAt q))) } }

/-- The packet whose first cell is `ptr`. -/
def State.pktAt (s : State) (ptr : Nat) : Pkt := (oget s.qe.pkts ptr).getD ⟨0, 0⟩

/-- Links a packet to a queue's tail (11 R375, R388). -/
def State.linkTail (s : State) (q first cells len : Nat) : State :=
  let x := s.queueAt q
  let s1 := match x.tail with
    | some t => s.setLink t first
    | none => s
  let s2 := (s1.setCells first cells 2).setLink first nullPtr
  ({ s2 with qe := { s2.qe with pkts := oset s2.qe.pkts first (some ⟨cells, len⟩) } }).modQueue q (fun x => { x with
    head := some (x.head.getD first), tail := some first
    cells := x.cells + cells, packets := x.packets + 1, bytes := x.bytes + len })

/-- Unlinks the head packet of a queue: its first cell and the packet; its cells stay QUEUED (11 R400). A flush whose mark it is has
nothing left to remove (11 R410). -/
def State.popHead (s : State) (q : Nat) : Option (State × Nat × Pkt) :=
  let x := s.queueAt q
  match x.head with
  | none => none
  | some h =>
    let p := s.pktAt h
    let next := match s.linkOf h with
      | some v => if v = nullPtr then none else some v
      | none => none
    let s1 := s.modQueue q (fun x => { x with
      head := next, tail := if next.isNone then none else x.tail
      cells := x.cells - p.cells, packets := x.packets - 1, bytes := x.bytes - p.len
      headLine := none, flushTo := if x.flushTo = some h then none else x.flushTo })
    some ({ s1 with qe := { s1.qe with heads := s1.qe.heads.filter (· != q) } }, h, p)

/-- A packet's cells become FREE. -/
def State.freePkt (s : State) (first cells : Nat) : State :=
  ({ s with qe := { s.qe with pkts := oset s.qe.pkts first none } }).freeCells first cells

/-- Whether an event code is a drop (18 R636). -/
def isDrop (code : Nat) : Bool := (decide (3 ≤ code) && decide (code ≤ 9)) || code == evMedia || code == evGate

/-- Posts a queue event to the counter engine (11 R390, R401, R406), with the counts of 11 R415. -/
def State.qEvent (s : State) (code q packets bytes : Nat) : State :=
  let s1 : State := { s with ce := { s.ce with events := s.ce.events ++ [QEvent.mk false q code packets bytes] } }
  let s2 : State :=
    if code = evFence then
      ({ s1 with qe := { s1.qe with dropsFence := satAdd (2 ^ 32 - 1) s1.qe.dropsFence 1 } } : State).reportAgg qeFenceDrops 0 1000000000 q
    else if code = evBufErr then { s1 with qe := { s1.qe with dropsBuf := satAdd (2 ^ 32 - 1) s1.qe.dropsBuf 1 } }
    else if code = evDiscard then { s1 with qe := { s1.qe with pushDisc := satAdd (2 ^ 32 - 1) s1.qe.pushDisc 1 } }
    else s1
  if code = evEnqueue then s2.count 22 1 else if isDrop code then s2.count 22 7 packets else s2

/-! ### Policing (11 R392 to R397) -/

/-- The default policer: UNSET, with full buckets (11 R392). -/
def Policer.default : Policer := ⟨0, false, 1000, 1000, 16384, 16384, 16384 * 2 ^ 24, 16384 * 2 ^ 24, 0, 0, 0⟩

/-- Policer `n`. -/
def State.policer (s : State) (n : Nat) : Policer := (oget s.qe.policers n).getD Policer.default

/-- The line that holds a policer's 32 B in the queue state, which is a MIRROR of grain 256 B (03 R107; 11 R398; log 13). -/
def State.policerLoc (s : State) (n : Nat) : Loc := locate 1 0 s.popMask s.rg.qstate.bases (n / 2 * 64)

/-- A policer is used: one that is not among the 98,304 on chip is read, and the one that joined first is written back for it, as requester QE (11
R398; log 13). -/
def State.policerTouch (s : State) (n : Nat) : State :=
  if n ∈ s.qe.polCache then s
  else
    let join (l : List Nat) (s : State) : State := { s with qe := { s.qe with polCache := l ++ [n] } }
    if s.rg.qstate.size = 0 then join s.qe.polCache s
    else
      let s1 := s.queueRead (s.policerLoc n) 8 64 0
      match s.qe.polCache with
      | old :: rest => if 98304 ≤ rest.length + 1 then join rest (s1.queueWrite (s.policerLoc old) 8 64) else join s.qe.polCache s1
      | [] => join [] s1

/-- Fills a policer's buckets (11 R392, R408). -/
def Policer.fill (p : Policer) : Policer := { p with tc := p.cbs * 2 ^ 24, te := p.ebs * 2 ^ 24, remC := 0, remP := 0 }

/-- A credit and the remainder carried on (11 R394, R397). -/
def creditOf (rate dt rem : Nat) : Nat × Nat := ((rate * dt * 2 ^ 24 + rem) / 1000000000, (rate * dt * 2 ^ 24 + rem) % 1000000000)

/-- The colour of a packet of `len` bytes that arrives at `t`: 0 GREEN, 1 YELLOW, 2 RED (11 R394, R395). -/
def Policer.police (p : Policer) (t len : Nat) : Policer × Nat :=
  let dt := t - p.last
  let l := len * 2 ^ 24
  let c := creditOf p.cir dt p.remC
  let last := max p.last t
  if p.mode = 1 then
    let tc0 := p.tc + c.1
    let cap := p.cbs * 2 ^ 24
    let te := if cap < tc0 then min (p.ebs * 2 ^ 24) (p.te + (tc0 - cap)) else p.te
    let tc := min cap tc0
    let p1 := { p with tc := tc, te := te, remC := c.2, last := last }
    if l ≤ tc then ({ p1 with tc := tc - l }, 0)
    else if l ≤ te then ({ p1 with te := te - l }, 1)
    else (p1, 2)
  else
    let d := creditOf p.pir dt p.remP
    let tp := min (p.ebs * 2 ^ 24) (p.te + d.1)
    let tc := min (p.cbs * 2 ^ 24) (p.tc + c.1)
    let p1 := { p with tc := tc, te := tp, remC := c.2, remP := d.2, last := last }
    if tp < l then (p1, 2)
    else if tc < l then ({ p1 with te := tp - l }, 1)
    else ({ p1 with te := tp - l, tc := tc - l }, 0)

/-- Whether a colour is dropped (11 R396). -/
def Policer.drops (p : Policer) (colour : Nat) : Bool := colour == 2 || (colour == 1 && p.drop)

/-- The arrival time of a descriptor, and whether its timestamp is taken as now (11 R393). -/
def arrivalOf (now ts : Nat) (valid : Bool) : Nat × Bool :=
  if valid then
    let d := (now % 2 ^ 32 + 2 ^ 32 - ts) % 2 ^ 32
    if d < 2 ^ 31 then (now - d, false) else (now, true)
  else (now, false)

/-! ### Enqueue (11 R386 to R390) -/

/-- An enqueue descriptor (11 R386). -/
structure Desc where
  run      : Nat
  ts       : Nat
  queue    : Nat
  policer  : Nat
  len      : Nat
  user     : Nat
  police   : Bool
  tsValid  : Bool
  freeOnly : Bool
  reserved : Bool
  deriving DecidableEq, Repr

/-- Reads a descriptor. -/
def descOf (b : Bytes) : Desc :=
  let v := unle (b.take 32)
  { run := field v 0 32, ts := field v 32 32, queue := field v 64 18, policer := field v 96 20, len := field v 128 15
    user := field v 144 8, police := v.testBit 152, tsValid := v.testBit 153, freeOnly := v.testBit 154
    reserved := decide (field v 82 14 ≠ 0 ∨ field v 116 12 ≠ 0 ∨ field v 143 1 ≠ 0 ∨ field v 155 101 ≠ 0) }

/-- A malformed descriptor or window write (11 R389, R409; 02 R70; log 68). -/
def State.qeMalf (s : State) (f window reason : Nat) (counts : Bool) : State :=
  let s1 : State := { s with qe := { s.qe with
    malformed := satAdd (2 ^ 32 - 1) s.qe.malformed 1
    malfInfo := reason + f * 16 + window % 512 * 256 } }
  let s2 := s1.reportAgg qeMalformed f 1000000000 reason (some f)
  if counts then s2.malformed f else s2

/-- The cells a packet occupies (11 R384). -/
def cellsFor (len : Nat) : Nat := (len + 4 + 255) / 256

/-- Steps 9 on of 11 R388: the packet is linked, or dropped at the queue's limit. -/
def State.enqueueAt (s : State) (d : Desc) (n : Nat) : State :=
  let k := cellsFor d.len
  let x := s.queueAt d.queue
  if x.limit < x.cells + k then (s.freeCells d.run n).qEvent evLimit d.queue 1 d.len
  else (((s.freeCells d.run n).linkTail d.queue d.run k d.len).poolCheck).qEvent evEnqueue d.queue 1 d.len

/-- Steps 7 and 8 of 11 R388: the policer. -/
def State.policeAt (s : State) (f window : Nat) (d : Desc) (n : Nat) : State :=
  if !d.police then s.enqueueAt d n
  else
    let s := s.policerTouch d.policer
    let p := s.policer d.policer
    if p.mode = 0 then (s.freeCells d.run n).qeMalf f window 5 true
    else
      let t := arrivalOf s.netNs d.ts d.tsValid
      let r := p.police t.1 d.len
      let s1 : State := { s with
        qe := { s.qe with
          policers := oset s.qe.policers d.policer (some r.1)
          tsClamped := if t.2 then satAdd (2 ^ 32 - 1) s.qe.tsClamped 1 else s.qe.tsClamped }
        ce := { s.ce with events := s.ce.events ++ [QEvent.mk true d.policer r.2 1 d.len] } }
      let s2 := s1.count 22 (2 + r.2)
      if p.drops r.2 then (s2.freeCells d.run n).qEvent evPolice d.queue 1 d.len else s2.enqueueAt d n

/-- The checks of 11 R388 in their order (log 56). -/
def State.enqueueDesc (s : State) (f window : Nat) (d : Desc) : State :=
  let mine := match s.heldRun d.run with
    | some (g, _, code) => if g = f then some (2 ^ code) else none
    | none => none
  let free (s : State) : State := match mine with
    | some n => s.freeCells d.run n
    | none => s
  if d.reserved then (free s).qeMalf f window 1 true
  else if d.len = 0 ∨ 16380 < d.len then (free s).qeMalf f window 2 true
  else match mine with
    | none => s.qeMalf f window 3 true
    | some n =>
      if n * 256 < d.len + 4 then (free s).qeMalf f window 4 true
      else if d.freeOnly then (free s).qEvent evReturned d.queue 1 d.len
      else if !ownerHas (s.queueAt d.queue).owner f then
        ((free s).report qeOwnerViolation (f * 2 ^ 32 + d.queue * 2 ^ 9 + window) (some f)).freeze f 2
      else if s.qe.draining || !(s.queueAt d.queue).enabled then (free s).qEvent evDisabled d.queue 1 d.len
      else s.policeAt f window d n

/-- ENQUEUE_DESCRIPTOR: the next descriptor of a function (11 R388, R389; 02 R71, R101). `halt`: the enqueue context that holds it
meets an uncorrectable SRAM error (11 R409; log 56). -/
def enqueueDescriptor (f : Nat) (halt : Option Nat) (s : State) : State :=
  if !s.enginesRun || !s.ctxFree 32 4 then s
  else match s.takeRecord f true with
    | none => s
    | some (s1, window, rec) =>
      if (s1.fnAt f).viral then s1.emit (.dropLog f window 3)
      else if s1.isFrozen f then s1.emit (.dropLog f window 2)
      else match halt with
        | some i => (s1.qeHalt (32 + i % 4)).qeMalf f window 6 false
        | none => s1.enqueueDesc f window (descOf rec)

/-! ### Egress rings (11 R402, R403; 02 R85, R93, R101; 15 R540) -/

/-- Egress ring `n` of a function. -/
def State.egressRing (s : State) (f n : Nat) : Option EgressRing := oget (s.fnAt f).egress n

/-- Changes egress ring `n` of a function. -/
def State.modEgress (s : State) (f n : Nat) (g : EgressRing → EgressRing) : State :=
  s.modFn f (fun h => { h with egress := omod h.egress n g })

/-- Whether the link of a function is lost (02 R95). -/
def State.linkLost (s : State) (f : Nat) : Bool := decide ((s.fnAt f).link = .down) || decide ((s.fnAt f).link = .disabled)

/-- The ring that a queue's next packet goes to, and whether it is the alternate of a pair; none: the queue is held (02 R93, R95,
R101; 15 R540). -/
def State.egressOf (s : State) (q : Nat) : Option ((Nat × Nat) × Bool) :=
  let x := s.queueAt q
  let regd (a : Option (Nat × Nat)) : Option (Nat × Nat) := match a with
    | some t => if (s.egressRing t.1 t.2).isSome then some t else none
    | none => none
  if (s.fnAt x.efn).viral then none
  else match s.egressRing x.efn x.ering with
    | some r =>
      match regd r.alt with
      | some t => if r.diverted || s.linkLost x.efn then some (t, true) else some ((x.efn, x.ering), false)
      | none => some ((x.efn, x.ering), false)
    | none => (regd (oget (s.fnAt x.efn).kept x.ering)).map (fun t => (t, true))

/-- Packets on their way to a ring. -/
def State.inFlight (s : State) (t : Nat × Nat) : Nat :=
  (s.qe.deq.filter (fun d => match d.target with
    | some x => x == t
    | none => (s.egressOf d.queue).map (fun e => e.1) == some t)).length

/-- Whether a function takes pushes: neither viral, nor without Bus Master Enable, nor with its link lost (02 R85, R95, R101). -/
def State.pushOpen (s : State) (f : Nat) : Bool :=
  (s.fnAt f).exist && (s.fnAt f).bme && !(s.fnAt f).viral && !s.linkLost f

/-- Whether a ring has a slot free of unconsumed records and of packets on their way (11 R403). -/
def State.ringRoom (s : State) (t : Nat × Nat) : Bool :=
  match s.egressRing t.1 t.2 with
  | some r => decide ((r.prod + 65536 - r.cons % 65536) % 65536 + s.inFlight t < r.slots)
  | none => false

/-- Whether a queue's egress ring is neither full nor held (12 R421). -/
def State.egressReady (s : State) (q : Nat) : Bool :=
  match s.egressOf q with
  | some (t, _) => s.pushOpen t.1 && s.ringRoom t
  | none => false

end Sys2Proof.Machine
end

