-- ==== Sys2Proof/Machine/Sched.lean ====
section
/-! DEFINITION. The scheduler: the node hierarchy and its active lists, shapers, the timing wheel, ports and time gates (12 R416 to
R443, R450, R453, R456). -/

namespace Sys2Proof.Machine
open Sys2Proof

/-! ### Nodes (12 R416, R417, R420, R427) -/

/-- The key of a node: level and number. -/
def nodeKey (lvl n : Nat) : Nat := lvl * 2 ^ 20 + n

/-- The level and number of a key. -/
def keyLvl (k : Nat) : Nat := k / 2 ^ 20
def keyNum (k : Nat) : Nat := k % 2 ^ 20

/-- The default attributes of a node (12 R417). -/
def Node.default : Node := ⟨none, 0, 16, 0, false, 1000000000, 16384, 16384 * 2 ^ 32, 0, 0⟩

/-- The default attributes of a port (12 R418). -/
def ScPort.default : ScPort := ⟨100000, 20, false, 0, none, none, none, []⟩

/-- Node `k`. -/
def State.node (s : State) (k : Nat) : Node := (oget s.sc.nodes k).getD Node.default

/-- Changes a node. -/
def State.modNode (s : State) (k : Nat) (g : Node → Node) : State :=
  { s with sc := { s.sc with nodes := oset s.sc.nodes k (some (g (s.node k))) } }

/-- Port `p`. -/
def State.scPort (s : State) (p : Nat) : ScPort := (oget s.sc.ports p).getD ScPort.default

/-- Changes a port. -/
def State.modScPort (s : State) (p : Nat) (g : ScPort → ScPort) : State :=
  { s with sc := { s.sc with ports := oset s.sc.ports p (some (g (s.scPort p))) } }

/-- Scheduler time in ns (12 R427). -/
def State.scTime (s : State) : Nat := s.now - s.sc.skew

/-- The key of a node's parent. -/
def State.parentOf (s : State) (k : Nat) : Option Nat := (s.node k).parent.map (fun p => nodeKey (keyLvl k - 1) p)

/-- The path of a queue: its subscriber, aggregate and port keys; none where it does not reach a port (12 R420). -/
def State.pathOf (s : State) (q : Nat) : Option (Nat × Nat × Nat) :=
  match s.parentOf (nodeKey 4 q) with
  | none => none
  | some k3 => match s.parentOf k3 with
    | none => none
    | some k2 => (s.parentOf k2).map (fun k1 => (k3, k2, k1))

/-- The port of a queue. -/
def State.portOfQueue (s : State) (q : Nat) : Option Nat := (s.pathOf q).map (fun x => keyNum x.2.2)

/-- SC_ORPHANS: queues that hold packets and have no path to a port (12 R420). -/
def State.orphans (s : State) : Nat :=
  ((oall s.qe.queues).filter (fun e => decide (0 < e.2.packets) && (s.pathOf e.1).isNone)).length

/-! ### Charges (12 R399, R419, R426) -/

/-- The LENGTH of a queue's head packet: of its head line; the descriptor's where that line is poisoned (12 R419; log 56). -/
def State.headLen (s : State) (q : Nat) : Option Nat :=
  (s.queueAt q).headLine.map (fun h => if h.testBit 512 then (s.pktAt ((s.queueAt q).head.getD 0)).len else h % 2 ^ 15)

/-- The transmit time of a charge in ns with 16 fractional bits (12 R426). -/
def txTime (charge rate : Nat) : Nat := charge * 8000 * 2 ^ 16 / max 1 rate

/-! ### Shapers (12 R428 to R432) -/

/-- The bucket of a shaper at scheduler time `t` (12 R428). -/
def Node.bucketAt (n : Node) (t : Nat) : Int :=
  min ((n.burst * 2 ^ 32 : Nat) : Int) (n.bucket + ((n.rate * (t - n.last) * 2 ^ 32 / 8000000000 : Nat) : Int))

/-- A shaper credits itself (12 R428; log 58). -/
def Node.credit (n : Node) (t : Nat) : Node := if n.shaper then { n with bucket := n.bucketAt t, last := max n.last t } else n

/-- Whether a node waits on the wheel. -/
def State.onWheel (s : State) (k : Nat) : Bool := s.sc.wheel.any (fun e => e.1 == k)

/-- Takes a node off the wheel. -/
def State.offWheel (s : State) (k : Nat) : State :=
  { s with sc := { s.sc with wheel := s.sc.wheel.filter (fun e => e.1 != k) } }

/-- The eligible time of a debt (12 R430). -/
def eligibleTime (t debt rate : Nat) : Nat := roundUp 8 (t + (debt * 8000000000 + rate * 2 ^ 32 - 1) / (max 1 rate * 2 ^ 32))

/-- The wheel that holds an eligible time (12 R433). -/
def wheelFor (now e : Nat) : Nat := if e - now < 32768 then 0 else if e - now < 2 ^ 27 then 1 else 2

/-- A node in debt is placed on the wheel; one that is not leaves it (12 R430, R433). -/
def State.placeNode (s : State) (k : Nat) : State :=
  let n := s.node k
  let s1 := s.offWheel k
  if n.shaper ∧ n.bucket < 0 then
    let e := eligibleTime s.scTime (-n.bucket).toNat n.rate
    ({ s1 with sc := { s1.sc with wheel := s1.sc.wheel ++ [(k, e, wheelFor s.scTime e)] } }).count 23 2
  else s1

/-- The debt floor, in 2^-32 bytes (12 R429). -/
def debtFloor : Int := -(16384 * 2 ^ 32)

/-- Charges one node: its bucket down to the debt floor; the bucket taken and what was clipped (12 R429). -/
def State.chargeNode (s : State) (k charge : Nat) : State × Nat × Nat :=
  let n := (s.node k).credit s.scTime
  if n.shaper then
    let want : Int := n.bucket - ((charge * 2 ^ 32 : Nat) : Int)
    let got := max debtFloor want
    let clip := (got - want).toNat
    let s1 := s.modNode k (fun _ => { n with bucket := got })
    let s2 : State := { s1 with sc := { s1.sc with debtClips := s1.sc.debtClips + clip } }
    (s2.placeNode k, (n.bucket - got).toNat, clip)
  else (s, 0, 0)

/-- Takes back the charges of a packet that is dropped at dequeue (11 R401; log 57). -/
def State.refund (s : State) (paid : List (Nat × Nat × Nat)) : State :=
  paid.foldl (fun s x =>
    let n := (s.node x.1).credit s.scTime
    if n.shaper then
      let s1 := s.modNode x.1 (fun _ => { n with bucket := min ((n.burst * 2 ^ 32 : Nat) : Int) (n.bucket + (x.2.1 : Int)) })
      ({ s1 with sc := { s1.sc with debtClips := s1.sc.debtClips - x.2.2 } } : State).placeNode x.1
    else s) s

/-! ### Gate lists (12 R436 to R442) -/

/-- The cycle time of a list (12 R436). -/
def GateList.cyc (g : GateList) : Nat := if g.cycle = 0 then max 1 ((g.entries.map (fun e => e.1)).foldl (· + ·) 0) else g.cycle

/-- The entries of one cycle as (index, start, end, state): the last stays in effect to the end, what lies beyond is cut (12 R437). -/
def gateSpans (cyc : Nat) : Nat → Nat → List (Nat × BitVec 8) → List (Nat × Nat × Nat × BitVec 8)
  | _, _, [] => []
  | i, a, [e] => if a < cyc then [(i, a, cyc, e.2)] else []
  | i, a, e :: rest => if a < cyc then (i, a, min cyc (a + e.1), e.2) :: gateSpans cyc (i + 1) (a + e.1) rest else []

/-- The spans of a list. -/
def GateList.spans (g : GateList) : List (Nat × Nat × Nat × BitVec 8) := gateSpans g.cyc 0 0 g.entries

/-- How far into its cycle a list is at time `t` (12 R437). -/
def GateList.phase (g : GateList) (t : Nat) : Nat := (((t : Int) - (g.base : Int)) % (g.cyc : Int)).toNat

/-- The entry in effect at `t`: index, state and the time it ends. -/
def GateList.entryAt (g : GateList) (t : Nat) : Nat × BitVec 8 × Nat :=
  let ph := g.phase t
  match g.spans.find? (fun x => decide (x.2.1 ≤ ph ∧ ph < x.2.2.1)) with
  | some x => (x.1, x.2.2.2, t + (x.2.2.1 - ph))
  | none => (0, 0xFF#8, t + 1)

/-- The first cycle start at or after `t` (12 R439). -/
def GateList.startAfter (g : GateList) (t : Nat) : Nat := if g.phase t = 0 then t else t + (g.cyc - g.phase t)

/-- The gate of a port at network time `t` (ns): entry index, state, and when that ends. The administrative list takes over at the
swap instant; without gate control, and before the first swap instant, every class is open (12 R439, R441, R442). -/
def ScPort.gateAt (p : ScPort) (t : Nat) : Nat × BitVec 8 × Option Nat :=
  if !p.gate then (0, 0xFF#8, none)
  else match p.admin, p.swapAt with
    | some a, some w =>
      if w ≤ t then (let x := a.entryAt t; (x.1, x.2.1, some x.2.2))
      else match p.oper with
        | some g => (let x := g.entryAt t; (x.1, x.2.1, some (min w x.2.2)))
        | none => (0, 0xFF#8, some w)
    | _, _ => match p.oper with
      | some g => (let x := g.entryAt t; (x.1, x.2.1, some x.2.2))
      | none => (0, 0xFF#8, none)

/-- Whether a class is open from `t` (ns) until `e16` (2^-16 ns) (12 R442). -/
def ScPort.openUntil (p : ScPort) (tc e16 : Nat) : Nat → Nat → Bool
  | 0, _ => true
  | fuel + 1, t =>
    let x := p.gateAt t
    if !x.2.1.getLsbD tc then false
    else match x.2.2 with
      | none => true
      | some e => if e16 ≤ e * 2 ^ 16 then true else p.openUntil tc e16 fuel e

/-- The start of the first window of a class, from `t` on, that is at least `x16` long (12 R438, R442). -/
def ScPort.scanWindow (p : ScPort) (tc x16 : Nat) : Nat → Nat → Option Nat → Option Nat
  | 0, _, _ => none
  | fuel + 1, t, run =>
    let x := p.gateAt t
    let run1 := if x.2.1.getLsbD tc then some (run.getD t) else none
    match run1, x.2.2 with
    | some r, none => some r
    | none, none => none
    | some r, some e => if x16 ≤ (e - r) * 2 ^ 16 then some r else p.scanWindow tc x16 fuel e run1
    | none, some e => p.scanWindow tc x16 fuel e none

/-- The next window that a packet fits, looked for in the operational list and then about the swap instant (12 R442). -/
def ScPort.nextWindow (p : ScPort) (tc x16 t : Nat) : Option Nat :=
  let len (g : Option GateList) : Nat := ((g.map (fun g => g.entries.length)).getD 0)
  match p.scanWindow tc x16 (3 * len p.oper + 6) t none with
  | some w => some w
  | none =>
    match p.swapAt with
    | some w =>
      let back := 2 * ((p.oper.map GateList.cyc).getD 0)
      p.scanWindow tc x16 (3 * len p.oper + 3 * len p.admin + 12) (max t (w - back)) none
    | none => none

/-- The longest window of a class in a list: none for one without end (12 R438). -/
def GateList.longest (g : GateList) (tc : Nat) : Option Nat :=
  if g.spans.all (fun x => x.2.2.2.getLsbD tc) then none
  else some ((g.spans ++ g.spans).foldl (fun (acc : Nat × Nat) x =>
    let run := if x.2.2.2.getLsbD tc then acc.1 + (x.2.2.1 - x.2.1) else 0
    (run, max acc.2 run)) (0, 0)).2

/-- Whether a transmit time fits a window of its class in a list the port has (12 R443). Before the first swap instant every class is
open, so a port without an operational list has such a window (12 R441; log 59). -/
def ScPort.fits (p : ScPort) (tc x16 : Nat) : Bool :=
  if !p.gate || p.oper.isNone then true
  else ([p.oper, p.admin].filterMap id).any (fun g => match g.longest tc with
    | none => true
    | some w => decide (x16 ≤ w * 2 ^ 16))

/-- The transmit time of a queue's head, with its port and class. -/
def State.headTx (s : State) (q : Nat) : Option (Nat × Nat × Nat) :=
  match s.portOfQueue q, s.headLen q with
  | some p, some l => some (p, (s.node (nodeKey 4 q)).tc, txTime (l + (s.scPort p).overhead) (s.scPort p).rate)
  | _, _ => none

/-- The gate test of a queue's head at the network time now (12 R442). -/
def State.gatePass (s : State) (q : Nat) : Bool :=
  match s.headTx q with
  | none => false
  | some (p, tc, x) =>
    let t16 := s.tu.ns40 / 2 ^ 24
    (s.scPort p).openUntil tc (t16 + x) (x / 2 ^ 16 + 3) (t16 / 2 ^ 16)

/-! ### Eligibility and active lists (12 R421, R423, R424) -/

/-- Whether a node's shaper lets it be eligible (12 R421, R429). -/
def State.conforms (s : State) (k : Nat) : Bool := !(s.node k).shaper || !s.onWheel k

/-- Whether a queue is eligible but for the gate test (12 R421; log 50). -/
def State.queueReady (s : State) (q : Nat) : Bool :=
  (s.queueAt q).headLine.isSome && (s.pathOf q).isSome && s.egressReady q && s.conforms (nodeKey 4 q)

/-- The active list a node belongs to: its parent and band. -/
def State.listOf (s : State) (k : Nat) : Option Nat := (s.parentOf k).map (fun p => p * 8 + (s.node k).band)

/-- The configured nodes of a level, ascending. -/
def State.nodesAt (s : State) (lvl : Nat) : List Nat := ((oall s.sc.nodes).map (fun e => e.1)).filter (fun k => keyLvl k == lvl)

/-- The nodes of a level with a child among `ks`. -/
def State.withChild (s : State) (lvl : Nat) (ks : List Nat) : List Nat :=
  (s.nodesAt lvl).filter (fun k => ks.any (fun c => s.parentOf c == some k))

/-- A child that leaves its active list: deficit 0 without packets, else at most one quantum (12 R424; log 50, 57). -/
def State.leaveList (s : State) (k : Nat) (has : Bool) : State :=
  s.modNode k (fun n => { n with deficit := if has then min n.deficit ((n.weight * 1024 : Nat) : Int) else 0 })

/-- Brings the active lists up to date with what is eligible now: what is no longer leaves, what has become so joins the tail, in
ascending order of what became so at once (12 R421, R423, R424); queues that fail the gate test are held (12 R442; log 50, 57). -/
def State.schedSync (s : State) : State :=
  if s.sc.nodes.isEmpty then s
  else
    let q4 := (s.nodesAt 4).filter (fun k => s.queueReady (keyNum k))
    let e4 := q4.filter (fun k => s.gatePass (keyNum k))
    let heldQ := (q4.filter (fun k => !s.gatePass (keyNum k))).map keyNum
    let e3 := (s.withChild 3 e4).filter s.conforms
    let e2 := (s.withChild 2 e3).filter s.conforms
    let elig := e2 ++ e3 ++ e4
    let h4 := (s.nodesAt 4).filter (fun k => decide (0 < (s.queueAt (keyNum k)).packets))
    let h3 := s.withChild 3 h4
    let has := h4 ++ h3 ++ s.withChild 2 h3
    let stays (lk k : Nat) : Bool := elig.contains k && s.listOf k == some lk
    let s1 := s.sc.active.foldl (fun s e => e.2.foldl (fun s k => if stays e.1 k then s else s.leaveList k (has.contains k)) s) s
    let act := s.sc.active.filterMap (fun e =>
      let m := e.2.filter (stays e.1)
      if m.isEmpty then none else some (e.1, m))
    let act2 := elig.foldl (fun (a : SMap (List Nat)) k => match s.listOf k with
      | some lk => if (sget [] a lk).contains k then a else smod [] a lk (· ++ [k])
      | none => a) act
    let s2 : State := { s1 with sc := { s1.sc with active := act2 } }
    (List.range 64).foldl (fun s p =>
      let mine := (heldQ.filter (fun q => s.portOfQueue q == some p)).map (fun q =>
        (q, match s.headTx q with
          | some (_, tc, x) => ((s.scPort p).nextWindow tc x s.netNs).getD 0
          | none => 0))
      let old := (s.scPort p).held
      if mine.isEmpty ∧ old.isEmpty then s
      else (s.modScPort p (fun x => { x with held := mine })).count 23 4
        (mine.filter (fun e => !old.any (fun o => o.1 == e.1))).length) s2

/-! ### Time of the gates and of the wheel -/

/-- Lets time pass until network time has reached `t` ns (log 1). -/
def State.advanceNet (s : State) (t : Nat) : State :=
  (List.range 4).foldl (fun s _ => if s.netNs < t then s.advance (s.now + (t - s.netNs)) else s) s

/-- A queue's head that fits no window of its class is dropped as GATE_OVERSIZE (12 R443). -/
def State.gateDrop (s : State) (q : Nat) : State :=
  match s.headTx q with
  | none => s
  | some (p, tc, x) =>
    if (s.scPort p).fits tc x then s
    else
      let len := (s.headLen q).getD 0
      match s.popHead q with
      | none => s
      | some (s1, first, k) =>
        let s2 := (s1.freePkt first k.cells).qEvent evGate q 1 len
        ({ s2 with sc := { s2.sc with gateOver := satAdd (2 ^ 32 - 1) s2.sc.gateOver 1 } } : State).reportAgg scGateOversize p
          1000000000 q

/-- Tests the heads of a port's queues against its lists (12 R443; log 59). -/
def State.gateDrops (s : State) (p : Nat) : State :=
  (s.nodesAt 4).foldl (fun s k => if s.portOfQueue (keyNum k) == some p then s.gateDrop (keyNum k) else s) s

/-- The administrative list of a port becomes operational (12 R439). -/
def State.swapGate (s : State) (p : Nat) : State :=
  match (s.scPort p).admin with
  | none => s
  | some g => ((s.modScPort p (fun x => { x with oper := some g, admin := none, swapAt := none })).report scGateSwapped p).gateDrops p

/-- GATE_SWAP: a swap instant is reached (12 R439, R441). -/
def gateSwap (p : Nat) (s : State) : State :=
  let x := s.scPort p
  match x.gate && x.admin.isSome && s.enginesRun, x.swapAt with
  | true, some w => ((s.advanceNet w).swapGate p).schedSync
  | _, _ => s

/-- GATE_ENTRY_CHANGE: the entry in effect ends; held queues are looked at again (12 R437, R442). -/
def gateEntryChange (p : Nat) (s : State) : State :=
  if 64 ≤ p ∨ !s.enginesRun then s
  else match ((s.scPort p).gateAt s.netNs).2.2 with
    | none => s
    | some e => (s.advanceNet e).schedSync

/-- What a step of network time does to a port: a swap instant that it passed moves to the first operational cycle start at or after
the new time (12 R450). -/
def State.gateStep (s : State) (p : Nat) : State :=
  s.modScPort p (fun x => match x.swapAt with
    | some w => if w ≤ s.netNs then { x with swapAt := some ((x.oper.map (fun g => g.startAfter s.netNs)).getD s.netNs) } else x
    | none => x)

/-- Every port re-evaluates its gates after a step (12 R450). -/
def State.gatesStepped (s : State) : State :=
  (((oall s.sc.ports).map (fun e => e.1)).foldl (fun s p => if (s.scPort p).swapAt.isSome then s.gateStep p else s) s).schedSync

/-- WHEEL_SLOT_RELEASE: the next fine slot releases its nodes, up to 4 in each CLK_TM cycle (12 R434, R435; log 58). -/
def wheelSlotRelease (s : State) : State :=
  if !s.enginesRun then s
  else match minBy (fun (e : Nat × Nat × Nat) => e.2.1) (s.sc.wheel.filter (fun e => e.2.2 == 0)) with
    | none => s
    | some x =>
      let s1 := s.advance (x.2.1 + s.sc.skew)
      let gone := s1.sc.wheel.filter (fun e => e.2.2 == 0 && e.2.1 == x.2.1)
      let lag := if 38 < gone.length then min 65535 ((gone.length + 3) / 4 * 5 / 6) else 0
      let s2 : State := { s1 with sc := { s1.sc with
        wheel := s1.sc.wheel.filter (fun e => !(e.2.2 == 0 && e.2.1 == x.2.1))
        wheelLag := max s1.sc.wheelLag lag } }
      let s3 := s2.count 23 3 gone.length
      (if 1000 < lag then s3.reportAgg scWheelLag 0 1000000000 lag else s3).schedSync

/-- When the slot of a medium or coarse entry becomes current (12 R433, R434). -/
def slotStart (e : Nat × Nat × Nat) : Nat := if e.2.2 = 1 then e.2.1 / 32768 * 32768 else e.2.1 / 2 ^ 27 * 2 ^ 27

/-- WHEEL_CASCADE: the next medium or coarse slot becomes current and its nodes move to the wheel of their eligible time (12 R434). -/
def wheelCascade (s : State) : State :=
  if !s.enginesRun then s
  else match minBy slotStart (s.sc.wheel.filter (fun e => e.2.2 != 0)) with
    | none => s
    | some x =>
      let s1 := s.advance (slotStart x + s.sc.skew)
      { s1 with sc := { s1.sc with wheel := s1.sc.wheel.map (fun (e : Nat × Nat × Nat) =>
        if e.2.2 == x.2.2 && slotStart e == slotStart x then (e.1, e.2.1, wheelFor s1.scTime e.2.1) else e) } }

/-! ### What a commit does (12 R417, R418, R424, R432, R436, R439 to R441; 15 R547, R548) -/

/-- Applies a staged node (12 R417, R424, R432). -/
def State.applyNode (s : State) (lvl n : Nat) (b : Bytes) : State :=
  let k := nodeKey lvl n
  let old := s.node k
  let parent := if rd b 16 4 = 0xFFFFFFFF then none else some (rd b 16 4)
  let band := rd b 9 1
  let weight := rd b 10 1
  let on := (rd b 12 1).testBit 0
  let forgive := (rd b 12 1).testBit 1
  let rate := rd b 24 8
  let burst := rd b 20 4
  let moved := decide (old.parent ≠ parent ∨ old.band ≠ band ∨ old.weight ≠ weight)
  let c := old.credit s.scTime
  let bucket : Int :=
    if !on then old.bucket
    else if !old.shaper then ((burst * 2 ^ 32 : Nat) : Int)
    else if 0 ≤ c.bucket then min c.bucket ((burst * 2 ^ 32 : Nat) : Int)
    else if forgive then 0 else c.bucket
  let node : Node := { old with
    parent := parent, band := band, weight := weight, tc := if lvl = 4 then rd b 11 1 else 0
    shaper := on, rate := rate, burst := burst, bucket := bucket, last := s.scTime
    deficit := if moved then 0 else old.deficit }
  let s1 := s.modNode k (fun _ => node)
  let s2 : State := if moved then { s1 with sc := { s1.sc with active := s1.sc.active.filterMap (fun e =>
    let m := e.2.filter (· != k)
    if m.isEmpty then none else some (e.1, m)) } } else s1
  if on ∧ old.shaper ∧ bucket < 0 ∧ rate = old.rate then s2 else s2.placeNode k

/-- Applies a staged port: line time and lists are kept; gate control turned ON swaps in a list whose instant has passed (12 R418,
R441, R453; log 59). -/
def State.applyPort (s : State) (p : Nat) (b : Bytes) : State :=
  let was := (s.scPort p).gate
  let on := decide (rd b 13 1 = 1)
  let s1 := s.modScPort p (fun x => { x with rate := rd b 8 4, overhead := rd b 12 1, gate := on })
  match on && !was, (s1.scPort p).swapAt with
  | true, some w => if w ≤ s1.netNs then s1.swapGate p else s1.gateDrops p
  | _, _ => s1.gateDrops p

/-- Applies a staged gate list (12 R436, R439, R440). -/
def State.applyGateList (s0 : State) (p : Nat) (b : Bytes) : State :=
  let passed := match (s0.scPort p).swapAt with
    | some w => (s0.scPort p).gate && decide (w ≤ s0.netNs)
    | none => false
  let s := if passed then s0.swapGate p else s0
  let base := rd b 16 6 * 1000000000 + rd b 12 4
  let change := max base (rd b 32 6 * 1000000000 + rd b 24 4)
  let g : GateList := ⟨rd b 8 4, base, change, (List.range (rd b 40 2)).map (fun i =>
    (rd b (48 + 4 * i) 3, BitVec.ofNat 8 (rd b (51 + 4 * i) 1)))⟩
  let at_ := max change s.netNs
  let swap := ((s.scPort p).oper.map (fun o => o.startAfter at_)).getD at_
  s.modScPort p (fun x => { x with admin := some g, swapAt := some swap })

/-! ### SC_QUERY and the registers (12 R456; 15 R535) -/

/-- SC_GATE_STATE of a port (12 R456). -/
def State.gateReg (s : State) (p : Nat) : Nat :=
  let x := s.scPort p
  let g := x.gateAt s.netNs
  g.2.1.toNat + g.1 * 2 ^ 8 + b2n x.admin.isSome * 2 ^ 16 + b2n x.gate * 2 ^ 17

/-- A gate list in bytes (log 17). -/
def GateList.bytes (g : Option GateList) : Bytes :=
  match g with
  | none => List.replicate 1048 0
  | some g =>
    let e := (g.entries.map (fun (e : Nat × BitVec 8) => le 3 e.1 ++ [e.2])).flatten
    le 4 g.cycle ++ le 2 g.entries.length ++ le 2 1 ++ le 8 g.base ++ le 8 g.change ++ e ++ List.replicate (1024 - e.length) 0

/-- The record of a port: its configuration, line time, gate state and lists (log 17). -/
def State.portRecord (s : State) (p : Nat) : Bytes :=
  let x := s.scPort p
  le 4 x.rate ++ le 1 x.overhead ++ le 1 (b2n x.gate) ++ le 2 0 ++ le 8 x.lineTime ++ le 4 (s.gateReg p) ++ le 4 0 ++
    le 8 (x.swapAt.getD 0) ++ GateList.bytes x.oper ++ GateList.bytes x.admin

/-- The record of a node: its configuration, bucket, deficit and eligible time (log 17). -/
def State.nodeRecord (s : State) (k : Nat) : Bytes :=
  let n := s.node k
  le 1 (keyLvl k) ++ le 1 n.band ++ le 1 n.weight ++ le 1 n.tc ++ le 1 (b2n n.shaper) ++ le 3 0 ++
    le 4 (n.parent.getD 0xFFFFFFFF) ++ le 4 n.burst ++ le 8 n.rate ++
    le 8 (unsigned 64 ((n.credit s.scTime).bucket)) ++ le 8 (unsigned 64 n.deficit) ++
    le 8 (((s.sc.wheel.find? (fun e => e.1 == k)).map (fun e => e.2.1)).getD 0)

/-- The object of SC_QUERY at a position: ports, then the levels below; an object is level × 2^20 + number (log 17). -/
def scObject (i : Nat) : Nat :=
  if i < 64 then nodeKey 1 i
  else if i < 64 + 4096 then nodeKey 2 (i - 64)
  else if i < 64 + 4096 + 65536 then nodeKey 3 (i - 4160)
  else nodeKey 4 (i - 69696)

/-- The position of an object of SC_QUERY. -/
def scPosition (obj : Nat) : Option Nat :=
  let l := keyLvl obj
  let n := keyNum obj
  if l = 0 ∧ n = 0 then some 0
  else if 1 ≤ l ∧ l ≤ 4 ∧ n < levelSize l then
    some (n + (if l = 1 then 0 else if l = 2 then 64 else if l = 3 then 4160 else 69696))
  else none

/-- SC_QUERY (15 R535). -/
def scQuery : Body := fun p b s =>
  let obj := rd b 4 4
  match scPosition obj with
  | none => (s, ans stObjectAbsent obj)
  | some i =>
    let given := rd b 8 4
    let room := match p with
      | .ring _ _ _ => 65536
      | _ => pathMax p - 8
    let want := min (clampN 1 65536 given) (331840 - i)
    let sizes (j : Nat) : Nat := if i + j < 64 then 2128 else 48
    let fit := (List.range (min want (room / 48 + 1))).foldl (fun (acc : Nat × Nat) j =>
      if acc.2 + sizes j ≤ room ∧ acc.1 = j then (acc.1 + 1, acc.2 + sizes j) else acc) (0, 0)
    let c := fit.1
    let next := if i + c < 331840 then scObject (i + c) else 0xFFFFFFFF
    let applied := if c < want then c else clampN 1 65536 given
    let cl := if applied = given then [] else [(8, given, applied)]
    (s.direct p 0xC243 22 obj cl, ans (okStatus cl) next (((List.range c).map (fun j =>
      if i + j < 64 then s.portRecord (i + j) else s.nodeRecord (scObject (i + j)))).flatten))

def execScQuery (p : Path) (b : Bytes) (s : State) : Host.Outcome State Fault Refusal := .next (s.command p 0xC243 b scQuery)

/-- SC_WHEEL_LAG is read and cleared (12 R456). -/
def execScWheelLagRead (s : State) : Host.Outcome State Fault Refusal :=
  .next ({ s with sc := { s.sc with wheelLag := 0 } }.emit (.regValue s.sc.wheelLag))

def execWheelSlotRelease (s : State) : Host.Outcome State Fault Refusal := .next (wheelSlotRelease s)

def execWheelCascade (s : State) : Host.Outcome State Fault Refusal := .next (wheelCascade s)

def execGateEntryChange (port : Nat) (s : State) : Host.Outcome State Fault Refusal := .next (gateEntryChange port s)

def execGateSwap (port : Nat) (s : State) : Host.Outcome State Fault Refusal := .next (gateSwap port s)

end Sys2Proof.Machine
end

