-- ==== Sys2Proof/Machine/Deq.lean ====
section
/-! DEFINITION. Head lines, scheduler decisions, dequeue reads and pushes, ring moderation, the queue engine's commands, and what losses
do to it (11 R373, R377 to R383, R399 to R411; 12 R422, R423; 15 R538 to R540, R545, R546). -/

namespace Sys2Proof.Machine
open Sys2Proof

/-! ### Head lines (11 R399) -/

/-- A line as the head-line buffer keeps it: bit 512 poisoned (log 13). -/
def keptLine (x : LineRead) : Nat := x.data.toNat + b2n x.poison * 2 ^ 512

/-- HEAD_LINE_RETURN: the first line of a backlogged queue's head packet arrives (11 R399); a full buffer of 65,536 lines evicts its
oldest (log 13). A head that fits no window is dropped (12 R443). -/
def headLineReturn (q : Nat) (s : State) : State :=
  let x := s.queueAt q
  match x.head, x.headLine with
  | some h, none =>
    if !s.enginesRun then s
    else
      let a := (s.count 22 5).memRead (h * 4) 8
      let s1 : State := if 65536 ≤ a.1.qe.heads.length then
        match a.1.qe.heads with
        | old :: rest => ({ a.1 with qe := { a.1.qe with heads := rest } } : State).modQueue old (fun y => { y with headLine := none })
        | [] => a.1
        else a.1
      let s2 := s1.modQueue q (fun y => { y with headLine := some (keptLine a.2) })
      (({ s2 with qe := { s2.qe with heads := s2.qe.heads ++ [q] } } : State).gateDrop q).schedSync
  | _, _ => s

/-! ### Decisions (12 R422, R423, R426, R429) -/

/-- Replaces an active list. -/
def State.setActive (s : State) (lk : Nat) (l : List Nat) : State :=
  { s with sc := { s.sc with active := sset [] s.sc.active lk l } }

/-- DWRR on one active list: quanta are added until the head has a positive deficit (12 R423). -/
def State.dwrr (s : State) (lk : Nat) : Nat → Option (State × Nat)
  | 0 => none
  | fuel + 1 =>
    match sget [] s.sc.active lk with
    | [] => none
    | c :: rest =>
      if (s.node c).deficit ≤ 0 then
        (((s.modNode c (fun n => { n with deficit := n.deficit + ((n.weight * 1024 : Nat) : Int) })).setActive lk
          (rest ++ [c])).count 23 1).dwrr lk fuel
      else some (s, c)

/-- The child chosen under a node: of its lowest-numbered band that is not empty; with the band's list (12 R423). -/
def State.pickChild (s : State) (k : Nat) : Option (State × Nat × Nat) :=
  match (List.range 8).find? (fun b => !(sget [] s.sc.active (k * 8 + b)).isEmpty) with
  | none => none
  | some b =>
    let lk := k * 8 + b
    (s.dwrr lk (20 * (sget [] s.sc.active lk).length + 1)).map (fun r => (r.1, r.2, lk))

/-- Charges a chosen child's deficit; at or below 0 it moves to the tail (12 R423). -/
def State.chargeDeficit (s : State) (lk c charge : Nat) : State :=
  let d := (s.node c).deficit - (charge : Int)
  let s1 := s.modNode c (fun n => { n with deficit := d })
  if d ≤ 0 then s1.setActive lk ((sget [] s1.sc.active lk).filter (· != c) ++ [c]) else s1

/-- The ports that can take a decision now (12 R421, R426). -/
def State.portsReady (s : State) : List Nat :=
  (List.range 64).filter (fun p =>
    (List.range 8).any (fun b => !(sget [] s.sc.active (nodeKey 1 p * 8 + b)).isEmpty) &&
      decide ((s.scPort p).lineTime ≤ s.scTime * 2 ^ 16))

/-- Dequeue contexts that are free (11 R409). -/
def State.deqRoom (s : State) : Bool :=
  decide (s.qe.deq.length < ((List.range 32).filter (fun i => !s.qe.ctxHalted.getLsbD i)).length)

/-- SCHEDULER_DECISION: one packet of one queue of the next eligible port (12 R422, R423); every node of the path is charged (12
R429). -/
def schedulerDecision (s0 : State) : State :=
  if !s0.enginesRun then s0
  else
    let s := s0.schedSync
    let ready := s.portsReady
    match (ready.find? (fun p => decide (s.sc.rrPort ≤ p))).or ready.head? with
    | none => s
    | some p =>
      if !s.deqRoom then s
      else match s.pickChild (nodeKey 1 p) with
        | none => s
        | some (s2, k2, l2) => match s2.pickChild k2 with
          | none => s
          | some (s3, k3, l3) => match s3.pickChild k3 with
            | none => s
            | some (s4, k4, l4) =>
              let q := keyNum k4
              let charge := (s4.headLen q).getD 0 + (s4.scPort p).overhead
              let head := ((s4.queueAt q).headLine).getD 0
              let s5 := ((s4.chargeDeficit l2 k2 charge).chargeDeficit l3 k3 charge).chargeDeficit l4 k4 charge
              let c2 := s5.chargeNode k2 charge
              let c3 := c2.1.chargeNode k3 charge
              let c4 := c3.1.chargeNode k4 charge
              let s6 := c4.1.modScPort p (fun x => { x with
                lineTime := max x.lineTime (s.scTime * 2 ^ 16) + txTime charge x.rate })
              match s6.popHead q with
              | none => s
              | some (s7, first, pkt) =>
                let d : Deq := ⟨q, first, pkt.cells, pkt.len, head, (s7.queueAt q).cells, [(k2, c2.2), (k3, c3.2), (k4, c4.2)],
                  false, 0, 0, [], false, false, false, 0, 0, none, min pkt.cells (s7.entriesFor 8)⟩
                (({ s7 with
                  qe := { s7.qe with deq := s7.qe.deq ++ [d] }
                  sc := { s7.sc with rrPort := (p + 1) % 64 } } : State).count 23 0).schedSync

/-! ### Dequeue reads (11 R400, R401) -/

/-- Changes the packet on its way whose first cell is given. -/
def State.modDeq (s : State) (first : Nat) (g : Deq → Deq) : State :=
  { s with qe := { s.qe with deq := s.qe.deq.map (fun (d : Deq) => if d.first == first then g d else d) } }

/-- A packet leaves its dequeue context. -/
def State.dropDeq (s : State) (d : Deq) : State :=
  { s with qe := { s.qe with deq := s.qe.deq.filter (fun x => x != d) } }

/-- A packet is dropped at dequeue: its cells are freed, the drop is posted, and its shapers are not charged (11 R401; log 57). -/
def State.deqDrop (s : State) (d : Deq) (code len : Nat) : State :=
  ((((s.dropDeq d).freePkt d.first d.cells).qEvent code d.queue 1 len).refund d.paid).schedSync

/-- Reads every line of a packet but the first, which is its head line: the bytes, and the first cell that came back poisoned (11
R399, R400). -/
def State.readPacket (s : State) (d : Deq) : State × Bytes × Option Nat :=
  (List.range (4 * d.cells)).foldl (fun (acc : State × Bytes × Option Nat) i =>
    let r : State × Line × Bool := if i = 0 then (acc.1, BitVec.ofNat 512 d.head, d.head.testBit 512)
      else
        let x := acc.1.memRead (d.first * 4 + i) 8
        (x.1, x.2.data, x.2.poison)
    (r.1, acc.2.1 ++ lineBytes r.2.1, if acc.2.2.isNone && r.2.2 then some (d.first + i / 4) else acc.2.2)) (s, [], none)

/-- Whether a spill header is right for a packet of `cells` cells (11 R384, R401 order 3). -/
def headerOk (b : Bytes) (cells : Nat) : Bool :=
  let len := rd b 0 2 % 2 ^ 15
  b.getD 3 0 == (b.getD 0 0 ^^^ b.getD 1 0 ^^^ b.getD 2 0 ^^^ 0xA5#8) && decide (len ≠ 0) && decide (len ≤ 16380) &&
    decide (len + 4 ≤ cells * 256)

/-- Pushes started to a ring. -/
def State.startedOn (s : State) (t : Nat × Nat) : Nat := (s.qe.deq.filter (fun d => d.started && d.target == some t)).length

/-- Starts the push of a read packet to a ring: the slot after those written and started; one longer than the slot size is dropped
(11 R401 order 4, R403, R404; 02 R94). -/
def State.startOn (s : State) (d : Deq) (t : Nat × Nat) (alt : Bool) : State :=
  match s.egressRing t.1 t.2 with
  | none => s
  | some r =>
    if r.slotSize < d.size then s.deqDrop d evOversize d.size
    else
      let n := s.startedOn t
      if (r.prod + 65536 - r.cons % 65536) % 65536 + n < r.slots then
        s.modDeq d.first (fun x => { x with
          started := true, alt := alt, time := s.netNs % 2 ^ 32, slot := r.prod + n, target := some t })
      else s

/-- Starts the push of a read packet where its queue's ring takes it (log 60). -/
def State.tryStart (s : State) (d : Deq) : State :=
  match s.egressOf d.queue with
  | some (t, alt) => if s.pushOpen t.1 then s.startOn d t alt else s
  | none => s

/-- Packets whose reads found no in-flight entry take the entries that are free, the first selected first (01 R51, R52). -/
def State.grantEntries (s : State) : State :=
  (s.qe.deq.filter (fun d => !d.read && decide (d.entries = 0))).foldl
    (fun s d => s.modDeq d.first (fun x => { x with entries := min x.cells (s.entriesFor 8) })) s

/-- DEQUEUE_PACKET_READ: the cells of a selected packet are read and checked in the order of 11 R401. `halt`: its dequeue context
meets an uncorrectable SRAM error (11 R409). A packet whose read has no in-flight entry waits (01 R52). -/
def dequeuePacketRead (q : Nat) (halt : Option Nat) (s0 : State) : State :=
  let s := s0.grantEntries
  if !s.enginesRun then s
  else match s.qe.deq.find? (fun d => d.queue == q && !d.read && decide (d.entries ≠ 0)) with
    | none => s
    | some d =>
      match halt with
      | some i => (s.qeHalt (i % 32)).deqDrop d evBufErr d.len
      | none =>
        if (List.range d.cells).any (fun i => s.cellFenced (d.first + i)) then s.deqDrop d evFence d.len
        else
          let a := s.readPacket d
          match a.2.2 with
          | some c => (a.1.report qeBufferError c (some 8)).deqDrop d evBufErr d.len
          | none =>
            if !headerOk a.2.1 d.cells then a.1.deqDrop d evHeader d.len
            else
              let size := rd a.2.1 0 2 % 2 ^ 15
              let d1 : Deq := { d with read := true, entries := 0, size := size, user := rd a.2.1 2 1, data := (a.2.1.drop 4).take size }
              let s1 := a.1.modDeq d.first (fun _ => d1)
              match (s1.egressOf q).bind (fun t => s1.egressRing t.1.1 t.1.2) with
              | some r => if r.slotSize < size then s1.deqDrop d1 evOversize size else s1.tryStart d1
              | none => s1

/-! ### Pushes (11 R403 to R406; 02 R77, R85) -/

/-- A completion record (11 R404). -/
def pushRecord (d : Deq) (slots time : Nat) : Bytes :=
  le 32 (d.size + b2n (decide (d.slot / slots % 2 = 0)) * 2 ^ 15 + d.user * 2 ^ 16 + b2n d.alt * 2 ^ 24 + b2n d.repush * 2 ^ 25 +
    d.queue * 2 ^ 32 + time * 2 ^ 64 + d.slot % slots * 2 ^ 96 + d.depth % 2 ^ 32 * 2 ^ 128)

/-- The push of a started packet: its data, then its record, into its slot (01 R40; 11 R403 to R406). While the link is in recovery or in L1
the push stays in progress (02 R98). -/
def State.pushOn (s : State) (d : Deq) (t : Nat × Nat) : State :=
  match s.egressRing t.1 t.2 with
  | none => s
  | some r =>
    if d.slot ≠ r.prod ∨ !s.pushOpen t.1 ∨ !s.linkL0 t.1 then s
    else
      let i := d.slot % r.slots
      let time := if d.repush then s.netNs % 2 ^ 32 else d.time
      let s1 := s.hostWrite t.1 (r.base + i * r.slotSize) d.data 8
      let s2 := s1.hostWrite t.1 (r.recBase + i * 32) (pushRecord d r.slots time) 8
      let k := moderate r.unsig r.unsigAt r.modCount s.now
      let s3 := s2.modEgress t.1 t.2 (fun r => { r with prod := r.prod + 1, unsig := k.2.1, unsigAt := k.2.2 })
      let s4 := ((s3.cause t.1 2).ringVector t.1 (16 + t.2) k.1).count 22 6
      ((((s4.dropDeq d).freePkt d.first d.cells).qEvent evDequeue d.queue 1 d.size)).schedSync

/-- PACKET_PUSH: the push of a queue's oldest read packet starts, where it had to wait, and ends (11 R403; log 60). -/
def packetPush (q : Nat) (s : State) : State :=
  if !s.enginesRun then s
  else match s.qe.deq.find? (fun d => d.queue == q && d.read) with
    | none => s
    | some d =>
      let s1 := if d.started then s else s.tryStart d
      match s1.qe.deq.find? (fun x => x.first == d.first && x.started) with
      | some x => match x.target with
        | some t => s1.pushOn x t
        | none => s1
      | none => s1

/-- A push that is discarded (11 R406; 02 R95). -/
def State.pushDiscard (s : State) (d : Deq) : State :=
  (((s.dropDeq d).freePkt d.first d.cells).qEvent evDiscard d.queue 1 d.size).schedSync

/-- The pushes started to rings of a function. -/
def State.pushesTo (s : State) (f : Nat) : List Deq :=
  s.qe.deq.filter (fun d => d.started && (match d.target with
    | some t => t.1 == f
    | none => false))

/-- PERST_N, hot reset, link disable and function-level reset discard the pushes of a function (02 R92, R95; log 69). -/
def State.discardPushes (s : State) (f : Nat) : State := (s.pushesTo f).foldl (fun s d => s.pushDiscard d) s

/-- A surprise link down: pushes of a paired ring start again on the alternate, those of an unpaired one are discarded, and the
traffic of paired rings leaves the link (02 R93, R95; log 60). The packets of a viral function are held instead: they do not move to the
alternate (02 R101). -/
def State.failPushes (s : State) (f : Nat) : State :=
  let paired (r : EgressRing) : Option (Nat × Nat) := r.alt.bind (fun t => if (s.egressRing t.1 t.2).isSome then some t else none)
  let s1 := s.modFn f (fun h => { h with egress := h.egress.map (fun (e : Nat × Option EgressRing) =>
    (e.1, e.2.map (fun r => { r with diverted := r.diverted || r.alt.isSome }))) })
  (s.pushesTo f).foldl (fun s d =>
    match (d.target.bind (fun t => s.egressRing t.1 t.2)).bind paired with
    | some t =>
      let d1 : Deq := { d with started := false, repush := true, target := none }
      let s2 := s.modDeq d.first (fun _ => d1)
      if (s.fnAt f).viral then s2 else s2.startOn d1 t true
    | none => s.pushDiscard d) s1

/-- Bus Master Enable is cleared: pushes in progress start again, to the same slots, once it is set (02 R85; log 60). -/
def State.stallPushes (s : State) (f : Nat) : State :=
  (s.pushesTo f).foldl (fun s d => s.modDeq d.first (fun x => { x with repush := true })) s

/-- RING_MODERATION_TIMER: the moderation time of a ring has passed since its first unsignalled entry (11 R405; 14 R493). -/
def ringModerationTimer (f : Nat) (ring : RingName) (s : State) : State :=
  match ring with
  | .fcr => match (s.fnAt f).fcr with
    | some q =>
      if q.unsig = 0 then s
      else
        let s1 := (s.advance (q.unsigAt + q.modTime * 1000)).modFn f (fun h => { h with fcr := h.fcr.map (fun q => { q with unsig := 0 }) })
        if (s.fnAt f).intEnable.getLsbD 0 then s1.vector f 1 else s1
    | none => s
  | .free m => match s.freeRing f m with
    | some q =>
      if q.unsig = 0 then s
      else ((s.advance (q.unsigAt + q.modTime * 1000)).modFree f m (fun q => { q with unsig := 0 })).vector f (80 + m)
    | none => s
  | .egress n => match s.egressRing f n with
    | some q =>
      if q.unsig = 0 then s
      else ((s.advance (q.unsigAt + q.modTime * 1000)).modEgress f n (fun q => { q with unsig := 0 })).vector f (16 + n)
    | none => s

/-! ### Buffer regions and rings: commands (11 R373, R377, R382, R402; 15 R538 to R540, R546) -/

/-- QE_BUF_REGISTER (11 R373): the region's cell link table takes its media, a MIRROR extent of 1/64 of the region (03 R107). Where no media is free for
it, the registration stands and the table has no place of its own (DESIGN CHOICE, log 9). -/
def qeBufRegister : Body := fun _ b s =>
  let n := rd b 4 4
  if 64 ≤ n then (s, ans stObjectAbsent n)
  else match s.region n with
    | none => (s, ans stBufRange n)
    | some r =>
      if 2 ^ 40 < r.base + r.size ∨ n ∈ s.qe.bufs ∨ 4 ≤ s.qe.bufs.length then (s, ans stBufRange n)
      else
        let table := (s.placeExtent 1 0 s.popMask (r.size / 64)).getD Extent.none
        ({ s with
          qe := { s.qe with bufs := s.qe.bufs ++ [n] }
          rg := { s.rg with links := s.rg.links ++ [(n, table)] } }, ans stSuccess n)

/-- QE_BUF_DEREGISTER: refused while cells are HELD or QUEUED; free rings that name the region go with it (11 R382, R411). -/
def qeBufDeregister : Body := fun _ b s =>
  let n := rd b 4 4
  if 64 ≤ n then (s, ans stObjectAbsent n)
  else if ¬ n ∈ s.qe.bufs then (s, ans stBufRange n)
  else match s.bufs.find? (fun x => x.1 == n) with
    | none => (s, ans stBufRange n)
    | some (_, r) =>
      if s.freeCount r ≠ r.cellSpan.2 then (s, ans stBufInUse n)
      else
        let s1 := s.allFree.foldl (fun s x => match s.freeRing x.1 x.2 with
          | some q => if q.region = n then s.dropFreeRing x.1 x.2 false else s
          | none => s) s
        ({ s1 with
          qe := { s1.qe with bufs := s1.qe.bufs.filter (· != n), poolLow := s1.qe.poolLow.filter (· != n) }
          rg := { s1.rg with links := s1.rg.links.filter (fun e => e.1 != n) } }, ans stSuccess n)

/-- QE_FREE_RING (11 R377; 15 R538). -/
def qeFreeRing : Body := fun p b s =>
  let m := rd b 4 4
  let f := who p
  if f = 15 then (s, ans stNotPermitted m)
  else if 16 ≤ m then (s, ans stObjectAbsent m)
  else if (s.freeRing f m).isSome then (s, ans stRingActive m)
  else
    let c := applyRules [⟨8, 8, roundDown 64⟩, ⟨24, 4, pow2Below 4 15⟩, ⟨28, 1, fun v => if v ≤ 6 then v else 0⟩, fRange 30 2 1 256,
      fRange 32 2 1 1000] b
    if ¬ rd b 29 1 ∈ s.qe.bufs then (s, ans stBufRange m)
    else
      let q : FreeRing := ⟨rd c.1 8 8, rd c.1 24 4, rd c.1 28 1, rd c.1 29 1, rd c.1 30 2, rd c.1 32 2, 0, 0, [], 0, 0, 0⟩
      let s1 := s.modFn f (fun h => { h with freeRings := oset h.freeRings m (some q) })
      (s1.direct p 0xC210 14 m c.2, ans (okStatus c.2) m)

/-- QE_FREE_RING_DEREG (11 R382; 15 R537). -/
def qeFreeRingDereg : Body := fun p b s =>
  let m := rd b 4 4
  let f := who p
  if f = 15 then (s, ans stNotPermitted m)
  else if 16 ≤ m ∨ (s.freeRing f m).isNone then (s, ans stObjectAbsent m)
  else (s.dropFreeRing f m true, ans stSuccess m)

/-- ALT_FN as applied: a function of the other port, named by the management function, with a ring number in range (15 R538, R539). -/
def altFn (mgmt : Bool) (f ring v : Nat) : Nat := if v < 4 ∧ mgmt ∧ v / 2 ≠ f / 2 ∧ ring < 64 then v else 0xFF

/-- QE_EGRESS_RING (11 R402; 15 R538 to R540). A ring that a reset of its port removed and that is registered again without an alternate is
not paired again: its traffic stays on the alternate (02 R93; log 60). -/
def qeEgressRing : Body := fun p b s =>
  let n := rd b 4 4
  let f := who p
  if f = 15 then (s, ans stNotPermitted n)
  else if 64 ≤ n then (s, ans stObjectAbsent n)
  else
    let altRule : FieldRule := ⟨34, 1, altFn (s.isMgmt f) f (rd b 35 1)⟩
    if (rd b 36 1).testBit 0 then
      if (s.egressRing f n).isNone then (s, ans stObjectAbsent n)
      else
        let c := applyRules [altRule] b
        let alt := if rd c.1 34 1 = 0xFF then none else some (rd c.1 34 1, rd c.1 35 1)
        let s1 := s.modEgress f n (fun r => { r with alt := alt, diverted := s.linkLost f })
        (((s1.direct p 0xC220 14 n c.2).schedSync), ans (okStatus c.2) n)
    else if (s.egressRing f n).isSome then (s, ans stRingActive n)
    else
      let c := applyRules [⟨8, 8, roundDown 4096⟩, ⟨16, 8, roundDown 64⟩, ⟨24, 4, pow2Below 4 15⟩,
        ⟨28, 1, fun v => if v ≤ 6 then v else 6⟩, fRange 30 2 1 256, fRange 32 2 1 1000, altRule] b
      let kept := oget (s.fnAt f).kept n
      let alt := if rd c.1 34 1 = 0xFF then kept else some (rd c.1 34 1, rd c.1 35 1)
      let away := s.linkLost f || (decide (rd c.1 34 1 = 0xFF) && kept.isSome)
      let r : EgressRing := ⟨rd c.1 8 8, rd c.1 16 8, rd c.1 24 4, 256 * 2 ^ rd c.1 28 1, rd c.1 30 2, rd c.1 32 2, alt, away, 0, 0, 0, 0⟩
      let s1 := s.modFn f (fun h => { h with egress := oset h.egress n (some r), kept := oset h.kept n none })
      ((s1.direct p 0xC220 14 n c.2).schedSync, ans (okStatus c.2) n)

/-- An egress ring is gone: packets on their way to it are held until a ring takes them (11 R411; log 60). -/
def State.dropEgress (s : State) (f n : Nat) : State :=
  let s1 := s.modFn f (fun h => { h with egress := oset h.egress n none })
  { s1 with qe := { s1.qe with deq := s1.qe.deq.map (fun (d : Deq) =>
    if d.target == some (f, n) then { d with started := false, target := none } else d) } }

/-- QE_EGRESS_DEREG (11 R402, R411; 15 R537). -/
def qeEgressDereg : Body := fun p b s =>
  let n := rd b 4 4
  let f := who p
  if f = 15 then (s, ans stNotPermitted n)
  else if 64 ≤ n ∨ (s.egressRing f n).isNone then (s, ans stObjectAbsent n)
  else ((s.dropEgress f n).schedSync, ans stSuccess n)

/-- QE_CTL: restarts halted contexts (11 R409; 15 R546). -/
def qeCtl : Body := fun _ b s =>
  let obj := rd b 4 4
  if obj ≠ 0 then (s, ans stObjectAbsent obj)
  else ({ s with qe := { s.qe with ctxHalted := s.qe.ctxHalted &&& ~~~(BitVec.ofNat 40 (rd b 8 8)) } }, ans stSuccess obj)

/-! ### QE_RECLAIM (11 R383) -/

/-- Where a cell stands in the cell state map of all buffer regions, in ascending pointer. -/
def State.cellIndex (s : State) (ptr : Nat) : Nat :=
  s.bufs.foldl (fun n b =>
    let c := b.2.cellSpan
    if c.1 + c.2 ≤ ptr then n + c.2 else if c.1 ≤ ptr then n + (ptr - c.1) else n) 0

/-- Cells of the cell state map. -/
def State.mapCells (s : State) : Nat := s.bufs.foldl (fun n b => n + b.2.cellSpan.2) 0

/-- Makes FREE the runs held by a function whose first cells stand at positions `lo` to `hi − 1` (11 R383). -/
def State.reclaim (s : State) (f lo hi : Nat) : State :=
  ((s.qe.cells.map (fun e => e.1)).foldl (fun s ptr => match s.heldRun ptr with
    | some (g, _, code) =>
      if g = f ∧ lo ≤ s.cellIndex ptr ∧ s.cellIndex ptr < hi then s.setCells ptr (2 ^ code) 0 else s
    | none => s) s).poolCheck

/-- QE_RECLAIM (11 R383; 15 R546). -/
def qeReclaim : Body := fun p b s =>
  let obj := rd b 4 4
  let w := who p
  let c := applyRules [⟨8, 1, fun v => if v < 4 then v else 0xFF⟩] b
  let g := rd c.1 8 1
  if w = 15 ∧ g = 0xFF then (s, ans stNotPermitted obj)
  else
    let f := if g = 0xFF then w else g
    if f ≠ w ∧ !s.isMgmt w then (s, ans stNotPermitted obj)
    else
      let q := (s.direct p 0xC212 13 obj c.2).startBg p 0xC212 obj (.reclaim f) s.mapCells (!c.2.isEmpty)
      if q.2.status = stBgStarted then q else (s, q.2)

/-! ### QE_FLUSH (11 R410) -/

/-- Removes the head packet of a queue up to the marked tail; false: nothing was left to remove. -/
def State.flushOne (s : State) (q : Nat) : State × Bool :=
  if (s.queueAt q).flushTo.isNone then (s, false)
  else match s.popHead q with
    | none => (s, false)
    | some (s1, first, p) => ((s1.freePkt first p.cells).qEvent evFlush q 1 p.len, true)

/-- Removes up to `n` packets; how many. -/
def State.flushMany (s : State) (q : Nat) : Nat → Nat → State × Nat
  | 0, k => (s, k)
  | n + 1, k =>
    let a := s.flushOne q
    if a.2 then a.1.flushMany q n (k + 1) else (a.1, k)

/-- Whether a background flush of a queue runs. -/
def State.flushing (s : State) (q : Nat) : Bool :=
  (s.bgOf (fun w => match w with
    | .flush x _ => x == q
    | _ => false)).isSome

/-- QE_FLUSH: up to 4,096 packets at once in class S, more as a background operation (11 R410, R411; 14 R503; log 63). -/
def qeFlush : Body := fun p b s =>
  let q := rd b 4 4
  if 262144 ≤ q then (s, ans stObjectAbsent q)
  else if !ownerHas (s.queueAt q).owner (who p) then (s, ans stNotPermitted q)
  else if s.flushing q then (s, ans stFlushActive q)
  else
    let n := (s.queueAt q).packets
    let s1 := s.modQueue q (fun x => { x with flushTo := x.tail })
    if n ≤ 4096 then
      if 4 ≤ s.mb.sActive.length then (s, ans stBusy q)
      else
        let a := s1.flushMany q n 0
        (a.1.schedSync, ans stSuccess q (le 4 a.2))
    else
      let r := s1.startBg p 0xC222 q (.flush q 0) n
      if r.2.status = stBgStarted then r else (s, r.2)

/-! ### QE_QUERY (11 R381, R382; 15 R535) -/

/-- A queue's record: its configuration, cells, packets, bytes, and whether its head line is present (log 17). -/
def State.queueRecord (s : State) (q : Nat) : Bytes :=
  let x := s.queueAt q
  le 1 (b2n x.enabled) ++ le 1 x.owner ++ le 1 x.efn ++ le 1 x.ering ++ le 4 x.limit ++ le 4 x.cells ++ le 4 x.packets ++
    le 8 x.bytes ++ le 8 (b2n x.headLine.isSome)

/-- The state of a free ring of the issuing function; zeros where it is not registered (log 17). -/
def State.freeRecord (s : State) (f m : Nat) : Bytes :=
  match s.freeRing f m with
  | none => List.replicate 32 0
  | some r => le 8 r.base ++ le 4 r.slots ++ le 1 1 ++ le 1 r.sizeCode ++ le 1 r.region ++ le 1 m ++ le 4 r.prod ++ le 4 r.cons ++
      le 4 r.passed ++ le 4 r.inSlots.length

/-- QE_QUERY: the records, then the free rings of the issuing function. -/
def qeQuery : Body := fun p b s =>
  let a := query p 0xC223 b s 262144 32 s.queueRecord
  if a.2.status = stObjectAbsent ∨ who p = 15 then a
  else (a.1, { a.2 with out := (a.2.out ++ ((List.range 16).map (s.freeRecord (who p))).flatten).take (pathMax p) })

/-! ### Media loss (11 R408) -/

/-- What the queue engine does on MEDIA_LOST (11 R408). Packets selected and not yet read are lost with their queue; those read are
pushed from the chip (log 61). -/
def State.qeMediaLost (s : State) : State :=
  let unread (q : Nat) : List Deq := s.qe.deq.filter (fun d => d.queue == q && !d.read)
  let s1 := ((oall s.qe.queues).map (fun e => e.1)).foldl (fun s q =>
    let x := s.queueAt q
    let u := unread q
    let n := x.packets + u.length
    if n = 0 then s
    else (s.modQueue q (fun x => { x with
      head := none, tail := none, cells := 0, packets := 0, bytes := 0, headLine := none, flushTo := none })).qEvent evMedia q n
        (x.bytes + (u.map (fun d => d.len)).foldl (· + ·) 0)) s
  let s2 := s1.allFree.foldl (fun s x => s.dropFreeRing x.1 x.2 false) s1
  let s3 : State := { s2 with qe := { s2.qe with
    cells := [], links := [], pkts := [], heads := []
    deq := (s2.qe.deq.filter (fun d => d.read)).map (fun (d : Deq) => { d with first := nullPtr + d.first, cells := 0 })
    policers := s2.qe.policers.map (fun (e : Nat × Option Policer) => (e.1, e.2.map Policer.fill)) } }
  (s3.poolCheck.report qeMediaReset 0 (some 8)).schedSync

/-! ### What a commit does (11 R391, R392; 15 R545) -/

/-- Applies a staged queue. -/
def State.applyQueue (s : State) (q : Nat) (b : Bytes) : State :=
  s.modQueue q (fun x => { x with
    enabled := decide (rd b 8 1 = 1), owner := rd b 9 1 % 16, efn := rd b 10 1, ering := rd b 11 1, limit := rd b 12 4 })

/-- Applies a staged policer: a change of rates or burst sizes fills its buckets (11 R392). -/
def State.applyPolicer (s : State) (n : Nat) (b : Bytes) : State :=
  let old := s.policer n
  let mode := rd b 8 1
  let pir := if mode = 2 then rd b 32 8 else old.pir
  let new : Policer := { old with
    mode := mode, drop := decide (rd b 9 1 = 1), cir := rd b 24 8, pir := pir, cbs := rd b 12 4, ebs := rd b 16 4 }
  let changed := decide (old.cir ≠ new.cir ∨ old.pir ≠ new.pir ∨ old.cbs ≠ new.cbs ∨ old.ebs ≠ new.ebs)
  { s with qe := { s.qe with policers := oset s.qe.policers n (some (if changed then new.fill else new)) } }

/-! ### The commands -/

def execQeBufRegister (p : Path) (b : Bytes) (s : State) : Host.Outcome State Fault Refusal :=
  .next (s.command p 0xC200 b qeBufRegister)

def execQeBufDeregister (p : Path) (b : Bytes) (s : State) : Host.Outcome State Fault Refusal :=
  .next (s.command p 0xC201 b qeBufDeregister)

def execQeFreeRing (p : Path) (b : Bytes) (s : State) : Host.Outcome State Fault Refusal :=
  .next (s.command p 0xC210 b qeFreeRing)

def execQeFreeRingDereg (p : Path) (b : Bytes) (s : State) : Host.Outcome State Fault Refusal :=
  .next (s.command p 0xC211 b qeFreeRingDereg)

def execQeReclaim (p : Path) (b : Bytes) (s : State) : Host.Outcome State Fault Refusal := .next (s.command p 0xC212 b qeReclaim)

def execQeEgressRing (p : Path) (b : Bytes) (s : State) : Host.Outcome State Fault Refusal :=
  .next (s.command p 0xC220 b qeEgressRing)

def execQeEgressDereg (p : Path) (b : Bytes) (s : State) : Host.Outcome State Fault Refusal :=
  .next (s.command p 0xC221 b qeEgressDereg)

def execQeFlush (p : Path) (b : Bytes) (s : State) : Host.Outcome State Fault Refusal := .next (s.command p 0xC222 b qeFlush)

def execQeQuery (p : Path) (b : Bytes) (s : State) : Host.Outcome State Fault Refusal := .next (s.command p 0xC223 b qeQuery)

def execQeCtl (p : Path) (b : Bytes) (s : State) : Host.Outcome State Fault Refusal := .next (s.command p 0xC224 b qeCtl)

def execFreeRingRefill (halt : Option Nat) (s : State) : Host.Outcome State Fault Refusal := .next (freeRingRefill halt s)

def execSchedulerDecision (s : State) : Host.Outcome State Fault Refusal := .next (schedulerDecision s)

def execPacketPush (queue : Nat) (s : State) : Host.Outcome State Fault Refusal := .next (packetPush queue s)

def execRingModerationTimer (fn : Nat) (ring : RingName) (s : State) : Host.Outcome State Fault Refusal :=
  .next (ringModerationTimer fn ring s)

end Sys2Proof.Machine
end

