-- ==== Sys2Proof/Machine/MediaLoss.lean ====
section
/-! DEFINITION. The key copies, and what the loss of the key does to every unit (08 R302 to R305; 11 R408; 13 R476). -/

namespace Sys2Proof.Machine
open Sys2Proof

/-- An extent whose media FILL has to write anew (07 R264). -/
def Extent.unfilled (x : Extent) : Extent := { x with filled := 0, touched := [] }

/-- A region once the content of its media is lost: its fill buoy is at 0, every granule reads ZERO, and no page is in T1 (07 R264,
R266; 08 R304). -/
def Region.lostMedia (r : Region) : Region :=
  { r with
    data := r.data.unfilled, t1 := r.t1.unfilled, yard := r.yard.unfilled, metaX := r.metaX.unfilled
    freeRuns := List.replicate 8 [], freeLinks := [], dirtyRuns := [], dirtyLinks := [], leaked := 0, yardLow := false, tierShort := false
    noMove := [], candidates := [], queued := [], frames := [], owns := [], lostFrames := [] }

/-- Fetches that wait for a line of lost media read zeros (08 R304). -/
def State.zeroFetches (s : State) : State := (s.rr.fetches.map (fun f => f.line)).foldl (fun s l => s.finishFetch l 0 false false) s

/-- The counter engine after a loss: every set reads zero and its generation rises (13 R476). -/
def State.ceMediaLost (s : State) : State :=
  { s with ce := { s.ce with
    cache := [], filter := [], stale := [], recompute := none, waiting := []
    sets := s.ce.sets.map (fun (e : Nat × Option CSet) => (e.1, e.2.map (fun (c : CSet) => { c with
      gen := (c.gen + 1) % 2 ^ 32, endCnt := 0, stale := 0, ended := false }))) } }.report ceMediaReset 0 (some 9)

/-- All DRAM content is lost and FILL starts again (08 R304 step 3). Lines on the chip of the lost content go with it (log 24). -/
def State.mediaLost (s : State) : State :=
  let s0 := s.zeroFetches
  let s1 : State := { s0 with
    dram := []
    mc := { s0.mc with upsets := [] }
    rg := { s0.rg with
      regions := s0.rg.regions.map (fun (e : Nat × Option Region) => (e.1, e.2.map Region.lostMedia))
      qstate := s0.rg.qstate.unfilled
      links := s0.rg.links.map (fun e => (e.1, e.2.unfilled))
      spare := s0.rg.spare.unfilled
      freeFill := 0 }
    ns := { s0.ns with lines := [], victims := [] }
    tr := { s0.tr with moves := [], captures := [] }
    cd := { s0.cd with mcache := [] }
    lp := { s0.lp with demandQ := [], dev := s0.lp.dev.map (fun (e : Nat × Option DevRec) =>
      (e.1, e.2.map (fun (d : DevRec) => { d with lines := [] }))) } }
  (s1.qeMediaLost).ceMediaLost

/-- Ends a sweep whose key is lost: REKEY_START completes with MEDIA_LOST (08 R304 step 2). -/
def State.sweepLost (s : State) : State :=
  ((s.running.filter (fun o => isRekey o.work)).map (fun o => o.handle)).foldl (fun s h => s.endOp h stMediaLost)
    (({ s with sx := { s.sx with sweep := false, halted := false, oldKey := none, buoy := 0 } } : State).setDomain 40 false)

/-- The key is lost (08 R304). A random source that fails three times leaves no key and raises SX_RNG_FAIL (08 R305; log 24). -/
def State.keyLost (s : State) : State :=
  let k := s.drawKey 3
  let s1 : State := { k.1 with sx := { k.1.sx with key := k.2, epoch := 0, copies := 7, rngFail := k.2.isNone } }
  let s2 := if k.2.isNone then s1.report sxRngFail 0 else s1
  ((s2.sweepLost).mediaLost).report sxKeyLost 0

/-- The check of the key copies; `bad` names those whose check code fails (08 R303). -/
def State.checkKey (s : State) (bad : List Nat) : State × Bool :=
  let b := ([0, 1, 2].filter (fun i => bad.contains i))
  if s.sx.key.isNone then (s, false)
  else if b.isEmpty then ({ s with sx := { s.sx with copies := 7 } }, false)
  else if b.length ≤ 1 then
    ({ s with sx := { s.sx with copies := 7#3 &&& ~~~(BitVec.ofNat 3 (bitsOf b)) } }.report sxKeyCorrected (bitsOf b), false)
  else (({ s with sx := { s.sx with copies := 7#3 &&& ~~~(BitVec.ofNat 3 (bitsOf b)) } }).keyLost, true)

/-- KEY_CHECK: every 1 ms, and at a wake, whose cause then tells of the loss (08 R303, R304; 17 R611, R633). -/
def keyCheck (bad : List Nat) (s : State) : State :=
  if s.pw.state = .waking then
    let a := s.checkKey bad
    if a.2 then { a.1 with pw := { a.1.pw with wakeCause := a.1.pw.wakeCause ||| 0x400 } } else a.1
  else if s.awake && s.mbReady then (s.checkKey bad).1
  else s

def execKeyCheck (bad : List Nat) (s : State) : Host.Outcome State Fault Refusal := .next (keyCheck bad s)

end Sys2Proof.Machine
end

