-- ==== Sys2Proof/Machine/Flags.lean ====
section
/-! DEFINITION. The conditions of the state sources (16 R565). -/

namespace Sys2Proof.Machine
open Sys2Proof

/-- Whether a function of a port, among those that exist, meets `g`. -/
def State.anyFn (s : State) (port : Nat) (g : HostFn → Bool) : Bool := s.existing.any (fun f => portOf f == port && g (s.fnAt f))

/-- Whether the condition of a node's local index is present (16 R565); an event source has none. -/
def State.conditionOf (s : State) (node idx : Nat) : Bool :=
  match node, idx with
  | 1, 2 => decide (s.mb.frozen ≠ 0)
  | 4, 0 => s.pw.droop
  | 4, 1 => s.pw.pwrFail
  | 4, 2 => s.pw.warn
  | 4, 3 => s.pw.throttle
  | 4, 4 => s.pw.shutdown
  | 5, 0 => !s.ck.sysLock || !s.ck.memLock
  | 11, 0 => s.bw.rescaled
  | 16, 1 => (oall s.rg.regions).any (fun e => e.2.tierShort)
  | 16, 3 => decide (s.tr.halted ≠ 0)
  | 17, 2 => (oall s.rg.regions).any (fun e => e.2.yardLow)
  | 17, 4 => s.cd.muckHalted
  | 20, 3 => !s.lp.erase.isEmpty
  | 20, 9 => (List.range 12).any (fun c => (s.chan c).pop.isSome && (s.lp.spareFree.getD c []).isEmpty)
  | 20, 12 => s.lp.scrubHalted
  | 20, 13 => s.lp.fillHalted
  | 21, 5 => s.sx.halted
  | 22, 1 => !s.qe.poolLow.isEmpty
  | 22, 5 => decide (s.qe.ctxHalted ≠ 0)
  | 24, 2 => decide (s.tu.mode = .holdover)
  | 25, 6 => decide (s.ce.halted ≠ 0)
  | n, i =>
    if n = 8 ∨ n = 9 then
      (match i with
        | 3 => s.anyFn (n - 8) (fun h => h.lost)
        | 4 => s.anyFn (n - 8) (fun h => h.slow)
        | 5 => s.anyFn (n - 8) (fun h => h.fcrHalted)
        | 6 => s.anyFn (n - 8) (fun h => h.ideOff)
        | 7 => s.anyFn (n - 8) (fun h => h.viral)
        | _ => false)
    else if 26 ≤ n ∧ n ≤ 37 then
      (match i with
        | 4 => (s.chan (n - 26)).hot
        | 5 => decide (2 ^ 32 ≤ (s.chan (n - 26)).sensorMiss)
        | 7 => !s.chanIs (n - 26) .service
        | 8 => !s.chanIs (n - 26) .service
        | 9 => !s.chanIs (n - 26) .service
        | _ => false)
    else false

/-- Whether the condition of a source is present. -/
def State.condition (s : State) (src : Nat) : Bool := isStateSource src && s.conditionOf (src / 16) (src % 16)

end Sys2Proof.Machine
end

