-- ==== Sys2Proof/Machine/Port.lean ====
section
/-! DEFINITION. The host ports: the doorbell page and MSI-X, decoders, the windows, links going up and down, the resets of a port,
viral and link security (02 R53 to R102, R683; 16 R570). -/

namespace Sys2Proof.Machine
open Sys2Proof

/-! ### Reaching a function on CXL.io -/

/-- Whether a CXL.io access of function `f` reaches the device (02 R58; 17 R596, R609, R623). -/
def State.ioReach (s : State) (f : Nat) : Bool :=
  s.fnExists f && !s.linkLost f && s.mbReady && (match s.pw.state with
    | .deep => false
    | .off => false
    | _ => true)

/-- An access that reaches function `f` takes effect; in SLEEP it also starts a wake (17 R609; log 67). -/
def State.ioAccess (s : State) (f : Nat) (g : State → State) : State := if s.ioReach f then g (s.beginWake 4) else s

/-- HP_BAD_ACCESS with the register and the value written (02 R67, R75). -/
def State.badAccess (s : State) (f off v : Nat) : State := s.report (hpBadAccess (portOf f)) (off * 2 ^ 32 + v % 2 ^ 32) (some f)

/-! ### Count registers (02 R74 to R76) -/

/-- How far a count is ahead of another, modulo 2^16. -/
def ahead (p c : Nat) : Nat := (p % 65536 + 65536 - c % 65536) % 65536

/-- FCR_DOORBELL_WRITE (02 R74, R75, R83; 14 R491; 17 R598). While no ring is registered a write has no effect and raises nothing, as R74 says
of the consumer registers (log 92). -/
def fcrDoorbell (f : Nat) (value : BitVec 32) (s : State) : State :=
  let v := value.toNat % 65536
  match (s.fnAt f).fcr with
  | none => s
  | some q =>
    if !(s.fnAt f).ringOn then s
    else if q.slots < ahead v (s.fnAt f).fcrCons then s.badAccess f 0 value.toNat
    else ((s.leaveIdle).modFn f (fun h => { h with fcrProd := v })).fetchRing f

/-- FREE_RING_CONS_WRITE (02 R74, R75; 11 R379). -/
def freeCons (f m : Nat) (value : BitVec 32) (s : State) : State :=
  match s.freeRing f m with
  | none => s
  | some q =>
    let n := ahead value.toNat q.cons
    if ahead q.prod q.cons < n then s.badAccess f (0x100 + 4 * m) value.toNat
    else s.modFree f m (fun q => { q with cons := q.cons + n, inSlots := q.inSlots.drop n })

/-- EGRESS_RING_CONS_WRITE (02 R74, R75; 11 R403). -/
def egressCons (f n : Nat) (value : BitVec 32) (s : State) : State :=
  match s.egressRing f n with
  | none => s
  | some q =>
    let k := ahead value.toNat q.cons
    if ahead q.prod q.cons < k then s.badAccess f (0x200 + 4 * n) value.toNat
    else (s.modEgress f n (fun q => { q with cons := q.cons + k })).schedSync

/-- FCR_FETCH_ERROR: the ring halts; commands fetched earlier go on (02 R86). -/
def fcrFetchError (f : Nat) (s : State) : State :=
  match (s.fnAt f).fcr with
  | none => s
  | some q =>
    if !(s.fnAt f).ringOn ∨ q.fetching = 0 then s
    else (s.modFn f (fun h => { h with fcrHalted := true, fcr := some { q with fetching := 0 } })).report (hpFcrFetch (portOf f)) f (some f)

/-! ### Interrupts and bus mastering (02 R77 to R80, R85) -/

/-- INT_CAUSE_WRITE: writing 1 clears (02 R77). -/
def intCauseWrite (f : Nat) (value : BitVec 32) (s : State) : State :=
  s.modFn f (fun h => { h with intCause := h.intCause &&& ~~~(value.setWidth 8) })

/-- INT_ENABLE_WRITE (02 R77, R80). -/
def intEnableWrite (f : Nat) (value : BitVec 32) (s : State) : State := s.modFn f (fun h => { h with intEnable := value.setWidth 8 })

/-- MSIX_VECTOR_UNMASK of a vector, or of the function (02 R80). -/
def msixUnmask (f : Nat) (vector : Option Nat) (s : State) : State :=
  (s.modFn f (fun h => match vector with
    | some v => { h with msixMask := h.msixMask &&& ~~~(1#256 <<< v) }
    | none => { h with fnMask := false })).flushVectors f

/-- What a function held for its link or for Bus Master Enable goes out (02 R80, R85, R98): first its pending messages, then its initiator
writes, an order that the spec leaves open (log 93). -/
def State.resumeFn (s : State) (f : Nat) : State := (((s.flushVectors f).flushWrites f).fetchRing f).schedSync

/-- BUS_MASTER_ENABLE_SET (02 R80, R85). -/
def bmeSet (f : Nat) (s : State) : State := (s.modFn f (fun h => { h with bme := true })).resumeFn f

/-- BUS_MASTER_ENABLE_CLEAR (02 R85). -/
def bmeClear (f : Nat) (s : State) : State := ((s.modFn f (fun h => { h with bme := false })).stallPushes f).schedSync

/-! ### Decoders (02 R59 to R62, R95, R683) -/

/-- The interleaves and sizes that a decoder supports (02 R59). -/
def decoderLegal (d : DecoderCfg) : Bool :=
  decide (d.base % 2 ^ 28 = 0) && decide (d.size % 2 ^ 28 = 0) && decide (d.size ≠ 0) && [1, 2, 3, 4, 6, 8, 12, 16].contains d.ways &&
    [256, 512, 1024, 2048, 4096, 8192, 16384].contains d.gran && decide (d.way < d.ways)

/-- Whether a decoder overlaps an HDM-DB region. -/
def State.hitsHdmDb (s : State) (d : Decoder) : Bool :=
  (oall s.rg.regions).any (fun e => e.2.hdmDb && decide (e.2.base < d.dpa + d.cfg.size / max 1 d.cfg.ways) &&
    decide (d.dpa < e.2.base + e.2.size))

/-- Where the DPA range of a decoder begins: behind those of the decoders below it, and its own skip (02 R59; log 94). -/
def HostFn.dpaBase (h : HostFn) (index : Nat) (d : DecoderCfg) : Nat :=
  ((h.decoders.take index).map (fun x => x.cfg.skip + x.cfg.size / max 1 x.cfg.ways)).sum + d.skip

/-- Whether the decoders below one are committed and end below its base (02 R59; log 94). -/
def HostFn.inTurn (h : HostFn) (index : Nat) (d : DecoderCfg) : Bool :=
  (h.decoders.take index).all (fun x => x.committed && decide (x.cfg.base + x.cfg.size ≤ d.base)) &&
    (h.decoders.drop (index + 1)).all (fun x => !x.committed)

/-- HDM_DECODER_COMMIT: a decoder that is locked keeps its setting; a setting that is not supported, or out of turn, is not committed, and
Error Not Committed is set (02 R59, R62; log 67, 94). -/
def decoderCommit (f index : Nat) (d : DecoderCfg) (s : State) : State :=
  let old := (s.fnAt f).decoders.getD index Decoder.reset
  if 8 ≤ index ∨ (old.committed && old.cfg.lock) then s
  else if !decoderLegal d ∨ !(s.fnAt f).inTurn index d then
    s.modFn f (fun h => { h with decoders := lset h.decoders index ⟨d, false, true, 0⟩ })
  else
    let dpa := (s.fnAt f).dpaBase index d
    let s1 := s.modFn f (fun h => { h with
      decoders := lset h.decoders index ⟨d, true, false, dpa⟩
      snoopOff := h.snoopOff && !(d.bi && s.hitsHdmDb ⟨d, true, false, dpa⟩) })
    if !d.bi && s.hitsHdmDb ⟨d, true, false, dpa⟩ then s1.report (hpDecoderNoBi (portOf f)) (f * 8 + index) (some f) else s1

/-- Commit is cleared in the control register of a decoder: it is uncommitted, unless it is locked or a decoder above it is committed (02 R59;
log 94). -/
def decoderUncommit (f index : Nat) (s : State) : State :=
  let h := s.fnAt f
  let old := h.decoders.getD index Decoder.reset
  if 8 ≤ index ∨ !old.committed ∨ old.cfg.lock ∨ (h.decoders.drop (index + 1)).any (fun x => x.committed) then s
  else s.modFn f (fun h => { h with decoders := lset h.decoders index { old with committed := false } })

/-! ### Windows (02 R68 to R72, R99, R101; 01 R49) -/

/-- The pieces of `n` bytes of a write. -/
def pieces (n : Nat) : Nat → Bytes → List Bytes
  | 0, _ => []
  | k + 1, b => b.take n :: pieces n k (b.drop n)

/-- Entries of 64 B that a posted-write queue has in use (01 R49). -/
def Port.postedUsed (p : Port) : Nat :=
  (p.posted.map (fun x => (x.records.map (fun r => r.length)).sum)).map (fun n => (n + 63) / 64) |>.sum

/-- A window write that its port has received: it joins the posted-write queue in order; a poisoned one, or one that breaks the rules of its
window, is discarded whole and counted, the poisoned one not toward freezing (02 R68 to R71, R99); one of a viral or frozen function is
dropped and logged (02 R101; 14 R517) (log 63, 68). -/
def State.windowIn (s : State) (x : WindowWrite) : State :=
  let unit := if x.enqueue then 32 else 64
  let n := x.data.length
  let good := x.enabled && decide (x.offset % unit = 0) && decide (n % unit = 0) && decide (unit ≤ n) && decide (n ≤ 256) &&
    decide (x.offset + n ≤ 65536)
  let s1 := s.count (8 + portOf x.fn) 2
  let bad (s : State) (counts : Bool) : State := if x.enqueue then s.qeMalf x.fn x.window 7 counts else s.ceMalf x.fn x.window 3 counts
  if (s.fnAt x.fn).viral then s1.emit (.dropLog x.fn x.window 3)
  else if s.isFrozen x.fn then s1.emit (.dropLog x.fn x.window 2)
  else if x.poisoned then bad s1 false
  else if !good then bad s1 true
  else
    let size := if x.enqueue then 32 else 16
    s1.modPort (portOf x.fn) (fun p => { p with posted := p.posted ++ [Posted.mk x.fn x.window x.enqueue (pieces size (n / size) x.data)] })

/-- Whether a port gives no posted credit for a write: its queue has no room for it, or earlier writes wait (01 R49). -/
def Port.postedFull (p : Port) (x : WindowWrite) : Bool := !p.stalled.isEmpty || decide (512 < p.postedUsed + (x.data.length + 63) / 64)

/-- A write to an enqueue or counter window. Without posted credits the host keeps it, behind those it keeps already (01 R49; log 91). -/
def State.windowEnter (s : State) (x : WindowWrite) : State :=
  if (s.portAt (portOf x.fn)).postedFull x then s.modPort (portOf x.fn) (fun p => { p with stalled := p.stalled ++ [x] })
  else s.windowIn x

/-- Writes that hosts kept for want of posted credits are received as far as the queue has room, in their order (01 R49). -/
def State.takeStalled (s : State) (port : Nat) : State :=
  if (s.portAt port).stalled.isEmpty then s
  else (s.portAt port).stalled.foldl (fun s x => s.windowEnter x) (s.modPort port (fun p => { p with stalled := [] }))

/-- ENQUEUE_WINDOW_WRITE and COUNTER_UPDATE_WINDOW_WRITE. -/
def windowWrite (x : WindowWrite) (s : State) : State := (s.takeStalled (portOf x.fn)).windowEnter x

/-! ### Links (02 R53 to R55, R92 to R98, R683) -/

/-- PEER_PATH in every function of the other port and in the other function of this port (02 R95). -/
def State.peerPath (s : State) (f : Nat) : State := (s.existing.filter (· != f)).foldl (fun s g => s.cause g 7) s

/-- The reads of a function that wait for a line are answered to nobody (02 R95). -/
def State.dropReads (s : State) (f : Nat) : State :=
  { s with rr := { s.rr with fetches := s.rr.fetches.map (fun (x : Fetch) =>
    { x with waiters := x.waiters.filter (fun w => !(isReadReq w.req && w.req.fn == f)) }) } }

/-- The requests, responses and initiator writes that a function's port holds are discarded, with what its host kept for want of credits (02
R95). -/
def State.dropHeld (s : State) (f : Nat) : State :=
  let s1 := s.modFn f (fun h => { h with held := [], heldW := [], withheld := [], answers := [] })
  ({ s1 with
    hp := { s1.hp with ports := s1.hp.ports.map (fun p => { p with stalled := p.stalled.filter (fun x => x.fn != f) }) }
    rr := { s1.rr with tied := s1.rr.tied.map (fun e => (e.1, e.2.filter (fun q => q.fn != f))) } } : State).dropReads f

/-- The rings of a function are cleared: pushes in progress are discarded, runs that wait in free ring slots become FREE; with `keep`,
the pairing of an egress ring stays known, so that its traffic goes to the alternate (02 R92, R93, R95; 11 R382, R406; log 69). -/
def State.clearRings (s : State) (f : Nat) (keep : Bool) : State :=
  let rings := oall (s.fnAt f).egress
  let s1 := s.discardPushes f
  let s2 := (oall (s.fnAt f).freeRings).foldl (fun s e => s.dropFreeRing f e.1 true) s1
  let s3 := rings.foldl (fun s e => s.dropEgress f e.1) s2
  s3.modFn f (fun h => { h with
    fcr := none, fcrProd := 0, fcrCons := 0, fcrHalted := false
    kept := if keep then rings.foldl (fun m e => oset m e.1 e.2.alt) h.kept else h.kept })

/-- Function state that a function-level reset clears: the command register, MSI-X and the doorbell page (02 R92). -/
def HostFn.clearIo (h : HostFn) : HostFn :=
  { h with bme := false, command := 0, intCause := 0, intEnable := 0, fnMask := false, msixMask := BitVec.allOnes 256, msixTab := [], pba := 0 }

/-- Function state that PERST_N, hot reset and link disable clear besides: configuration space and BARs, decoders, keys and streams, and the
viral state (02 R92, R102). A stream that failed a MAC check stays
disabled until new keys are set (02 R91). -/
def HostFn.clearPort (h : HostFn) (x : LinkState) : HostFn :=
  { h.clearIo with
    link := x, slow := false, latOpt := false, gts := 0, width := 0, mps := 128, mrrs := 512, aspmL1 := false, ptmEn := false
    d3 := false, bars := [0, 0], aerCor := 0, aerUnc := 0, spdm := none
    decoders := List.replicate 8 Decoder.reset, snoopOff := false, ideOn := false, viral := false, memInfo := false
    flitTimes := [], lost := false, mbox := [(0, []), (0, [])] }

/-- The reset of a function's link by PERST_N, hot reset or link disable (02 R92, R95; log 49). -/
def State.linkReset (s : State) (f : Nat) (x : LinkState) : State :=
  if !s.fnExists f then s
  else
    let s1 := (s.clearRings f true).modFn f (fun h => h.clearPort x)
    ((((s1.dropHeld f).endSessionsOf f).snoopsGone f).schedSync)

/-- The reset with its reports: HP_LINK_RESET and PEER_PATH where the link was up (02 R95; 16 R563, R579). -/
def State.linkGoes (s : State) (f : Nat) (x : LinkState) : State :=
  if !s.fnExists f then s
  else if s.linkLost f then s.linkReset f x
  else
    let p := portOf f
    (((s.linkReset f x).flashShadow (8 + p) (hpLinkReset p)).report (hpLinkReset p) f (some f)).peerPath f

/-- The functions of a port. -/
def State.fnsOf (s : State) (port : Nat) : List Nat := s.existing.filter (fun f => portOf f == port)

/-- PERST_N_ASSERT (02 R92; 16 R570: a fenced port may train after it). -/
def perstAssert (port : Nat) (s : State) : State :=
  if (s.portAt port).perst then s
  else (s.fnsOf port).foldl (fun s f => s.linkGoes f .down) (s.modPort port (fun p => { p with perst := true, disabled := false }))

/-- PERST_N_RELEASE: the port's reference clock is present, and training may start; in SLEEP the device wakes (17 R609; 19 R667; log 70). -/
def perstRelease (port : Nat) (s : State) : State :=
  if !(s.portAt port).perst then s
  else
    let s1 := s.modPort port (fun p => { p with perst := false })
    let s2 : State := { s1 with ck := { s1.ck with
      refA := s1.ck.refA || decide (port = 0), refB := s1.ck.refB || decide (port = 1) } }
    match s2.pw.state with
    | .sleep => s2.beginWake 5
    | _ => s2

/-- HOT_RESET and LINK_DISABLE of a link that is up (02 R92). -/
def linkResetBy (f : Nat) (x : LinkState) (s : State) : State := if s.linkLost f then s else s.linkGoes f x

/-- SURPRISE_LINK_DOWN (02 R92, R95; 16 R563, R579). -/
def surpriseDown (f : Nat) (s : State) : State :=
  if !s.fnExists f || s.linkLost f then s
  else
    let p := portOf f
    let s1 := s.modFn f (fun h => { h with
      link := .down, slow := false, latOpt := false, gts := 0, width := 0, memInfo := false, flitTimes := [], lost := true
      fcr := none, fcrHalted := false })
    let s2 := (((s1.failPushes f).dropHeld f).snoopsGone f).schedSync
    ((s2.flashShadow (8 + p) (hpLinkDown p)).report (hpLinkDown p) f (some f)).peerPath f

/-- Whether the links of a port may train (16 R570; 17 R611, R622; 19 R667). -/
def State.mayTrain (s : State) (port : Nat) : Bool :=
  !(s.portAt port).perst && !(s.portAt port).disabled && s.mbReady && (if port = 0 then s.ck.refA else s.ck.refB) &&
    (match s.pw.state with
      | .deep => false
      | .off => false
      | .sleep => false
      | _ => true)

/-- Whether the links of a port are two x8 links (02 R56). -/
def State.bifurcated (s : State) (port : Nat) : Bool := s.hp.straps.getLsbD port

/-- The widths at which a link trains: x16, x8 and x4, on a bifurcated port x8 and x4 (02 R53, R56). -/
def State.widthOk (s : State) (f w : Nat) : Bool := [4, 8].contains w || (decide (w = 16) && !s.bifurcated (portOf f))

/-- LINK_UP: the link reaches L0; below 16 GT/s or with 68-byte flits, CXL.mem stays disabled (02 R53 to R55, R95; 17 R629; log 70). -/
def linkUp (f : Nat) (c : LinkCfg) (s : State) : State :=
  if !s.fnExists f || !s.linkLost f || !s.mayTrain (portOf f) || !c.ltssmOk || !s.widthOk f c.width then s
  else
    let slow := c.flit68 || decide (c.gts < 16)
    let s1 := s.modFn f (fun h => { h with
      link := .l0, slow := slow, latOpt := c.latOpt, gts := c.gts, width := c.width, mps := c.mps, memInfo := true, lost := false })
    let s2 := if slow then s1.report (hpCxlUnavailable (portOf f)) f (some f) else s1
    (s2.peerPath f).resumeFn f

/-- LINK_RECOVERY_ENTRY (02 R98). -/
def recoveryEntry (f : Nat) (s : State) : State := if s.linkL0 f then s.modFn f (fun h => { h with link := .recovery }) else s

/-- A link is in L0 again after recovery or L1 (02 R80, R98). -/
def State.backToL0 (s : State) (f : Nat) : State :=
  ((((s.modFn f (fun h => { h with link := .l0 })).flushAnswers f).resumeFn f).releaseHeld f).enterKept

/-- LINK_RECOVERY_EXIT (02 R98). -/
def recoveryExit (f : Nat) (s : State) : State := if (s.fnAt f).link = .recovery then s.backToL0 f else s

/-- FUNCTION_LEVEL_RESET (02 R92, R102; log 69). -/
def functionReset (f : Nat) (s : State) : State := (((s.clearRings f false).modFn f HostFn.clearIo).modFn f (fun h => { h with heldW := [] })).schedSync

/-- CXL_RESET (02 R91, R92, R102, R683). -/
def cxlReset (f : Nat) (s : State) : State :=
  ((((s.modFn f (fun h => { h with
    decoders := List.replicate 8 Decoder.reset, snoopOff := true, viral := false, held := [], withheld := []
    ideOn := h.ideOn && !h.ideOff })).snoopsGone f).flushVectors f).flushWrites f).schedSync

/-! ### Errors, viral and security (02 R89 to R91, R97, R100) -/

/-- HOST_VIRAL (02 R100). -/
def hostViral (f : Nat) (s : State) : State := if s.linkL0 f then (s.goViral f).schedSync else s

/-- IDE_MAC_FAILURE of a stream that runs (02 R91; log 70). -/
def ideMacFailure (f : Nat) (s : State) : State :=
  let h := s.fnAt f
  if !h.ideOn || h.ideOff || !s.linkL0 f then s
  else ((((s.modFn f (fun h => { h with ideOff := true })).report (hpIdeFail (portOf f)) f (some f)).goViral f)).schedSync

/-- SPDM_DOE_MESSAGE: a session opens by authentication under SPDM 1.2 or 1.3; within one, IDE_KM sets up keys, except for a stream that
failed and has not been reset since (02 R89 to R91; log 70). No key is part of the state that a host reads. -/
def spdm (f : Nat) (m : SpdmMsg) (s : State) : State :=
  let s1 := s.emit (.doe f m)
  let h := s.fnAt f
  match m with
  | .authenticate v => if v = 2 ∨ v = 3 then s1.modFn f (fun h => { h with spdm := some v }) else s1
  | .setKeys =>
    if h.spdm.isNone || (h.ideOn && h.ideOff) then s1 else s1.modFn f (fun h => { h with ideOn := true, ideOff := false })
  | .stop => s1.modFn f (fun h => if h.ideOff then h else { h with ideOn := false })

/-- FLIT_ERROR: each event is reported as an AER correctable error, and more than 64 within 1 ms raise HP_LINK_CORRECTED (02 R97; 18 R636). The
millisecond ends with the event, and the count restarts at a raise (log 95). -/
def flitError (f : Nat) (s : State) : State :=
  if !s.linkL0 f then s
  else
    let ts := (s.fnAt f).flitTimes.filter (fun t => decide (s.now < t + 1000000)) ++ [s.now]
    let many := decide (64 < ts.length)
    let s1 := ((s.modFn f (fun h => { h with flitTimes := if many then [] else ts, aerCor := h.aerCor ||| 1 })).emit (.errCor f)).count
      (8 + portOf f) 5
    if many then s1.report (hpLinkCorrected (portOf f)) f (some f) else s1

/-! ### The commands -/

def execFcrDoorbellWrite (fn : Nat) (value : BitVec 32) (s : State) : Host.Outcome State Fault Refusal :=
  .next (s.ioAccess fn (fcrDoorbell fn value))

def execFcrFetchError (fn : Nat) (s : State) : Host.Outcome State Fault Refusal := .next (fcrFetchError fn s)

def execFreeRingConsWrite (fn ring : Nat) (value : BitVec 32) (s : State) : Host.Outcome State Fault Refusal :=
  .next (s.ioAccess fn (freeCons fn ring value))

def execEgressRingConsWrite (fn ring : Nat) (value : BitVec 32) (s : State) : Host.Outcome State Fault Refusal :=
  .next (s.ioAccess fn (egressCons fn ring value))

def execIntCauseWrite (fn : Nat) (value : BitVec 32) (s : State) : Host.Outcome State Fault Refusal :=
  .next (s.ioAccess fn (intCauseWrite fn value))

def execIntEnableWrite (fn : Nat) (value : BitVec 32) (s : State) : Host.Outcome State Fault Refusal :=
  .next (s.ioAccess fn (intEnableWrite fn value))

def execMsixVectorUnmask (fn : Nat) (vector : Option Nat) (s : State) : Host.Outcome State Fault Refusal :=
  .next (s.ioAccess fn (msixUnmask fn vector))

def execBusMasterEnableSet (fn : Nat) (s : State) : Host.Outcome State Fault Refusal := .next (s.ioAccess fn (bmeSet fn))

def execBusMasterEnableClear (fn : Nat) (s : State) : Host.Outcome State Fault Refusal := .next (s.ioAccess fn (bmeClear fn))

def execHdmDecoderCommit (fn index : Nat) (d : DecoderCfg) (s : State) : Host.Outcome State Fault Refusal :=
  .next (s.ioAccess fn (decoderCommit fn index d))

def execEnqueueWindowWrite (fn window offset : Nat) (data : Bytes) (allEnabled poisoned : Bool) (s : State) :
    Host.Outcome State Fault Refusal := .next (s.ioAccess fn (windowWrite ⟨true, fn, window, offset, data, allEnabled, poisoned⟩))

def execCounterUpdateWindowWrite (fn window offset : Nat) (data : Bytes) (allEnabled poisoned : Bool) (s : State) :
    Host.Outcome State Fault Refusal := .next (s.ioAccess fn (windowWrite ⟨false, fn, window, offset, data, allEnabled, poisoned⟩))

def execPerstNAssert (port : Nat) (s : State) : Host.Outcome State Fault Refusal := .next (perstAssert port s)

def execPerstNRelease (port : Nat) (s : State) : Host.Outcome State Fault Refusal := .next (perstRelease port s)

def execHotReset (fn : Nat) (s : State) : Host.Outcome State Fault Refusal := .next (linkResetBy fn .down s)

def execLinkDisable (fn : Nat) (s : State) : Host.Outcome State Fault Refusal := .next (linkResetBy fn .disabled s)

def execSurpriseLinkDown (fn : Nat) (s : State) : Host.Outcome State Fault Refusal := .next (surpriseDown fn s)

def execLinkUp (fn : Nat) (cfg : LinkCfg) (s : State) : Host.Outcome State Fault Refusal := .next (linkUp fn cfg s)

def execLinkRecoveryEntry (fn : Nat) (s : State) : Host.Outcome State Fault Refusal := .next (recoveryEntry fn s)

def execLinkRecoveryExit (fn : Nat) (s : State) : Host.Outcome State Fault Refusal := .next (recoveryExit fn s)

def execFunctionLevelReset (fn : Nat) (s : State) : Host.Outcome State Fault Refusal := .next (s.ioAccess fn (functionReset fn))

def execCxlReset (fn : Nat) (s : State) : Host.Outcome State Fault Refusal := .next (s.ioAccess fn (cxlReset fn))

def execHostViral (fn : Nat) (s : State) : Host.Outcome State Fault Refusal := .next (hostViral fn s)

def execIdeMacFailure (fn : Nat) (s : State) : Host.Outcome State Fault Refusal := .next (ideMacFailure fn s)

def execFlitError (fn : Nat) (s : State) : Host.Outcome State Fault Refusal := .next (flitError fn s)

def execSpdmDoeMessage (fn : Nat) (m : SpdmMsg) (s : State) : Host.Outcome State Fault Refusal := .next (s.ioAccess fn (spdm fn m))

end Sys2Proof.Machine
end

