-- ==== Sys2Proof/Machine/Faults.lean ====
section
/-! DEFINITION. The fault collector: the keeper's log, ladder walks, consequential raises, source states, FAULT_N, throttles and SAFE
(16 R562 to R593), and the fault commands (15 R552). -/

namespace Sys2Proof.Machine
open Sys2Proof

/-! ### Sources (16 R567, R572, R582) -/

/-- A source that has not been raised. -/
def Src.idle : Src := ⟨.clear, .none, 7, 0, Option.none, 0, 0, 0, 0, false⟩

/-- The state of a source. -/
def State.srcAt (s : State) (k : Nat) : Src := (oget s.fc.src k).getD Src.idle

/-- Changes the state of a source. -/
def State.modSrc (s : State) (k : Nat) (g : Src → Src) : State :=
  { s with fc := { s.fc with src := oset s.fc.src k (some (g (s.srcAt k))) } }

/-- The default ladder and handling window in µs (16 R572). -/
def defaultLadder (src : Nat) : List Nat × Nat :=
  if src = qeContextHalted ∨ src = ceContextHalted ∨ src = trMigHalted ∨ src = cdMuckHalted ∨ src = lpScrubHalted ∨ src = lpFillHalted then
    ([1, 2, 3, 5], 10000)
  else if src = pwDroop then ([1, 4, 3, 6, 3, 7], 200)
  else if src = pwFailWarn then ([1, 2, 4, 3, 7], 1000)
  else if src = pwTempThrottle then ([1, 2, 4, 6], 10000)
  else if severityOf src ≤ 1 then ([1], 10000)
  else if severityOf src ≤ 3 then ([1, 2], 10000)
  else ([1, 2, 7], 10000)

/-- The configuration of a source; by default it notifies the management function (16 R572; log 72). -/
def State.cfgOf (s : State) (src : Nat) : SrcCfg :=
  match oget s.fc.cfg src with
  | some c => c
  | none => ⟨(defaultLadder src).1, (defaultLadder src).2, 2 ^ s.mb.mgmt % 16⟩

/-- The device signals FAULT_N (16 R581). -/
def State.pinSync (s : State) : State :=
  let held := s.fc.src.any (fun e => match e.2 with
    | some x => x.holdsPin && decide (x.mode ≠ .clear) && decide (s.fc.pinThr ≤ severityOf e.1)
    | none => false)
  { s with fc := { s.fc with faultN := s.fc.safe || decide (s.pw.cold = .noImage) || held } }

/-! ### The keeper's log (16 R575 to R577) -/

/-- An entry's 256 bits. -/
def LogEntry.word (e : LogEntry) : Nat :=
  e.seq % 2 ^ 32 + e.sec % 2 ^ 48 * 2 ^ 32 + e.ns % 2 ^ 32 * 2 ^ 80 + e.source % 2 ^ 10 * 2 ^ 112 + e.severity % 8 * 2 ^ 122 +
    b2n e.simul * 2 ^ 125 + b2n e.conseq * 2 ^ 126 + b2n e.first * 2 ^ 127 + e.parent % 64 * 2 ^ 128 +
    (e.req.getD 0) % 16 * 2 ^ 134 + b2n e.req.isSome * 2 ^ 138 + e.lastRung % 8 * 2 ^ 139 + b2n e.est * 2 ^ 142 +
    b2n e.coarse * 2 ^ 143 + e.detail % 2 ^ 112 * 2 ^ 144

/-- Changes the log entry of a SEQ, and the first-fault record that is its copy. -/
def State.modEntry (s : State) (seq : Nat) (g : LogEntry → LogEntry) : State :=
  let fix (e : LogEntry) : LogEntry := if e.seq = seq then g e else e
  { s with fc := { s.fc with log := omod s.fc.log (seq % 64) fix, first := s.fc.first.map fix } }

/-- The content of FAULT_LOG_GET from byte 8: position of the newest entry, first-fault record, positions 0 to 63 (16 R577). -/
def logBytes (entries : List LogEntry) (first : Option LogEntry) (newest : Nat) : Bytes :=
  le 4 newest ++ le 4 0 ++ le 32 ((first.map LogEntry.word).getD 0) ++
    ((List.range 64).map (fun i => le 32 (((entries.find? (fun e => e.seq % 64 == i)).map LogEntry.word).getD 0))).flatten

/-- The entries of the log. -/
def State.logEntries (s : State) : List LogEntry := (oall s.fc.log).map (fun e => e.2)

/-- SEQ of the newest entry; 0 before the first (16 R593). -/
def State.lastSeq (s : State) : Nat := (s.fc.seq + 2 ^ 32 - 1) % 2 ^ 32

/-! ### Consequential raises (16 R579, R580) -/

/-- The declared dependents of a reacting unit (16 R580). -/
def dependents (node : Nat) : List Nat :=
  if 26 ≤ node ∧ node ≤ 37 then [10, 11, 16, 17, 18, 19, 20, 21, 22, 25]
  else if node = 8 ∨ node = 9 then [1, 10, 22, 24, 25]
  else if node = 17 then [18, 16, 19]
  else if node = 18 then [17, 16, 19]
  else if node = 22 then [23, 25]
  else if node = 25 then [22]
  else if node = 24 then [22, 23]
  else if node = 0 then [1, 3, 7]
  else if node = 4 then [16, 17, 20, 21, 25] ++ (List.range 12).map (fun c => 26 + c)
  else []

/-- Whether a raise detected at `t` lies in a shadow window. -/
def Shadow.covers (w : Shadow) (t : Nat) : Bool := decide (w.start ≤ t) && (match w.end_ with
  | some e => decide (t ≤ e)
  | none => true)

/-- The window, the newest of several, in which a raise is consequential (log 71). -/
def State.shadowFor (s : State) (src t : Nat) : Option Shadow :=
  s.fc.shadows.reverse.find? (fun w => (dependents w.node).contains (src / 16) && w.covers t)

/-- A raise is the parent that a window waited for: the entries of the window point at it (16 R579). -/
def State.parentRaised (s : State) (src t seq : Nat) : State :=
  s.fc.shadows.foldl (fun s w =>
    if w.src = src ∧ w.parent = none ∧ w.covers t then
      let s1 := w.waits.foldl (fun s q => s.modEntry q (fun e => { e with parent := seq % 64 })) s
      { s1 with fc := { s1.fc with shadows := s1.fc.shadows.map (fun x => if x == w then { x with parent := some seq, waits := [] } else x) } }
    else s) s

/-! ### SAFE (16 R587) -/

/-- The requests of a function that have not reached their ordering point are discarded, and what a port has posted (16 R587). -/
def State.dropWaiting (s : State) : State :=
  let s0 : State := { s with rr := { s.rr with tied := [] }, ce := { s.ce with held := [] } }
  let s1 := [0, 1, 2, 3].foldl (fun s f => s.modFn f (fun h => { h with held := [], heldW := [] })) s0
  [0, 1].foldl (fun s p => s.modPort p (fun x => { x with posted := [] })) s1

/-- Commands under way complete with SAFE_STATE (17 R631; log 73). -/
def State.endAll (s : State) : State :=
  let s1 := s.mb.sActive.foldl (fun s x => s.endS x stSafe) s
  s1.running.foldl (fun s o => s.endOp o.handle stSafe) s1

/-- The device enters SAFE by the walk of a source (16 R568, R587; log 73). -/
def State.enterSafe (s : State) (src : Nat) : State :=
  if s.fc.safe then s
  else
    let s1 := ((s.rr.fetches.map (fun f => f.line)).foldl (fun s l => s.settle l true) s).dropWaiting
    let up : State := { s1 with mc := { s1.mc with
      training := none, trigQ := [], speed := none
      chans := s1.mc.chans.map (fun m => if m.state = .retraining ∨ m.state = .speedChange then { m with state := .service } else m) } }
    let s2 := ((up.existing.foldl (fun s f => s.goViral f) up).endAll).selfRefresh
    let s3 : State := { s2 with
      fc := { s2.fc with
        safe := true, safeCause := some src, flashDue := some (s2.now + 50000000)
        src := s2.fc.src.map (fun (e : Nat × Option Src) => (e.1, e.2.map (fun x => { x with walk := Walk.none, lastRung := 7, walkCfg := none }))) }
      pw := { s2.pw with entry := none, state := if s2.pw.state = .entering then .run else s2.pw.state } }
    s3.pinSync

/-! ### Rungs (16 R566, R567, R570) -/

/-- The CXL timestamp of an event record (15 R560). -/
def State.cxlTime (s : State) : Nat := (s.mb.tsBase + s.now) % 2 ^ 64

/-- The event log of a severity (16 R566). -/
def evLogOf (severity : Nat) : Nat := severity - 1

/-- A LOG rung: the event record, of which a log keeps 256, and its interrupt on vector 0 (02 R79; 15 R560; 16 R566). -/
def State.logRung (s : State) (src seq : Nat) : State :=
  let k := evLogOf (severityOf src)
  let w := ((oget s.fc.log (seq % 64)).map LogEntry.word).getD 0
  let l := s.mb.evlog.getD k []
  if 256 ≤ l.length then { s with mb := { s.mb with evOver := lmod s.mb.evOver k (fun (x : Nat × Nat × Nat) => (satAdd 65535 x.1 1, if x.1 = 0 then s.cxlTime else x.2.1, s.cxlTime)) } }
  else
    let s1 : State := { s with mb := { s.mb with
      evlog := lset s.mb.evlog k (l ++ [(s.mb.evNext, s.cxlTime, w)])
      evNext := s.mb.evNext % 65535 + 1 } }
    if s.mb.policy.getD k 0 % 4 = 1 then s1.existing.foldl (fun s f => s.vector f 0) s1 else s1

/-- A NOTIFY rung (16 R567; log 74). -/
def State.notifyRung (s : State) (src mask : Nat) : State :=
  let s1 := (s.existing.filter (fun f => mask.testBit f && !(s.fnAt f).viral)).foldl (fun s f => s.cause f 3) s
  s1.emit (.bmcNotify src)

/-- Whether a node admits an action rung (16 R570). -/
def admits (node code : Nat) : Bool :=
  if node = 0 then code == 5
  else if node = 4 then code == 4 || code == 6
  else if node = 8 ∨ node = 9 then code == 4 || code == 5 || code == 6
  else if node = 16 ∨ node = 17 ∨ node = 18 ∨ node = 20 then code == 4 || code == 5
  else if node = 21 then code == 4
  else if node = 22 ∨ node = 24 ∨ node = 25 then code == 5
  else if 26 ≤ node ∧ node ≤ 37 then code == 5 || code == 6
  else false

/-- The duration of an action in ns, where the table fixes it (16 R570). -/
def actionNs (node code : Nat) : Nat :=
  if code ≠ 5 then 0
  else if node = 8 ∨ node = 9 then 20000
  else if node = 17 ∨ node = 18 then 10000
  else if node = 24 then 1000
  else 2000

/-- Whether an action needs firmware to finish it (16 R570, R574). -/
def firmwareAction (node code : Nat) : Bool := code == 5 && (node == 0 || decide (26 ≤ node))

/-- Whether a rung has to wait: for Naray (16 R574), or for the wake of a gated unit (16 R588). -/
def State.rungWaits (s : State) (node code : Nat) : Bool :=
  (firmwareAction node code && (s.mb.activating || s.mb.reloading)) ||
    (!s.awake && node != 4 && node != 24)

/-- Adds a number to a list once. -/
def addOnce (k : Nat) (l : List Nat) : List Nat := if k ∈ l then l else l ++ [k]

/-- The reset of a port's links by an action rung: as PERST_N or as link disable, with the raise of such a reset; the reaction is
the rung's (16 R563, R570, R579; log 49). -/
def State.portAction (s : State) (port : Nat) (x : LinkState) : State :=
  (s.fnsOf port).foldl (fun s f =>
    if s.linkLost f then s.linkReset f x
    else ((s.linkReset f x).report (hpLinkReset port) f (some f)).peerPath f) s

/-- The isolation of a node by a source (16 R570). -/
def State.isolate (s : State) (src : Nat) : State :=
  let node := src / 16
  let s1 : State := { s with fc := { s.fc with isoBy := addOnce src s.fc.isoBy } }
  if node = 4 then { s with pw := { s.pw with bgBy := addOnce src s.pw.bgBy } }
  else if node = 8 ∨ node = 9 then ((s.fnsOf (node - 8)).foldl (fun s f => s.goViral f) s).schedSync
  else if node = 16 then { s1 with tr := { s1.tr with paused := true } }
  else if node = 17 ∨ node = 18 then { s1 with cd := { s1.cd with isolated := addOnce (node - 17) s1.cd.isolated } }
  else if node = 20 then { s1 with lp := { s1.lp with paused := true } }
  else { s1 with sx := { s1.sx with paused := true } }

/-- The reset of a node (16 R570; 17 R612; log 73). The SRAM banks of Naray, QE and CE are re-initialised, which applies their soft fuse map
entries; nodes 16 and 20 rebuild halted contexts only (07 R259, R262; log 98). -/
def State.resetUnit (s0 : State) (node : Nat) : State :=
  let s : State := { s0 with pw := { s0.pw with epochs := smod 0 s0.pw.epochs node (fun v => (v + 1) % 65536) } }
  if node = 0 then ({ s with mb := { s.mb with reloading := true, sessions := [], retained := [] } } : State).applySoft 736 760
  else if node = 8 ∨ node = 9 then s.portAction (node - 8) .down
  else if node = 16 then s.restartMig
  else if node = 17 then { s with cd := { s.cd with muckHalted := false } }
  else if node = 18 then s
  else if node = 20 then { s.restartScrub with lp := { s.restartScrub.lp with fillHalted := false } }
  else if node = 22 then ({ s with qe := { s.qe with ctxHalted := 0 } } : State).applySoft 632 704
  else if node = 24 then { s with tu := { s.tu with mode := .acquiring, good := 0, returned := 0, slewLeft := 0 } }
  else if node = 25 then (({ s with ce := { s.ce with halted := 0 } } : State).applySoft 584 632).applySoft 696 704
  else if s.chanIs (node - 26) .service then s.trigger (node - 26)
  else s

/-- The fence of a node by a source (16 R570, R586; 09 R338). -/
def State.fenceUnit (s : State) (src : Nat) : State :=
  let node := src / 16
  if node = 4 then { s with pw := { s.pw with dramBy := addOnce src s.pw.dramBy } }
  else if node = 8 ∨ node = 9 then
    (s.modPort (node - 8) (fun p => { p with disabled := true })).portAction (node - 8) .disabled
  else if s.chanIs (node - 26) .service then
    ((s.fence (node - 26) 2).answerRetrain (node - 26) stRetrainFailed).speedGo
  else s

/-- Whether the firmware action of a node is still under way. -/
def State.actionRuns (s : State) (node : Nat) : Bool :=
  if node = 0 then s.mb.reloading
  else s.chanIs (node - 26) .retraining || (node - 26) ∈ s.mc.trigQ

/-- An action rung of a source starts, with its shadow window (16 R568, R570, R579; log 71). -/
def State.startAction (s : State) (src rung code : Nat) : State :=
  let node := src / 16
  let t := s.now
  let s1 := if code = 4 then s.isolate src else if code = 5 then s.resetUnit node else s.fenceUnit src
  let open_ := firmwareAction node code && s1.actionRuns node
  let end_ := t + actionNs node code + 10000
  let s2 := s1.openShadow node (if open_ then none else some end_) (some (s.srcAt src).pos) src
  s2.modSrc src (fun x => { x with walk := .action rung (if open_ then 0 else end_) })

/-- The rung reached is recorded in the source and in the log (16 R575, R592; log 72). -/
def State.setRung (s : State) (src rung : Nat) : State :=
  (s.modSrc src (fun x => { x with lastRung := rung })).modEntry (s.srcAt src).pos (fun e => { e with lastRung := rung })

/-- A walk ends: a FATAL source enters SAFE; the throttles of a source whose condition is gone lift; an event source settles (16 R568,
R571, R582, R586). -/
def State.endWalk (s : State) (src : Nat) : State :=
  let s1 := s.modSrc src (fun x => { x with walk := Walk.none, lastRung := 7, walkCfg := none })
  if severityOf src = 4 then s1.enterSafe src
  else
    let gone := !s1.condition src
    let s2 : State := if gone then
        { s1 with pw := { s1.pw with bgBy := s1.pw.bgBy.filter (· != src), dramBy := s1.pw.dramBy.filter (· != src) } }
      else s1
    (if gone && !isStateSource src then s2.modSrc src (fun x => { x with mode := if x.mode = .raised then .settling else x.mode }) else s2).pinSync

/-- The walk of a source from a rung on (16 R568, R570, R574). -/
def State.runWalk (s : State) (src : Nat) : Nat → Nat → State
  | 0, _ => s.endWalk src
  | fuel + 1, rung =>
    let c := ((s.srcAt src).walkCfg).getD (s.cfgOf src)
    match c.ladder[rung]? with
    | none => s.endWalk src
    | some code =>
      let seq := (s.srcAt src).pos
      if code = 1 then ((s.setRung src rung).logRung src seq).runWalk src fuel (rung + 1)
      else if code = 2 then ((s.setRung src rung).notifyRung src c.notify).runWalk src fuel (rung + 1)
      else if code = 3 then
        ((s.setRung src rung).modSrc src (fun x => { x with walk := .window rung (s.now + c.window * 1000) })).count 2 6
      else if code = 7 then (s.setRung src rung).enterSafe src
      else if !admits (src / 16) code then s.runWalk src fuel (rung + 1)
      else if s.rungWaits (src / 16) code then (s.leaveIdle).modSrc src (fun x => { x with walk := .blocked rung })
      else (s.setRung src rung).startAction src rung code

/-- The LOG and NOTIFY rungs alone: a consequential raise, and a raise in SAFE (16 R579, R587). -/
def State.quickRungs (s : State) (src seq : Nat) : State :=
  let c := s.cfgOf src
  (List.range c.ladder.length).foldl (fun s i =>
    let code := c.ladder.getD i 0
    let mark (s : State) : State := s.modEntry seq (fun e => { e with lastRung := i })
    if code = 1 then (mark s).logRung src seq
    else if code = 2 then (mark s).notifyRung src c.notify
    else s) s

/-! ### A raise (16 R562 to R582) -/

/-- The DPA of the line that a DEFERRED fault reports (15 R560): from the channel line or the DPA in its detail. -/
def State.poisonDpa (s : State) (src detail : Nat) : Option Nat :=
  if src = lpUncorrectable ∨ src = lpAddressError ∨ src = sxTagMismatch then
    s.lineDpa (detail / 2 ^ 33 % 16) (detail % 2 ^ 33)
  else if src = trMapLost ∨ src = cdDecodeError ∨ src = cdDecodeError1 ∨ src = cdMetaPoisoned then some (detail % 2 ^ 44 / 64 * 64)
  else if src / 16 ≥ 12 ∧ src / 16 ≤ 15 then some (detail / 64 * 64)
  else none

/-- The poison list gains a line, up to 4,096, then the overflow flag (15 R560; log 74). -/
def State.notePoison (s : State) (src detail : Nat) : State :=
  if severityOf src ≠ 2 then s
  else match s.poisonDpa src detail with
    | none => s
    | some d =>
      if d ∈ s.mb.poison then s
      else if 4096 ≤ s.mb.poison.length then { s with mb := { s.mb with poisonOver := some (s.mb.poisonOver.getD s.cxlTime) } }
      else { s with mb := { s.mb with poison := s.mb.poison ++ [d] } }

/-- A report is logged and starts or joins a walk (16 R568, R573 to R582; log 72). -/
def State.raise (s : State) (m : FaultMsg) : State :=
  let sev := severityOf m.source
  let seq := s.fc.seq
  let shadow := s.shadowFor m.source m.at_
  let conseq := shadow.isSome
  let again := decide (s.fc.lastStamp.map ctCycle = some (ctCycle m.at_))
  let simul := again || s.fc.reports.any (fun r => ctCycle r.at_ == ctCycle m.at_)
  let first := s.fc.first.isNone && decide (s.fc.pinThr ≤ sev)
  let parent := match shadow.bind (fun w => w.parent) with
    | some q => q % 64
    | none => if conseq then seq % 64 else 0
  let e : LogEntry := ⟨seq, m.net / 1000000000, m.net % 1000000000, m.source, sev, simul, conseq, first, parent, m.req, 7, m.est, m.coarse,
    m.detail⟩
  let s1 := if again then s.modEntry s.lastSeq (fun x => { x with simul := true }) else s
  let s2 : State := { s1 with fc := { s1.fc with
    log := oset s1.fc.log (seq % 64) (some e)
    seq := (seq + 1) % 2 ^ 32
    first := if first then some e else s1.fc.first
    lastStamp := some m.at_
    quietAt := if s1.fc.pinThr ≤ sev ∧ !conseq then max s1.fc.quietAt m.at_ else s1.fc.quietAt
    flashDue := if sev = 4 ∧ s1.fc.flashDue.isNone then some (s1.now + 50000000) else s1.fc.flashDue
    shadows := s1.fc.shadows.map (fun w => if some w = shadow ∧ w.parent.isNone then { w with waits := w.waits ++ [seq] } else w) } }
  let old := s2.srcAt m.source
  let s3 := s2.modSrc m.source (fun x => { x with
    mode := .raised, raises := satAdd (2 ^ 32 - 1) x.raises 1, lastSeq := seq, clearAt := m.at_
    holdsPin := x.holdsPin || !conseq })
  let s4 := ((s3.parentRaised m.source m.at_ seq).notePoison m.source m.detail).count 2 sev
  let s5 := if conseq then s4.count 2 8 else s4
  if s.fc.safe then (s5.quickRungs m.source seq).pinSync
  else if old.walk ≠ Walk.none then s5.pinSync
  else
    let s6 := (s5.modSrc m.source (fun x => { x with pos := seq, walkCfg := some (s5.cfgOf m.source) })).count 2 5
    if conseq then ((s6.quickRungs m.source seq).endWalk m.source).pinSync
    else (s6.runWalk m.source 8 0).pinSync

/-- Whether FC runs (17 R621, R623). -/
def State.fcRuns (s : State) : Bool := decide (s.pw.cold ≠ .held) && decide (s.pw.state ≠ .deep) && decide (s.pw.state ≠ .off)

/-- The order in which reports are placed in the log: detection stamp, then severity, most severe first, then source (16 R578; log 7). -/
def reportKey (m : FaultMsg) : Nat := ctCycle m.at_ * 2 ^ 20 + (4 - severityOf m.source) * 2 ^ 12 + m.source

/-- A word of SRAM was corrected: the second time at one address it enters the soft fuse map, 64 entries at most (07 R258, R259). -/
def State.sramCorrected (s : State) (bank word : Nat) : State :=
  let s1 : State := { s with fu := { s.fu with errLoc := bank + word * 1024 } }
  if (bank, word) ∉ s.fu.onceBad then { s1 with fu := { s1.fu with onceBad := s1.fu.onceBad ++ [(bank, word)] } }
  else if (bank, word) ∈ s.fu.soft ∨ 64 ≤ s.fu.soft.length then s1
  else { s1 with
    fu := { s1.fu with soft := s1.fu.soft ++ [(bank, word)] }
    lp := { s1.lp with repairLog := s1.lp.repairLog ++ [RepairNote.softFuse bank word] } }

/-- A MIG context halts: the move it held is aborted (05 R175; 07 R262). -/
def State.migHalt (s : State) : State :=
  let s1 : State := { s with tr := { s.tr with halted := min 32 (s.tr.halted + 1) } }
  match s.tr.moves with
  | [] => s1
  | m :: _ => s1.abortMove m.region m.page 10

/-- The metadata line that an error report names: by the DPA of what it describes, bit 44 set for the page map (log 7). -/
def State.metaNamed (s : State) (d : Nat) : Option (Nat × Region × Nat) :=
  (s.regionAt (d % 2 ^ 44)).bind (fun r =>
    if r.2.tier = 0 then none
    else if d.testBit 44 then (if r.2.tier = 2 then some (r.1, r.2, (r.2.pageAt ((d % 2 ^ 44 - r.2.base) / 4096)).1) else none)
    else some (r.1, r.2, (d % 2 ^ 44 - r.2.base) / 4096))

/-- An uncorrectable SRAM error in a metadata cache line: a CLEAN line is invalidated and read again; a DIRTY descriptor line is POISON; a
DIRTY page map line is lost, which raises TR_MAP_LOST for its pages (06 R221; 05 R181). -/
def State.metaError (s : State) (d w : Nat) : State :=
  match s.metaNamed d with
  | none => s
  | some (n, r, i) =>
    match s.metaHit n i with
    | none => s
    | some m =>
      if !m.dirty then
        (({ s with cd := { s.cd with mcache := s.cd.mcache.filter (fun x => !(x.region == n && x.index == i)) } } : State).metaLine n i w).1
      else if d.testBit 44 then s.lostMap n w r i
      else { s.descsPoison n i w with cd := { (s.descsPoison n i w).cd with mcErrDpa := d % 2 ^ 44 / 64 * 64 } }

/-- What the error that a report from outside the model names does to the state: SRAM errors of 04 R155 to R160, 06 R221, 07 R258 to R262,
12 R425 and 13 R473 to R475. The detail names the place: a line DPA, a bank and word, a scheduler node as level and number, a quadrant's set
and way, or a set with a pair or status line (log 7). -/
def State.extEffect (s : State) (e : FaultIn) : State :=
  let d := e.detail
  let w := e.requester.getD 15
  if e.source % 16 = 15 then { s with fu := { s.fu with errLoc := d % 2 ^ 24 + 2 ^ 24 } }
  else if e.source = fuSramCorrected then (s.sramCorrected (d % 1024) (field d 10 14)).count 6 0
  else if e.source = scStateLost then
    (if (oget s.sc.nodes (nodeKey (field d 20 4) (d % 2 ^ 20))).isSome then
      let k := nodeKey (field d 20 4) (d % 2 ^ 20)
      ((s.modNode k (fun x => { x with bucket := 0, last := s.scTime, deficit := 0 })).placeNode k).schedSync else s)
  else if e.source = trMigHalted then s.migHalt
  else if e.source = cdMetaRefetched ∨ e.source = cdMetaPoisoned then s.metaError d w
  else if e.source = ceLeafLost ∨ e.source = ceAncestorStale then
    (match s.ceSet (field d 32 16) with
    | some c => s.ceBad ⟨field d 32 16, false, d % 2 ^ 32 / c.per⟩
    | none => s)
  else if e.source = ceStatusLost then s.ceBad ⟨field d 32 16, true, d % 2 ^ 32⟩
  else if 192 ≤ e.source ∧ e.source < 256 then
    let q := e.source / 16 - 12
    match e.source % 16 with
    | 0 => s.nsDataError q 1 (d / 64) w
    | 1 => s.nsDataError q 4 (d / 64) w
    | 2 => s.nsDataError q 2 (d / 64) w
    | _ => if s.wayLive (field d 14 4) then s.tagLost q (d % 16384) (field d 14 4) else s.nsErrAt q (d % 16384) (field d 14 4) 3
  else s

/-- FAULT_REPORT: the next report reaches FC; `ext`: a report of a unit from outside what the model computes joins first (log 7). -/
def faultReport (ext : Option FaultIn) (s : State) : State :=
  if !s.fcRuns then s
  else
    let s1 : State := match ext with
      | some e => if (sourceInfo e.source).isSome then
          let s0 := s.extEffect e
          -- a lost page map line has raised its own faults
          if e.source = cdMetaPoisoned ∧ e.detail.testBit 44 then s0 else { s0 with fc := { s0.fc with reports := s0.fc.reports ++ [s0.faultMsg e.source e.detail e.requester] } } else s
      | none => s
    match minBy reportKey s1.fc.reports with
    | none => s1
    | some m => ({ s1 with fc := { s1.fc with reports := s1.fc.reports.erase m } } : State).raise m

/-! ### The events of FC -/

/-- ACTION_RUNG_DONE: the action has completed and 10 µs have passed; the walk goes on where the condition is present. A rung that had to
wait starts once it may (16 R568, R574, R588). -/
def actionRungDone (src : Nat) (s : State) : State :=
  if !s.fcRuns then s
  else match (s.srcAt src).walk with
    | .action rung until_ =>
      if until_ = 0 then s
      else
        let s1 := s.advance until_
        if s1.condition src then s1.runWalk src 8 (rung + 1) else s1.endWalk src
    | .blocked rung =>
      let code := (((s.srcAt src).walkCfg).getD (s.cfgOf src)).ladder.getD rung 0
      if s.rungWaits (src / 16) code then s else s.runWalk src 8 rung
    | _ => s

/-- HANDLING_WINDOW_EXPIRY: the window ends without acknowledgement (16 R568, R569). -/
def windowExpiry (src : Nat) (s : State) : State :=
  if !s.fcRuns then s
  else match (s.srcAt src).walk with
    | .window rung until_ => ((s.advance until_).count 2 7).runWalk src 8 (rung + 1)
    | _ => s

/-- SOURCE_CONDITION_CLEAR (16 R569, R582). -/
def conditionClear (src : Nat) (s : State) : State :=
  if !s.fcRuns ∨ !isStateSource src ∨ (s.srcAt src).mode ≠ .raised ∨ s.condition src then s
  else
    let s1 := s.modSrc src (fun x => { x with mode := if severityOf src = 4 then .raised else .settling, clearAt := s.now })
    (match (s1.srcAt src).walk with
      | .window _ _ => s1.endWalk src
      | _ => s1).pinSync

/-- When a settling source returns to CLEAR (16 R582). -/
def State.clearDue (s : State) (x : Src) : Nat := max x.clearAt s.fc.quietAt + s.fc.quiet * 1000000000

/-- Lifts the isolation of a source that returns to CLEAR (16 R570). -/
def State.liftIso (s : State) (src : Nat) : State :=
  let left := s.fc.isoBy.filter (· != src)
  let node := src / 16
  let s1 : State := { s with fc := { s.fc with isoBy := left } }
  if src ∉ s.fc.isoBy ∨ left.any (fun k => k / 16 == node) then s1
  else if node = 16 then { s1 with tr := { s1.tr with paused := false } }
  else if node = 17 ∨ node = 18 then { s1 with cd := { s1.cd with isolated := s1.cd.isolated.filter (· != node - 17) } }
  else if node = 20 then { s1 with lp := { s1.lp with paused := false } }
  else { s1 with sx := { s1.sx with paused := false } }

/-- QUIET_PERIOD_EXPIRY: the settling sources whose quiet period ends first return to CLEAR (16 R582, R583). -/
def quietExpiry (s : State) : State :=
  let ready (e : Nat × Src) : Bool := decide (e.2.mode = .settling) && decide (severityOf e.1 ≠ 4)
  match minBy (fun e => s.clearDue e.2) ((oall s.fc.src).filter ready) with
  | none => s
  | some x =>
    if !s.fcRuns then s
    else
      let s1 := s.advance (s.clearDue x.2)
      (((oall s1.fc.src).filter (fun e => ready e && decide (s1.clearDue e.2 ≤ s1.now))).foldl (fun (s : State) e =>
        let s2 := s.modSrc e.1 (fun x => { x with mode := .clear, recov := satAdd (2 ^ 32 - 1) x.recov 1, holdsPin := false })
        ({ s2 with fc := { s2.fc with recov := satAdd (2 ^ 32 - 1) s2.fc.recov 1 } } : State).liftIso e.1) s1).pinSync

/-- SHADOW_WINDOW_END: the window that ends first; raises detected within it have reached FC before (16 R579). -/
def shadowEnd (s : State) : State :=
  match minBy (fun (w : Shadow) => w.end_.getD 0) (s.fc.shadows.filter (fun w => w.end_.isSome)) with
  | none => s
  | some w =>
    let t := w.end_.getD 0
    if !s.fcRuns ∨ s.fc.reports.any (fun m => decide (m.at_ ≤ t)) then s
    else
      let s1 := s.advance t
      { s1 with fc := { s1.fc with shadows := s1.fc.shadows.erase w } }

/-- FAULT_LOG_FLASH_COPY: within 50 ms of a FATAL raise or of SAFE entry (16 R577). -/
def flashCopy (s : State) : State :=
  if s.fc.flashDue.isNone ∨ !s.fcRuns then s
  else ({ s with fc := { s.fc with flash := some (s.logEntries, s.fc.first, s.lastSeq % 64), flashDue := none } } : State).emit
    (.flash 0x2400000)

/-- THROTTLE_LIFT: the throttles of a source whose condition has been clear for 1 ms (16 R586). -/
def throttleLift (s : State) : State :=
  let held := (s.pw.bgBy ++ s.pw.dramBy).filter (fun k => !s.condition k && decide ((s.srcAt k).mode ≠ .raised))
  match minBy (fun k => (s.srcAt k).clearAt) held with
  | none => s
  | some k =>
    if !s.fcRuns then s
    else
      let s1 := s.advance ((s.srcAt k).clearAt + 1000000)
      { s1 with pw := { s1.pw with bgBy := s1.pw.bgBy.filter (· != k), dramBy := s1.pw.dramBy.filter (· != k) } }

/-! ### Commands (15 R552; 16 R569, R576, R577, R581 to R583, R592) -/

/-- The part of a LADDER field before its end: bytes that are not 0 (15 R552). -/
def ladderLen (b : Bytes) : Nat := (((b.drop 8).take 7).takeWhile (fun x => decide (x ≠ 0))).length

/-- The rules of FAULT_CFG (log 44). -/
def faultRules (b : Bytes) : List FieldRule :=
  (if ladderLen b = 0 then [⟨8, 1, fun _ => 1⟩] else (List.range (ladderLen b)).map (fun j => ⟨8 + j, 1, fun v => if 8 ≤ v then 1 else v⟩)) ++
    [fRange 16 4 100 1000000, ⟨20, 1, fun v => v % 16⟩]

/-- FAULT_CFG (15 R552; 16 R567, R569, R572). -/
def faultCfg : Body := fun p b s =>
  let src := rd b 4 4
  if (sourceInfo src).isNone then (s, ans stObjectAbsent src)
  else
    let dflt := (rd b 21 1).testBit 0
    let r := if dflt then (b, []) else applyRules (faultRules b) b
    let cfg := if dflt then none
      else some (SrcCfg.mk ((((r.1.drop 8).take 7).takeWhile (fun x => decide (x ≠ 0))).map (·.toNat)) (rd r.1 16 4) (rd r.1 20 1))
    let s1 : State := { s with fc := { s.fc with cfg := oset s.fc.cfg src cfg } }
    let s2 := match (s1.srcAt src).walk with
      | .window _ _ => s1.endWalk src
      | _ => s1
    (s2.direct p 0xC400 17 src r.2, ans (okStatus r.2) src)

/-- FAULT_CTL (15 R552; 16 R581, R582). -/
def faultCtl : Body := fun p b s =>
  let obj := rd b 4 4
  if obj ≠ 0 then (s, ans stObjectAbsent obj)
  else
    let r := applyRules (validRules b [(0, fRange 8 1 0 4), (1, fRange 12 4 1 3600)]) b
    let s1 : State := { s with fc := { s.fc with
      pinThr := if validBit b 0 then rd r.1 8 1 else s.fc.pinThr
      quiet := if validBit b 1 then rd r.1 12 4 else s.fc.quiet } }
    (s1.pinSync.direct p 0xC401 17 obj r.2, ans (okStatus r.2) obj)

/-- FAULT_LOG_GET (16 R577; log 74). -/
def faultLogGet : Body := fun _ b s =>
  let obj := rd b 4 4
  if 2 ≤ obj then (s, ans stObjectAbsent obj)
  else if obj = 0 then (s, ans stSuccess obj (logBytes s.logEntries s.fc.first (s.lastSeq % 64)))
  else match s.fc.flash with
    | some x => (s, ans stSuccess obj (logBytes x.1 x.2.1 x.2.2))
    | none => (s, ans stSuccess obj (logBytes [] none 0))

/-- FAULT_CLEAR (15 R552; 16 R576, R583). -/
def faultClear : Body := fun p b s =>
  let obj := rd b 4 4
  if obj ≠ 0 then (s, ans stObjectAbsent obj)
  else
    let r := applyRules [fEnum 8 1 2 0] b
    let what := rd r.1 8 1
    let s1 : State :=
      if what = 0 then { s with fc := { s.fc with first := none } }
      else if what = 1 then { s with fc := { s.fc with log := [] } }
      else { s with fc := { s.fc with
        recov := 0
        src := s.fc.src.map (fun (e : Nat × Option Src) => (e.1, e.2.map (fun x => { x with recov := 0 }))) } }
    (s1.direct p 0xC403 17 obj r.2, ans (okStatus r.2) obj)

/-- The record of a source (16 R592); a number that no rule assigns reads 0 (log 17). -/
def State.srcRecord (s : State) (src : Nat) : Bytes :=
  match sourceInfo src with
  | none => le 32 0
  | some i =>
    let c := s.cfgOf src
    let x := s.srcAt src
    let mode := match x.mode with
      | .clear => 0
      | .raised => 1
      | .settling => 2
    let open_ := match x.walk with
      | .window _ _ => true
      | _ => false
    (((c.ladder.map (fun r => BitVec.ofNat 8 r)) ++ List.replicate 7 0).take 7) ++ [0] ++ le 4 c.window ++ le 1 c.notify ++ [0] ++ le 2 0 ++
      le 4 (mode + i.1 * 4 + b2n i.2 * 32 + x.lastRung * 64 + b2n open_ * 512) ++ le 4 x.raises ++ le 4 x.recov ++ le 4 x.lastSeq

/-- FAULT_QUERY (15 R535; 16 R592). -/
def faultQuery : Body := fun p b s =>
  if (sourceInfo (rd b 4 4)).isNone then (s, ans stObjectAbsent (rd b 4 4)) else query p 0xC404 b s 608 32 s.srcRecord

/-! ### The commands -/

def execFaultCfg (p : Path) (b : Bytes) (s : State) : Host.Outcome State Fault Refusal := .next (s.command p 0xC400 b faultCfg)

def execFaultCtl (p : Path) (b : Bytes) (s : State) : Host.Outcome State Fault Refusal := .next (s.command p 0xC401 b faultCtl)

def execFaultLogGet (p : Path) (b : Bytes) (s : State) : Host.Outcome State Fault Refusal := .next (s.command p 0xC402 b faultLogGet)

def execFaultClear (p : Path) (b : Bytes) (s : State) : Host.Outcome State Fault Refusal := .next (s.command p 0xC403 b faultClear)

def execFaultQuery (p : Path) (b : Bytes) (s : State) : Host.Outcome State Fault Refusal := .next (s.command p 0xC404 b faultQuery)

def execFaultReport (ext : Option FaultIn) (s : State) : Host.Outcome State Fault Refusal := .next (faultReport ext s)

def execActionRungDone (source : Nat) (s : State) : Host.Outcome State Fault Refusal := .next (actionRungDone source s)

def execHandlingWindowExpiry (source : Nat) (s : State) : Host.Outcome State Fault Refusal := .next (windowExpiry source s)

def execSourceConditionClear (source : Nat) (s : State) : Host.Outcome State Fault Refusal := .next (conditionClear source s)

def execQuietPeriodExpiry (s : State) : Host.Outcome State Fault Refusal := .next (quietExpiry s)

def execShadowWindowEnd (s : State) : Host.Outcome State Fault Refusal := .next (shadowEnd s)

def execFaultLogFlashCopy (s : State) : Host.Outcome State Fault Refusal := .next (flashCopy s)

def execThrottleLift (s : State) : Host.Outcome State Fault Refusal := .next (throttleLift s)

end Sys2Proof.Machine
end

