-- ==== Sys2Proof/Machine/Time.lean ====
section
/-! DEFINITION. The network time unit: its sources, samples, steps and commands, and what a wake does to the scheduler (12 R444 to R452,
R457). -/

namespace Sys2Proof.Machine
open Sys2Proof

/-- TU_DISCIPLINED (12 R455). -/
def stTuDisciplined : Nat := 0x1200

/-- A time in units of 2^-40 ns. -/
def ns40 (ns : Int) : Int := ns * 2 ^ 40

/-- Network time steps to a value, in units of 2^-40 ns (12 R446, R449, R450). -/
def State.stepTime (s : State) (t40 : Nat) : State :=
  let s1 : State := { s with tu := { s.tu with ns40 := t40, slewLeft := 0, steps := satAdd (2 ^ 32 - 1) s.tu.steps 1 } }
  (((s1.report tuStepped 0).count 24 2)).gatesStepped

/-- The function of a PTM source (12 R445). -/
def ptmFn (source : Nat) : Nat := if source = 1 then 0 else 2

/-- Whether a PTM dialogue on a source's link can give a valid sample (12 R448). -/
def State.ptmOpen (s : State) (source : Nat) : Bool :=
  let f := ptmFn source
  (s.fnAt f).exist && (s.fnAt f).ptmEn && !(s.fnAt f).viral && !s.linkLost f && !decide ((s.fnAt f).link = .l1)

/-- The sample interval of a source in ns (12 R445). -/
def Tu.intervalOf (tu : Tu) (source : Nat) : Nat := if source = 3 then 1000000000 else tu.ptmMs * 1000000

/-- Whether a source has delivered a valid sample within its last 3 intervals (12 R448). -/
def State.delivers (s : State) (source : Nat) : Bool :=
  let last := sget 0 s.tu.lastValid source
  decide (source ≠ 0) && decide (last ≠ 0) && decide (s.now < last - 1 + 3 * s.tu.intervalOf source)

/-- The active source's sample is used: slewed or stepped, and the state follows (12 R446, R447, R452; log 62). -/
def State.useSample (s : State) (sample40 : Int) : State :=
  let off40 : Int := (s.tu.ns40 : Int) - sample40
  let off : Int := off40 / 2 ^ 40
  let near := decide (off40.natAbs ≤ 100 * 2 ^ 40)
  let good := if near then min 8 (s.tu.good + 1) else 0
  let s1 : State := { s with tu := { s.tu with
    offset := off
    good := good
    mode := if 8 ≤ good then .locked else .acquiring
    estimated := false
    coarse := false } }
  if off40.natAbs ≤ s.tu.stepThr * 1000 * 2 ^ 40 then { s1 with tu := { s1.tu with slewLeft := -off40 } }
  else s1.stepTime sample40.toNat

/-- A valid sample of a source: of the active one it is used; three of a returning primary take it back (12 R448). -/
def State.sample (s0 : State) (source : Nat) (sample40 : Int) : State :=
  let s := (({ s0 with tu := { s0.tu with lastValid := sset 0 s0.tu.lastValid source (s0.now + 1) } } : State)).count 24 0
  let tu := s.tu
  let take (s : State) : State := ({ s with tu := { s.tu with active := source, returned := 0 } } : State).useSample sample40
  if source = tu.primary then
    if tu.active = source ∨ tu.active = 0 then take s
    else if 2 ≤ tu.returned then take { s with tu := { s.tu with good := 0 } }
    else { s with tu := { s.tu with returned := s.tu.returned + 1 } }
  else if tu.active = source then take s
  else if tu.active = 0 ∧ (tu.primary = 0 ∨ tu.mode = .holdover) then take s
  else s

/-- An invalid sample (12 R448). -/
def State.badSample (s : State) (source : Nat) : State :=
  let s1 := s.count 24 1
  if source = s.tu.primary then { s1 with tu := { s1.tu with returned := 0 } } else s1

/-- Whether a source is enabled. -/
def State.enabledSource (s : State) (source : Nat) : Bool :=
  decide (source ≠ 0) && (decide (source = s.tu.primary) || decide (source = s.tu.secondary))

/-- PTM_DIALOGUE: once per PTM interval, on the link of each PTM source (12 R445). -/
def ptmDialogue (s : State) : State :=
  let srcs := [1, 2].filter s.enabledSource
  if srcs.isEmpty || !s.tuRuns then s
  else
    let s1 := s.advance (s.tu.ptmAt + s.tu.ptmMs * 1000000)
    let s2 : State := { s1 with tu := { s1.tu with ptmAt := s1.now } }
    srcs.foldl (fun s x => if s.ptmOpen x then s.emit (.ptmRequest (ptmFn x)) else s.badSample x) s2

/-- PTM_SAMPLE: the Master Time, corrected for propagation (12 R445, R446, R448). -/
def ptmSample (source : Nat) (valid : Bool) (sec ns : Nat) (s : State) : State :=
  if !s.tuRuns || !(source == 1 || source == 2) || !s.enabledSource source then s
  else if !valid || !s.ptmOpen source then s.badSample source
  else s.sample source (ns40 ((sec * 1000000000 + ns : Nat) + s.tu.ptmOffset))

/-- PPS_IN_EDGE: the edge, less the PPS delay, marks the second nearest to the TU's own time (12 R445; log 62). -/
def ppsInEdge (s : State) : State :=
  if !s.tuRuns || !s.enabledSource 3 then s
  else
    let own : Int := (s.tu.ns40 : Int) - ns40 s.tu.ppsDelay
    let second : Int := ns40 1000000000
    let mark := (own + second / 2) / second * second
    s.sample 3 (mark + ns40 s.tu.ppsDelay)

/-- TIME_SOURCE_TIMEOUT: the active source has been silent for 3 of its intervals (12 R447, R448). -/
def timeSourceTimeout (s : State) : State :=
  if !s.tuRuns then s
  else match s.tu.mode with
    | .holdover => s
    | .free =>
      if s.tu.primary ≠ 0 ∧ s.tu.secondary ≠ 0 ∧ s.tu.active = 0 then
        { s with tu := { s.tu with active := s.tu.secondary } }.report tuSourceLost s.tu.primary
      else s
    | _ =>
      let a := s.tu.active
      let s1 := s.advance (sget 0 s.tu.lastValid a - 1 + 3 * s.tu.intervalOf a)
      if a = s1.tu.primary ∧ s1.delivers s1.tu.secondary then
        { s1 with tu := { s1.tu with active := s1.tu.secondary, mode := .acquiring, good := 0, returned := 0 } }.report tuSourceLost a
      else { s1 with tu := { s1.tu with active := 0, mode := .holdover, good := 0, returned := 0 } }.report tuHoldover a

/-! ### Commands (12 R445, R449, R457; 15 R549) -/

/-- TU_CTL. -/
def tuCtl : Body := fun p b s =>
  let obj := rd b 4 4
  if obj ≠ 0 then (s, ans stObjectAbsent obj)
  else
    let c := applyRules (validRules b [(0, fEnum 8 1 3 0), (1, fEnum 9 1 3 0), (2, fRange 10 2 1 1000), (3, fRange 12 4 0 1000000),
      (4, fRange 16 4 1 1000000)]) b
    let prim := if validBit b 0 then rd c.1 8 1 else s.tu.primary
    let sec0 := if validBit b 1 then rd c.1 9 1 else s.tu.secondary
    let same := decide (sec0 = prim ∧ prim ≠ 0)
    let sec := if same then 0 else sec0
    let cl := c.2 ++ (if same then [(9, sec0, 0)] else [])
    let s1 : State := { s with tu := { s.tu with
      primary := prim
      secondary := sec
      active := if s.tu.active = prim ∨ s.tu.active = sec then s.tu.active else 0
      ptmMs := if validBit b 2 then rd c.1 10 2 else s.tu.ptmMs
      ppsDelay := if validBit b 3 then rd c.1 12 4 else s.tu.ppsDelay
      stepThr := if validBit b 4 then rd c.1 16 4 else s.tu.stepThr
      ptmOffset := if validBit b 5 then signed 64 (rd c.1 24 8) else s.tu.ptmOffset } }
    (s1.direct p 0xC250 8 obj cl, ans (okStatus cl) obj)

/-- TU_SET (12 R449; log 62). -/
def tuSet : Body := fun p b s =>
  let obj := rd b 4 4
  if obj ≠ 0 then (s, ans stObjectAbsent obj)
  else if s.tu.mode = .acquiring ∨ s.tu.mode = .locked then (s, ans stTuDisciplined obj)
  else
    let c := applyRules [fRange 8 4 0 999999999] b
    ((s.stepTime ((rd c.1 16 6 * 1000000000 + rd c.1 8 4) * 2 ^ 40)).direct p 0xC251 8 obj c.2, ans (okStatus c.2) obj)

/-- TU_STATE (12 R457). -/
def State.tuStateReg (s : State) : Nat :=
  (match s.tu.mode with
    | .free => 0
    | .acquiring => 1
    | .locked => 2
    | .holdover => 3) + b2n s.tu.estimated * 8 + b2n s.tu.coarse * 16 + s.tu.active * 32

/-- TU_OFFSET (12 R457). -/
def State.tuOffsetReg (s : State) : Nat := unsigned 32 s.tu.offset

/-- TU_FREQ: the applied correction, with that of a slew, in parts per 10^12 (12 R446, R457). -/
def State.tuFreqReg (s : State) : Nat :=
  let slew : Int := if s.tu.slewLeft = 0 then 0 else if 0 < s.tu.slewLeft then 200000000 else -200000000
  unsigned 32 (s.tu.corr * 1000000000000 / (5 * 2 ^ 40) + slew)

/-- TU_TIME_NS: nanoseconds and fractional nanoseconds (12 R457). -/
def State.tuNsReg (s : State) : Nat := s.netN + s.tu.ns40 % 2 ^ 40 / 2 ^ 24 * 2 ^ 32

/-- TU_QUERY (12 R457; log 17). -/
def tuQuery : Body := fun _ b s =>
  let obj := rd b 4 4
  if obj ≠ 0 then (s, ans stObjectAbsent obj)
  else (s, ans stSuccess obj (le 4 s.tuStateReg ++ le 4 s.tuOffsetReg ++ le 4 s.tuFreqReg ++ le 4 s.tu.steps ++ le 8 s.netS ++
    le 8 s.tuNsReg))

/-- TU_TIME_S is read: TU_TIME_NS is latched at the same instant (12 R457). -/
def State.latchTime (s : State) : State := { s with tu := { s.tu with latchNs := s.tuNsReg } }

/-! ### Across sleep (12 R451) -/

/-- What the scheduler does at a wake, with scheduler time advanced by the measured interval (12 R451): `late` is by how much the
measure falls short of the interval, `early` by how much it exceeds it. -/
def State.schedWake (s : State) (late early : Nat) : State :=
  let s1 : State := { s with sc := { s.sc with skew := s.sc.skew + late - early, wheel := [] } }
  let t := s1.scTime
  let s2 : State := { s1 with sc := { s1.sc with
    nodes := s1.sc.nodes.map (fun (e : Nat × Option Node) => (e.1, e.2.map (fun n => n.credit t)))
    ports := s1.sc.ports.map (fun (e : Nat × Option ScPort) => (e.1, e.2.map (fun x => { x with lineTime := t * 2 ^ 16 }))) } }
  let s3 := ((oall s2.sc.nodes).map (fun e => e.1)).foldl (fun s k => s.placeNode k) s2
  let s4 := ((oall s3.sc.ports).map (fun e => e.1)).foldl (fun s p =>
    match (s.scPort p).gate, (s.scPort p).swapAt with
    | true, some w => if w ≤ s.netNs then s.swapGate p else s
    | _, _ => s) s3
  s4.schedSync

/-! ### The commands -/

def execTuCtl (p : Path) (b : Bytes) (s : State) : Host.Outcome State Fault Refusal := .next (s.command p 0xC250 b tuCtl)

def execTuSet (p : Path) (b : Bytes) (s : State) : Host.Outcome State Fault Refusal := .next (s.command p 0xC251 b tuSet)

def execTuQuery (p : Path) (b : Bytes) (s : State) : Host.Outcome State Fault Refusal := .next (s.command p 0xC252 b tuQuery)

def execTuTimeSRead (s : State) : Host.Outcome State Fault Refusal := .next (s.latchTime.emit (.regValue (s.netS % 2 ^ 48)))

def execPtmDialogue (s : State) : Host.Outcome State Fault Refusal := .next (ptmDialogue s)

def execPtmSample (source : Nat) (valid : Bool) (sec ns : Nat) (s : State) : Host.Outcome State Fault Refusal :=
  .next (ptmSample source valid sec ns s)

def execPpsInEdge (s : State) : Host.Outcome State Fault Refusal := .next (ppsInEdge s)

def execTimeSourceTimeout (s : State) : Host.Outcome State Fault Refusal := .next (timeSourceTimeout s)

end Sys2Proof.Machine
end

