-- ==== Sys2Proof/Machine/Power.lean ====
section
/-! DEFINITION. Power states, waking, clocks and start-up (17 R595 to R634, R682; 19 R667, R669, R673, R674; 09 R310, R331, R343; 12 R451;
13 R479; 15 R553, R554; 16 R584, R586). -/

namespace Sys2Proof.Machine
open Sys2Proof

/-! ### Clock domains (17 R620, R621) -/

/-- The set of the domains listed. -/
def domainMask (ds : List Nat) : BitVec 40 := ds.foldl (fun m d => m ||| (1#40 <<< (d - 1))) 0

/-- Whether a domain is clocked in RUN (17 R620, R621). -/
def State.domainRuns (s : State) (d : Nat) : Bool :=
  if d ≤ 12 then !decide ((s.chan (d - 1)).state = .unpopulated) && !decide ((s.chan (d - 1)).state = .fenced)
  else if d = 13 then s.ck.refA
  else if d = 14 then s.ck.refB
  else if d = 16 ∨ d = 17 then (oall s.rg.regions).any (fun r => decide (r.2.tier ≠ 0))
  else if d = 31 then !s.pm.en.isEmpty || decide (s.pm.interval ≠ 0)
  else if d = 35 then false
  else if d = 36 then s.pw.trst
  else if d = 39 then s.mediaReady
  else if d = 40 then s.sx.sweep
  else true

/-- The domains clocked in RUN. -/
def State.runDomains (s : State) : BitVec 40 := domainMask (((List.range 40).map (· + 1)).filter s.domainRuns)

/-- The domains clocked in SLEEP: a port whose link stays in L0 keeps its domain (17 R595, R604, R621). -/
def State.sleepDomains (s : State) : BitVec 40 :=
  domainMask ([28, 29, 30, 32, 33, 34, 37] ++ [0, 1].filterMap (fun p =>
    if (s.fnsOf p).any (fun f => s.linkL0 f) then some (13 + p) else none))

def State.withDomains (s : State) (m : BitVec 40) : State := { s with ck := { s.ck with domains := m } }

/-! ### PW_ENTER and PW_WAKE (17 R596, R599 to R602, R613; 15 R553, R554; 09 R344) -/

/-- The background operations during which PW_ENTER is refused (17 R599). -/
def refusesEntry (w : BgWork) : Bool :=
  match w with
  | .rekey => false
  | _ => true

/-- Whether PW_ENTER completes with BUSY (17 R599; 09 R344). -/
def State.entryBusy (s : State) : Bool :=
  s.anyTraining || s.mc.speed.isSome || (List.range 12).any (fun c => s.chanIs c .retraining || s.chanIs c .speedChange) ||
    s.running.any (fun o => refusesEntry o.work) || !s.mb.sActive.isEmpty || s.pw.entry.isSome || s.pw.wake.isSome

/-- Removes every packet still queued with a FLUSH event (17 R602). -/
def State.discardQueues (s : State) : State :=
  (((oall s.qe.queues).map (fun e => e.1)).foldl (fun s q =>
    let n := (s.queueAt q).packets
    let s1 := s.modQueue q (fun x => { x with flushTo := x.tail })
    (s1.flushMany q n 0).1) s).schedSync

def pwEnterRules (deep : Bool) : List FieldRule :=
  fEnum 8 1 3 0 :: (if deep then [fEnum 9 1 1 0, ⟨12, 12, fun v => v ||| (0xF * 2 ^ 92)⟩, fRange 24 4 1 10000] else [])

/-- PW_ENTER. -/
def pwEnter : Body := fun p b s =>
  let obj := rd b 4 4
  if obj ≠ 0 then (s, ans stObjectAbsent obj)
  else
    let r := applyRules (pwEnterRules (rd b 8 1 == 2)) b
    let t := rd r.1 8 1
    let s0 := s.direct p 0xC500 19 obj r.2
    if t = 0 then (s0, ans (okStatus r.2) obj)
    else if s.entryBusy then (s, ans stBusy obj)
    else
      let q := s0.startBg p 0xC500 obj .pwEnter 7 (!r.2.isEmpty)
      if q.2.status ≠ stBgStarted then (s, q.2)
      else
        let discard := decide (t = 2 ∧ rd r.1 9 1 = 1)
        let s1 : State := { q.1 with
          mb := { q.1.mb with sessions := [] }
          qe := { q.1.qe with draining := decide (t = 2) }
          pw := { q.1.pw with
            state := .entering
            target := t
            entry := some ⟨t, s0.newHandle, 1, discard, BitVec.ofNat 96 (rd r.1 12 12), q.1.now + rd r.1 24 4 * 1000000, none⟩ } }
        let s2 := (s1.count 4 3).abortMoves
        (if discard then s2.discardQueues else s2, q.2)

/-- DRAIN_LIMIT_EXPIRY (17 R602). -/
def drainLimit (s : State) : State :=
  match s.pw.entry with
  | some e =>
    if e.target ≠ 2 ∨ e.discard ∨ 7 ≤ e.step then s
    else
      let s1 := (s.advance e.limitAt).discardQueues
      { s1 with pw := { s1.pw with entry := some { e with discard := true } } }
  | none => s

/-- Whether packets are still queued, or being read or pushed. -/
def State.packetsLeft (s : State) : Bool := (oall s.qe.queues).any (fun e => decide (e.2.packets ≠ 0)) || !s.qe.deq.isEmpty

/-- Every fetch, posted record and event the device has accepted is served (17 R601 steps 3 and 4; 13 R479). -/
def State.settleFetches (s : State) : State := (s.rr.fetches.map (fun f => f.line)).foldl (fun s l => s.settle l true) s

/-- Serves up to `n` posted records of a function: updates, then descriptors. -/
def State.drainPosted (s : State) (f : Nat) : Nat → State
  | 0 => s
  | n + 1 => (updateRecord f none (enqueueDescriptor f none s)).drainPosted f n

def State.drainEvents (s : State) : Nat → State
  | 0 => s
  | n + 1 => (queueEventCount s).drainEvents n

/-- Steps 3 and 4 of an entry. -/
def State.quiesce (s : State) : State :=
  let s1 := s.settleFetches
  let n := (s1.hp.ports.map (fun p => (p.posted.map (fun x => x.records.length)).foldl (· + ·) 0)).foldl (· + ·) 0
  let s2 := s1.existing.foldl (fun s f => s.drainPosted f n) s1
  s2.drainEvents s2.ce.events.length

/-- The sleep-gap entry at an entry into SLEEP or DEEP: the newest 16 stay (13 R479). -/
def State.openGap (s : State) (deep : Bool) : State :=
  let l := s.ce.gapLog ++ [Gap.mk s.netNs 0 0 deep false false]
  { s with ce := { s.ce with gapCount := s.ce.gapCount + 1, gapLog := l.drop (l.length - 16) } }

/-- Step 5 of an entry into DEEP: every dirty line is written back and every cache is empty; the capture buffer is discarded (17 R601). -/
def State.flushCaches (s : State) : State :=
  let s1 := s.ns.victims.foldl (fun s v => if v.ent.dirty then s.nsBack v.line v.ent else s) s
  let s2 := (oall s.ns.lines).foldl (fun s e =>
    if e.2.dirty then s.nsBack (nsLine (e.1 / 16 / 16384) (e.1 / 16 % 16384) e.2.tag) e.2 else s) s1
  let s3 := s2.ce.cache.foldl (fun s x => s.ceBack x) s2
  let s4 := s3.cd.mcache.foldl (fun s m => s.metaBack m) s3
  { s4 with
    ns := { s4.ns with lines := [], victims := [], plru := [] }
    ce := { s4.ce with cache := [], filter := [] }
    cd := { s4.cd with mcache := [] }
    tr := { s4.tr with captures := [] } }

/-- The head lines and the policers on the chip are dropped; each is read again when needed (17 R605, R612). -/
def State.dropHeads (s : State) : State :=
  { s with qe := { s.qe with heads := [], polCache := [], queues := s.qe.queues.map (fun (e : Nat × Option Queue) =>
      (e.1, e.2.map (fun (q : Queue) => { q with headLine := none }))) } }

/-- PW_ENTER finishes steps 1 to 6 and gives its final completion (17 R601, R603, R617). An entry into DEEP waits until no packet is left
or the limit has passed (log 79). -/
def State.pwEnterDone (s : State) : State :=
  match s.pw.entry with
  | none => s
  | some e =>
    if 7 ≤ e.step ∨ (e.target = 2 ∧ s.packetsLeft ∧ !(e.discard && s.qe.deq.isEmpty)) then s
    else
      let s1 := s.quiesce
      let s2 := if e.target = 3 then s1 else s1.openGap (decide (e.target = 2))
      let s3 := if e.target = 2 then (s2.flushCaches).dropHeads else s2
      let s4 : State := { s3 with pw := { s3.pw with
        entry := some { e with step := 7 }
        saved := decide (e.target = 2)
        retain := if e.target = 2 then e.retain else s3.pw.retain } }
      (s4.modOp e.handle (fun o => { o with done := o.total })).endOp e.handle stSuccess

/-- An ABORT of PW_ENTER before step 7: the entry stops and the device is in RUN; true where it was in time (17 R603). -/
def State.abandonEntry (s : State) : State × Bool :=
  match s.pw.entry with
  | none => (s, false)
  | some e =>
    if 7 ≤ e.step then (s, false)
    else
      let s1 : State := { s with qe := { s.qe with draining := false }, pw := { s.pw with entry := none, state := .run } }
      ((s1.endOp e.handle stEntryAbandoned).schedSync, true)

/-- A link goes down for DEEP or OFF as at a surprise link down, without a report (17 R601 step 9; 02 R92, R95). -/
def State.sleepLink (s : State) (f : Nat) : State :=
  if s.linkLost f then s
  else
    let s1 := s.modFn f (fun h => { h with
      link := .down, slow := false, latOpt := false, gts := 0, width := 0, memInfo := false, flitTimes := []
      fcr := none, fcrHalted := false })
    (((s1.failPushes f).dropHeld f).snoopsGone f).peerPath f

/-- The channels lose their content with RESET_N low: the key and every line are gone (17 R617; 08 R305). -/
def State.powerOff (s : State) : State :=
  let s1 := s.existing.foldl (fun s f => s.sleepLink f) s
  { s1 with
    dram := []
    mc := { s1.mc with upsets := [] }
    sx := { s1.sx with key := none, oldKey := none, sweep := false }
    ck := { s1.ck with domains := 0, sysLock := false, memLock := false }
    pw := { s1.pw with state := .off, entry := none, offLatch := true, wakeInOff := false } }

/-- POWER_STATE_REACHED: steps 8 to 10 of an entry, after its final completion; a wake that came meanwhile follows at once (17 R601, R603,
R604, R617, R631; 18 R649; log 79). -/
def powerStateReached (s : State) : State :=
  match s.pw.entry with
  | none => s
  | some e =>
    if e.step < 7 then s
    else if e.target = 3 then s.powerOff
    else
      let s0 : State := { s.selfRefresh with pw := { s.pw with entry := none, asleepAt := s.now, coarse := !s.ck.xtal } }
      let s1 : State :=
        if e.target = 1 then
          let l := s0.existing.foldl (fun s f => if s.linkL0 f && (s.fnAt f).aspmL1 then s.modFn f (fun h => { h with link := .l1 }) else s) s0
          ({ l with pw := { l.pw with state := .sleep } } : State).withDomains l.sleepDomains
        else
          let l := s0.existing.foldl (fun s f => s.sleepLink f) s0
          let l2 : State := { l with
            hp := { l.hp with ports := l.hp.ports.map (fun p => { p with posted := [] }) }
            qe := { l.qe with draining := false }
            ck := { l.ck with sysLock := false, memLock := false, naFio := true }
            pm := { l.pm with cnt := [], sticky := [], parityAt := [] }
            pw := { l.pw with state := .deep, corrupt := 0 }
            sx := { l.sx with dipSeen := false } }
          l2.withDomains (domainMask [33])
      match e.wakeReq with
      | some c => s1.beginWake c
      | none => s1

/-! ### Waking (17 R607 to R616; 09 R343; 12 R451) -/

/-- The interval the sleep timer measured, from step 10 of the entry to step 1 of the wake: crystal cycles of 40 ns with the correction of entry, or, once the crystal stopped in DEEP, a
value within 3 % (17 R614; log 3). -/
def State.measured (s : State) (w : Wake) : Nat × Bool :=
  let t := w.from_ - s.pw.asleepAt
  if s.pw.coarse then (t - t * 3 / 100 + s.freeVal % (t * 6 / 100 + 1), true)
  else
    let c := t / 40
    (((c * 40 : Nat) + s.tu.corr * ((c * 8 : Nat) : Int) / 2 ^ 40).toNat, false)

/-- Group 88 to 90 of a device whose save area is gone: no scheduler object (17 R608; log 76). -/
def State.schedGone (s : State) : State :=
  { s with sc := { s.sc with nodes := [], ports := [], active := [], wheel := [], rrPort := 0, wheelLag := 0, debtClips := 0, gateOver := 0 } }

/-- Group 91: no region, default class rows, and the controls of the tier manager and codec as after a cold start (17 R605, R608; log 76). -/
def State.tablesGone (s : State) : State :=
  ({ s with
    rg := { s.rg with regions := [] }
    bw := { s.bw with cls := [] }
    tr := { s.tr with migRate := State.reset.tr.migRate, sweepRate := State.reset.tr.sweepRate }
    cd := { s.cd with muckRate := State.reset.cd.muckRate } } : State).rescale

/-- Group 95: what the configuration shadow keeps (02 R92; 04 R154; 09 R343; 13 R476, R479; 18 R639; log 76). -/
def State.shadowGone (s : State) : State :=
  { s with
    ns := { s.ns with enabled := 0xF, ways := [.on, .on, .on, .on], tagScrub := State.reset.ns.tagScrub }
    mc := { s.mc with chans := s.mc.chans.map (fun (m : Mc) => { m with
      stored := 0, ageLimit := Mc.reset.ageLimit, wcrc := Mc.reset.wcrc, retrainThr := Mc.reset.retrainThr }) }
    ce := { s.ce with gapLog := [], gapCount := 0, sets := s.ce.sets.map (fun (e : Nat × Option CSet) =>
      (e.1, e.2.map (fun (c : CSet) => { c with gen := 0 }))) }
    fc := { s.fc with cfg := [], pinThr := Fc.reset.pinThr, quiet := Fc.reset.quiet }
    hp := { s.hp with fns := s.hp.fns.map (fun (h : HostFn) => { h.clearIo with
      decoders := List.replicate 8 Decoder.reset, ptmEn := false, aspmL1 := false, freeRings := [], egress := [], kept := [] }) }
    pm := { Pm.reset with seq := s.pm.seq } }

/-- The groups whose content is lost: they were retained, and their signature fails (17 R608; 19 R669). -/
def State.failedGroups (s : State) (bad : List Nat) : BitVec 96 :=
  (BitVec.ofNat 96 (bitsOf (bad.filter (· < 96))) ||| s.pw.corrupt) &&& s.pw.retain

/-- Whether a group holds no content at the wake: not retained, or failed. -/
def State.groupGone (s : State) (lost : BitVec 96) (g : Nat) : Bool := lost.getLsbD g || !s.pw.retain.getLsbD g

/-- Steps 6 and 7 of a wake from DEEP after a key loss: groups without content take their POR_N content (17 R608; log 76). -/
def State.porGroups (s : State) (lost : BitVec 96) : State :=
  let s1 := if [88, 89, 90].any (s.groupGone lost) then s.schedGone else s
  let s2 := if s.groupGone lost 91 then s1.tablesGone else s1
  if s.groupGone lost 95 then s2.shadowGone else s2

/-- Every unit of nodes 8 to 37 is rebuilt (17 R612). -/
def State.epochsUp (s : State) : State :=
  { s with pw := { s.pw with epochs := ((List.range 30).map (· + 8)).foldl (fun m n => smod 0 m n (fun v => (v + 1) % 65536)) s.pw.epochs } }

/-- The newest sleep-gap entry is completed (13 R479; 17 R616). -/
def State.closeGap (s : State) (interval : Nat) (coarse : Bool) : State :=
  { s with ce := { s.ce with gapLog := s.ce.gapLog.dropLast ++ (match s.ce.gapLog.getLast? with
    | some g => [{ g with wake := s.netNs, interval := interval, est := g.deep && !coarse, coarse := coarse }]
    | none => []) } }

/-- The banks of the groups that were not retained are re-initialised, which applies their soft fuse map entries (07 R259). -/
def State.applyUnretained (s : State) : State :=
  ((List.range 96).filter (fun g => !s.pw.retain.getLsbD g)).foldl (fun s g => s.applySoft (8 * g) (8 * g + 8)) s

/-- Steps 3 to 7 of a wake from DEEP (07 R259; 17 R608, R611, R612, R615). -/
def State.deepWake (s : State) (bad : List Nat) (interval : Nat) (coarse : Bool) : State :=
  let s0 := s.applyUnretained
  let s1 := if s0.sx.dipSeen && !s0.pw.wakeCause.testBit 10 then
      let k := s0.keyLost
      { k with pw := { k.pw with wakeCause := k.pw.wakeCause ||| 0x400 } }
    else s0
  let lost := s1.failedGroups bad
  let s2 := if lost = 0 then s1 else ({ s1 with pw := { s1.pw with wakeCause := s1.pw.wakeCause ||| 0x800 } } : State).report
    pwRetentionLost lost.toNat
  let s3 := if s2.pw.wakeCause.testBit 10 then s2.porGroups lost else s2
  let s4 := if s3.tu.mode = .holdover then s3 else s3.report tuHoldover s3.tu.primary
  let s5 : State := { s4 with
    tu := { s4.tu with
      ns40 := s4.tu.ns40 + interval * 2 ^ 40, mode := .holdover, estimated := !coarse, coarse := coarse, good := 0, returned := 0 }
    ck := { s4.ck with sysLock := true, memLock := true, naFio := false }
    pw := { s4.pw with retLost := lost, deepExits := satAdd (2 ^ 32 - 1) s4.pw.deepExits 1, corrupt := 0, saved := false }
    sx := { s4.sx with dipSeen := false } }
  s5.epochsUp

/-- WAKE_DONE: the wake is over and the device in RUN. `bad`: retained groups whose signature fails; `failed`: channels that do not leave
self-refresh (17 R611 to R616). -/
def State.wakeUp (s : State) (bad failed : List Nat) : State :=
  match s.pw.wake with
  | none => s
  | some w =>
    if s.pw.state ≠ .waking then s
    else
      let m := s.measured w
      let d0 := if m.2 then s.drawn else s
      let d1 := if w.deep then d0.deepWake bad m.1 m.2 else d0
      let el := w.from_ - s.pw.asleepAt
      let d2 := (d1.closeGap m.1 m.2).leaveSelfRefresh
      let d3 := failed.foldl (fun s c => if s.fenced c then s else s.fence c 1) d2
      let d4 : State := { d3 with pw := { d3.pw with
        state := .run, wake := none, sleepNs := m.1, idleAt := d3.now
        retLost := if w.deep then d3.pw.retLost else 0
        wakeCause := if m.2 then d3.pw.wakeCause ||| 0x200 else d3.pw.wakeCause } }
      let d5 := (d4.withDomains d4.runDomains).schedWake (el - m.1) (m.1 - el)
      let d6 : State := { d5 with
        pm := { d5.pm with gap := true, nextAt := d5.now + d5.pm.interval * 1000000 }
        rg := { d5.rg with regions := d5.rg.regions.map (fun (e : Nat × Option Region) =>
          (e.1, e.2.map (fun (r : Region) => { r with epochAt := d5.now }))) } }
      let d7 := d6.existing.foldl (fun s f => if (s.fnAt f).link = .l1 then s.backToL0 f else s.releaseHeld f) d6
      let d8 := if w.deep && d7.pw.pwrFail then d7.report pwFailWarn 0 else d7
      let d9 := if m.2 then (d8.count 5 2).count 4 3 else d8.count 4 3
      let st := if d9.pw.wakeCause.testBit 10 then stMediaLost else if d9.pw.wakeCause.testBit 11 then stRetentionLost else stSuccess
      ((d9.running.filter (fun o => decide (o.work = .pwWake))).map (fun o => o.handle)).foldl (fun s h =>
        (s.modOp h (fun o => { o with done := o.total })).endOp h st) d9

/-- PW_WAKE: in a wake it starts or joins; in RUN and IDLE it has no effect (17 R613). -/
def pwWake : Body := fun p b s =>
  let obj := rd b 4 4
  if obj ≠ 0 then (s, ans stObjectAbsent obj)
  else if s.pw.state = .waking then
    let q := s.startBg p 0xC501 obj .pwWake 1
    if q.2.status = stBgStarted then q else (s, q.2)
  else (s, ans stSuccess obj)

/-- WAKE_N held low (17 R609). -/
def wakeN (s : State) : State :=
  match s.pw.state with
  | .off => { s with pw := { s.pw with wakeInOff := true } }
  | _ => s.beginWake 3

/-- HOST_ACCESS_WAKE: an access on a link that is not down; a request is held at the port (17 R609). -/
def hostWake (f : Nat) (access : Option MemReq) (s : State) : State :=
  if !s.fnExists f || s.linkLost f then s
  else if s.pw.state = .sleep ∨ (s.pw.state = .entering ∧ s.pw.entry.any (fun e => decide (7 ≤ e.step))) then
    let s1 := s.beginWake 4
    match access with
    | some q => s1.modFn f (fun h => { h with held := h.held ++ [{ q with fn := f }] })
    | none => s1
  else s

/-- IDLE_ENTRY (17 R597). -/
def idleEntry (s : State) : State :=
  let busy := !s.running.isEmpty || !s.mb.heldCmds.isEmpty || !s.mb.sActive.isEmpty || s.mb.activating || s.mb.reloading ||
    s.existing.any (fun f => ((s.fnAt f).fcr.map (fun r => decide (r.fetching ≠ 0))).getD false) ||
    (oall s.fc.src).any (fun e => match e.2.walk with
      | .blocked _ => true
      | _ => false)
  if s.pw.state ≠ .run ∨ !s.mbReady ∨ s.pw.idleDelay = 0 ∨ busy ∨ s.fc.safe then s
  else
    let s1 := (s.advance (s.pw.idleAt + s.pw.idleDelay * 1000)).setDomain 28 false
    ({ s1 with pw := { s1.pw with state := .idle } }).count 4 0

/-! ### Supplies and temperature (16 R584 to R586; 17 R614, R622; 19 R669, R673, R674) -/

/-- DROOP_DETECT: a watched rail is low, or every rail has been back for 1 ms (16 R584; log 79). -/
def droopDetect (present : Bool) (s : State) : State :=
  if s.pw.cold = .held ∨ s.pw.state = .deep ∨ s.pw.state = .off then s
  else
    let s1 : State := { s with pw := { s.pw with droop := present } }
    if present && !s.pw.droop then s1.report pwDroop 0 else s1

/-- PWR_FAIL_N low after its filter (16 R584; 17 R631; log 79). -/
def pwrFailLow (s : State) : State :=
  if s.pw.pwrFail then s
  else
    let s1 : State := { s with pw := { s.pw with pwrFail := true } }
    -- in DEEP, and until its wake is over, the fault is raised at the wake
    if s.fcRuns && !s.pw.wake.any (fun w => w.deep) then s1.report pwFailWarn 0 else s1

/-- PWR_FAIL_N high: a wake that AON held goes on (17 R631). -/
def pwrFailHigh (s : State) : State :=
  let s1 : State := { s with pw := { s.pw with pwrFail := false } }
  match s.pw.state, s.pw.wake with
  | .deep, some w => { s1 with pw := { s1.pw with state := .waking, wakeCause := w.cause + 256, wake := some { w with from_ := s.now } } }
  | _, _ => s1

/-- The thresholds of the part's grade (19 R674; 00 R2): warning, throttle, shutdown in °C. -/
def thermalLimits : Int × Int × Int := if Config.gradeE then (105, 110, 120) else (100, 105, 115)

/-- A threshold's condition at a reading: it begins above the threshold and ends 3 °C below it (19 R673). -/
def thermalHolds (was : Bool) (limit t : Int) : Bool := if was then decide (limit - 3 < t) else decide (limit < t)

/-- THERMAL_SAMPLE (19 R673 to R676). -/
def thermalSample (temps : List Int) (s : State) : State :=
  match temps with
  | [] => s
  | t0 :: rest =>
    if s.pw.cold = .held ∨ s.pw.state = .deep ∨ s.pw.state = .off then s
    else
      let t := rest.foldl max t0
      let w := thermalHolds s.pw.warn thermalLimits.1 t
      let h := thermalHolds s.pw.throttle thermalLimits.2.1 t
      let d := thermalHolds s.pw.shutdown thermalLimits.2.2 t
      let say (s : State) (now was : Bool) (src : Nat) : State := if now && !was then s.report src t.toNat else s
      let s1 := say s w s.pw.warn pwTempWarn
      let s2 := say s1 h s.pw.throttle pwTempThrottle
      let s3 := say s2 d s.pw.shutdown pwTempShutdown
      { s3 with pw := { s3.pw with temp := t, warn := w, throttle := h, shutdown := d, thermN := w || h || d } }

/-- PLL_UNLOCK of the system PLL, or of the memory PLL outside a step of MC_SPEED, SLEEP and DEEP (17 R622). -/
def pllUnlock (memory : Bool) (s : State) : State :=
  let locked := if memory then s.ck.memLock else s.ck.sysLock
  let commanded := memory && (s.mc.speed.isSome || !s.awake)
  if !locked then s
  else
    let s1 : State := { s with ck := { s.ck with
      sysLock := s.ck.sysLock && memory, memLock := s.ck.memLock && !memory
      unlocks := if commanded then s.ck.unlocks else satAdd 65535 s.ck.unlocks 1 } }
    if commanded then s1 else s1.report ckPllUnlock (b2n memory)

/-- CRYSTAL_STOP: in DEEP the sleep timer counts the RC oscillator from then on; elsewhere the PLLs lose their lock (17 R614, R619, R622)
(log 78). -/
def crystalStop (s : State) : State :=
  if !s.ck.xtal then s
  else
    let s1 : State := { s with ck := { s.ck with xtal := false } }
    if s.pw.state = .deep then { s1 with pw := { s1.pw with coarse := true } }
    else pllUnlock false s1

/-- VDDQ_DIP_IN_DEEP: the key counts as lost at the wake (19 R669). -/
def vddqDip (s : State) : State := if s.pw.state = .deep then { s with sx := { s.sx with dipSeen := true } } else s

/-- VDD_SRAM_DIP_IN_DEEP: retained groups are corrupt (19 R669). -/
def vddSramDip (groups : List Nat) (s : State) : State :=
  if s.pw.state = .deep then { s with pw := { s.pw with
    corrupt := s.pw.corrupt ||| (BitVec.ofNat 96 (bitsOf (groups.filter (· < 96))) &&& s.pw.retain) } }
  else s

/-- TRST_N changes: the clock of the debug domain follows it (17 R620). -/
def trstChange (high : Bool) (s : State) : State :=
  let s1 : State := { s with pw := { s.pw with trst := high } }
  if s1.awake && s1.mbReady then s1.setDomain 36 high else s1

/-! ### Start-up (17 R623 to R630, R682; 08 R305; 09 R310, R331, R332; 07 R240, R255, R256; 19 R667) -/

/-- POR_N low: every state is as at reset. Flash, fuses, the pins and the OFF latch keep what they hold (17 R618, R624, R630; log 75). -/
def porAssert (s : State) : State :=
  let r := State.reset
  { r with
    pending := s.pending, out := s.out, fresh := s.fresh
    hp := { r.hp with ports := (List.range 2).map (fun p => { Port.reset with perst := (s.portAt p).perst }) }
    ck := { r.ck with refA := s.ck.refA, refB := s.ck.refB }
    mb := { r.mb with slots := s.mb.slots, bootSlot := s.mb.bootSlot }
    lp := { r.lp with repairLog := s.lp.repairLog, hardUsed := s.lp.hardUsed }
    fu := { r.fu with burnsLeft := s.fu.burnsLeft, burned := s.fu.burned, svn := s.fu.svn }
    fc := { r.fc with flash := s.fc.flash }
    pw := { r.pw with
      pwrFail := s.pw.pwrFail, trst := s.pw.trst, offLatch := s.pw.offLatch, wakeInOff := s.pw.wakeInOff } }

/-- POR_N high: the straps are sampled, which of H1 and H3 exist (02 R56), and start-up begins (17 R623). -/
def porRelease (straps : BitVec 6) (s : State) : State :=
  if s.pw.cold ≠ .held then s
  else
    let has (f : Nat) : Bool := decide (f % 2 = 0) || straps.getLsbD (f / 2)
    let s1 : State := { s with
      hp := { s.hp with straps := straps, fns := (List.range 4).map (fun f => { s.fnAt f with exist := has f }) }
      pw := { s.pw with cold := .step 0, porAt := some s.now } }
    if s1.pw.pwrFail then s1.report pwFailWarn 0 else s1

/-- Removes a spare page from the free spans. -/
def withoutSpare (page : Nat) (spans : List (Nat × Nat)) : List (Nat × Nat) :=
  (spans.map (fun x =>
    if x.1 ≤ page ∧ page < x.1 + x.2 then [(x.1, page - x.1), (page + 1, x.1 + x.2 - page - 1)].filter (fun y => decide (y.2 ≠ 0)) else [x])).flatten

/-- Firmware applies one note of the repair log at a cold start (07 R240, R255, R256, R259; log 77). -/
def State.applyNote (s : State) (n : RepairNote) : State :=
  match n with
  | .softPpr row =>
    if softRes row ∈ s.lp.softUsed then s else { s with lp := { s.lp with softUsed := s.lp.softUsed ++ [softRes row] } }
  | .retire c page sp =>
    { s with lp := { s.lp with
      retired := s.lp.retired ++ [(c, page, sp)], spareFree := lmod s.lp.spareFree c (withoutSpare sp) } }
  | .erase rk dev serial =>
    let here := (s.chan (rk / 16)).pop.bind (fun q => q.serials[rk % 8 / 4]?)
    if here = some serial then { s with lp := { s.lp with erase := oset s.lp.erase rk (some dev) } } else s
  | .softFuse bank word =>
    if (bank, word) ∈ s.fu.soft ∨ (bank, word) ∈ s.fu.burned then s
    else ({ s with fu := { s.fu with soft := s.fu.soft ++ [(bank, word)] } } : State).applySoft bank (bank + 1)

/-- Start-up step 6: the DIMMs' SPD is read; a channel that breaks 09 R310 stays fenced. -/
def State.findDimms (s : State) (pops : List (Option PopCfg)) (board : Option Nat) : State :=
  let ref := pops.findSome? (fun p => p)
  let s1 := (List.range 12).foldl (fun s c =>
    match pops.getD c none with
    | none => s
    | some p =>
      let ok := popLegal p && (ref.map (popSame p)).getD false
      let s2 := s.modChan c (fun m => { m with
        pop := some p, state := if ok then .training else .fenced, fenceInfo := if ok then m.fenceInfo else 4 })
      if ok then s2.setDomain (chanDomain c) true else s2.report (mcPopMismatch c) c) s
  { s1 with mc := { s1.mc with rate := s1.startRate board } }

/-- Start-up step 8: the key is drawn, the reserved structures get their place, and the repair log is applied. A random source that fails
leaves the start there with media not ready (08 R305; 17 R629; log 77). -/
def State.initMedia (s : State) : State :=
  let k := s.drawKey 3
  match k.2 with
  | none => ({ k.1 with sx := { k.1.sx with rngFail := true } } : State).report sxRngFail 0
  | some key =>
    let s1 : State := { k.1 with sx := { k.1.sx with key := some key, copies := 7, epoch := 0 }, pw := { k.1.pw with cold := .step 8 } }
    let s2 : State := { s1 with rg := { s1.rg with
      qstate := (s1.placeExtent 1 0 s1.popMask (4 * 2 ^ 30)).getD Extent.none, links := [], spare := s1.spareExtent } }
    let s3 : State := { s2 with lp := { s2.lp with spareFree := (List.range 12).map (fun c =>
      if s2.sparePages c ≠ 0 then [(s2.chanLines c / 64 - s2.sparePages c, s2.sparePages c)] else []) } }
    (s3.lp.repairLog.foldl (fun s n => s.applyNote n) s3).rescale

/-- Start-up step 9: FILL starts, media is ready, and firmware burns the anti-rollback bits of the image that runs, and writes the boot-control record, which names the active slot (17 R623, R624, R627). -/
def State.startDone (s : State) : State :=
  let svn := ((s.mb.slots[s.mb.slot]?).map (fun x => x.svn)).getD 0
  let s1 : State := { s with
    fu := { s.fu with svn := max s.fu.svn svn }
    mb := { s.mb with bootSlot := s.mb.slot }
    lp := { s.lp with patrolStart := List.replicate 12 s.now }
    pw := { s.pw with cold := .done, idleAt := s.now } }
  (if s.fu.svn < svn then s1.emit (.flash 0x2010000) else s1).setDomain 39 true

/-- What GPIO[3:0] carry: outputs with the fused code of the VDD_CORE set point from 1 ms after POR_N rises, inputs with pull-downs before;
GPIO[7:4] are always such inputs (19 R661). -/
def State.gpio (s : State) : Option (Fin 9) :=
  match s.pw.porAt with
  | some t => if t + 1000000 ≤ s.now then some (Fin.ofNat 9 Config.coreCode) else none
  | none => none

/-- The earliest start of step 5 of a cold start: 25 ms after POR_N rose (19 R662). -/
def State.coreReadyAt (s : State) : Nat := s.pw.porAt.getD s.now + 25000000

/-- The cold start goes on at step `n` + 1. -/
def State.coldTo (s : State) (n : Nat) : State := { s with pw := { s.pw with cold := .step n } }

/-- Start-up step 5: the PLLs lock, the domains are switched, and the management function is the board configuration block's (14 R499; 17
R623). -/
def State.startClocks (s : State) : State :=
  let s1 : State := { s with
    ck := { s.ck with sysLock := true, memLock := true, naFio := false }
    mb := { s.mb with mgmt := Config.boardMgmt.getD 0 % 4 }
    pw := { s.pw with idleAt := s.now } }
  (s1.coldTo 5).withDomains (s1.coldTo 5).runDomains

/-- COLD_START_STEP_DONE: the next step of 17 R623 completes. Step 5 does not begin before 25 ms after POR_N rose (19 R662). -/
def coldStartStep (i : BootInfo) (s : State) : State :=
  match s.pw.cold with
  | .step 0 => State.coldTo { s with pw := { s.pw with
      resetCause := if i.poweredOn then 1 else if s.pw.offLatch then 3 + 8 * b2n s.pw.wakeInOff else 2
      offLatch := false, wakeInOff := false } } 1
  | .step 1 => s.coldTo 2
  | .step 2 => if i.slotOk then State.coldTo { s with mb := { s.mb with slot := s.mb.bootSlot } } 4 else s.coldTo 3
  | .step 3 =>
    if i.slotOk then State.coldTo { s with mb := { s.mb with slot := 1 - s.mb.bootSlot } } 4
    else ({ s with pw := { s.pw with cold := .noImage } } : State).pinSync
  | .step 4 => (s.advance s.coreReadyAt).startClocks
  | .step 5 => (s.findDimms i.pops i.boardRate).coldTo 6
  | .step 6 => if s.anyTraining then s else s.coldTo 7
  | .step 7 => s.initMedia
  | .step 8 => s.startDone
  | _ => s

/-! ### PW_QUERY (15 R553; 17 R633; log 17) -/

/-- PW_STATE (17 R633). -/
def State.pwStateReg (s : State) : Nat :=
  (match s.pw.state with
    | .run => 0
    | .idle => 1
    | .entering => 2
    | .sleep => 3
    | .waking => 4
    | .deep => 0
    | .off => 0) + s.pw.target * 8

/-- PW_QUERY returns the registers of the node from offset 0x0000 to 0x0044, then the unit epochs (log 17). -/
def pwQuery : Body := fun _ b s =>
  let obj := rd b 4 4
  if obj ≠ 0 then (s, ans stObjectAbsent obj)
  else (s, ans stSuccess obj (le 4 4 ++ le 4 0 ++ le 4 s.pwStateReg ++ le 4 s.pw.idleDelay ++ le 4 s.pw.wakeCause ++ le 4 s.pw.resetCause ++
    le 8 s.pw.sleepNs ++ le 12 s.pw.retain.toNat ++ le 4 0 ++ le 12 s.pw.retLost.toNat ++ le 4 0 ++ le 4 s.pw.deepExits ++
    ((List.range 38).map (fun n => le 4 (sget 0 s.pw.epochs n))).flatten))

/-! ### The commands -/

def execPwEnter (p : Path) (b : Bytes) (s : State) : Host.Outcome State Fault Refusal := .next (s.command p 0xC500 b pwEnter)

def execPwWake (p : Path) (b : Bytes) (s : State) : Host.Outcome State Fault Refusal := .next (s.command p 0xC501 b pwWake)

def execPwQuery (p : Path) (b : Bytes) (s : State) : Host.Outcome State Fault Refusal := .next (s.command p 0xC502 b pwQuery)

def execDrainLimitExpiry (s : State) : Host.Outcome State Fault Refusal := .next (drainLimit s)

def execPowerStateReached (s : State) : Host.Outcome State Fault Refusal := .next (powerStateReached s)

def execWakeNAssert (s : State) : Host.Outcome State Fault Refusal := .next (wakeN s)

def execHostAccessWake (fn : Nat) (access : Option MemReq) (s : State) : Host.Outcome State Fault Refusal := .next (hostWake fn access s)

def execIdleEntry (s : State) : Host.Outcome State Fault Refusal := .next (idleEntry s)

def execDroopDetect (present : Bool) (s : State) : Host.Outcome State Fault Refusal := .next (droopDetect present s)

def execPwrFailNAssert (s : State) : Host.Outcome State Fault Refusal := .next (pwrFailLow s)

def execPwrFailNDeassert (s : State) : Host.Outcome State Fault Refusal := .next (pwrFailHigh s)

def execThermalSample (temps : List Int) (s : State) : Host.Outcome State Fault Refusal := .next (thermalSample temps s)

def execPllUnlock (memory : Bool) (s : State) : Host.Outcome State Fault Refusal := .next (pllUnlock memory s)

def execCrystalStop (s : State) : Host.Outcome State Fault Refusal := .next (crystalStop s)

def execVddqDipInDeep (s : State) : Host.Outcome State Fault Refusal := .next (vddqDip s)

def execVddSramDipInDeep (groups : List Nat) (s : State) : Host.Outcome State Fault Refusal := .next (vddSramDip groups s)

def execTrstNChange (high : Bool) (s : State) : Host.Outcome State Fault Refusal := .next (trstChange high s)

def execPorNAssert (s : State) : Host.Outcome State Fault Refusal := .next (porAssert s)

def execPorNRelease (straps : BitVec 6) (s : State) : Host.Outcome State Fault Refusal := .next (porRelease straps s)

def execColdStartStepDone (info : BootInfo) (s : State) : Host.Outcome State Fault Refusal := .next (coldStartStep info s)

end Sys2Proof.Machine
end

