-- ==== Sys2Proof/Machine/Commit.lean ====
section
/-! DEFINITION. STAGE_COMMIT: the cross-field rules of every chapter, their resolutions, and what a commit changes; REGION_QUERY (14
R510, R511, R679; 03 R103 to R116, R124; 05 R165, R166; 10 R352 to R361; 11 R392; 12 R417, R436; 13 R458 to R464, R469). -/

namespace Sys2Proof.Machine
open Sys2Proof

/-- What a commit has come to: the state, and the clamp report entries of its resolutions. -/
abbrev Com := State × List Clamp

/-- All ones: the value of a field of an object that does not exist (14 R679). -/
def noValue : Nat := 2 ^ 64 - 1

/-- One more entry (log 53). -/
def Com.note (c : Com) (kind source field obj given applied opcode : Nat) : Com :=
  (c.1, c.2 ++ [Clamp.mk kind source field obj given applied opcode])

/-- An entry where the value applied differs from the value given. -/
def Com.noteIf (c : Com) (kind source field obj given applied opcode : Nat) : Com :=
  if given = applied then c else c.note kind source field obj given applied opcode

/-- The staged objects of an opcode, in ascending object number. -/
def stagedOf (l : List Staged) (op : Nat) : List Staged := (l.filter (fun x => x.op == op)).mergeSort (fun a b => decide (a.obj ≤ b.obj))

/-! ### Regions that go (03 R116, R124) -/

/-- Whether a line address lies in a span of DPA. -/
def inSpan (lo len l : Nat) : Bool := decide (lo ≤ l * 64 ∧ l * 64 < lo + len)

/-- The channel line that reaches a stored line: the retired page of a spare page (07 R256). -/
def State.unmap (s : State) (c cla : Nat) : Nat :=
  match s.lp.retired.find? (fun e => e.1 == c && e.2.2 == cla / 64) with
  | some e => e.2.1 * 64 + cla % 64
  | none => cla

/-- The lines of a region's extents hold nothing any more: they read as filled media (log 5, 26). -/
def State.clearMedia (s : State) (r : Region) : State :=
  let spans := r.extents.map (fun x => (x.2.bases, linesPerChannel r.protect r.grain r.mask x.2.size))
  let gone (k : Nat) : Bool :=
    let line := k / 128
    let c := line / 2 ^ 33
    let cla := s.unmap c (line % 2 ^ 33)
    r.mask.testBit c && spans.any (fun x => decide (x.1.getD c 0 ≤ cla ∧ cla < x.1.getD c 0 + x.2))
  { s with
    dram := s.dram.filter (fun x => !gone x.1)
    mc := { s.mc with upsets := s.mc.upsets.filter (fun u => !gone (lineKey u.1 (s.remap u.1 u.2.1))) } }

/-- The address of a near-store entry's line. -/
def nsLineOf (key tag : Nat) : Nat := nsLine (key / 16 / 16384) (key / 16 % 16384) tag

/-- A region is deleted: the requests at their ordering point complete, its lines on the chip are discarded, dirty or not, and its media returns
(03 R124; log 26). -/
def State.removeRegion (s : State) (n : Nat) : State :=
  match s.region n with
  | none => s
  | some r =>
    let mine (l : Nat) : Bool := inSpan r.base r.size l
    let s0 := ((s.rr.fetches.map (fun f => f.line)).filter mine).foldl (fun s l => s.settle l true) s
    let s1 := s0.clearMedia r
    { s1 with
      rg := { s1.rg with regions := oset s1.rg.regions n none }
      ns := { s1.ns with
        lines := s1.ns.lines.filter (fun e => match e.2 with
          | some x => !mine (nsLineOf e.1 x.tag)
          | none => true)
        victims := s1.ns.victims.filter (fun v => !mine v.line) }
      tr := { s1.tr with
        moves := s1.tr.moves.filter (fun m => m.region != n)
        captures := s1.tr.captures.filter (fun m => m.region != n) }
      cd := { s1.cd with mcache := s1.cd.mcache.filter (fun m => m.region != n) }
      ce := { s1.ce with
        cache := s1.ce.cache.filter (fun x => !mine x.line)
        filter := s1.ce.filter.filter (fun l => !mine l) } }

/-- Whether a region holds a counter set once the sets of a session are in place. -/
def State.willCount (s : State) (l : List Staged) (n : Nat) : Bool :=
  (oall s.ce.sets).any (fun e => e.2.region == n && !(l.any (fun x => x.op == 0xC301 && x.obj == e.1))) ||
    l.any (fun x => x.op == 0xC300 && rd x.b 8 1 == n && (oget s.ce.sets x.obj).isNone)

/-- A staged REGION_DELETE (03 R116; 14 R679). -/
def Com.deleteRegion (l : List Staged) (c : Com) (x : Staged) : Com :=
  if (c.1.region x.obj).isNone then c.note 1 2 0xFFFF x.obj 0 noValue 0xC101
  else if c.1.willCount l x.obj || c.1.qe.bufs.contains x.obj then c.note 1 2 0xFFFF x.obj 0 0 0xC101
  else (c.1.removeRegion x.obj, c.2)

/-! ### Regions that stand or come (03 R103 to R116) -/

/-- The FLAGS byte of a region (15 R541). -/
def Region.flags (r : Region) : Nat := b2n r.scramble + 2 * b2n r.spec + 4 * b2n r.hdmDb

/-- The fixed fields of an existing region: byte, length, value in effect (03 R114; 15 R541). -/
def Region.fixed (r : Region) : List (Nat × Nat × Nat) :=
  [(8, 2, r.base / gib), (10, 2, r.size / gib), (12, 1, r.tier), (13, 1, r.protect), (14, 1, r.grain), (16, 2, r.mask), (20, 1, r.ratio)]

/-- An owner mask with its reserved bits cleared (03 R117). -/
def ownerBits (v : Nat) : Nat := v &&& 0xFF0F

/-- A staged change of an existing region (03 R114). -/
def Com.changeRegion (c : Com) (x : Staged) (r : Region) : Com :=
  let flags := rd x.b 21 1 % 8
  let given (f : Nat × Nat × Nat) : Nat := if f.1 = 16 then rd x.b 16 2 % 4096 else rd x.b f.1 f.2.1
  let c1 := r.fixed.foldl (fun c f => c.noteIf 1 3 f.1 x.obj (given f) f.2.2 0xC100) c
  let c2 := c1.noteIf 1 3 21 x.obj flags (flags / 2 * 2 + b2n r.scramble) 0xC100
  (c2.1.modRegion x.obj (fun r => { r with
    nsAlloc := rd x.b 15 1, owner := ownerBits (rd x.b 18 2), spec := flags.testBit 1, hdmDb := flags.testBit 2 }), c2.2)

/-- An extent of a size that has no place yet. -/
def Extent.sized (n : Nat) : Extent := ⟨n, [], 0, []⟩

/-- A region as REGION_CFG stages it, with the default tier attributes and no place for its extents (03 R106, R113; 05 R165). -/
def Staged.region (x : Staged) (now : Nat) : Region where
  base := rd x.b 8 2 * gib
  size := min (rd x.b 10 2) (16384 - rd x.b 8 2) * gib
  tier := rd x.b 12 1
  protect := rd x.b 13 1
  grain := rd x.b 14 1
  nsAlloc := rd x.b 15 1
  mask := rd x.b 16 2 % 4096
  owner := ownerBits (rd x.b 18 2)
  ratio := rd x.b 20 1
  scramble := (rd x.b 21 1).testBit 0
  spec := (rd x.b 21 1).testBit 1
  hdmDb := (rd x.b 21 1).testBit 2
  quotaInit := 1
  quota := 1
  watermark := 90
  up := 32
  down := 2
  firstTouch := true
  epoch := 100
  effort := 0
  lowPct := 5
  data := Extent.none
  t1 := Extent.none
  yard := Extent.none
  metaX := Extent.none
  slack := Extent.none
  freeRuns := List.replicate 8 []
  freeLinks := []
  dirtyRuns := []
  dirtyLinks := []
  leaked := 0
  yardLow := false
  tierShort := false
  stretched := false
  noMove := []
  candidates := []
  queued := []
  frames := []
  owns := []
  lostFrames := []
  epochAt := now
  sweepEnd := now

/-- What rounding the media of a region up to 1 GiB adds to its extents, per copy: STRIPE alone multiplies their sum by a factor that is not whole
(03 R106). -/
def slackSize (protect mask sum : Nat) : Nat :=
  let n := (members mask).length
  if protect = 2 then roundUp gib ((sum * n + n - 2) / (n - 1)) * (n - 1) / n - sum else 0

/-- The sizes of a region's extents (03 R106). The metadata extent also reaches to the end of the shed where the place that 06 R183 gives the shed
takes it beyond the sum of 03 R106 (log 19). -/
def Region.sized (r : Region) : Region :=
  let yard := if r.tier = 0 then 0 else roundUp gib ((r.size * 16 + r.ratio - 1) / max 1 r.ratio)
  let info := if r.tier = 0 then 0
    else roundUp gib (max (r.size / 64 + (if r.tier = 2 then r.size / 1024 else 0) + yard / 64) (r.shedBase + yard / 64))
  let data := if r.tier = 0 then r.size else 0
  let t1 := if r.tier = 2 then r.quotaInit * gib else 0
  { r with
    data := Extent.sized data
    t1 := Extent.sized t1
    yard := Extent.sized yard
    metaX := Extent.sized info
    slack := Extent.sized (slackSize r.protect r.mask (data + t1 + yard + info)) }

/-- Adds a region with its extents; none: its media does not fit (03 R108). -/
def State.placeRegion (s : State) (n : Nat) (r : Region) : Option State :=
  let bare : Region := { r with data := Extent.none, t1 := Extent.none, yard := Extent.none, metaX := Extent.none, slack := Extent.none }
  let step (acc : Option State) (k : Nat) : Option State := acc.bind (fun s =>
    (s.placeExtent r.protect r.grain r.mask (r.ext k).size).map (fun x => s.modRegion n (fun r => r.setExt k x)))
  ([3, 1, 2, 0].foldl step (some { s with rg := { s.rg with regions := oset s.rg.regions n (some bare) } })).bind (fun s =>
    (s.placeExtent r.protect r.grain r.mask r.slack.size).map (fun x => s.modRegion n (fun r => { r with slack := x })))

/-- Adds several regions in ascending number. -/
def State.placeAll (s : State) : List (Nat × Region) → Option State
  | [] => some s
  | x :: rest => (s.placeRegion x.1 x.2).bind (fun s => s.placeAll rest)

/-- Drops the highest region until the rest fits: the state with the rest, and how many are kept (03 R108). -/
def State.placeFit (s : State) (l : List (Nat × Region)) : Nat → State × Nat
  | 0 => (s, 0)
  | k + 1 => match s.placeAll (l.take (k + 1)) with
    | some s1 => (s1, k + 1)
    | none => s.placeFit l k

/-- Whether two spans overlap. -/
def meets (a la b lb : Nat) : Bool := decide (a < b + lb ∧ b < a + la)

/-- The mask of a new region as the rules of 03 R116 resolve it (log 53). -/
def State.maskFor (s : State) (r : Region) : Nat :=
  let open_ := bitsOf ((members r.mask).filter (fun c => !s.fenced c && (s.chan c).pop.isSome))
  if r.protect = 2 ∧ open_ = 0 then 0xFFF else resolveMask r.protect open_

/-- Whether a mask names only channels in service that hold memory (log 53). -/
def State.maskOpen (s : State) (mask : Nat) : Bool :=
  decide (mask ≠ 0) && (members mask).all (fun c => !s.fenced c && (s.chan c).pop.isSome)

/-- The tier attributes staged for a region. -/
def tierStaged (l : List Staged) (n : Nat) : Option Staged := l.find? (fun x => x.op == 0xC110 && x.obj == n)

/-- The uncompressed quota at creation of a new region (05 R165). -/
def quotaFor (l : List Staged) (n size : Nat) : Nat :=
  ((tierStaged l n).map (fun x => clampN 1 (min 16 (size / gib)) (rd x.b 8 1))).getD 1

/-- The span of a staged new region meets a committed region. -/
def State.meetsRegion (s : State) (r : Region) : Bool := (oall s.rg.regions).any (fun e => meets r.base r.size e.2.base e.2.size)

/-- The regions that a commit creates: each staged one checked against the committed regions, then against lower-numbered staged
ones, then its mask (03 R116); what is left must fit together (R108; log 52, 53). -/
def Com.createRegions (new : List Staged) (l : List Staged) (c : Com) : Com :=
  let made := new.map (fun x => (x, x.region c.1.now))
  let a := made.foldl (fun (acc : Com × List (Staged × Region)) y =>
    let n := acc.1.noteIf 1 1 10 y.1.obj (rd y.1.b 10 2) (y.2.size / gib) 0xC100
    if c.1.meetsRegion y.2 || acc.2.any (fun z => meets y.2.base y.2.size z.2.base z.2.size) then
      (n.note 1 2 8 y.1.obj (rd y.1.b 8 2) noValue 0xC100, acc.2)
    else (n, acc.2 ++ [y])) (c, [])
  let b := a.2.foldl (fun (acc : Com × List (Nat × Region)) y =>
    let given := rd y.1.b 16 2 % 4096
    let m := c.1.maskFor y.2
    let r : Region := ({ y.2 with mask := m, quotaInit := quotaFor l y.1.obj y.2.size } : Region).sized
    if c.1.maskOpen m then
      let n := acc.1.noteIf 1 1 16 y.1.obj given m 0xC100
      if (c.1.placeRegion y.1.obj r).isSome then (n, acc.2 ++ [(y.1.obj, { r with quota := r.quotaInit })])
      else (n.note 1 2 16 y.1.obj given noValue 0xC100, acc.2)
    else (acc.1.note 1 2 16 y.1.obj given noValue 0xC100, acc.2)) (a.1, [])
  let f := c.1.placeFit b.2 b.2.length
  let out := (b.2.drop f.2).foldl (fun (acc : Com) y =>
    acc.note 1 2 10 y.1 (y.2.size / gib) noValue 0xC100) b.1
  ((b.2.take f.2).foldl (fun s y => match s.region y.1 with
    | some r => s.clearMedia r
    | none => s) f.1, out.2)

/-- The staged regions of a session (03 R113 to R116). The staged change of an existing region that a lower-numbered new one would overlap is
dropped, as that of the higher-numbered of the two, and the new one by the committed region (R116; log 53). -/
def Com.regions (l : List Staged) (c : Com) : Com :=
  let cfgs := stagedOf l 0xC100
  let old := cfgs.filter (fun x => (c.1.region x.obj).isSome)
  let new := cfgs.filter (fun x => (c.1.region x.obj).isNone)
  let met (n : Nat) (r : Region) : Bool := new.any (fun y => decide (y.obj < n) &&
    meets (y.region c.1.now).base (y.region c.1.now).size r.base r.size)
  (old.foldl (fun (c : Com) x => match c.1.region x.obj with
    | some r => if met x.obj r then c.note 1 2 8 x.obj (rd x.b 8 2) (r.base / gib) 0xC100 else c.changeRegion x r
    | none => c) c).createRegions new l

/-! ### Tier attributes (05 R165, R166) -/

/-- A staged TIER_CFG: the device ignores it for a region that is not TIERED. -/
def Com.tier (fresh : List Nat) (c : Com) (x : Staged) : Com :=
  match c.1.region x.obj with
  | none => c
  | some r =>
    if r.tier ≠ 2 then c
    else
      let n := x.obj
      let quota := min (rd x.b 9 1) r.quotaInit
      let up := rd x.b 11 1
      let down := if up ≤ rd x.b 12 1 then up - 1 else rd x.b 12 1
      let c1 := c.noteIf 2 (if fresh.contains n then 1 else 3) 8 n (rd x.b 8 1) r.quotaInit 0xC110
      let c2 := c1.noteIf 2 1 9 n (rd x.b 9 1) quota 0xC110
      let c3 := c2.noteIf 2 1 12 n (rd x.b 12 1) down 0xC110
      (c3.1.modRegion n (fun r => { r with
        quota := quota, watermark := rd x.b 10 1, up := up, down := down, firstTouch := decide (rd x.b 13 1 = 1),
        epoch := rd x.b 14 2 }), c3.2)

/-! ### Counter sets (13 R458 to R464) -/

/-- Both bindings lose a set (13 R464). -/
def Com.unbind (c : Com) (set : Nat) : Com :=
  let q := c.1.ce.bindQ.any (fun b => b.set == set)
  let p := c.1.ce.bindP.any (fun b => b.set == set)
  let c1 := if q then c.note 12 1 8 0 set 0xFFFF 0xC301 else c
  let c2 := if p then c1.note 12 1 8 1 set 0xFFFF 0xC301 else c1
  ({ c2.1 with ce := { c2.1.ce with
    bindQ := if q then none else c2.1.ce.bindQ
    bindP := if p then none else c2.1.ce.bindP } }, c2.2)

/-- Whether a line belongs to a set. -/
def State.ofSet (s : State) (c : CSet) (l : Nat) : Bool :=
  decide (s.ctrBase c ≤ l ∧ l < s.ctrBase c + c.ctrLines) || decide (s.stBase c ≤ l ∧ l < s.stBase c + c.stLines)

/-- A set is deleted: its lines leave the counter cache, written back, and nothing waits for it any more (13 R464, R480). -/
def State.removeSet (s : State) (n : Nat) : State :=
  match s.ceSet n with
  | none => s
  | some c =>
    let s1 := (s.ce.cache.filter (fun x => s.ofSet c x.line)).foldl (fun s x => s.ceBack x) s
    { s1 with ce := { s1.ce with
      sets := oset s1.ce.sets n none
      cache := s1.ce.cache.filter (fun x => !s.ofSet c x.line)
      filter := s1.ce.filter.filter (fun l => !s.ofSet c l)
      waiting := s1.ce.waiting.filter (fun w => w.set != n)
      stale := s1.ce.stale.filter (fun w => w.1 != n)
      recompute := if s1.ce.recompute.any (fun q => q.set == n) then none else s1.ce.recompute } }

/-- A staged CE_SET_DELETE (13 R464; 14 R679). -/
def Com.deleteSet (c : Com) (x : Staged) : Com :=
  if (c.1.ceSet x.obj).isNone then c.note 11 2 0xFFFF x.obj 0 noValue 0xC301
  else (c.unbind x.obj).map (fun s => s.removeSet x.obj) id

/-- A set as CE_SET_CFG stages it (13 R458). -/
def Staged.cset (x : Staged) : CSet where
  region := rd x.b 8 1
  ctrOff := rd x.b 24 8
  stOff := rd x.b 32 8
  first := rd x.b 16 4
  leaves := rd x.b 20 4
  pair48 := decide (rd x.b 9 1 = 1)
  wrap := decide (rd x.b 10 1 = 1)
  owner := rd x.b 11 1 % 16
  levels := rd x.b 12 1
  fan := [rd x.b 40 4, rd x.b 44 4, rd x.b 48 4]
  endCnt := 0
  lost := 0
  stale := 0
  gen := 0
  ended := false

/-- The fixed fields of a set: byte, length, value (13 R459). -/
def CSet.fixed (c : CSet) : List (Nat × Nat × Nat) :=
  [(8, 1, c.region), (9, 1, b2n c.pair48), (12, 1, c.levels), (16, 4, c.first), (20, 4, c.leaves), (24, 8, c.ctrOff), (32, 8, c.stOff),
   (40, 4, c.fan.getD 0 16), (44, 4, c.fan.getD 1 16), (48, 4, c.fan.getD 2 16)]

/-- A staged change of an existing set (13 R459). -/
def Com.changeSet (c : Com) (x : Staged) (o : CSet) : Com :=
  let c1 := o.fixed.foldl (fun (c : Com) f => c.noteIf 11 3 f.1 x.obj (rd x.b f.1 f.2.1) f.2.2 0xC300) c
  ({ c1.1 with ce := { c1.1.ce with sets := omod c1.1.ce.sets x.obj (fun o =>
    { o with wrap := decide (rd x.b 10 1 = 1), owner := rd x.b 11 1 % 16 }) } }, c1.2)

/-- The byte spans of a set in its region: counters and status array. -/
def CSet.spans (c : CSet) : List (Nat × Nat) := [(c.ctrOff, c.ctrLines * 64), (c.stOff, c.stLines * 64)]

/-- Whether a span meets a span of another set of the same region. -/
def CSet.hits (c : CSet) (off len : Nat) (o : CSet) : Bool :=
  c.region == o.region && o.spans.any (fun x => meets off len x.1 x.2)

/-- The field whose rule drops a new set beside the others: COUNTER_OFFSET, STATUS_OFFSET or FIRST_INDEX (13 R464; 14 R679). -/
def CSet.clash (c : CSet) (size : Nat) (others : List CSet) : Option Nat :=
  let bad (off len : Nat) : Bool := decide (size < off + len) || others.any (fun o => c.hits off len o)
  if bad c.ctrOff (c.ctrLines * 64) then some 24
  else if bad c.stOff (c.stLines * 64) then some 32
  else if others.any (fun o => meets c.first c.leaves o.first o.leaves) then some 16
  else none

/-- The length of a field that drops a set. -/
def setField (f : Nat) : Nat := if f = 8 then 1 else if f = 24 ∨ f = 32 then 8 else 4

/-- Drops staged sets from the highest number down until the pairs of all sets fit (13 R464). -/
def fitPairs (base : Nat) (l : List (Staged × CSet)) : Nat → Nat
  | 0 => 0
  | k + 1 => if base + ((l.take (k + 1)).map (fun x => x.2.pairs)).foldl (· + ·) 0 ≤ 268435456 then k + 1 else fitPairs base l k

/-- A set is created: the near store gives up its lines, and the counter engine serves them from now on (13 R465; log 33). -/
def State.addSet (s : State) (n : Nat) (c : CSet) : State :=
  let lines := ((oall s.ns.lines).map (fun e => nsLineOf e.1 e.2.tag) ++ s.ns.victims.map (fun v => v.line)).filter (s.ofSet c)
  let s1 := lines.foldl (fun s l => s.maintain 2 l) s
  { s1 with ce := { s1.ce with sets := oset s1.ce.sets n (some c) } }

/-- The sets that a commit creates (13 R458, R464; log 52). -/
def Com.createSets (new : List Staged) (c : Com) : Com :=
  let old := (oall c.1.ce.sets).map (fun e => e.2)
  let a := new.foldl (fun (acc : Com × List (Staged × CSet)) x =>
    let k := x.cset
    let size := ((c.1.region k.region).map (fun r => r.size)).getD 0
    let bad := if 64 ≤ k.region then some 8 else (k.clash size old).orElse (fun _ => k.clash size (acc.2.map (fun z => z.2)))
    match bad with
    | some f => (acc.1.note 11 2 f x.obj (rd x.b f (setField f)) noValue 0xC300, acc.2)
    | none => (acc.1, acc.2 ++ [(x, k)])) (c, [])
  let keep := fitPairs ((old.map (fun o => o.pairs)).foldl (· + ·) 0) a.2 a.2.length
  let b := (a.2.drop keep).foldl (fun (acc : Com) y => acc.note 11 2 20 y.1.obj y.2.leaves noValue 0xC300) a.1
  ((a.2.take keep).foldl (fun s y => s.addSet y.1.obj y.2) b.1, b.2)

/-- The staged sets of a session. A changed set whose REGION is out of range is dropped (13 R458). -/
def Com.sets (l : List Staged) (c : Com) : Com :=
  let cfgs := stagedOf l 0xC300
  let new := cfgs.filter (fun x => (c.1.ceSet x.obj).isNone)
  (cfgs.foldl (fun (c : Com) x => match c.1.ceSet x.obj with
    | some o => if 64 ≤ rd x.b 8 1 then c.note 11 2 8 x.obj (rd x.b 8 1) o.region 0xC300 else c.changeSet x o
    | none => c) c).createSets new

/-- A region that holds a counter set is HDM-DB and has the CE owner bit (03 R116; 13 R464). -/
def Com.countable (l : List Staged) (c : Com) : Com :=
  ((oall c.1.rg.regions).filter (fun e => (oall c.1.ce.sets).any (fun x => x.2.region == e.1))).foldl (fun (c : Com) e =>
    let r := e.2
    let cfg := l.find? (fun x => x.op == 0xC100 && x.obj == e.1)
    let opcode := if cfg.isSome then 0xC100 else 0xC300
    let c1 := c.noteIf 1 1 21 e.1 r.flags ({ r with hdmDb := true } : Region).flags opcode
    let c2 := c1.noteIf 1 1 18 e.1 r.owner (r.owner ||| 0x200) opcode
    (c2.1.modRegion e.1 (fun r => { r with hdmDb := true, owner := r.owner ||| 0x200 }), c2.2)) c

/-! ### Bindings (13 R469, R470) -/

/-- The map of a staged binding; DEFAULT_MAP uses that of 13 R470, and GREEN, YELLOW, RED in slots 0, 1, 2 for policers (log 27). -/
def bindMap (q : Bool) (b : Bytes) : List (Option Nat) :=
  if (rd b 11 1).testBit 0 then (if q then defaultQMap else [some 0, some 1, some 2])
  else (List.range (if q then 14 else 3)).map (fun e => if rd b (20 + e) 1 = 0xFF then none else some (rd b (20 + e) 1))

/-- A staged CE_QE_BIND (13 R469). -/
def Com.bind (c : Com) (x : Staged) : Com :=
  let q := decide (x.obj = 0)
  let set := rd x.b 8 2
  let put (s : State) (v : Option Binding) : State :=
    if q then { s with ce := { s.ce with bindQ := v } } else { s with ce := { s.ce with bindP := v } }
  if set = 0xFFFF then (put c.1 none, c.2)
  else
    let slots := if !q then 3 else if (rd x.b 11 1).testBit 0 then 4 else rd x.b 10 1
    let count := rd x.b 16 4
    let room := ((c.1.ceSet set).map (fun k => k.leaves)).getD 0
    let cur := if q then c.1.ce.bindQ else c.1.ce.bindP
    if room < slots * count then
      c.note 12 2 16 x.obj count ((cur.map (fun b => b.count)).getD noValue) 0xC302
    else (put c.1 (some ⟨set, rd x.b 12 4, count, slots, bindMap q x.b⟩), c.2)

/-! ### Classes, queues, policers, scheduler (10 R352; 11 R391, R392; 12 R417, R436) -/

/-- A staged row of the class table (10 R352; 15 R542). -/
def State.applyRow (s : State) (x : Staged) : State :=
  let v := rd x.b 8 8
  { s with bw := { s.bw with cls := sset defaultRow s.bw.cls x.obj ((List.range 16).map (fun r => field v (3 * r) 3)) } }

/-- A staged object whose values a commit takes over as they are. -/
def State.applyPlain (s : State) (x : Staged) : State :=
  match x.op with
  | 0xC120 => s.applyRow x
  | 0xC420 => { s with bw := { s.bw with
      budget := sset 0 s.bw.budget x.obj (rd x.b 8 4), weight := sset 16 s.bw.weight x.obj (rd x.b 12 1) } }
  | 0xC421 => { s with bw := { s.bw with guar := lset s.bw.guar x.obj (rd x.b 8 2) } }
  | 0xC422 => { s with bw := { s.bw with windowNext := rd x.b 8 2 } }
  | 0xC230 => s.applyQueue x.obj x.b
  | 0xC231 => s.applyPolicer x.obj x.b
  | 0xC240 => s.applyNode x.lvl x.obj x.b
  | 0xC241 => s.applyPort x.obj x.b
  | 0xC242 => s.applyGateList x.obj x.b
  | _ => s

/-- The resolutions of a policer (PIR at least CIR, 11 R392) and of a gate list (change time at or after the base time, 12 R436; log 52). -/
def Com.plain (c : Com) (x : Staged) : Com :=
  if x.op = 0xC231 ∧ rd x.b 8 1 = 2 ∧ rd x.b 32 8 < rd x.b 24 8 then
    let c1 := c.note 10 1 32 x.obj (rd x.b 32 8) (rd x.b 24 8) 0xC231
    (c1.1.applyPlain { x with b := wr x.b 32 8 (rd x.b 24 8) }, c1.2)
  else if x.op = 0xC242 ∧ rd x.b 32 6 * 1000000000 + rd x.b 24 4 < rd x.b 16 6 * 1000000000 + rd x.b 12 4 then
    let c1 := c.noteIf 7 1 32 x.obj (rd x.b 32 6) (rd x.b 16 6) 0xC242
    let c2 := c1.noteIf 7 1 24 x.obj (rd x.b 24 4) (rd x.b 12 4) 0xC242
    (c2.1.applyPlain x, c2.2)
  else (c.1.applyPlain x, c.2)

/-- Guarantees cut at the commit: an entry for each class and channel, for a class that the session stages or whose slots the commit changes
(10 R361; 14 R515; log 34). -/
def Com.guarantees (l : List Staged) (c : Com) : Com :=
  let old := c.1.bw.applied
  let a := c.1.rescaleCommit
  let made := a.2.filter (fun x => l.any (fun y => y.op == 0xC421 && y.obj == x.2.1) || (old.getD x.1 []).getD x.2.1 0 != x.2.2.2)
  (a.1, c.2 ++ made.map (fun x => Clamp.mk 4 1 8 x.2.1 x.2.2.1 x.2.2.2 0xC421))

/-- Domains 16 and 17 are clocked while a YARD or TIERED region exists (17 R620). -/
def State.regionDomains (s : State) : State :=
  let on := (oall s.rg.regions).any (fun e => e.2.tier != 0)
  (s.setDomain 16 on).setDomain 17 on

/-! ### The commit (14 R510, R511) -/

/-- Every fetch in flight completes: requests at their ordering point see none of the changes (03 R115). A read that is past the scrambler and tag
unit keeps its data, and its tag result is still to come (03 R124). -/
def State.settleAll (s : State) : State := s.rr.fetches.foldl (fun s f => match f.stage with
  | .spec _ _ _ => s
  | _ => s.settle f.line true) s

/-- A commit of staged objects (log 52). -/
def State.commit (s : State) (l : List Staged) : Com :=
  if l.isEmpty then (s, [])
  else
    let c0 : Com := (s.settleAll, [])
    let c1 := (stagedOf l 0xC101).foldl (Com.deleteRegion l) c0
    let was := (oall c1.1.rg.regions).map (fun e => e.1)
    let c2 := c1.regions l
    let fresh := ((oall c2.1.rg.regions).map (fun e => e.1)).filter (fun n => !was.contains n)
    let c3 := (stagedOf l 0xC110).foldl (Com.tier fresh) c2
    let c4 := (stagedOf l 0xC301).foldl Com.deleteSet c3
    let c5 := (c4.sets l).countable l
    let c6 := (stagedOf l 0xC302).foldl Com.bind c5
    let c7 := (l.foldl Com.plain c6).guarantees l
    let regions := c7.1.rg.regions.map (fun (e : Nat × Option Region) =>
      (e.1, e.2.map (fun (r : Region) => { r with stretched := false })))
    ((({ c7.1 with rg := { c7.1.rg with regions := regions } } : State).regionDomains).schedSync, c7.2)

/-- STAGE_COMMIT (14 R510, R511, R513). -/
def stageCommit : Body := fun p b s =>
  let obj := rd b 4 4
  match s.session (rd b 0 2) (who p) with
  | none => (s, ans stSessionUnknown obj)
  | some x =>
    let c := s.commit x.staged
    let r := x.report.add c.2
    let s1 := (c.1.endSession x.number).count 0 4
    ({ s1 with mb := { s1.mb with retained := s1.mb.retained.filter (fun y => y.1 != who p) ++ [(who p, x.number, r)] } },
      ans (if r.entries.isEmpty && r.lost == 0 then stSuccess else stClamped) obj)

/-! ### REGION_QUERY (15 R535; 03 R112) -/

/-- A region's record: its configuration, its tier attributes, and the base of each extent on each channel (log 17). -/
def State.regionRecord (s : State) (n : Nat) : Bytes :=
  match s.region n with
  | none => List.replicate 408 0
  | some r =>
    le 2 (r.base / gib) ++ le 2 (r.size / gib) ++ le 1 r.tier ++ le 1 r.protect ++ le 1 r.grain ++ le 1 r.nsAlloc ++ le 2 r.mask ++
      le 2 r.owner ++ le 1 r.ratio ++ le 1 r.flags ++ le 2 0 ++
      le 1 r.quotaInit ++ le 1 r.quota ++ le 1 r.watermark ++ le 1 r.up ++ le 1 r.down ++ le 1 (b2n r.firstTouch) ++ le 2 r.epoch ++
      ([r.data, r.t1, r.yard, r.metaX].map (fun (x : Extent) => ((List.range 12).map (fun c => le 8 (x.bases.getD c 0 * 64))).flatten)).flatten

def regionQuery : Body := fun p b s => query p 0xC102 b s 64 408 s.regionRecord

def execStageCommit (p : Path) (b : Bytes) (s : State) : Host.Outcome State Fault Refusal :=
  .next (s.command p 0xC001 b stageCommit)

def execRegionQuery (p : Path) (b : Bytes) (s : State) : Host.Outcome State Fault Refusal :=
  .next (s.command p 0xC102 b regionQuery)

end Sys2Proof.Machine
end

