-- ==== Sys2Proof/Machine/Regs.lean ====
section
/-! DEFINITION. The registers of the control nodes as they are read and written, REGISTER_WRITE, and DIAG_CTRL_READ and DIAG_CTRL_WRITE (00
R13, R14; 01 R29, R32; 02 R67; 15 R558, R559; the register tables of 04 R160, 05 R182, 06 R224, 07 R270, R271, 08 R307, 09 R346, 10 R372, 11
R415, 12 R456, R457, 13 R483, 14 R526, R527, 16 R593, 17 R633, R634, 18 R651). -/

namespace Sys2Proof.Machine
open Sys2Proof

/-! ### Values that are counted or derived -/

/-- LP_FILL_BUOY of a region (07 R265, R270). -/
def Region.fillBuoy (r : Region) : Nat :=
  let whole (x : Extent) : Bool := decide (x.blocks ≤ x.filled)
  if r.extents.all (fun x => whole x.2) then r.size
  else
    let at_ := if r.tier = 0 then r.data.filled * 2 ^ 20 else r.metaX.filled * 64 * 2 ^ 20
    min (r.size - 2 ^ 20) at_ / 2 ^ 20 * 2 ^ 20

/-- LP_ERASE_STATE of a rank (07 R270). -/
def State.eraseReg (s : State) (rk : Nat) : Nat :=
  let top := ((oget s.lp.dev rk).map (fun d => d.counts.foldl max 0)).getD 0
  (match oget s.lp.erase rk with
    | some j => j + 16
    | none => 0) + min 255 top * 256

/-- Cells of the buffer regions in a state (11 R375, R415): 0 FREE, 1 HELD, 2 QUEUED. -/
def State.cellsIn (s : State) (st : Nat) : Nat :=
  if st = 0 then total (s.bufs.map (fun b => s.freeCount b.2))
  else (s.qe.cells.filter (fun e => e.2 % 4 == st)).length

/-- The highest severity of a source that is not CLEAR (16 R593). -/
def State.topSeverity (s : State) : Nat :=
  ((oall s.fc.src).filter (fun e => decide (e.2.mode ≠ .clear))).foldl (fun m e => max m (severityOf e.1)) 0

/-- FC_QUIET_LEFT in ms (16 R582, R593; log 47). -/
def State.quietLeft (s : State) : Nat :=
  if s.fc.quietAt = 0 then 0 else (s.fc.quietAt + s.fc.quiet * 1000000000 - s.now) / 1000000

/-- BW_GUAR of a class: the committed guarantee, and the lowest applied one of any channel, rounded down (10 R358, R372). -/
def State.guarReg (s : State) (k : Nat) : Nat :=
  let n := s.serving.length
  let low := (s.serving.map (fun c =>
    ((s.bw.applied.getD c []).getD k 0) * n * (s.chan c).rate * 16 / 1024000)).foldl min (s.bw.guar.getD k 0)
  s.bw.guar.getD k 0 + (if n = 0 then 0 else low) * 2 ^ 16

/-- BW_CAPACITY of a channel (10 R359, R372). -/
def State.capacityReg (s : State) (c : Nat) : Nat :=
  s.admissible c + (if s.inService c then total (s.bw.applied.getD c []) else 0) * 2 ^ 16

/-- MC_STATE (09 R346). -/
def State.mcStateReg (s : State) (c : Nat) : Nat :=
  let m := s.chan c
  let owed := ([0, 1].map (fun u => ((s.refKeys c).map (fun k => (s.owedNow c u k).toNat)).foldl max 0)).foldl max 0
  (match m.state with
    | .unpopulated => 0
    | .training => 1
    | .service => 2
    | .retraining => 3
    | .fenced => 4
    | .selfRefresh => 5
    | .speedChange => 6) + b2n m.hot * 8 + min 4 owed * 16

/-- MC_POP (09 R346). -/
def popReg (p : Option PopCfg) : Nat :=
  match p with
  | none => 0
  | some p => p.dimms + b2n p.mrdimm * 4 + Nat.log2 (popRanks p) * 8 + b2n p.die32 * 32 + b2n p.threeDs * 64 + popLines p * 64 / 2 ^ 35 * 256

/-- CE_RECOMPUTE (13 R483). -/
def State.recomputeReg (s : State) : Nat :=
  match s.ce.recompute with
  | some q => q.set + q.level * 4096 + 2 ^ 14 + q.cursor * 2 ^ 32
  | none => 0

/-- CE_PAIRS: the pairs of all committed sets (13 R483). -/
def State.pairsReg (s : State) : Nat := total ((oall s.ce.sets).map (fun e => e.2.pairs))

/-! ### Registers as read: offset, bytes, value -/

def State.nmRegs (s : State) : List (Nat × Nat × Nat) :=
  [(0, 4, 0), (8, 4, s.mb.slot + b2n s.mb.activating * 2 + b2n s.mb.actFailed * 4 + s.mb.activations * 2 ^ 16)]

def State.mbRegs (s : State) : List (Nat × Nat × Nat) :=
  [(0, 4, 1), (8, 4, if s.fnExists s.mb.mgmt then s.mb.mgmt else 16), (0xC, 4, s.mb.freezeThr), (0x10, 4, s.mb.frozen.toNat)] ++
    (List.range 4).map (fun f => (0x20 + 4 * f, 4, s.mb.cause.getD f 0 + s.mb.freezes.getD f 0 * 2 ^ 16)) ++
    [(0x30, 4, s.mb.sessions.length + total (s.mb.sessions.map (fun x => x.staged.length)) * 16), (0x34, 4, s.running.length),
      (0x38, 4, latValue s.mb.latF s.mb.nF 1000 s.freeVal), (0x3C, 4, latValue s.mb.latS s.mb.nS 10000 s.freeVal),
      (0x40, 4, s.mb.boundMiss)]

def State.fcRegs (s : State) : List (Nat × Nat × Nat) :=
  [(0, 4, 2),
    (8, 4, b2n s.fc.safe + b2n s.fc.faultN * 2 + ((oall s.fc.src).filter (fun e => decide (e.2.mode ≠ .clear))).length * 4 +
      s.topSeverity * 4096),
    (0xC, 4, s.fc.pinThr + s.fc.quiet * 2 ^ 16), (0x10, 4, s.quietLeft), (0x14, 4, s.fc.recov), (0x18, 4, s.lastSeq),
    (0x1C, 4, match s.fc.first with
      | some e => e.source + e.severity * 1024 + 2 ^ 31
      | none => 0),
    (0x20, 4, match s.fc.safeCause with
      | some c => c + 2 ^ 31
      | none => 0)]

def State.pmRegs (s : State) : List (Nat × Nat × Nat) :=
  [(0, 4, 3), (8, 4, b2n (decide (s.pm.interval ≠ 0)) + s.pm.fn * 16), (0xC, 4, s.pm.seq), (0x10, 4, s.pm.missed), (0x14, 4, s.pm.parity),
    (0x18, 4, bitsOf ((List.range 32).filter (fun k => s.pm.sticky.any (fun c => c / 16 == k))))]

def State.pwRegs (s : State) : List (Nat × Nat × Nat) :=
  [(0, 4, 4), (8, 4, s.pwStateReg), (0xC, 4, s.pw.idleDelay), (0x10, 4, s.pw.wakeCause), (0x14, 4, s.pw.resetCause), (0x18, 8, s.pw.sleepNs),
    (0x20, 12, s.pw.retain.toNat), (0x30, 12, s.pw.retLost.toNat), (0x40, 4, s.pw.deepExits)]

/-- CK_STATE and the registers after it; CK_FIO_MHZ is a measurement, whose value is free (17 R634; log 3; log 77). -/
def State.ckRegs (s : State) : List (Nat × Nat × Nat) :=
  [(0, 4, 5), (8, 4, b2n s.ck.sysLock + b2n s.ck.memLock * 2 + b2n s.ck.refA * 4 + b2n s.ck.refB * 8 + b2n s.ck.naFio * 16 +
      b2n s.ck.xtal * 32),
    (0x10, 8, s.ck.domains.toNat), (0x18, 4, Config.fioMhz s.ck.fioRead % 1024), (0x1C, 4, s.ck.unlocks)]

def State.fuRegs (s : State) : List (Nat × Nat × Nat) :=
  [(0, 4, 6), (8, 4, s.fu.burnsLeft), (0xC, 4, s.fu.soft.length), (0x10, 4, s.fu.errLoc)]

def State.bwRegs (s : State) : List (Nat × Nat × Nat) :=
  [(0, 4, 11), (8, 4, s.bw.windowNext), (0xC, 4, b2n s.bw.rescaled + bitsOf s.bw.lowered * 2 ^ 16)] ++
    (List.range 8).map (fun k => (0x20 + 4 * k, 4, s.guarReg k)) ++ (List.range 12).map (fun c => (0x40 + 4 * c, 4, s.capacityReg c)) ++
    (List.range 16).map (fun r => (0x80 + 4 * r, 4, sget 0 s.bw.budget r)) ++ (List.range 16).map (fun r => (0xC0 + 4 * r, 4, if 4 ≤ r ∧ r < 8 then 0 else s.weightOf r)) ++
    (List.range 16).map (fun r => (0x100 + 4 * r, 4, sget 0 s.bw.loweredCnt r))

def State.nsRegs (s : State) (q : Nat) : List (Nat × Nat × Nat) :=
  let mine := s.ns.victims.filter (fun v => nsQuad v.line == q)
  let code (w : WayState) : Nat := match w with
    | .on => 0
    | .draining => 1
    | .off => 2
    | .waking => 3
  [(0, 4, 0x100000 + q), (8, 4, s.ns.enabled.toNat),
    (0xC, 4, total ((List.range 4).map (fun g => code (s.ns.ways.getD g .on) * 4 ^ g))), (0x10, 4, mine.length),
    (0x14, 4, (mine.filter (fun v => v.offer)).length), (0x20, 4, s.ns.tagScrub.getD q 100), (0x30, 8, s.ns.errDpa.getD q 0),
    (0x38, 4, s.ns.errLoc.getD q 0)]

def State.trRegs (s : State) : List (Nat × Nat × Nat) :=
  [(0, 4, 16), (8, 4, s.tr.moves.length), (0xC, 4, s.tr.captures.length), (0x10, 4, s.tr.migRate), (0x14, 4, s.tr.sweepRate),
    (0x20, 8, s.tr.errDpa), (0x28, 4, total ((oall s.rg.regions).map (fun r => r.2.lostFrames.length)))]

/-- The codec clusters; no lane is busy between two commands of the model. Only node 17 has the MUCK registers (06 R224). -/
def State.cdRegs (s : State) (i : Nat) : List (Nat × Nat × Nat) :=
  [(0, 4, 0x4811 + i), (0x10, 8, s.cd.errDpa.getD i 0), (0x18, 4, s.cd.errInfo.getD i 0)] ++
    (if i = 0 then [(0x40, 4, s.cd.muckRate), (0x44, 4, s.cd.muckRegion), (0x48, 8, s.cd.muckPos), (0x50, 4, s.cd.muckPasses)] else [])

def State.mcacheRegs (s : State) : List (Nat × Nat × Nat) := [(0, 4, 19), (0x10, 8, s.cd.mcErrDpa), (0x18, 8, total ((oall s.rg.regions).map (fun r => r.2.leaked)))]

def State.lpRegs (s : State) : List (Nat × Nat × Nat) :=
  [(0, 4, 20), (8, 4, s.lp.patrolH), (0xC, 4, s.lp.patrolPasses), (0x10, 4, s.lp.rowThr + s.lp.rowWin * 2 ^ 16), (0x14, 4, s.lp.devThr),
    (0x18, 4, s.lp.resilverRate), (0x20, 8, s.lp.errChaddr), (0x28, 4, s.lp.errInfo), (0x30, 4, s.lp.rows.length),
    (0x34, 4, s.lp.demandDrops), (0x38, 4, total (s.lp.spareFree.map (fun l => total (l.map (fun x => x.2)))))]

def State.sxRegs (s : State) : List (Nat × Nat × Nat) :=
  [(0, 4, 21), (8, 4, b2n s.sx.sweep + b2n s.sx.halted * 2), (0xC, 4, s.sx.epoch), (0x10, 8, s.sx.buoy), (0x18, 4, s.sx.rate),
    (0x20, 8, s.sx.errChaddr), (0x28, 4, s.sx.errInfo), (0x2C, 4, s.sx.lateAlarms), (0x30, 4, s.sx.copies.toNat + b2n s.sx.oldKey.isSome * 8)]

def State.qeRegs (s : State) : List (Nat × Nat × Nat) :=
  [(0, 4, 22), (8, 8, s.cellsIn 0), (0x10, 8, s.cellsIn 1), (0x18, 8, s.cellsIn 2), (0x20, 8, s.qe.poolThr), (0x28, 4, s.qe.malformed),
    (0x2C, 4, s.qe.malfInfo), (0x30, 4, s.qe.tsClamped), (0x38, 8, s.qe.ctxHalted.toNat), (0x40, 4, s.qe.dropsFence),
    (0x44, 4, s.qe.dropsBuf), (0x48, 4, s.qe.pushDisc)]

def State.scRegs (s : State) : List (Nat × Nat × Nat) :=
  [(0, 4, 23), (8, 4, s.sc.wheel.length), (0xC, 4, min 65535 s.sc.wheelLag), (0x10, 8, min (2 ^ 48 - 1) (s.sc.debtClips / 2 ^ 32)),
    (0x18, 4, s.sc.gateOver), (0x1C, 4, s.orphans)] ++ (List.range 64).map (fun p => (0x100 + 4 * p, 4, s.gateReg p))

def State.tuRegs (s : State) : List (Nat × Nat × Nat) :=
  [(0, 4, 24), (8, 4, s.tuStateReg), (0x10, 8, s.netS % 2 ^ 48), (0x18, 8, s.tu.latchNs), (0x20, 4, s.tuOffsetReg), (0x24, 4, s.tuFreqReg),
    (0x28, 4, s.tu.steps), (0x2C, 4, s.tu.stepThr), (0x30, 4, s.tu.ppsDelay)]

def State.ceRegs (s : State) : List (Nat × Nat × Nat) :=
  [(0, 4, 25), (8, 4, s.pairsReg), (0xC, 4, (s.portAt 0).snoops.length + (s.portAt 1).snoops.length * 2 ^ 16), (0x10, 4, s.ce.filter.length),
    (0x18, 4, s.ce.malformed), (0x1C, 4, s.ce.malfInfo), (0x20, 4, s.ce.unbound), (0x24, 4, s.ce.discarded), (0x28, 8, s.recomputeReg),
    (0x30, 4, s.ce.gapCount)]

def State.mcRegs (s : State) (c : Nat) : List (Nat × Nat × Nat) :=
  let m := s.chan c
  [(0, 4, 26 + c + c * 256), (8, 4, s.mcStateReg c), (0xC, 4, popReg m.pop), (0x10, 4, m.rate + m.stored.toNat * 2 ^ 16), (0x14, 4, m.ageLimit),
    (0x18, 4, b2n m.wcrc), (0x1C, 4, m.retrainThr), (0x20, 4, m.caRetries), (0x24, 4, m.wcrcRetries),
    (0x28, 4, m.retrainsErr + m.retrainsCmd * 2 ^ 16), (0x2C, 4, m.refForced), (0x30, 4, m.rfmIssued), (0x38, 4, m.fenceInfo),
    (0x40, 4, unsigned 8 m.temp + b2n (decide (2 ^ 32 ≤ m.sensorMiss)) * 256)]

/-- A 32-bit word of an array of registers of `size` bytes that starts at `base` and has `n` of them. -/
def arrayWord (off base size n : Nat) (f : Nat → Nat) : Option Nat :=
  if base ≤ off ∧ off < base + size * n then some (f ((off - base) / size) / 2 ^ (8 * ((off - base) % size)) % 2 ^ 32) else none

/-- The registers of a node, besides its long arrays. -/
def State.nodeRegs (s : State) (n : Nat) : List (Nat × Nat × Nat) :=
  if n = 0 then s.nmRegs else if n = 1 then s.mbRegs else if n = 2 then s.fcRegs else if n = 3 then s.pmRegs
  else if n = 4 then s.pwRegs else if n = 5 then s.ckRegs else if n = 6 then s.fuRegs else if n = 11 then s.bwRegs
  else if 12 ≤ n ∧ n ≤ 15 then s.nsRegs (n - 12) else if n = 16 then s.trRegs else if n = 17 ∨ n = 18 then s.cdRegs (n - 17)
  else if n = 19 then s.mcacheRegs else if n = 20 then s.lpRegs else if n = 21 then s.sxRegs else if n = 22 then s.qeRegs
  else if n = 23 then s.scRegs else if n = 24 then s.tuRegs else if n = 25 then s.ceRegs
  else if 26 ≤ n ∧ n ≤ 37 then s.mcRegs (n - 26) else []

/-- The arrays of a node at an offset. -/
def State.nodeArray (s : State) (n off : Nat) : Option Nat :=
  if n = 3 then
    ((arrayWord off 0x1000 4 512 (fun c => sget 0 s.pm.evt c + b2n (decide (c ∈ s.pm.en)) * 2 ^ 16)).or
      (arrayWord off 0x2000 8 512 (fun c => sget 0 s.pm.cnt c + b2n (decide (c ∈ s.pm.sticky)) * 2 ^ 48)))
  else if n = 4 then arrayWord off 0x100 4 38 (fun k => sget 0 s.pw.epochs k)
  else if n = 11 then
    arrayWord off 0x1000 0x10 (12 * 32) (fun i =>
      let c := i / 32
      let j := i % 32
      let lines := if j < 8 then sget 0 s.bw.clsLines (c * 8 + j) else if j < 24 then sget 0 s.bw.reqLines (c * 16 + (j - 8)) else 0
      lines * 64 % 2 ^ 48 + lines * 2 ^ 64)
  else if n = 20 then
    (((arrayWord off 0x100 4 192 s.eraseReg).or (arrayWord off 0x400 8 12 (fun c =>
      ((s.lp.resilver[c]?).map (fun v => v.buoy + b2n v.active * 2 ^ 63)).getD 0))).or
      (arrayWord off 0x500 8 64 (fun r => ((s.region r).map Region.fillBuoy).getD 0)))
  else none

/-- The 32-bit word of a node at an offset; a reserved offset reads 0 (00 R13). -/
def State.nodeWord (s : State) (n off : Nat) : Nat :=
  match s.nodeArray n off with
  | some v => v
  | none => match (s.nodeRegs n).find? (fun r => decide (r.1 ≤ off ∧ off < r.1 + r.2.1)) with
    | some r => r.2.2 / 2 ^ (8 * (off - r.1)) % 2 ^ 32
    | none => 0

/-- What reading a word does: RC registers clear, and TU_TIME_S latches TU_TIME_NS (00 R14; 12 R456, R457; 14 R526). -/
def State.readEffect (s : State) (n off : Nat) : State :=
  if n = 1 ∧ off = 0x38 then { s.drawn with mb := { s.mb with latF := 0, nF := 0 } }
  else if n = 1 ∧ off = 0x3C then { s.drawn with mb := { s.mb with latS := 0, nS := 0 } }
  else if n = 5 ∧ off = 0x18 then { s with ck := { s.ck with fioRead := s.ck.fioRead + 1 } }
  else if n = 23 ∧ off = 0xC then { s with sc := { s.sc with wheelLag := 0 } }
  else if n = 24 ∧ off = 0x10 then s.latchTime
  else s

/-- Reads `k` words from a control address. -/
def State.readWords (s : State) (addr : Nat) : Nat → State × Bytes
  | 0 => (s, [])
  | k + 1 =>
    let n := addr / 2 ^ 20
    let off := addr % 2 ^ 20
    let rest := (s.readEffect n off).readWords (addr + 4) k
    (rest.1, le 4 (s.nodeWord n off) ++ rest.2)

/-! ### Writes (00 R13, R14; 15 R559) -/

/-- PW_IDLE_DELAY as applied (17 R597). -/
def idleDelayOf (v : Nat) : Nat := if v = 0 then 0 else clampN 10 10000 v

/-- The writable registers of the control nodes: the value given, with reserved bits ignored, and the value applied; none for a read-only or
reserved offset. -/
def nodeField (n off v : Nat) : Option (Nat × Nat) :=
  let f (w lo hi : Nat) : Option (Nat × Nat) := some (v % 2 ^ w, clampN lo hi (v % 2 ^ w))
  if n = 1 ∧ off = 0xC then f 16 1 65535
  else if n = 4 ∧ off = 0xC then some (v % 2 ^ 14, idleDelayOf (v % 2 ^ 14))
  else if 12 ≤ n ∧ n ≤ 15 ∧ off = 0x20 then f 10 1 1000
  else if n = 16 ∧ (off = 0x10 ∨ off = 0x14) then f 6 1 40
  else if n = 17 ∧ off = 0x40 then f 6 1 40
  else if n = 20 ∧ off = 8 then f 8 1 168
  else if n = 20 ∧ off = 0x10 then
    some (v % 16 + field v 16 8 * 2 ^ 16, clampN 1 15 (v % 16) + clampN 1 168 (field v 16 8) * 2 ^ 16)
  else if n = 20 ∧ off = 0x14 then f 6 1 64
  else if n = 20 ∧ off = 0x18 then f 7 1 80
  else if n = 21 ∧ off = 0x18 then f 6 1 40
  else if n = 22 ∧ off = 0x20 then f 33 0 (2 ^ 32)
  else if n = 24 ∧ off = 0x2C then f 20 1 1000000
  else if n = 24 ∧ off = 0x30 then f 20 0 1000000
  else if 26 ≤ n ∧ n ≤ 37 ∧ off = 0x14 then f 15 200 20000
  else if 26 ≤ n ∧ n ≤ 37 ∧ off = 0x18 then f 1 0 1
  else if 26 ≤ n ∧ n ≤ 37 ∧ off = 0x1C then f 13 16 4096
  else none

/-- Puts an applied value into its register. -/
def State.putReg (s : State) (n off v : Nat) : State :=
  if n = 1 then { s with mb := { s.mb with freezeThr := v } }
  else if n = 4 then { s with pw := { s.pw with idleDelay := v } }
  else if 12 ≤ n ∧ n ≤ 15 then { s with ns := { s.ns with tagScrub := lset s.ns.tagScrub (n - 12) v } }
  else if n = 16 then (if off = 0x10 then { s with tr := { s.tr with migRate := v } } else { s with tr := { s.tr with sweepRate := v } })
  else if n = 17 then { s with cd := { s.cd with muckRate := v } }
  else if n = 20 ∧ off = 0x10 then ({ s with lp := { s.lp with rowThr := v % 16, rowWin := v / 2 ^ 16 } } : State).hardenRows
  else if n = 20 then { s with lp :=
    if off = 8 then { s.lp with patrolH := v } else if off = 0x14 then { s.lp with devThr := v } else { s.lp with resilverRate := v } }
  else if n = 21 then { s with sx := { s.sx with rate := v } }
  else if n = 22 then ({ s with qe := { s.qe with poolThr := v } } : State).poolCheck
  else if n = 24 then (if off = 0x2C then { s with tu := { s.tu with stepThr := v } } else { s with tu := { s.tu with ppsDelay := v } })
  else s.modChan (n - 26) (fun m =>
    if off = 0x14 then { m with ageLimit := v } else if off = 0x18 then { m with wcrc := decide (v = 1) } else { m with retrainThr := v })

/-- Writes bytes from a control address on, register by register; true where a value was clamped. A 4 B write into the 8 B register
QE_POOL_LOW_THR changes its half. -/
def State.writeWords (s : State) (addr : Nat) (d : Bytes) : Nat → State × Bool
  | 0 => (s, false)
  | k + 1 =>
    if d.length < 4 then (s, false)
    else
      let n := addr / 2 ^ 20
      let off := addr % 2 ^ 20
      let pool := n = 22 ∧ (off = 0x20 ∨ off = 0x24)
      let len := if n = 22 ∧ off = 0x20 ∧ 8 ≤ d.length then 8 else 4
      let v := if len = 8 then rd d 0 8 else if pool ∧ off = 0x20 then rd d 0 4 + s.qe.poolThr / 2 ^ 32 * 2 ^ 32
        else if pool then s.qe.poolThr % 2 ^ 32 + rd d 0 4 * 2 ^ 32 else rd d 0 4
      let reg := if pool then 0x20 else off
      let a : State × Bool := match nodeField n reg v with
        | some (given, applied) => (s.putReg n reg applied, decide (given ≠ applied))
        | none => (s, false)
      let rest := a.1.writeWords (addr + len) (d.drop len) k
      (rest.1, a.2 || rest.2)

/-- The range of a diagnostic command as applied (15 R558). -/
def diagRules : List FieldRule := [⟨8, 8, roundDown 4⟩, ⟨16, 2, fun v => clampN 4 4096 ((v + 1) / 4 * 4)⟩]

/-- Whether an access names a reserved node window or crosses a window (01 R32; 15 R530). -/
def badWindow (addr len : Nat) : Bool := decide (38 ≤ addr / 2 ^ 20) || decide ((addr + len - 1) / 2 ^ 20 ≠ addr / 2 ^ 20)

/-- DIAG_CTRL_READ (15 R558). -/
def diagCtrlRead : Body := fun p b s =>
  let obj := rd b 4 4
  if obj ≠ 0 then (s, ans stObjectAbsent obj)
  else
    let r := applyRules diagRules b
    if badWindow (rd r.1 8 8) (rd r.1 16 2) then (s, ans stControlRange obj) else
    let a := s.readWords (rd r.1 8 8) (rd r.1 16 2 / 4)
    (a.1.direct p 0xC800 21 obj r.2, ans (okStatus r.2) obj a.2)

/-- DIAG_CTRL_WRITE (15 R558, R559). -/
def diagCtrlWrite : Body := fun p b s =>
  let obj := rd b 4 4
  if obj ≠ 0 then (s, ans stObjectAbsent obj)
  else
    let r := applyRules diagRules b
    if badWindow (rd r.1 8 8) (rd r.1 16 2) then (s, ans stControlRange obj) else
    let d := (b.drop 24).take (rd r.1 16 2)
    let a := s.writeWords (rd r.1 8 8) d (d.length / 4)
    (a.1.direct p 0xC801 21 obj r.2, ans (if a.2 then stClamped else okStatus r.2) obj)

/-! ### REGISTER_WRITE (00 R14; 02 R64 to R67, R80, R81, R83; 12 R448; 17 R604) -/

/-- A 4 B register of the doorbell page that has a row of its own. -/
def doorbellWord (f off : Nat) (v : BitVec 32) (s : State) : State :=
  if off = 0 then fcrDoorbell f v s
  else if off = 0x10 then intCauseWrite f v s
  else if off = 0x14 then intEnableWrite f v s
  else if 0x100 ≤ off ∧ off < 0x140 then freeCons f ((off - 0x100) / 4) v s
  else if 0x200 ≤ off ∧ off < 0x300 then egressCons f ((off - 0x200) / 4) v s
  else s

/-- A write in BAR0: an aligned 4 B or 8 B write to the register ranges, other sizes discarded and logged; a write in a window is one of that
window; a reserved range ignores it (00 R13; 02 R65, R67 to R70). -/
def bar0Write (f off size : Nat) (v : BitVec 64) (s : State) : State :=
  let regs := off ≤ 0x1FFFFF
  let page := 0x6000000 ≤ off ∧ off ≤ 0x600FFFF
  if regs ∨ page then
    if (size ≠ 4 ∧ size ≠ 8) ∨ off % size ≠ 0 then s.badAccess f off v.toNat
    else if page then
      let o := off - 0x6000000
      let s1 := doorbellWord f o (v.setWidth 32) s
      if size = 8 then doorbellWord f (o + 4) ((v >>> 32).setWidth 32) s1 else s1
    else s
  else if 0x2000000 ≤ off ∧ off < 0x4000000 then
    windowWrite ⟨true, f, (off - 0x2000000) / 0x10000, off % 0x10000, le size v.toNat, true, false⟩ s
  else if 0x4000000 ≤ off ∧ off < 0x6000000 then
    windowWrite ⟨false, f, (off - 0x4000000) / 0x10000, off % 0x10000, le size v.toNat, true, false⟩ s
  else s

/-- Bytes of BAR0 and of BAR2 (02 R64). -/
def barSize (k : Nat) : Nat := if k / 2 = 0 then 2 ^ 28 else 2 ^ 16

/-- The base addresses after a write of the 4 B register BAR0 + k: the bits below the size stay 0, BAR4 and BAR5 are none (02 R64). -/
def barPut (bars : List Nat) (k v : Nat) : List Nat :=
  let old := bars.getD (k / 2) 0
  let new := if k % 2 = 0 then v % 2 ^ 32 + old / 2 ^ 32 * 2 ^ 32 else old % 2 ^ 32 + v % 2 ^ 32 * 2 ^ 32
  if k < 4 then lset bars (k / 2) (new / barSize k * barSize k) else bars

/-- A configuration or MSI-X field of a function; sizes are coded as PCI Express codes them (PRESUMED, log 14). -/
def cfgWrite (f : Nat) (r : CfgReg) (v : Nat) (s : State) : State :=
  match r with
  | .maxPayload => if v < 6 then s.modFn f (fun h => { h with mps := 128 * 2 ^ v }) else s
  | .maxReadRequest => if v < 6 then s.modFn f (fun h => { h with mrrs := 128 * 2 ^ v }) else s
  | .aspmL1Enable => s.modFn f (fun h => { h with aspmL1 := v.testBit 0 })
  | .ptmEnable => s.modFn f (fun h => { h with ptmEn := v.testBit 0 })
  | .functionMask => if v.testBit 0 then s.modFn f (fun h => { h with fnMask := true }) else msixUnmask f none s
  | .vectorMask k =>
    if 256 ≤ k then s
    else if v.testBit 0 then s.modFn f (fun h => { h with msixMask := h.msixMask ||| (1#256 <<< k) })
    else msixUnmask f (some k) s
  | .vectorWord k i => if 256 ≤ k ∨ 3 ≤ i then s else s.modFn f (fun h => { h with
      msixTab := sset 0 h.msixTab (4 * k + i) (if i = 0 then v % 2 ^ 32 / 4 * 4 else v % 2 ^ 32) })
  | .command => s.modFn f (fun h => { h with command := v % 2 ^ 16 - (v % 2 ^ 16) / 4 % 2 * 4 })
  | .powerState => if v % 4 = 0 ∨ v % 4 = 3 then s.modFn f (fun h => { h with d3 := decide (v % 4 = 3) }) else s
  | .bar k => s.modFn f (fun h => { h with bars := barPut h.bars k v })
  | .aerCorrectable => s.modFn f (fun h => { h with aerCor := h.aerCor - (h.aerCor &&& v) })
  | .aerUncorrectable => s.modFn f (fun h => { h with aerUnc := h.aerUnc - (h.aerUnc &&& v) })
  | .decoderControl i => if v.testBit 9 then s else decoderUncommit f i s

/-- REGISTER_WRITE. -/
def registerWrite (t : RegTarget) (size : Nat) (v : BitVec 64) (s : State) : State :=
  match t with
  | .bar0 f off => s.ioAccess f (bar0Write f off size v)
  | .config f r => s.ioAccess f (cfgWrite f r v.toNat)
  | .node n off =>
    if n < 64 ∧ off < 2 ^ 20 ∧ (size = 4 ∨ size = 8) ∧ off % size = 0 ∧ s.mbReady ∧ s.pw.state ≠ .deep ∧ s.pw.state ≠ .off then
      (s.writeWords (n * 2 ^ 20 + off) (le size v.toNat) (size / 4)).1
    else s

def execDiagCtrlRead (p : Path) (b : Bytes) (s : State) : Host.Outcome State Fault Refusal :=
  .next (s.command p 0xC800 b diagCtrlRead)

def execDiagCtrlWrite (p : Path) (b : Bytes) (s : State) : Host.Outcome State Fault Refusal :=
  .next (s.command p 0xC801 b diagCtrlWrite)

def execRegisterWrite (target : RegTarget) (size : Nat) (value : BitVec 64) (s : State) : Host.Outcome State Fault Refusal :=
  .next (registerWrite target size value s)

end Sys2Proof.Machine
end

