-- ==== Sys2Proof/Machine/Standard.lean ====
section
/-! DEFINITION. Background operations and their ends, ABORT, and the standard CXL commands (14 R503, R504, R520, R684; 15 R560, R561,
R678; 17 R624 to R628). Payload layouts of CXL 3.1 are log 14. -/

namespace Sys2Proof.Machine
open Sys2Proof

/-! ### Firmware images (17 R624 to R627) -/

/-- The flash offset of a slot (17 R624). -/
def slotArea (slot : Nat) : Nat := slot * 0x1000000

/-- Whether an image passes the checks of 17 R626 for a device of security version `svn` (log 55). -/
def imageOk (svn : Nat) (image : Bytes) : Bool :=
  decide (256 ≤ image.length) && rd image 0 4 == 0x5952414E && Config.signatureOk (image.take 256) && Config.hashOk image &&
    decide (svn ≤ rd image 8 1) && decide (1 ≤ rd image 16 4 ∧ rd image 16 4 ≤ 8388352)

/-- An image stored in a slot (17 R624, R625). -/
def State.putImage (s : State) (slot : Nat) (image : Bytes) : State :=
  ({ s with mb := { s.mb with
    xfer := none
    slots := lset s.mb.slots slot ⟨true, rd image 8 1, rd image 4 4, image⟩ } } : State).emit (.flash (slotArea slot))

/-- Ends a transfer with a complete image: stored where it passes the checks, else FW Verification Failed (17 R626; log 55). -/
def State.sealImage (s : State) (slot : Nat) (image : Bytes) : State × Nat :=
  if imageOk s.fu.svn image then (s.putImage slot image, rcSuccess)
  else ({ s with mb := { s.mb with xfer := none } }, rcFwVerify)

/-- A part of an image arrives: 0 full, 1 first, 2 next, 3 last, 4 abort (15 R560; log 14). Offsets count in 128 B (log 55). -/
def State.takePart (s : State) (action slot offset : Nat) (data : Bytes) : State × Nat :=
  if action = 0 then s.sealImage slot data
  else if action = 1 then
    if s.mb.xfer.isSome then (s, rcFwInProgress)
    else if offset ≠ 0 then (s, rcFwOrder)
    else ({ s with mb := { s.mb with xfer := some data } }, rcSuccess)
  else if action = 4 then ({ s with mb := { s.mb with xfer := none } }, rcSuccess)
  else match s.mb.xfer with
    | none => (s, rcFwOrder)
    | some got =>
      if offset * 128 ≠ got.length ∨ 2 ^ 23 < got.length + data.length then (s, rcFwOrder)
      else if action = 2 then ({ s with mb := { s.mb with xfer := some (got ++ data) } }, rcSuccess)
      else s.sealImage slot (got ++ data)

/-- TRANSFER_FW: the inactive slot only (15 R560; 17 R626). -/
def transferFw : Body := fun p b s =>
  let action := rd b 0 1
  let slot := rd b 1 1 - 1
  if 4 < action then (s, std rcInvalidInput)
  else if (action = 0 ∨ action = 3) ∧ (rd b 1 1 = 0 ∨ 2 ≤ slot ∨ slot = s.mb.slot) then (s, std rcInvalidSlot)
  else s.startBg p 0x0201 0 (.transferFw action slot (rd b 4 4) (b.drop 128)) (b.length - 128)

/-- Whether an online activation is refused (14 R520). -/
def refusesActivation (w : BgWork) : Bool :=
  match w with
  | .speed => true
  | .retrain _ => true
  | .ppr _ _ => true
  | .fuse _ => true
  | .activateFw => true
  | _ => false

/-- Naray restarts under hitless activation: open sessions and retained reports end (14 R509, R513, R521; 16 R579). -/
def State.startActivation (s : State) (p : Option Path) : State :=
  ({ s with mb := { s.mb with
    activating := true, actAt := s.now, actPath := p, sessions := [], retained := [], xfer := none } } : State).openShadow 0 none none
      nmActivated

/-- ACTIVATE_FW: online, or offline at the next cold start; without an accepted image an offline activation starts one (14 R520 to R522;
17 R626, R628; log 55). -/
def activateFw : Body := fun p b s =>
  let online := decide (rd b 0 1 = 0)
  let slot := rd b 1 1 - 1
  let x := s.mb.slots.getD slot ⟨false, 0, 0, []⟩
  if 1 < rd b 0 1 then (s, std rcInvalidInput)
  else if rd b 1 1 = 0 ∨ 2 ≤ slot then (s, std rcInvalidSlot)
  else if s.pw.cold = .noImage ∧ online then (s, std rcUnsupported)
  else if !x.good || decide (x.svn < s.fu.svn) then (s, std rcFwVerify)
  else if online then
    if s.running.any (fun o => refusesActivation o.work) || s.mb.sActive.any (fun x => refusesActivation x.work) then (s, std rcBusy)
    else
      let q := s.startBg p 0x0202 slot .activateFw 100
      if q.2.rc = rcBgStarted then (q.1.startActivation (some p), q.2) else (s, q.2)
  else
    let s1 : State := ({ s with mb := { s.mb with bootSlot := slot } } : State).emit (.flash 0x2010000)
    (if s.pw.cold = .noImage then { s1 with pw := { s1.pw with cold := .step 0 } } else s1, std rcSuccess)

/-! ### Progress and end of background operations (14 R503, R684) -/

/-- Burns up to `n` soft entries (07 R260). -/
def State.burnMany (s : State) : Nat → State
  | 0 => s
  | n + 1 => (s.burnOne).burnMany n

/-- Clears lines `i` upward of a CE_CLEAR until `n` more are done or one waits; the next line. -/
def State.clearTo (s : State) (set level first count : Nat) : Nat → Nat → State × Nat
  | 0, i => (s, i)
  | n + 1, i =>
    let a := s.ceClearLine set level first count i
    if a.2 then a.1.clearTo set level first count n (i + 1) else (a.1, i)

/-- One unit of an operation's work; the last unit is left to BACKGROUND_OPERATION_END (14 R684; log 1; log 80). -/
def State.bgUnit (s : State) (o : BgOp) : State :=
  if o.total ≤ o.done + 1 then s
  else
    let put (s : State) (w : BgWork) (d : Nat) : State := s.modOp o.handle (fun o => { o with work := w, done := d })
    match o.work with
    | .range op region start len cursor snooped =>
      let x : RangeAt := ⟨op, region, start, len, cursor, snooped⟩
      let a := s.rangeTo x (x.stopOf (o.done + 1)) (x.lines + 1)
      put a.1 a.2.work a.2.doneUnits
    | .flush q removed =>
      let a := s.flushMany q 1 0
      put a.1 (.flush q (removed + a.2)) (o.done + a.2)
    | .reclaim f => put (s.reclaim f o.done (o.done + 1)) o.work (o.done + 1)
    | .ceClear set level first count =>
      let a := s.clearTo set level first count 1 o.done
      put a.1 o.work a.2
    | .ways off _ =>
      match (groupsOf off)[o.done / 262144]? with
      | some g => if s.ns.ways.getD g .on = .draining then put (s.drainEntry g (o.done % 262144)) o.work (o.done + 1) else s
      | none => s
    | .fuse _ => put s.burnOne o.work (o.done + 1)
    | _ => s

/-- The rest of an operation's work, and its final completion; the operations that an event of their own ends are left to it (14 R493;
log 6; log 80). -/
def State.bgEnd (s : State) (o : BgOp) : State :=
  let whole (s : State) (st : Nat) (data : Bytes) : State := (s.modOp o.handle (fun o => { o with done := o.total })).endOp o.handle st data
  match o.work with
  | .range op region start len cursor snooped =>
    let x : RangeAt := ⟨op, region, start, len, cursor, snooped⟩
    let a := s.rangeTo x x.last (2 * x.lines + 1)
    if x.last ≤ a.2.cursor then whole a.1 stSuccess []
    else a.1.modOp o.handle (fun o => { o with work := a.2.work, done := a.2.doneUnits })
  | .flush q removed =>
    let a := s.flushMany q (s.queueAt q).packets 0
    (whole a.1 stSuccess (le 4 (removed + a.2))).schedSync
  | .reclaim f => whole (s.reclaim f o.done (o.total + 1)) stSuccess []
  | .ceClear set level first count =>
    let a := s.clearTo set level first count (o.total - o.done) o.done
    if o.total ≤ a.2 then whole a.1 stSuccess [] else a.1.modOp o.handle (fun o => { o with done := a.2 })
  | .ways _ _ =>
    let s1 := (s.groupsIn .draining).foldl (fun s g => s.gateGroup g) s
    ((s1.groupsIn .waking).foldl (fun s g => s.wakeGroup g) s1).waysEnd
  | .fuse n => whole (s.burnMany (n - o.done)) stSuccess []
  | .pwEnter => s.pwEnterDone
  | .transferFw action slot offset data =>
    let a := s.takePart action slot offset data
    whole a.1 a.2 []
  | _ => s

/-- Whether Naray can give a completion now: it is neither restarting nor reloading (14 R521; 07 R261). -/
def State.narayUp (s : State) : Bool := !s.mb.activating && !s.mb.reloading

/-- BACKGROUND_OPERATION_END of a handle (log 80). -/
def backgroundOperationEnd (h : Nat) (s : State) : State :=
  match s.opAt h with
  | none => s
  | some o => if o.running && s.narayUp then s.bgEnd o else s

/-! ### ABORT (14 R504) -/

/-- An abort of a running operation by its own rule, and the status of the abort. Operations with no stop rule run on (log 28). -/
def State.abortOp (s : State) (o : BgOp) : State × Nat :=
  match o.work with
  | .rekey => (s, stRekeyNoAbort)
  | .pwEnter =>
    let a := s.abandonEntry
    (a.1, if a.2 then stSuccess else stTooLate)
  | .ways off _ =>
    let a := s.waysAbort off
    if a.2 then (a.1.endOp o.handle stAborted, stSuccess) else (s, stTooLate)
  | .flush q removed =>
    if (s.queueAt q).flushTo.isNone then (s, stTooLate)
    else ((s.modQueue q (fun x => { x with flushTo := none })).endOp o.handle stAborted (le 4 removed), stSuccess)
  | .range _ _ _ _ _ _ => (s.endOp o.handle stAborted, stSuccess)
  | .reclaim _ => (s.endOp o.handle stAborted, stSuccess)
  | .ceClear _ _ _ _ => (s.endOp o.handle stAborted, stSuccess)
  | .fuse _ => (s.endOp o.handle stAborted, stSuccess)
  | .transferFw _ _ _ _ => (s.endOp o.handle stAborted, stSuccess)
  | _ => (s, stTooLate)

/-- An abort of an operation in whatever state it is (log 28). -/
def State.abortAny (s : State) (o : BgOp) : State × Nat := if o.running then s.abortOp o else (s, stTooLate)

/-- Whether a path is a ring command with a TAG of a function (log 54). -/
def tagged (f tag : Nat) (p : Path) : Bool :=
  match p with
  | .ring g _ t => g == f && t == tag
  | _ => false

/-- ABORT (14 R504; 15 R537). -/
def abort : Body := fun p b s =>
  let obj := rd b 4 4
  let c := applyRules [fEnum 8 1 1 0] b
  let done (a : State × Nat) : State × Reply :=
    (a.1.direct p 0xC011 22 obj c.2, ans (if a.2 = stSuccess then okStatus c.2 else a.2) obj)
  if rd c.1 8 1 = 0 then
    match s.mb.ops.find? (fun o => o.handle == obj && o.who == who p) with
    | some o => done (s.abortAny o)
    | none => (s, ans stHandleUnknown obj)
  else
    match s.running.find? (fun o => tagged (who p) obj o.path) with
    | some o => done (s.abortOp o)
    | none =>
      match s.mb.sActive.find? (fun x => tagged (who p) obj x.path) with
      | some x => ({ s with mb := { s.mb with abortWaits := s.mb.abortWaits ++ [⟨p, obj, x.path⟩] } }, owedLater)
      | none =>
        if ((s.fnAt (who p)).fcr.map (fun q => q.done.any (fun e => e.2 == obj))).getD false && who p != 15 then (s, ans stTooLate obj)
        else (s, ans stHandleUnknown obj)

/-- Whether two paths are one mailbox, one ring or the sideband. -/
def samePath (p q : Path) : Bool :=
  match p, q with
  | .primary f, .primary g => f == g
  | .secondary f, .secondary g => f == g
  | .ring f _ _, .ring g _ _ => f == g
  | .sideband, .sideband => true
  | _, _ => false

/-- The latest background operation started through a path (14 R503). -/
def State.latestOp (s : State) (p : Path) : Option BgOp := s.mb.ops.reverse.find? (fun o => samePath p o.path)

/-- REQUEST_ABORT_BACKGROUND_OPERATION: the latest operation of the mailbox, under 14 R504 (log 14). -/
def requestAbort : Body := fun p _ s =>
  match s.latestOp p with
  | none => (s, std rcInvalidInput)
  | some o =>
    let a := s.abortAny o
    (a.1, std (if a.2 = stSuccess then rcSuccess else if a.2 = stRekeyNoAbort then rcBusy else rcInvalidInput))

/-! ### Identity, operations, events, time (15 R560) -/

/-- IDENTIFY: the identity of 00 R3 (log 14). -/
def identify : Body := fun _ _ s =>
  let dev := if Config.gradeE then 0x9641 else 0x9640
  let sub := match Config.boardSubsystem with
    | some x => (x.1.toNat, x.2.toNat)
    | none => (0x1F6B, dev)
  (s, std rcSuccess (le 2 0x1F6B ++ le 2 dev ++ le 2 sub.1 ++ le 2 sub.2 ++ le 8 Config.serialNumber.toNat ++ le 1 16 ++ le 1 3))

/-- BACKGROUND_OPERATION_STATUS: the latest operation of the mailbox. -/
def opStatus : Body := fun p _ s =>
  match s.latestOp p with
  | none => (s, std rcSuccess (List.replicate 8 0))
  | some o =>
    let rc := if o.running ∨ 0xC000 ≤ o.op then 0 else o.status
    let ext := if o.running ∨ o.op < 0xC000 then 0 else o.status
    (s, std rcSuccess (le 1 (b2n o.running + 2 * o.percent) ++ le 1 0 ++ le 2 o.op ++ le 2 rc ++ le 2 ext))

/-- The kind of CXL event record of a source (16 R566): 0 vendor, 1 DRAM, 2 memory module, 3 general media. -/
def recordKind (src : Nat) : Nat :=
  let node := src / 16
  let dimm := [lpDeviceFailed]
  if node = 20 then (if dimm.contains src then 2 else if src = lpScrubHalted ∨ src = lpFillHalted ∨ src = sramUe 20 then 0 else 1)
  else if 26 ≤ node ∧ node ≤ 37 then
    let c := node - 26
    if src = mcCaReplayed c ∨ src = mcWcrcReplayed c then 1
    else if src = mcRetrained c ∨ src = mcHot c ∨ src = mcTempSensor c ∨ src = mcFenced c ∨ src = mcTrainFailed c ∨ src = mcPopMismatch c then 2
    else 0
  else if src = trMapLost ∨ [cdDecodeError, cdDecodeError1, cdDecodeRepaired, cdDecodeRepaired1, cdYardExhausted, cdMetaPoisoned].contains src then 3
  else if (List.range 4).any (fun q => src == nsDataPoisoned q) then 3
  else if node = 21 ∧ (src % 16 = 0 ∨ src % 16 = 1 ∨ src % 16 = 3 ∨ src % 16 = 4) then 3
  else 0

/-- An event record in bytes: the common header, whose type the standard spells, and the keeper's entry as payload (07 R239; 16 R566; log 14). -/
def eventBytes (e : Nat × Nat × Nat) : Bytes :=
  let src := field e.2.2 112 10
  -- the log of the severity, and hardware replacement needed of the DIMM of a failed device (07 R239)
  let flags := evLogOf (field e.2.2 122 3) + (if src = lpDeviceFailed then 32 else 0)
  (List.range 16).map (fun i => Config.standardByte (0x10000 + recordKind src) i) ++ le 1 128 ++ le 3 flags ++ le 2 e.1 ++
    le 2 0 ++ le 8 e.2.1 ++ List.replicate 16 0 ++ le 32 e.2.2 ++ List.replicate 48 0

/-- GET_EVENT_RECORDS of one of the four logs (log 14). -/
def getEvents : Body := fun p b s =>
  let k := rd b 0 1
  if 4 ≤ k then (s, std rcInvalidInput)
  else
    let l := s.mb.evlog.getD k []
    let o := s.mb.evOver.getD k (0, 0, 0)
    let n := min l.length (max 1 ((pathMax p - 32) / 128))
    (s, std rcSuccess (le 1 (b2n (decide (o.1 ≠ 0)) + 2 * b2n (decide (n < l.length))) ++ le 1 0 ++ le 2 o.1 ++ le 8 o.2.1 ++ le 8 o.2.2 ++
      le 2 n ++ List.replicate 10 0 ++ ((l.take n).map eventBytes).flatten))

/-- CLEAR_EVENT_RECORDS: all, or the oldest ones named in order (log 14). -/
def clearEvents : Body := fun _ b s =>
  let k := rd b 0 1
  let n := rd b 2 1
  let all := (rd b 1 1).testBit 0
  let hs := (List.range n).map (fun i => rd b (6 + 2 * i) 2)
  let l := s.mb.evlog.getD k []
  if 4 ≤ k ∨ (!all ∧ n = 0) then (s, std rcInvalidInput)
  else if !all && decide (b.length < 6 + 2 * n) then (s, std rcInvalidLength)
  else if !all && (l.take n).map (fun e => e.1) != hs then (s, std rcInvalidHandle)
  else ({ s with mb := { s.mb with
    evlog := lset s.mb.evlog k (if all then [] else l.drop n), evOver := lset s.mb.evOver k (0, 0, 0) } }, std rcSuccess)

/-- GET_EVENT_INTERRUPT_POLICY and SET_EVENT_INTERRUPT_POLICY: MSI-X vector 0 only. -/
def getPolicy : Body := fun _ _ s => (s, std rcSuccess ((s.mb.policy.map (le 1)).flatten))
def setPolicy : Body := fun _ b s =>
  let v := (List.range 4).map (fun i => rd b i 1)
  if v.any (fun x => decide (2 ≤ x % 4) || decide (x / 16 ≠ 0)) then (s, std rcInvalidInput)
  else ({ s with mb := { s.mb with policy := v.map (fun x => x % 4) } }, std rcSuccess)

/-- GET_FW_INFO. -/
def getFwInfo : Body := fun _ _ s =>
  let rev (k : Nat) : Bytes := match s.mb.slots[k]? with
    | some x => if x.good then le 16 x.version else List.replicate 16 0
    | none => List.replicate 16 0
  let staged := if s.mb.bootSlot = s.mb.slot then 0 else s.mb.bootSlot + 1
  (s, std rcSuccess (le 1 2 ++ le 1 (s.mb.slot + 1 + staged * 8) ++ le 1 1 ++ List.replicate 13 0 ++ rev 0 ++ rev 1 ++ List.replicate 32 0))

/-- GET_TIMESTAMP and SET_TIMESTAMP: the CXL timestamp of event records only. -/
def getTimestamp : Body := fun _ _ s => (s, std rcSuccess (le 8 s.cxlTime))
def setTimestamp : Body := fun _ b s =>
  ({ s with mb := { s.mb with tsBase := (rd b 0 8 + 2 ^ 64 - s.now % 2 ^ 64) % 2 ^ 64 } }, std rcSuccess)

/-! ### Memory device (15 R560; 03 R104) -/

/-- The DPA at which the highest region ends (03 R104). -/
def State.capacity (s : State) : Nat := (oall s.rg.regions).foldl (fun m e => max m (e.2.base + e.2.size)) 0

/-- IDENTIFY_MEMORY_DEVICE: capacities in 256 MiB (log 14). -/
def identifyMemory : Body := fun _ _ s =>
  let c := s.capacity / 2 ^ 28
  let rev := ((s.mb.slots[s.mb.slot]?).map (fun x => x.version)).getD 0
  (s, std rcSuccess (le 16 rev ++ le 8 c ++ le 8 c ++ le 8 0 ++ le 8 0 ++ le 2 256 ++ le 2 256 ++ le 2 256 ++ le 2 256 ++ le 4 0 ++ le 3 4096 ++
    le 2 0 ++ le 1 1 ++ le 1 0 ++ le 2 0))

/-- GET_HEALTH_INFO: the hottest die sensor, and the CORRECTED raises (log 14). -/
def healthInfo : Body := fun _ _ s =>
  let t := unsigned 16 s.pw.temp
  let corrected := ((oall s.fc.src).filter (fun e => severityOf e.1 == 1)).foldl (fun n e => satAdd (2 ^ 32 - 1) n e.2.raises) 0
  let hot := decide (s.mb.alert.getD 0 0 % 4 ≥ 2) && decide ((s.mb.alert.getD 1 0 : Int) ≤ s.pw.temp)
  (s, std rcSuccess (le 1 0 ++ le 1 (b2n (!s.mediaReady)) ++ le 1 (b2n hot * 4) ++ [Config.standardByte 0x4200 3] ++ le 2 t ++ le 4 0 ++
    le 4 corrected ++ le 4 0))

/-- GET_ALERT_CONFIGURATION and SET_ALERT_CONFIGURATION: enabled alerts, the temperature warnings, the corrected-error warning (log 14). -/
def getAlerts : Body := fun _ _ s =>
  let a (i : Nat) : Nat := s.mb.alert.getD i 0
  (s, std rcSuccess (le 1 (a 0) ++ le 1 0xE ++ [Config.standardByte 0x4201 2, Config.standardByte 0x4201 3, Config.standardByte 0x4201 4,
    Config.standardByte 0x4201 5, Config.standardByte 0x4201 6, Config.standardByte 0x4201 7] ++ le 2 (a 1) ++ le 2 (a 2) ++ le 2 (a 3) ++ le 2 0))
def setAlerts : Body := fun _ b s =>
  let act := rd b 0 1
  let a (i : Nat) : Nat := s.mb.alert.getD i 0
  let v (bit off i : Nat) : Nat := if act.testBit bit then rd b off 2 else a i
  let en := (a 0 &&& ((0xE - (act &&& 0xE)) % 16)) ||| (rd b 1 1 &&& act &&& 0xE)
  ({ s with mb := { s.mb with alert := [en, v 1 4 1, v 2 6 2, v 3 8 3] } }, std rcSuccess)

/-- GET_POISON_LIST: the lines reported in a range that fit the payload (log 14). -/
def getPoisonList : Body := fun p b s =>
  let lo := rd b 0 8 / 64 * 64
  let all := s.mb.poison.filter (fun d => decide (lo ≤ d ∧ d < lo + rd b 8 8 * 64))
  let n := min all.length (max 1 ((pathMax p - 32) / 16))
  (s, std rcSuccess (le 1 (b2n (decide (n < all.length)) + 2 * b2n s.mb.poisonOver.isSome) ++ le 1 0 ++ le 8 (s.mb.poisonOver.getD 0) ++
    le 2 n ++ List.replicate 20 0 ++ ((all.take n).map (fun d => le 8 (d + 2) ++ le 4 1 ++ le 4 0)).flatten))

/-- INJECT_POISON: the line is rewritten with its data and POISON 1; a counter line refuses (07 R241; 13 R681; log 43). The write is one of
requester NM, under the owner check (01 R35, R37; log 99). -/
def injectPoison : Body := fun _ b s =>
  let l := rd b 0 8 / 64
  match s.lineRegion l with
  | none => (s, std rcInvalidAddress)
  | some (_, r, _) =>
    if (s.ctrLine l).isSome then (s, std rcInvalidInput)
    else if !ownerHas r.owner 15 then (s.denyEngine 15 (l * 64), std rcSuccess)
    else
      let a := s.orderedRead l 15
      (a.1.nsWrite l 15 a.2.data fullEn true, std rcSuccess)

/-- CLEAR_POISON: a full-line write of the given data, and the line leaves the poison list; a counter line is written through the counter engine
(07 R241; 13 R681; log 43). The write is one of requester NM, under the owner check; the line stays in the list where it is dropped (01 R35,
R37; log 99). -/
def clearPoison : Body := fun _ b s =>
  let l := rd b 0 8 / 64
  let d := bytesLine (b.drop 8)
  match s.lineRegion l with
  | none => (s, std rcInvalidAddress)
  | some (_, r, _) =>
    if !ownerHas r.owner 15 then (s.denyEngine 15 (l * 64), std rcSuccess)
    else
      let s1 := (if (s.ctrLine l).isSome then s else s.settle l true).serveWrite ⟨15, l * 64, .write d fullEn false⟩ (l * 64) d fullEn false
      ({ s1 with mb := { s1.mb with poison := s1.mb.poison.filter (fun x => x != l * 64) } }, std rcSuccess)

/-! ### The Command Effects Log (15 R560) -/

/-- The identifier of the Command Effects Log (log 14). -/
def celId : Bytes := [0x0D, 0xA9, 0xC0, 0xB5, 0xBF, 0x41, 0x4B, 0x78, 0x8F, 0x79, 0x96, 0xB1, 0x62, 0x3B, 0x3F, 0x17]

/-- The commands that the device supports (15 R528, R560). -/
def supported : List Nat :=
  [0x0001, 0x0002, 0x0005, 0x0100, 0x0101, 0x0102, 0x0103, 0x0200, 0x0201, 0x0202, 0x0300, 0x0301, 0x0400, 0x0401, 0x4000, 0x4200, 0x4201,
   0x4202, 0x4300, 0x4301, 0x4302] ++
  [0xC000, 0xC001, 0xC002, 0xC003, 0xC010, 0xC011, 0xC020, 0xC021, 0xC030, 0xC100, 0xC101, 0xC102, 0xC110, 0xC111, 0xC120, 0xC130, 0xC131,
   0xC200, 0xC201, 0xC210, 0xC211, 0xC212, 0xC220, 0xC221, 0xC222, 0xC223, 0xC224, 0xC230, 0xC231, 0xC240, 0xC241, 0xC242, 0xC243, 0xC250,
   0xC251, 0xC252] ++
  [0xC300, 0xC301, 0xC302, 0xC303, 0xC304, 0xC305, 0xC400, 0xC401, 0xC402, 0xC403, 0xC404, 0xC410, 0xC411, 0xC420, 0xC421, 0xC422, 0xC423,
   0xC430, 0xC500, 0xC501, 0xC502, 0xC510, 0xC520, 0xC600, 0xC601, 0xC602, 0xC700, 0xC701, 0xC710, 0xC720, 0xC721, 0xC722, 0xC730, 0xC800,
   0xC801, 0xC810]

/-- The log: an opcode and the effects that the standard assigns, for each command. -/
def effectsLog : Bytes :=
  (supported.map (fun op => le 2 op ++ [Config.standardByte op 0x100, Config.standardByte op 0x101])).flatten

def getLogs : Body := fun _ _ s => (s, std rcSuccess (le 2 1 ++ List.replicate 6 0 ++ celId ++ le 4 (4 * supported.length)))
def getLog : Body := fun p b s =>
  let off := rd b 16 4
  let len := rd b 20 4
  if b.take 16 ≠ celId ∨ 4 * supported.length < off + len then (s, std rcInvalidInput)
  else (s, std rcSuccess (((effectsLog.drop off).take len).take (pathMax p)))

/-! ### The commands -/

def execAbort (p : Path) (b : Bytes) (s : State) : Host.Outcome State Fault Refusal := .next (s.command p 0xC011 b abort)

def execIdentify (p : Path) (b : Bytes) (s : State) : Host.Outcome State Fault Refusal := .next (s.command p 0x0001 b identify)

def execBackgroundOperationStatus (p : Path) (b : Bytes) (s : State) : Host.Outcome State Fault Refusal :=
  .next (s.command p 0x0002 b opStatus)

def execRequestAbortBackgroundOperation (p : Path) (b : Bytes) (s : State) : Host.Outcome State Fault Refusal :=
  .next (s.command p 0x0005 b requestAbort)

def execGetEventRecords (p : Path) (b : Bytes) (s : State) : Host.Outcome State Fault Refusal := .next (s.command p 0x0100 b getEvents)

def execClearEventRecords (p : Path) (b : Bytes) (s : State) : Host.Outcome State Fault Refusal := .next (s.command p 0x0101 b clearEvents)

def execGetEventInterruptPolicy (p : Path) (b : Bytes) (s : State) : Host.Outcome State Fault Refusal :=
  .next (s.command p 0x0102 b getPolicy)

def execSetEventInterruptPolicy (p : Path) (b : Bytes) (s : State) : Host.Outcome State Fault Refusal :=
  .next (s.command p 0x0103 b setPolicy)

def execGetFwInfo (p : Path) (b : Bytes) (s : State) : Host.Outcome State Fault Refusal := .next (s.command p 0x0200 b getFwInfo)

def execTransferFw (p : Path) (b : Bytes) (s : State) : Host.Outcome State Fault Refusal := .next (s.command p 0x0201 b transferFw)

def execActivateFw (p : Path) (b : Bytes) (s : State) : Host.Outcome State Fault Refusal := .next (s.command p 0x0202 b activateFw)

def execGetTimestamp (p : Path) (b : Bytes) (s : State) : Host.Outcome State Fault Refusal := .next (s.command p 0x0300 b getTimestamp)

def execSetTimestamp (p : Path) (b : Bytes) (s : State) : Host.Outcome State Fault Refusal := .next (s.command p 0x0301 b setTimestamp)

def execGetSupportedLogs (p : Path) (b : Bytes) (s : State) : Host.Outcome State Fault Refusal := .next (s.command p 0x0400 b getLogs)

def execGetLog (p : Path) (b : Bytes) (s : State) : Host.Outcome State Fault Refusal := .next (s.command p 0x0401 b getLog)

def execIdentifyMemoryDevice (p : Path) (b : Bytes) (s : State) : Host.Outcome State Fault Refusal :=
  .next (s.command p 0x4000 b identifyMemory)

def execGetHealthInfo (p : Path) (b : Bytes) (s : State) : Host.Outcome State Fault Refusal := .next (s.command p 0x4200 b healthInfo)

def execGetAlertConfiguration (p : Path) (b : Bytes) (s : State) : Host.Outcome State Fault Refusal :=
  .next (s.command p 0x4201 b getAlerts)

def execSetAlertConfiguration (p : Path) (b : Bytes) (s : State) : Host.Outcome State Fault Refusal :=
  .next (s.command p 0x4202 b setAlerts)

def execGetPoisonList (p : Path) (b : Bytes) (s : State) : Host.Outcome State Fault Refusal :=
  .next (s.command p 0x4300 b getPoisonList)

def execInjectPoison (p : Path) (b : Bytes) (s : State) : Host.Outcome State Fault Refusal := .next ((s.command p 0x4301 b injectPoison).afterEngine 15)

def execClearPoison (p : Path) (b : Bytes) (s : State) : Host.Outcome State Fault Refusal := .next ((s.command p 0x4302 b clearPoison).afterEngine 15)

def execBackgroundOperationEnd (handle : Nat) (s : State) : Host.Outcome State Fault Refusal := .next (backgroundOperationEnd handle s)

end Sys2Proof.Machine
end

