-- ==== Sys2Proof/Machine/Commands.lean ====
section
/-! DEFINITION. Every command by its opcode, commands that were held, ring entries that arrive, firmware restarts, and the end of a wake
(07 R261; 14 R491, R520 to R522; 17 R609 to R613, R627). -/

namespace Sys2Proof.Machine
open Sys2Proof

/-- What each opcode does (15 R528, R560). -/
def bodies : List (Nat × Body) :=
  [(0x0001, identify), (0x0002, opStatus), (0x0005, requestAbort), (0x0100, getEvents), (0x0101, clearEvents), (0x0102, getPolicy),
   (0x0103, setPolicy), (0x0200, getFwInfo), (0x0201, transferFw), (0x0202, activateFw), (0x0300, getTimestamp), (0x0301, setTimestamp),
   (0x0400, getLogs), (0x0401, getLog), (0x4000, identifyMemory), (0x4200, healthInfo), (0x4201, getAlerts), (0x4202, setAlerts),
   (0x4300, getPoisonList), (0x4301, injectPoison), (0x4302, clearPoison)] ++
  [(0xC000, stageOpen), (0xC001, stageCommit), (0xC002, stageAbort), (0xC003, clampReportGet), (0xC010, bgQuery), (0xC011, abort),
   (0xC020, fcrRegister), (0xC021, fcrDeregister), (0xC030, mgmtDesignate), (0xC100, regionCfg), (0xC101, regionDelete),
   (0xC102, regionQuery), (0xC110, tierCfg), (0xC111, tierCtl), (0xC120, mscRowCfg), (0xC130, cdCtl), (0xC131, cdYardQuery)] ++
  [(0xC200, qeBufRegister), (0xC201, qeBufDeregister), (0xC210, qeFreeRing), (0xC211, qeFreeRingDereg), (0xC212, qeReclaim),
   (0xC220, qeEgressRing), (0xC221, qeEgressDereg), (0xC222, qeFlush), (0xC223, qeQuery), (0xC224, qeCtl), (0xC230, qeQueueCfg),
   (0xC231, qePolicerCfg), (0xC240, scNodeCfg), (0xC241, scPortCfg), (0xC242, scGateList), (0xC243, scQuery), (0xC250, tuCtl),
   (0xC251, tuSet), (0xC252, tuQuery)] ++
  [(0xC300, ceSetCfg), (0xC301, ceSetDelete), (0xC302, ceQeBind), (0xC303, ceClear), (0xC304, ceQuery), (0xC305, ceCtl),
   (0xC400, faultCfg), (0xC401, faultCtl), (0xC402, faultLogGet), (0xC403, faultClear), (0xC404, faultQuery), (0xC410, freezeCtl),
   (0xC411, thaw), (0xC420, bwReqCfg), (0xC421, bwGuarCfg), (0xC422, bwWindowCfg), (0xC423, bwQuery), (0xC430, hpPortCfg)] ++
  [(0xC500, pwEnter), (0xC501, pwWake), (0xC502, pwQuery), (0xC510, nsWays), (0xC520, mcSpeed), (0xC600, pmCfg), (0xC601, pmDumpCfg),
   (0xC602, pmRead), (0xC700, rangeCmd 0xC700), (0xC701, rangeCmd 0xC701), (0xC710, rekeyStart), (0xC720, scrubCtl), (0xC721, pprCtl),
   (0xC722, fuseBurn), (0xC730, mcCtl), (0xC800, diagCtrlRead), (0xC801, diagCtrlWrite), (0xC810, cdGranuleRead)]

/-- What an opcode does. -/
def bodyOf (op : Nat) : Option Body := (bodies.find? (fun e => e.1 == op)).map (fun e => e.2)

/-- A command of any opcode arrives (15 R561). -/
def State.receive (s : State) (p : Path) (op : Nat) (b : Bytes) : State :=
  match bodyOf op with
  | some body => s.command p op b body
  | none => s.unsupported p op b

/-! ### Commands that were held (14 R521; 17 R609, R610) -/

/-- A held command executes, its arrival counted already; it is held again where it still has to wait. -/
def State.release (s : State) (x : HeldCmd) : State :=
  match s.arrival x.path x.op with
  | .lost => s
  | .hold => s.holdCmd x.path x.op x.b
  | .wake c => (s.beginWake c).holdCmd x.path x.op x.b
  | .wakeRun c => ((s.beginWake c)).holdCmd x.path x.op x.b
  | .run =>
    match bodyOf x.op, cmdInfo x.op with
    | some body, some i => s.execute i x.path x.op x.b body
    | _, _ => ((s.leaveIdle).count 0 0).complete x.path (std rcUnsupported) true

/-- Held commands execute in their order of arrival (14 R521). -/
def State.releaseCmds (s : State) : State :=
  s.mb.heldCmds.foldl (fun s x => s.release x) { s with mb := { s.mb with heldCmds := [] } }

/-- WAKE_DONE: the wake ends, and the commands it held execute (17 R611, R613). -/
def wakeDone (bad failed : List Nat) (s : State) : State :=
  let s1 := s.wakeUp bad failed
  if s.pw.state = .waking ∧ s1.pw.state = .run then s1.releaseCmds else s1

/-! ### Ring entries (14 R490, R491) -/

/-- FCR_ENTRY_FETCHED: the oldest entry asked for arrives, and its command starts (log 25). -/
def fcrEntryFetched (f : Nat) (entry : Bytes) (s : State) : State :=
  match (s.fnAt f).fcr with
  | none => s
  | some q =>
    if q.fetching = 0 ∨ (s.fnAt f).fcrHalted then s
    else
      let e := entry ++ List.replicate (64 - entry.length) 0
      let k := (s.fnAt f).fcrCons
      let tag := rd e 2 2
      let len := min 56 (rd e 4 1 % 64)
      let s1 := (s.modFn f (fun h => { h with
        fcrCons := (h.fcrCons + 1) % 65536
        fcr := h.fcr.map (fun q => { q with fetching := q.fetching - 1 }) })).count 1 1
      ((s1.receive (.ring f k tag) (rd e 0 2) ((e.drop 8).take len))).fetchRing f

/-! ### Firmware restarts (07 R261; 14 R520 to R522; 16 R570, R579) -/

/-- Naray is back: held commands execute, and a walk that waited goes on (16 R574). -/
def State.narayBack (s : State) (src : Nat) : State :=
  (((s.closeShadow 0 src).actionEnds 0).report src s.mb.slot).releaseCmds

/-- The running Activate FW. -/
def State.activation (s : State) : Option BgOp :=
  s.bgOf (fun w => match w with
    | .activateFw => true
    | _ => false)

/-- ACTIVATION_DONE: the new image is in service: anti-rollback bits are burned and the boot-control record is written (14 R521, R522; 17
R627). -/
def activationDone (s : State) : State :=
  if !s.mb.activating then s
  else
    let slot := (s.activation.map (fun o => o.obj)).getD s.mb.slot
    let svn := ((s.mb.slots[slot]?).map (fun x => x.svn)).getD 0
    let s1 : State := { s with
      fu := { s.fu with svn := max s.fu.svn svn }
      mb := { s.mb with
        activating := false, reloading := false, actFailed := false, slot := slot, bootSlot := slot, actPath := none
        activations := satAdd 65535 s.mb.activations 1 } }
    let s2 := s1.emit (.flash 0x2010000)
    let s3 := match s2.activation with
      | some o => (s2.modOp o.handle (fun o => { o with done := o.total })).endOp o.handle rcSuccess
      | none => s2
    s3.narayBack nmActivated

/-- ACTIVATION_TIMEOUT: 400 ms have passed; the boot ROM restarts Naray from the slot that was active (14 R522). -/
def activationTimeout (s : State) : State :=
  if !s.mb.activating then s
  else
    let s0 := s.advance (s.mb.actAt + 400000000)
    let s1 : State := { s0 with mb := { s0.mb with activating := false, reloading := false, actFailed := true, actPath := none } }
    let s2 := match s1.activation with
      | some o => s1.endOp o.handle rcFwRolledBack
      | none => s1
    s2.narayBack nmActivationFailed

/-- NM_FETCH_UE: the core traps and its code is loaded again; commands queue meanwhile (07 R261). -/
def nmFetchError (s : State) : State :=
  if s.mbReady && s.awake && s.narayUp then
    ({ s with mb := { s.mb with reloading := true } } : State).report nmFetchUe 0
  else s

/-- NM_RELOAD_DONE: the code is verified and firmware resumes, or firmware restarts under hitless activation (07 R261). -/
def nmReloadDone (ok : Bool) (s : State) : State :=
  if !s.mb.reloading || s.mb.activating then s
  else if ok then
    ((({ s with mb := { s.mb with reloading := false } } : State).closeShadow 0 nmFetchUe).actionEnds 0).releaseCmds
  else ({ s with mb := { s.mb with reloading := false } } : State).startActivation none

/-! ### The commands -/

def execFcrEntryFetched (fn : Nat) (entry : Bytes) (s : State) : Host.Outcome State Fault Refusal := .next (fcrEntryFetched fn entry s)

def execActivationDone (s : State) : Host.Outcome State Fault Refusal := .next (activationDone s)

def execActivationTimeout (s : State) : Host.Outcome State Fault Refusal := .next (activationTimeout s)

def execNmFetchUe (s : State) : Host.Outcome State Fault Refusal := .next (nmFetchError s)

def execNmReloadDone (ok : Bool) (s : State) : Host.Outcome State Fault Refusal := .next (nmReloadDone ok s)

def execWakeDone (bad failed : List Nat) (s : State) : Host.Outcome State Fault Refusal := .next (wakeDone bad failed s)

end Sys2Proof.Machine
end

