-- ==== Sys2Proof/Machine/Engines.lean ====
section
/-! DEFINITION. The commands in which an internal requester accesses memory: the requester takes an in-flight entry, and the accesses that the
router ordered behind it enter once it is done (01 R45, R46, R50 to R52). -/

namespace Sys2Proof.Machine
open Sys2Proof

/-- An access of an internal requester is done: the accesses that the router ordered behind it enter, and then what hosts kept for want of
credits (01 R45, R46, R48; log 8). -/
def State.engineDone (s : State) (who : Nat) : State := (s.afterEngine who).enterKept

/-- An access of an internal requester that holds its in-flight entries (01 R45, R46). -/
def State.engineRuns (s : State) (who : Nat) (g : State → State) : State := (g s).engineDone who

/-- An access of an internal requester: without an in-flight entry it waits, so nothing changes (01 R52). -/
def State.engine (s : State) (who : Nat) (g : State → State) : State := if s.entryFree who then s.engineRuns who g else s

def execPatrolRead (channel : Nat) (env : ReadEnv) (halt : Bool) (s : State) : Host.Outcome State Fault Refusal :=
  .next (s.engine 11 (patrolRead channel env halt))

def execDemandScrub (read : DemandRead) (s : State) : Host.Outcome State Fault Refusal :=
  .next (s.engine 11 (demandScrub read.env read.halt))

def execResilverLine (pass : ResilverStep) (s : State) : Host.Outcome State Fault Refusal :=
  .next (s.engine 11 (resilverLine pass.channel pass.halt))

def execRekeyStep (halt : Bool) (s : State) : Host.Outcome State Fault Refusal := .next (s.engine 12 (rekeyStep halt))

def execFillBlock (halt : Bool) (s : State) : Host.Outcome State Fault Refusal := .next (s.engine 13 (fillBlock halt))

def execMuckVisit (halt : Bool) (s : State) : Host.Outcome State Fault Refusal := .next (s.engine 14 (muckVisit halt))

def execPromotionSwitch (region page : Nat) (s : State) : Host.Outcome State Fault Refusal := .next (s.engine 10 (promotionSwitch region page))

def execDemotionSwitch (region page : Nat) (s : State) : Host.Outcome State Fault Refusal := .next (s.engine 10 (demotionSwitch region page))

def execHeadLineReturn (queue : Nat) (s : State) : Host.Outcome State Fault Refusal := .next (s.engine 8 (headLineReturn queue))

/-- DEQUEUE_PACKET_READ: the packet took its entries as it was selected (01 R50 to R52). -/
def execDequeuePacketRead (queue : Nat) (halt : Option Nat) (s : State) : Host.Outcome State Fault Refusal :=
  .next (s.engineRuns 8 (dequeuePacketRead queue halt))

def execEnqueueDescriptor (fn : Nat) (halt : Option Nat) (s : State) : Host.Outcome State Fault Refusal :=
  .next ((s.engine 8 (enqueueDescriptor fn halt)).takeStalled (portOf fn))

def execUpdateRecord (fn : Nat) (halt : Option Nat) (s : State) : Host.Outcome State Fault Refusal :=
  .next ((s.engine 9 (updateRecord fn halt)).takeStalled (portOf fn))

def execQueueEventCount (s : State) : Host.Outcome State Fault Refusal := .next (s.engine 9 queueEventCount)

def execCeRecomputeStep (s : State) : Host.Outcome State Fault Refusal := .next (s.engine 9 ceRecomputeStep)

end Sys2Proof.Machine
end

