-- ==== Sys2Proof/Machine/HostRegs.lean ====
section
/-! DEFINITION. What a host reads of a function: configuration space, BAR0 and BAR2 (00 R3, R4, R13; 02 R53, R58, R63 to R67, R70, R73 to R78;
17 R629). A read has no effect on the state but where a command of its own says so, so these are functions of the state. The layouts inside
the ranges of 02 R65, which are those of CXL 3.1, are PRESUMED (log 14). -/

namespace Sys2Proof.Machine
open Sys2Proof

/-! ### Configuration space (00 R3, R4; 02 R53, R58, R63, R64) -/

/-- The capability structures of a function, and no others (02 R63). -/
inductive Capability where
  | pciExpress | powerManagement | msix | aer | deviceSerialNumber | dataLinkFeature | physical16 | physical32 | physical64 | laneMargining
  | ptm | doe | ide | dvsecCxlDevices | dvsecRegisterLocator | dvsecFlexBusPort
  deriving DecidableEq, Repr

/-- All of them (02 R63). -/
def capabilities : List Capability :=
  [.pciExpress, .powerManagement, .msix, .aer, .deviceSerialNumber, .dataLinkFeature, .physical16, .physical32, .physical64, .laneMargining,
    .ptm, .doe, .ide, .dvsecCxlDevices, .dvsecRegisterLocator, .dvsecFlexBusPort]

/-- What the structures advertise of the table of 02 R53. -/
inductive Feature where
  | cxlIo | cxlMem | cxlCache | backInvalidate | multiLogicalDevice | persistent | flit256 | latencyOptimisedFlit | flit68 | rate64 | rate32 | rate16
  | tenBitTagRequester | tenBitTagCompleter | msixInterrupts | msiInterrupts | intxInterrupts | aerReporting | dpc | ptmRequester | ptmResponder
  | ptmRoot | aspmL1 | l0s | l0p | l1Substates | cxlIde | linkIde | selectiveIde | ideSkid | tdisp | srIov | ats | pri | pasid
  | relaxedOrdering | noSnoop | idOrdering | tph | commonClock | sris | srns
  deriving DecidableEq, Repr

/-- Whether a feature is supported and advertised (02 R53, R63). -/
def advertised : Feature → Bool
  | .cxlIo | .cxlMem | .backInvalidate | .flit256 | .latencyOptimisedFlit | .rate64 | .rate32 | .rate16 | .tenBitTagRequester
  | .tenBitTagCompleter | .msixInterrupts | .aerReporting | .ptmRequester | .aspmL1 | .cxlIde | .linkIde | .commonClock | .sris => true
  | .cxlCache | .multiLogicalDevice | .persistent | .flit68 | .msiInterrupts | .intxInterrupts | .dpc | .ptmResponder | .ptmRoot | .l0s | .l0p
  | .l1Substates | .selectiveIde | .ideSkid | .tdisp | .srIov | .ats | .pri | .pasid | .relaxedOrdering | .noSnoop | .idOrdering | .tph
  | .srns => false

/-- The registers of a function's configuration space that hold no state. -/
inductive CfgField where
  | vendorId | deviceId | revisionId | classCode | subsystemVendorId | subsystemId | serialNumber | functionNumber | linkSpeed | linkWidth
  deriving DecidableEq, Repr

/-- The value of an identity or link field (00 R3, R4; 02 R53, R58). -/
def State.cfgField (s : State) (f : Nat) : CfgField → Nat
  | .vendorId => 0x1F6B
  | .deviceId => if Config.gradeE then 0x9641 else 0x9640
  | .revisionId => 0xB1
  | .classCode => 0x050210
  | .subsystemVendorId => (Config.boardSubsystem.map (fun x => x.1.toNat)).getD 0x1F6B
  | .subsystemId => (Config.boardSubsystem.map (fun x => x.2.toNat)).getD (if Config.gradeE then 0x9641 else 0x9640)
  | .serialNumber => Config.serialNumber.toNat
  | .functionNumber => 0
  | .linkSpeed => (s.fnAt f).gts
  | .linkWidth => (s.fnAt f).width

/-- The position of a size of 128 · 2^k bytes. -/
def sizeCode128 (v : Nat) : Nat := Nat.log2 (v / 128)

/-- The bits of a decoder control register (PRESUMED, log 14): interleave granularity and ways, Lock On Commit, Commit, Committed, Error Not
Committed, and back-invalidate. -/
def Decoder.control (d : Decoder) : Nat :=
  let ways := if d.cfg.ways = 3 then 8 else if d.cfg.ways = 6 then 9 else if d.cfg.ways = 12 then 10 else Nat.log2 d.cfg.ways
  Nat.log2 (d.cfg.gran / 256) + ways * 2 ^ 4 + b2n d.cfg.lock * 2 ^ 8 + b2n d.committed * 2 ^ 9 + b2n d.committed * 2 ^ 10 +
    b2n d.err * 2 ^ 11 + b2n d.cfg.bi * 2 ^ 13

/-- A register that REGISTER_WRITE writes, as it is read (02 R59, R63, R64, R78). -/
def State.cfgRead (s : State) (f : Nat) : CfgReg → Nat
  | .maxPayload => sizeCode128 (s.fnAt f).mps
  | .maxReadRequest => sizeCode128 (s.fnAt f).mrrs
  | .aspmL1Enable => b2n (s.fnAt f).aspmL1
  | .ptmEnable => b2n (s.fnAt f).ptmEn
  | .functionMask => b2n (s.fnAt f).fnMask
  | .vectorMask v => b2n ((s.fnAt f).msixMask.getLsbD v)
  | .vectorWord v k => if k < 3 then sget 0 (s.fnAt f).msixTab (4 * v + k) else 0
  | .command => (s.fnAt f).command + b2n (s.fnAt f).bme * 4
  | .powerState => b2n (s.fnAt f).d3 * 3
  | .bar k => if 4 ≤ k then 0
      else ((s.fnAt f).bars.getD (k / 2) 0) / 2 ^ (32 * (k % 2)) % 2 ^ 32 + (if k % 2 = 0 then 4 else 0)
  | .aerCorrectable => (s.fnAt f).aerCor
  | .aerUncorrectable => (s.fnAt f).aerUnc
  | .decoderControl i => ((s.fnAt f).decoders.getD i Decoder.reset).control

/-! ### The doorbell page (02 R73 to R77) -/

/-- FCR_STATE (02 R76). -/
def State.fcrStateReg (s : State) (f : Nat) : Nat :=
  let h := s.fnAt f
  h.fcrCons + b2n h.ringOn * 2 ^ 16 + b2n h.fcrHalted * 2 ^ 17 + b2n (s.fcrHeld f) * 2 ^ 18

/-- A 4 B register of the doorbell page; a consumer register of a ring that is not registered reads 0, and so do FCR_DOORBELL and reserved
offsets (00 R13, R14; 02 R73 to R77). -/
def State.pageWord (s : State) (f off : Nat) : Nat :=
  if off = 4 then s.fcrStateReg f
  else if off = 0x10 then (s.fnAt f).intCause.toNat
  else if off = 0x14 then (s.fnAt f).intEnable.toNat
  else if 0x100 ≤ off ∧ off < 0x140 then ((s.freeRing f ((off - 0x100) / 4)).map (fun q => q.cons % 65536)).getD 0
  else if 0x200 ≤ off ∧ off < 0x300 then ((s.egressRing f ((off - 0x200) / 4)).map (fun q => q.cons % 65536)).getD 0
  else 0

/-! ### BAR0 and BAR2 (02 R64 to R70, R78) -/

/-- The registers of BAR0 below 0x0020_0000: offset, bytes, value. The capabilities array, the event status, the memory device status, the two
mailboxes with their payload size of 64 KiB (02 R66), and the HDM decoders (log 14). -/
def State.barRegs (s : State) (f : Nat) : List (Nat × Nat × Nat) :=
  let h := s.fnAt f
  let cap (i id off len : Nat) : Nat × Nat × Nat := (16 + 16 * i, 16, id + 2 ^ 16 + off * 2 ^ 32 + len * 2 ^ 64)
  let events := bitsOf ((List.range 4).filter (fun k => !(s.mb.evlog.getD k []).isEmpty))
  let box (k base : Nat) : List (Nat × Nat × Nat) :=
    let m := h.mbox.getD k (0, [])
    [(base, 4, 16), (base + 0x10, 8, m.1 * 2 ^ 32), (base + 0x20, 65536, unle (m.2.take 65536))]
  [(0, 8, 2 ^ 16 + 2 ^ 24 + 4 * 2 ^ 32), cap 0 1 0x100 8, cap 1 2 0x10000 0x10020, cap 2 3 0x30000 0x10020, cap 3 0x4000 0x1000 8,
    (0x100, 8, events), (0x1000, 8, b2n s.mediaReady * 4 + b2n s.mbReady * 16)] ++ box 0 0x10000 ++ box 1 0x30000 ++
    [(0x101200, 4, 4 + 2 ^ 12)] ++
    ((List.range 8).map (fun i =>
      let d := h.decoders.getD i Decoder.reset
      [(0x101210 + 32 * i, 8, d.cfg.base), (0x101218 + 32 * i, 8, d.cfg.size), (0x101220 + 32 * i, 4, d.control),
        (0x101224 + 32 * i, 8, d.cfg.skip)])).flatten

/-- A byte-addressed value of a register list. -/
def regValue (regs : List (Nat × Nat × Nat)) (off size : Nat) : Nat :=
  match regs.find? (fun r => decide (r.1 ≤ off ∧ off < r.1 + r.2.1)) with
  | some r => r.2.2 / 2 ^ (8 * (off - r.1)) % 2 ^ (8 * size)
  | none => 0

/-- A read in BAR0: a register range or the doorbell page answers an aligned read of 4 B or 8 B, any other read of them returns 0, and so does
every read of a window or of a reserved range (00 R13; 02 R65, R67, R70). -/
def State.bar0Read (s : State) (f off size : Nat) : Nat :=
  if (size ≠ 4 ∧ size ≠ 8) ∨ off % size ≠ 0 then 0
  else if off ≤ 0x1FFFFF then regValue (s.barRegs f) off size
  else if 0x6000000 ≤ off ∧ off ≤ 0x600FFFF then
    let o := off - 0x6000000
    s.pageWord f o + (if size = 8 then s.pageWord f (o + 4) * 2 ^ 32 else 0)
  else 0

/-- A 4 B word of BAR2: the MSI-X table, with the mask bit in the last word of an entry, and the pending bit array; the rest is reserved (02
R78). -/
def State.bar2Read (s : State) (f off : Nat) : Nat :=
  if off < 4096 then
    if off / 4 % 4 = 3 then b2n ((s.fnAt f).msixMask.getLsbD (off / 16)) else sget 0 (s.fnAt f).msixTab (off / 4)
  else if off < 4096 + 32 then (s.fnAt f).pba.toNat / 2 ^ (8 * (off - 4096)) % 2 ^ 32
  else 0

end Sys2Proof.Machine
end

