-- ==== Sys2Proof/Machine/Dispatch.lean ====
section
/-! DEFINITION. One arm for each command: its meaning on everything but the queue. -/

namespace Sys2Proof.Machine
open Sys2Proof

/-- The effect of a command (log 1). -/
def exec (i : Instr) (s : State) : Host.Outcome State Fault Refusal :=
  match i with
  | .stageOpen p b => Sys2Proof.Machine.execStageOpen p b s
  | .stageCommit p b => Sys2Proof.Machine.execStageCommit p b s
  | .stageAbort p b => Sys2Proof.Machine.execStageAbort p b s
  | .clampReportGet p b => Sys2Proof.Machine.execClampReportGet p b s
  | .bgQuery p b => Sys2Proof.Machine.execBgQuery p b s
  | .abort p b => Sys2Proof.Machine.execAbort p b s
  | .fcrRegister p b => Sys2Proof.Machine.execFcrRegister p b s
  | .fcrDeregister p b => Sys2Proof.Machine.execFcrDeregister p b s
  | .mgmtDesignate p b => Sys2Proof.Machine.execMgmtDesignate p b s
  | .regionCfg p b => Sys2Proof.Machine.execRegionCfg p b s
  | .regionDelete p b => Sys2Proof.Machine.execRegionDelete p b s
  | .regionQuery p b => Sys2Proof.Machine.execRegionQuery p b s
  | .tierCfg p b => Sys2Proof.Machine.execTierCfg p b s
  | .tierCtl p b => Sys2Proof.Machine.execTierCtl p b s
  | .mscRowCfg p b => Sys2Proof.Machine.execMscRowCfg p b s
  | .cdCtl p b => Sys2Proof.Machine.execCdCtl p b s
  | .cdYardQuery p b => Sys2Proof.Machine.execCdYardQuery p b s
  | .qeBufRegister p b => Sys2Proof.Machine.execQeBufRegister p b s
  | .qeBufDeregister p b => Sys2Proof.Machine.execQeBufDeregister p b s
  | .qeFreeRing p b => Sys2Proof.Machine.execQeFreeRing p b s
  | .qeFreeRingDereg p b => Sys2Proof.Machine.execQeFreeRingDereg p b s
  | .qeReclaim p b => Sys2Proof.Machine.execQeReclaim p b s
  | .qeEgressRing p b => Sys2Proof.Machine.execQeEgressRing p b s
  | .qeEgressDereg p b => Sys2Proof.Machine.execQeEgressDereg p b s
  | .qeFlush p b => Sys2Proof.Machine.execQeFlush p b s
  | .qeQuery p b => Sys2Proof.Machine.execQeQuery p b s
  | .qeCtl p b => Sys2Proof.Machine.execQeCtl p b s
  | .qeQueueCfg p b => Sys2Proof.Machine.execQeQueueCfg p b s
  | .qePolicerCfg p b => Sys2Proof.Machine.execQePolicerCfg p b s
  | .scNodeCfg p b => Sys2Proof.Machine.execScNodeCfg p b s
  | .scPortCfg p b => Sys2Proof.Machine.execScPortCfg p b s
  | .scGateList p b => Sys2Proof.Machine.execScGateList p b s
  | .scQuery p b => Sys2Proof.Machine.execScQuery p b s
  | .tuCtl p b => Sys2Proof.Machine.execTuCtl p b s
  | .tuSet p b => Sys2Proof.Machine.execTuSet p b s
  | .tuQuery p b => Sys2Proof.Machine.execTuQuery p b s
  | .ceSetCfg p b => Sys2Proof.Machine.execCeSetCfg p b s
  | .ceSetDelete p b => Sys2Proof.Machine.execCeSetDelete p b s
  | .ceQeBind p b => Sys2Proof.Machine.execCeQeBind p b s
  | .ceClear p b => Sys2Proof.Machine.execCeClear p b s
  | .ceQuery p b => Sys2Proof.Machine.execCeQuery p b s
  | .ceCtl p b => Sys2Proof.Machine.execCeCtl p b s
  | .faultCfg p b => Sys2Proof.Machine.execFaultCfg p b s
  | .faultCtl p b => Sys2Proof.Machine.execFaultCtl p b s
  | .faultLogGet p b => Sys2Proof.Machine.execFaultLogGet p b s
  | .faultClear p b => Sys2Proof.Machine.execFaultClear p b s
  | .faultQuery p b => Sys2Proof.Machine.execFaultQuery p b s
  | .freezeCtl p b => Sys2Proof.Machine.execFreezeCtl p b s
  | .thaw p b => Sys2Proof.Machine.execThaw p b s
  | .bwReqCfg p b => Sys2Proof.Machine.execBwReqCfg p b s
  | .bwGuarCfg p b => Sys2Proof.Machine.execBwGuarCfg p b s
  | .bwWindowCfg p b => Sys2Proof.Machine.execBwWindowCfg p b s
  | .bwQuery p b => Sys2Proof.Machine.execBwQuery p b s
  | .hpPortCfg p b => Sys2Proof.Machine.execHpPortCfg p b s
  | .pwEnter p b => Sys2Proof.Machine.execPwEnter p b s
  | .pwWake p b => Sys2Proof.Machine.execPwWake p b s
  | .pwQuery p b => Sys2Proof.Machine.execPwQuery p b s
  | .nsWays p b => Sys2Proof.Machine.execNsWays p b s
  | .mcSpeed p b => Sys2Proof.Machine.execMcSpeed p b s
  | .pmCfg p b => Sys2Proof.Machine.execPmCfg p b s
  | .pmDumpCfg p b => Sys2Proof.Machine.execPmDumpCfg p b s
  | .pmRead p b => Sys2Proof.Machine.execPmRead p b s
  | .zeroRange p b => Sys2Proof.Machine.execZeroRange p b s
  | .nsMaint p b => Sys2Proof.Machine.execNsMaint p b s
  | .rekeyStart p b => Sys2Proof.Machine.execRekeyStart p b s
  | .scrubCtl p b => Sys2Proof.Machine.execScrubCtl p b s
  | .pprCtl p b => Sys2Proof.Machine.execPprCtl p b s
  | .fuseBurn p b => Sys2Proof.Machine.execFuseBurn p b s
  | .mcCtl p b => Sys2Proof.Machine.execMcCtl p b s
  | .diagCtrlRead p b => Sys2Proof.Machine.execDiagCtrlRead p b s
  | .diagCtrlWrite p b => Sys2Proof.Machine.execDiagCtrlWrite p b s
  | .cdGranuleRead p b => Sys2Proof.Machine.execCdGranuleRead p b s
  | .unassignedVendorOpcode p opcode b => Sys2Proof.Machine.execUnassignedVendorOpcode p opcode b s
  | .unsupportedCxlCommand p opcode b => Sys2Proof.Machine.execUnsupportedCxlCommand p opcode b s
  | .identify p b => Sys2Proof.Machine.execIdentify p b s
  | .backgroundOperationStatus p b => Sys2Proof.Machine.execBackgroundOperationStatus p b s
  | .requestAbortBackgroundOperation p b => Sys2Proof.Machine.execRequestAbortBackgroundOperation p b s
  | .getEventRecords p b => Sys2Proof.Machine.execGetEventRecords p b s
  | .clearEventRecords p b => Sys2Proof.Machine.execClearEventRecords p b s
  | .getEventInterruptPolicy p b => Sys2Proof.Machine.execGetEventInterruptPolicy p b s
  | .setEventInterruptPolicy p b => Sys2Proof.Machine.execSetEventInterruptPolicy p b s
  | .getFwInfo p b => Sys2Proof.Machine.execGetFwInfo p b s
  | .transferFw p b => Sys2Proof.Machine.execTransferFw p b s
  | .activateFw p b => Sys2Proof.Machine.execActivateFw p b s
  | .getTimestamp p b => Sys2Proof.Machine.execGetTimestamp p b s
  | .setTimestamp p b => Sys2Proof.Machine.execSetTimestamp p b s
  | .getSupportedLogs p b => Sys2Proof.Machine.execGetSupportedLogs p b s
  | .getLog p b => Sys2Proof.Machine.execGetLog p b s
  | .identifyMemoryDevice p b => Sys2Proof.Machine.execIdentifyMemoryDevice p b s
  | .getHealthInfo p b => Sys2Proof.Machine.execGetHealthInfo p b s
  | .getAlertConfiguration p b => Sys2Proof.Machine.execGetAlertConfiguration p b s
  | .setAlertConfiguration p b => Sys2Proof.Machine.execSetAlertConfiguration p b s
  | .getPoisonList p b => Sys2Proof.Machine.execGetPoisonList p b s
  | .injectPoison p b => Sys2Proof.Machine.execInjectPoison p b s
  | .clearPoison p b => Sys2Proof.Machine.execClearPoison p b s
  | .backgroundOperationEnd handle => Sys2Proof.Machine.execBackgroundOperationEnd handle s
  | .fcrDoorbellWrite fn value => Sys2Proof.Machine.execFcrDoorbellWrite fn value s
  | .fcrEntryFetched fn entry => Sys2Proof.Machine.execFcrEntryFetched fn entry s
  | .fcrFetchError fn => Sys2Proof.Machine.execFcrFetchError fn s
  | .freeRingConsWrite fn ring value => Sys2Proof.Machine.execFreeRingConsWrite fn ring value s
  | .egressRingConsWrite fn ring value => Sys2Proof.Machine.execEgressRingConsWrite fn ring value s
  | .intCauseWrite fn value => Sys2Proof.Machine.execIntCauseWrite fn value s
  | .intEnableWrite fn value => Sys2Proof.Machine.execIntEnableWrite fn value s
  | .msixVectorUnmask fn vector => Sys2Proof.Machine.execMsixVectorUnmask fn vector s
  | .busMasterEnableSet fn => Sys2Proof.Machine.execBusMasterEnableSet fn s
  | .busMasterEnableClear fn => Sys2Proof.Machine.execBusMasterEnableClear fn s
  | .hdmDecoderCommit fn index d => Sys2Proof.Machine.execHdmDecoderCommit fn index d s
  | .scWheelLagRead => Sys2Proof.Machine.execScWheelLagRead s
  | .mbLatFRead => Sys2Proof.Machine.execMbLatFRead s
  | .mbLatSRead => Sys2Proof.Machine.execMbLatSRead s
  | .tuTimeSRead => Sys2Proof.Machine.execTuTimeSRead s
  | .registerWrite target size value => Sys2Proof.Machine.execRegisterWrite target size value s
  | .enqueueWindowWrite fn window offset data allEnabled poisoned => Sys2Proof.Machine.execEnqueueWindowWrite fn window offset data allEnabled poisoned s
  | .counterUpdateWindowWrite fn window offset data allEnabled poisoned => Sys2Proof.Machine.execCounterUpdateWindowWrite fn window offset data allEnabled poisoned s
  | .enqueueDescriptor fn halt => Sys2Proof.Machine.execEnqueueDescriptor fn halt s
  | .updateRecord fn halt => Sys2Proof.Machine.execUpdateRecord fn halt s
  | .queueEventCount => Sys2Proof.Machine.execQueueEventCount s
  | .backInvalidateResponse fn line => Sys2Proof.Machine.execBackInvalidateResponse fn line s
  | .cxlmemRead fn hpa noCopy tie => Sys2Proof.Machine.execCxlmemRead fn hpa noCopy tie s
  | .cxlmemWrite fn hpa data enables poisoned tie => Sys2Proof.Machine.execCxlmemWrite fn hpa data enables poisoned tie s
  | .dramReadReturn line env => Sys2Proof.Machine.execDramReadReturn line env s
  | .addressErrorReread line env => Sys2Proof.Machine.execAddressErrorReread line env s
  | .lineRepair line env => Sys2Proof.Machine.execLineRepair line env s
  | .specVerifyResult line committed => Sys2Proof.Machine.execSpecVerifyResult line committed s
  | .writebackAck line => Sys2Proof.Machine.execWritebackAck line s
  | .evictionOfferAnswer line => Sys2Proof.Machine.execEvictionOfferAnswer line s
  | .nsTagScrub quadrant bad => Sys2Proof.Machine.execNsTagScrub quadrant bad s
  | .nsWaysDrainDone => Sys2Proof.Machine.execNsWaysDrainDone s
  | .nsWaysEnableDone => Sys2Proof.Machine.execNsWaysEnableDone s
  | .heatSweep region => Sys2Proof.Machine.execHeatSweep region s
  | .promotionSwitch region page => Sys2Proof.Machine.execPromotionSwitch region page s
  | .demotionSwitch region page => Sys2Proof.Machine.execDemotionSwitch region page s
  | .muckVisit halt => Sys2Proof.Machine.execMuckVisit halt s
  | .patrolRead channel env halt => Sys2Proof.Machine.execPatrolRead channel env halt s
  | .demandScrub read => Sys2Proof.Machine.execDemandScrub read s
  | .patrolLate channel => Sys2Proof.Machine.execPatrolLate channel s
  | .rowErrorWindowEnd row => Sys2Proof.Machine.execRowErrorWindowEnd row s
  | .softPpr row => Sys2Proof.Machine.execSoftPpr row s
  | .pageRetirement channel page => Sys2Proof.Machine.execPageRetirement channel page s
  | .hardPprDone channel => Sys2Proof.Machine.execHardPprDone channel s
  | .resilverLine pass => Sys2Proof.Machine.execResilverLine pass s
  | .fillBlock halt => Sys2Proof.Machine.execFillBlock halt s
  | .fillOnTouchWrite fn hpa data enables poisoned => Sys2Proof.Machine.execFillOnTouchWrite fn hpa data enables poisoned s
  | .rekeyStep halt => Sys2Proof.Machine.execRekeyStep halt s
  | .keyCheck bad => Sys2Proof.Machine.execKeyCheck bad s
  | .refreshIssue channel sub rank bank => Sys2Proof.Machine.execRefreshIssue channel sub rank bank s
  | .refreshForced channel sub rank bank => Sys2Proof.Machine.execRefreshForced channel sub rank bank s
  | .rfmIssue channel sub rank group bank => Sys2Proof.Machine.execRfmIssue channel sub rank group bank s
  | .subchannelIssue channel sub ready => Sys2Proof.Machine.execSubchannelIssue channel sub ready s
  | .agePromotion channel sub id => Sys2Proof.Machine.execAgePromotion channel sub id s
  | .alertNAssert channel sub writeCrc => Sys2Proof.Machine.execAlertNAssert channel sub writeCrc s
  | .alertEpisodeEnd channel sub => Sys2Proof.Machine.execAlertEpisodeEnd channel sub s
  | .dqsTracking channel rank drift => Sys2Proof.Machine.execDqsTracking channel rank drift s
  | .zqCalibration channel rank => Sys2Proof.Machine.execZqCalibration channel rank s
  | .dimmTempRead channel temps => Sys2Proof.Machine.execDimmTempRead channel temps s
  | .retrainingStart => Sys2Proof.Machine.execRetrainingStart s
  | .retrainingDone ok => Sys2Proof.Machine.execRetrainingDone ok s
  | .fencedChannelRetrainDone channel ok => Sys2Proof.Machine.execFencedChannelRetrainDone channel ok s
  | .speedChangeStepDone => Sys2Proof.Machine.execSpeedChangeStepDone s
  | .speedChangeWaitTimeout => Sys2Proof.Machine.execSpeedChangeWaitTimeout s
  | .initialTrainingDone failed => Sys2Proof.Machine.execInitialTrainingDone failed s
  | .budgetWindowEnd => Sys2Proof.Machine.execBudgetWindowEnd s
  | .bwStampUpdate => Sys2Proof.Machine.execBwStampUpdate s
  | .freeRingRefill halt => Sys2Proof.Machine.execFreeRingRefill halt s
  | .headLineReturn queue => Sys2Proof.Machine.execHeadLineReturn queue s
  | .schedulerDecision => Sys2Proof.Machine.execSchedulerDecision s
  | .dequeuePacketRead queue halt => Sys2Proof.Machine.execDequeuePacketRead queue halt s
  | .packetPush queue => Sys2Proof.Machine.execPacketPush queue s
  | .ringModerationTimer fn ring => Sys2Proof.Machine.execRingModerationTimer fn ring s
  | .drainLimitExpiry => Sys2Proof.Machine.execDrainLimitExpiry s
  | .wheelSlotRelease => Sys2Proof.Machine.execWheelSlotRelease s
  | .wheelCascade => Sys2Proof.Machine.execWheelCascade s
  | .gateEntryChange port => Sys2Proof.Machine.execGateEntryChange port s
  | .gateSwap port => Sys2Proof.Machine.execGateSwap port s
  | .ptmDialogue => Sys2Proof.Machine.execPtmDialogue s
  | .ptmSample source valid sec ns => Sys2Proof.Machine.execPtmSample source valid sec ns s
  | .ppsInEdge => Sys2Proof.Machine.execPpsInEdge s
  | .timeSourceTimeout => Sys2Proof.Machine.execTimeSourceTimeout s
  | .ceRecomputeStep => Sys2Proof.Machine.execCeRecomputeStep s
  | .sessionIdleExpiry session => Sys2Proof.Machine.execSessionIdleExpiry session s
  | .freezeWindowEnd => Sys2Proof.Machine.execFreezeWindowEnd s
  | .commandBoundMissed p opcode => Sys2Proof.Machine.execCommandBoundMissed p opcode s
  | .activationDone => Sys2Proof.Machine.execActivationDone s
  | .activationTimeout => Sys2Proof.Machine.execActivationTimeout s
  | .nmFetchUe => Sys2Proof.Machine.execNmFetchUe s
  | .nmReloadDone ok => Sys2Proof.Machine.execNmReloadDone ok s
  | .faultReport ext => Sys2Proof.Machine.execFaultReport ext s
  | .actionRungDone source => Sys2Proof.Machine.execActionRungDone source s
  | .handlingWindowExpiry source => Sys2Proof.Machine.execHandlingWindowExpiry source s
  | .sourceConditionClear source => Sys2Proof.Machine.execSourceConditionClear source s
  | .quietPeriodExpiry => Sys2Proof.Machine.execQuietPeriodExpiry s
  | .shadowWindowEnd => Sys2Proof.Machine.execShadowWindowEnd s
  | .faultLogFlashCopy => Sys2Proof.Machine.execFaultLogFlashCopy s
  | .throttleLift => Sys2Proof.Machine.execThrottleLift s
  | .droopDetect present => Sys2Proof.Machine.execDroopDetect present s
  | .pwrFailNAssert => Sys2Proof.Machine.execPwrFailNAssert s
  | .pwrFailNDeassert => Sys2Proof.Machine.execPwrFailNDeassert s
  | .thermalSample temps => Sys2Proof.Machine.execThermalSample temps s
  | .pllUnlock memory => Sys2Proof.Machine.execPllUnlock memory s
  | .crystalStop => Sys2Proof.Machine.execCrystalStop s
  | .vddqDipInDeep => Sys2Proof.Machine.execVddqDipInDeep s
  | .idleEntry => Sys2Proof.Machine.execIdleEntry s
  | .powerStateReached => Sys2Proof.Machine.execPowerStateReached s
  | .wakeNAssert => Sys2Proof.Machine.execWakeNAssert s
  | .hostAccessWake fn access => Sys2Proof.Machine.execHostAccessWake fn access s
  | .wakeDone bad failed => Sys2Proof.Machine.execWakeDone bad failed s
  | .porNAssert => Sys2Proof.Machine.execPorNAssert s
  | .porNRelease straps => Sys2Proof.Machine.execPorNRelease straps s
  | .coldStartStepDone info => Sys2Proof.Machine.execColdStartStepDone info s
  | .perstNAssert port => Sys2Proof.Machine.execPerstNAssert port s
  | .perstNRelease port => Sys2Proof.Machine.execPerstNRelease port s
  | .hotReset fn => Sys2Proof.Machine.execHotReset fn s
  | .linkDisable fn => Sys2Proof.Machine.execLinkDisable fn s
  | .surpriseLinkDown fn => Sys2Proof.Machine.execSurpriseLinkDown fn s
  | .linkUp fn cfg => Sys2Proof.Machine.execLinkUp fn cfg s
  | .functionLevelReset fn => Sys2Proof.Machine.execFunctionLevelReset fn s
  | .cxlReset fn => Sys2Proof.Machine.execCxlReset fn s
  | .hostViral fn => Sys2Proof.Machine.execHostViral fn s
  | .ideMacFailure fn => Sys2Proof.Machine.execIdeMacFailure fn s
  | .flitError fn => Sys2Proof.Machine.execFlitError fn s
  | .spdmDoeMessage fn m => Sys2Proof.Machine.execSpdmDoeMessage fn m s
  | .pmDumpLatch sramUe => Sys2Proof.Machine.execPmDumpLatch sramUe s
  | .pmParityError counter => Sys2Proof.Machine.execPmParityError counter s
  | .linkRecoveryEntry fn => Sys2Proof.Machine.execLinkRecoveryEntry fn s
  | .linkRecoveryExit fn => Sys2Proof.Machine.execLinkRecoveryExit fn s
  | .vddSramDipInDeep groups => Sys2Proof.Machine.execVddSramDipInDeep groups s
  | .trstNChange high => Sys2Proof.Machine.execTrstNChange high s
  | .malformedSidebandTransaction => Sys2Proof.Machine.execMalformedSidebandTransaction s

end Sys2Proof.Machine
end

