-- ==== Sys2Proof/Machine/Tick.lean ====
section
/-! DEFINITION. What an empty queue does: one cycle of CLK_TU passes (log 1). -/

namespace Sys2Proof.Machine
open Sys2Proof

/-- Whether a port withholds credits: for want of in-flight entries (01 R48) or of posted-write entries (01 R49), or because the device goes to sleep
(17 R601). -/
def State.withholds (s : State) (p : Nat) : Bool :=
  decide (s.pw.state = .entering) || !(s.portAt p).stalled.isEmpty ||
    [2 * p, 2 * p + 1].any (fun f => s.fnExists f && (s.portFull f || !(s.fnAt f).withheld.isEmpty))

/-- Whether a function or an engine has no free in-flight entry (01 R48, R52). -/
def State.entriesOut (s : State) : Bool :=
  [0, 1, 2, 3].any (fun f => s.fnExists f && s.portFull f) || [8, 9, 10, 11, 12, 13, 14, 15].any (fun w => !s.entryFree w)

/-- Whether a miss of a quadrant waits for a victim buffer entry (04 R129). -/
def State.missWaits (s : State) (q : Nat) : Bool :=
  s.rr.fetches.any (fun f => nsQuad f.line == q && (match f.stage with
    | .room _ _ _ => true
    | _ => false))

/-- The level events whose condition holds, as node and index (18 R636, R637; log 1). -/
def State.levels (s : State) : List (Nat × Nat) :=
  (if s.mb.heldCmds.isEmpty then [] else [(0, 5)]) ++
  (if s.pw.state = .idle then [(4, 2)] else []) ++
  (if s.pw.bgBy.isEmpty && s.pw.dramBy.isEmpty then [] else [(4, 4)]) ++
  ([0, 1].filter s.withholds).map (fun p => (8 + p, 6)) ++
  (if s.entriesOut then [(10, 3)] else []) ++
  ((List.range 4).filter s.missWaits).map (fun q => (12 + q, 5)) ++
  ((List.range 12).filter (fun c => (s.chan c).subs.any (fun u => u.drain))).map (fun c => (26 + c, 4))

/-- One idle step: 5 ns pass, which are two CLK_CT cycles, and every background operation that runs does one unit of its work (log 1). -/
def State.tick (s : State) : State :=
  let s1 := s.advance (s.now + 5)
  let s2 := s1.levels.foldl (fun s e => s.count e.1 e.2 2) s1
  if s2.enginesRun then s2.running.foldl (fun s o => s.bgUnit o) s2 else s2

end Sys2Proof.Machine
end

