-- ==== Sys2Proof/Safety.lean ====
section
/-! DEFINITION. What claims about the machine are stated with: the parts of a state, which states are sound, and what every
step keeps. -/

namespace Sys2Proof.Machine
open Sys2Proof

/-- The parts of a state beside its queue of commands: what was sent, the count of free values drawn, time, the DRAM cells, and the
registers of each unit of 00 R3 and of the host functions and regions. -/
inductive Part where
  | out | fresh | now | dram | hp | rr | rg | ns | tr | cd | lp | fu | sx | mc | bw | qe | sc | tu | ce | mb | fc | pw | ck | pm
  deriving DecidableEq, Repr

/-- A part is the same in two states. -/
def Part.Same (s t : State) : Part → Prop
  | .out => t.out = s.out
  | .fresh => t.fresh = s.fresh
  | .now => t.now = s.now
  | .dram => t.dram = s.dram
  | .hp => t.hp = s.hp
  | .rr => t.rr = s.rr
  | .rg => t.rg = s.rg
  | .ns => t.ns = s.ns
  | .tr => t.tr = s.tr
  | .cd => t.cd = s.cd
  | .lp => t.lp = s.lp
  | .fu => t.fu = s.fu
  | .sx => t.sx = s.sx
  | .mc => t.mc = s.mc
  | .bw => t.bw = s.bw
  | .qe => t.qe = s.qe
  | .sc => t.sc = s.sc
  | .tu => t.tu = s.tu
  | .ce => t.ce = s.ce
  | .mb => t.mb = s.mb
  | .fc => t.fc = s.fc
  | .pw => t.pw = s.pw
  | .ck => t.ck = s.ck
  | .pm => t.pm = s.pm

/-- Two states agree on every part but those of `l`. -/
def State.AgreesBut (l : List Part) (s t : State) : Prop := ∀ p, p ∉ l → p.Same s t

/-- The parts of the device are all there: four functions, two ports, twelve channels, and the DRAM cells in canonical form. -/
structure State.Sound (s : State) : Prop where
  fns   : s.hp.fns.length = 4
  ports : s.hp.ports.length = 2
  chans : s.mc.chans.length = 12
  cells : Memory.wf s.dram = true

/-- What a command finds when it executes: its arrival is counted and Naray has left IDLE (17 R598; 18 R636). -/
def State.seen (s : State) (p : Path) : State := ((s.countArrival p).leaveIdle).count 0 0

/-- A command of opcode `op` executes now: it reaches the device, which does not hold it, and no check of log 16 refuses it. -/
structure State.Admits (s : State) (p : Path) (op : Nat) (b : Bytes) : Prop where
  arrives : s.arrival p op = .run
  passes  : ∃ i, cmdInfo op = some i ∧ (s.seen p).admission i p op b = none

/-- The device sends `o` between two states. -/
def State.Sent (s t : State) (o : Out) : Prop := ∃ l, t.out = s.out ++ l ∧ o ∈ l

/-- The device gives the answer `r` on path `p` between two states. -/
def State.Answers (s t : State) (p : Path) (r : Reply) : Prop := ∃ final, s.Sent t (.completion p r.rc r.out final)

/-- A fault report of `source` joins those that wait for FC (01 R33; log 7). -/
def State.Reported (s t : State) (source : Nat) : Prop := ∃ l m, t.fc.reports = s.fc.reports ++ l ∧ m ∈ l ∧ m.source = source

/-- No access waits for another: no host keeps a request or a window write for want of credits, and none is ordered behind an engine's access
(01 R45, R48, R49). -/
structure State.Clear (s : State) : Prop where
  requests : ∀ h ∈ s.hp.fns, h.withheld = []
  windows  : ∀ p ∈ s.hp.ports, p.stalled = []
  tied     : s.rr.tied = []

/-- Nothing waits for a host: no update, access or range operation for a snoop, no push under way. -/
structure State.Quiet (s : State) : Prop where
  updates : s.ce.waiting = []
  held    : s.ce.held = []
  pushes  : s.qe.deq = []
  short   : s.mb.sActive = []
  long    : ∀ o ∈ s.mb.ops, o.running = false

/-! ### What commands of one kind do -/

/-- What a command that only reads leaves: it answers `r`, and changes nothing but the path it came on, the counts of answers and events,
the staging sessions' idle time and the device's idle state. -/
def State.ReadsOnly (s t : State) (p : Path) (r : Reply) : Prop :=
  s.Answers t p r ∧ State.AgreesBut [.out, .hp, .mb, .pw, .ck, .pm] s t

/-- The object of a staged command may join the session `x` that the command names: no other session stages it and `x` has room (14 R505,
R506). -/
structure State.CanStage (s : State) (p : Path) (op obj lvl : Nat) (b : Bytes) (x : Session) : Prop where
  admits  : s.Admits p op b
  session : s.session (rd b 0 2) (who p) = some x
  alone   : ∀ y ∈ s.mb.sessions, y.number ≠ x.number → ∀ z ∈ y.staged, z.sameAs op obj lvl = false
  room    : (x.staged.filter (fun z => !z.sameAs op obj lvl)).length < 16384

/-- What a staged command leaves: the object joins the session `x` with its payload as applied, in place of an earlier one of the same
object, and the command answers SUCCESS or SUCCESS_CLAMPED (14 R505 to R508, R512). -/
def State.StagesObject (s t : State) (op obj lvl : Nat) (rules : List FieldRule) (p : Path) (b : Bytes) (x : Session) : Prop :=
  ∃ y, t.session (rd b 0 2) (who p) = some y ∧
    y.staged = x.staged.filter (fun z => !z.sameAs op obj lvl) ++ [⟨op, obj, lvl, (applyRules rules b).1⟩] ∧
    s.Answers t p (ans (okStatus (applyRules rules b).2) obj)

/-- What a background command that is accepted leaves: an operation of the issuer runs under a handle, which the answer gives (14 R493,
R503). -/
def State.Starts (s t : State) (op obj : Nat) (p : Path) : Prop :=
  ∃ o ∈ t.mb.ops, o.op = op ∧ o.obj = obj ∧ o.who = who p ∧ o.running = true ∧ s.Answers t p (accepted o.handle obj)

/-- The parts that a command may change: every other part stays as it was. -/
def touched : Instr → List Part
  | .stageOpen .. | .stageAbort .. | .clampReportGet .. | .bgQuery .. | .fcrRegister .. | .fcrDeregister .. |
  .mgmtDesignate .. | .regionCfg .. | .regionDelete .. | .regionQuery .. | .tierCfg .. | .mscRowCfg .. | .cdYardQuery .. |
  .qeFreeRing .. | .qeReclaim .. | .qeQuery .. | .qeQueueCfg .. | .qePolicerCfg .. | .scNodeCfg .. | .scPortCfg .. |
  .scGateList .. | .scQuery .. | .tuQuery .. | .ceSetCfg .. | .ceSetDelete .. | .ceQeBind .. | .ceClear .. | .ceQuery .. |
  .faultLogGet .. | .faultQuery .. | .freezeCtl .. | .thaw .. | .bwReqCfg .. | .bwGuarCfg .. | .bwWindowCfg .. | .bwQuery .. |
  .hpPortCfg .. | .pwWake .. | .pwQuery .. | .pmCfg .. | .pmDumpCfg .. | .pmRead .. | .unassignedVendorOpcode .. |
  .unsupportedCxlCommand .. | .identify .. | .backgroundOperationStatus .. | .getEventRecords .. | .clearEventRecords .. |
  .getEventInterruptPolicy .. | .setEventInterruptPolicy .. | .getFwInfo .. | .transferFw .. | .getTimestamp .. |
  .setTimestamp .. | .getSupportedLogs .. | .getLog .. | .identifyMemoryDevice .. | .getHealthInfo .. |
  .getAlertConfiguration .. | .setAlertConfiguration .. | .getPoisonList .. =>
    [.out, .hp, .mb, .pw, .ck, .pm]
  | .stageCommit .. | .keyCheck .. | .powerStateReached .. =>
    [.out, .fresh, .dram, .hp, .rr, .rg, .ns, .tr, .cd, .lp, .sx, .mc, .bw, .qe, .sc, .ce, .mb, .fc, .pw, .ck, .pm]
  | .abort .. | .requestAbortBackgroundOperation .. =>
    [.out, .hp, .ns, .qe, .sc, .mb, .pw, .ck, .pm]
  | .tierCtl .. =>
    [.out, .hp, .tr, .mb, .pw, .ck, .pm]
  | .cdCtl .. =>
    [.out, .hp, .rg, .cd, .mb, .fc, .pw, .ck, .pm]
  | .qeBufRegister .. =>
    [.out, .hp, .rg, .qe, .mb, .pw, .ck, .pm]
  | .qeBufDeregister .. =>
    [.out, .hp, .rg, .qe, .mb, .fc, .pw, .ck, .pm]
  | .qeFreeRingDereg .. =>
    [.out, .hp, .qe, .mb, .fc, .pw, .ck, .pm]
  | .qeEgressRing .. =>
    [.out, .hp, .sc, .mb, .pw, .ck, .pm]
  | .qeEgressDereg .. =>
    [.out, .hp, .qe, .sc, .mb, .pw, .ck, .pm]
  | .qeFlush .. =>
    [.out, .hp, .qe, .sc, .ce, .mb, .fc, .pw, .ck, .pm]
  | .qeCtl .. =>
    [.out, .hp, .qe, .mb, .pw, .ck, .pm]
  | .tuCtl .. =>
    [.out, .hp, .tu, .mb, .pw, .ck, .pm]
  | .tuSet .. =>
    [.out, .hp, .sc, .tu, .mb, .fc, .pw, .ck, .pm]
  | .ceCtl .. =>
    [.out, .hp, .ce, .mb, .pw, .ck, .pm]
  | .faultCfg .. | .zeroRange .. | .nsMaint .. | .injectPoison .. | .clearPoison .. | .rekeyStep .. =>
    [.out, .fresh, .dram, .hp, .rr, .rg, .ns, .tr, .cd, .lp, .sx, .mc, .bw, .ce, .mb, .fc, .pw, .ck, .pm]
  | .faultCtl .. | .faultClear .. | .activateFw .. =>
    [.out, .hp, .mb, .fc, .pw, .ck, .pm]
  | .pwEnter .. =>
    [.out, .dram, .hp, .rg, .tr, .cd, .lp, .sx, .mc, .bw, .qe, .sc, .ce, .mb, .fc, .pw, .ck, .pm]
  | .nsWays .. =>
    [.out, .hp, .ns, .mb, .pw, .ck, .pm]
  | .mcSpeed .. | .mcCtl .. =>
    [.out, .fresh, .dram, .hp, .rr, .rg, .ns, .tr, .cd, .lp, .sx, .mc, .bw, .mb, .fc, .pw, .ck, .pm]
  | .rekeyStart .. =>
    [.out, .fresh, .hp, .sx, .mb, .pw, .ck, .pm]
  | .scrubCtl .. =>
    [.out, .hp, .lp, .mb, .fc, .pw, .ck, .pm]
  | .pprCtl .. =>
    [.out, .dram, .hp, .lp, .sx, .mc, .bw, .mb, .fc, .pw, .ck, .pm]
  | .fuseBurn .. =>
    [.out, .hp, .fu, .mb, .pw, .ck, .pm]
  | .diagCtrlRead .. =>
    [.out, .fresh, .hp, .sc, .tu, .mb, .pw, .ck, .pm]
  | .diagCtrlWrite .. =>
    [.out, .hp, .ns, .tr, .cd, .lp, .sx, .mc, .qe, .tu, .mb, .fc, .pw, .ck, .pm]
  | .cdGranuleRead .. =>
    [.out, .dram, .hp, .rg, .tr, .cd, .lp, .sx, .mc, .bw, .mb, .fc, .pw, .ck, .pm]
  | .backgroundOperationEnd .. =>
    [.out, .fresh, .dram, .hp, .rr, .rg, .ns, .tr, .cd, .lp, .fu, .sx, .mc, .bw, .qe, .sc, .ce, .mb, .fc, .pw, .pm]
  | .fcrDoorbellWrite .. =>
    [.out, .hp, .fc, .pw, .ck, .pm]
  | .fcrEntryFetched .. | .activationDone .. | .nmReloadDone .. | .faultReport .. | .wakeDone .. =>
    [.out, .fresh, .dram, .hp, .rr, .rg, .ns, .tr, .cd, .lp, .fu, .sx, .mc, .bw, .qe, .sc, .tu, .ce, .mb, .fc, .pw, .ck, .pm]
  | .fcrFetchError .. =>
    [.hp, .fc]
  | .freeRingConsWrite .. | .hdmDecoderCommit .. | .porNRelease .. =>
    [.hp, .fc, .pw]
  | .egressRingConsWrite .. =>
    [.hp, .sc, .fc, .pw, .pm]
  | .intCauseWrite .. | .intEnableWrite .. | .hostAccessWake .. =>
    [.hp, .pw]
  | .msixVectorUnmask .. | .spdmDoeMessage .. =>
    [.out, .hp, .pw]
  | .busMasterEnableSet .. =>
    [.out, .hp, .sc, .pw, .pm]
  | .busMasterEnableClear .. =>
    [.hp, .qe, .sc, .pw, .pm]
  | .scWheelLagRead .. =>
    [.out, .sc]
  | .mbLatFRead .. | .mbLatSRead .. =>
    [.out, .fresh, .mb]
  | .tuTimeSRead .. =>
    [.out, .tu]
  | .registerWrite .. =>
    [.out, .hp, .ns, .tr, .cd, .lp, .sx, .mc, .qe, .sc, .tu, .ce, .mb, .fc, .pw, .ck, .pm]
  | .enqueueWindowWrite .. | .counterUpdateWindowWrite .. =>
    [.out, .hp, .qe, .ce, .mb, .fc, .pw, .pm]
  | .enqueueDescriptor .. | .updateRecord .. =>
    [.out, .fresh, .dram, .hp, .rr, .rg, .ns, .tr, .cd, .lp, .sx, .mc, .bw, .qe, .ce, .mb, .fc, .pw, .pm]
  | .queueEventCount .. | .cxlmemRead .. | .cxlmemWrite .. | .dramReadReturn .. | .addressErrorReread .. | .lineRepair .. |
  .specVerifyResult .. | .promotionSwitch .. | .demotionSwitch .. | .muckVisit .. | .patrolRead .. | .demandScrub .. |
  .resilverLine .. | .fillBlock .. | .fillOnTouchWrite .. | .ceRecomputeStep .. | .sourceConditionClear .. =>
    [.out, .fresh, .dram, .hp, .rr, .rg, .ns, .tr, .cd, .lp, .sx, .mc, .bw, .ce, .mb, .fc, .pw, .pm]
  | .backInvalidateResponse .. =>
    [.out, .fresh, .dram, .hp, .rr, .rg, .ns, .tr, .cd, .lp, .sx, .mc, .bw, .ce, .mb, .fc, .pm]
  | .writebackAck .. | .evictionOfferAnswer .. | .retrainingStart .. =>
    [.out, .fresh, .dram, .hp, .rr, .rg, .ns, .tr, .cd, .lp, .sx, .mc, .bw, .fc, .pm]
  | .nsTagScrub .. =>
    [.now, .ns, .tu, .fc]
  | .nsWaysDrainDone .. =>
    [.out, .dram, .hp, .rg, .ns, .tr, .cd, .lp, .sx, .mc, .bw, .mb, .fc, .pm]
  | .nsWaysEnableDone .. =>
    [.out, .hp, .ns, .fu, .mb, .pm]
  | .heatSweep .. =>
    [.out, .now, .dram, .rg, .tr, .cd, .lp, .sx, .mc, .bw, .tu, .fc, .pm]
  | .patrolLate .. | .rowErrorWindowEnd .. =>
    [.now, .lp, .tu, .fc]
  | .softPpr .. | .pageRetirement .. =>
    [.dram, .lp, .sx, .mc, .bw, .fc, .pm]
  | .hardPprDone .. =>
    [.lp]
  | .refreshIssue .. | .rfmIssue .. =>
    [.mc, .pm]
  | .refreshForced .. =>
    [.now, .mc, .tu, .fc, .pm]
  | .subchannelIssue .. =>
    [.mc, .bw, .pm]
  | .agePromotion .. =>
    [.now, .mc, .tu, .pm]
  | .alertNAssert .. =>
    [.mc, .fc, .pm]
  | .alertEpisodeEnd .. | .dqsTracking .. =>
    [.mc]
  | .zqCalibration .. =>
    []
  | .dimmTempRead .. =>
    [.mc, .bw, .fc]
  | .retrainingDone .. | .fencedChannelRetrainDone .. =>
    [.out, .fresh, .dram, .hp, .rr, .rg, .ns, .tr, .cd, .lp, .sx, .mc, .bw, .mb, .fc, .ck, .pm]
  | .speedChangeStepDone .. =>
    [.out, .fresh, .dram, .hp, .rr, .rg, .ns, .tr, .cd, .lp, .sx, .mc, .bw, .mb, .fc, .pm]
  | .speedChangeWaitTimeout .. =>
    [.out, .now, .hp, .mc, .tu, .mb, .pm]
  | .initialTrainingDone .. =>
    [.out, .fresh, .dram, .hp, .rr, .rg, .ns, .tr, .cd, .lp, .sx, .mc, .bw, .fc, .ck, .pm]
  | .budgetWindowEnd .. =>
    [.now, .bw, .tu]
  | .bwStampUpdate .. =>
    [.mc, .bw]
  | .freeRingRefill .. =>
    [.out, .hp, .qe, .fc, .pm]
  | .headLineReturn .. | .dequeuePacketRead .. =>
    [.out, .fresh, .dram, .hp, .rr, .rg, .ns, .tr, .cd, .lp, .sx, .mc, .bw, .qe, .sc, .ce, .mb, .fc, .pw, .pm]
  | .schedulerDecision .. =>
    [.qe, .sc, .pm]
  | .packetPush .. =>
    [.out, .hp, .qe, .sc, .ce, .fc, .pm]
  | .ringModerationTimer .. =>
    [.out, .now, .hp, .tu]
  | .drainLimitExpiry .. =>
    [.now, .qe, .sc, .tu, .ce, .fc, .pw, .pm]
  | .wheelSlotRelease .. =>
    [.now, .sc, .tu, .fc, .pm]
  | .wheelCascade .. =>
    [.now, .sc, .tu]
  | .gateEntryChange .. =>
    [.now, .sc, .tu, .pm]
  | .gateSwap .. =>
    [.now, .qe, .sc, .tu, .ce, .fc, .pm]
  | .ptmDialogue .. =>
    [.out, .now, .tu, .pm]
  | .ptmSample .. | .ppsInEdge .. =>
    [.sc, .tu, .fc, .pm]
  | .timeSourceTimeout .. | .shadowWindowEnd .. =>
    [.now, .tu, .fc]
  | .sessionIdleExpiry .. =>
    [.now, .tu, .mb, .fc]
  | .freezeWindowEnd .. =>
    [.now, .tu, .mb]
  | .commandBoundMissed .. =>
    [.fresh, .mb, .fc, .pm]
  | .activationTimeout .. | .actionRungDone .. | .handlingWindowExpiry .. | .porNAssert .. =>
    [.out, .fresh, .now, .dram, .hp, .rr, .rg, .ns, .tr, .cd, .lp, .fu, .sx, .mc, .bw, .qe, .sc, .tu, .ce, .mb, .fc, .pw, .ck, .pm]
  | .nmFetchUe .. =>
    [.mb, .fc]
  | .quietPeriodExpiry .. =>
    [.now, .tr, .cd, .lp, .sx, .tu, .fc]
  | .faultLogFlashCopy .. =>
    [.out, .fc]
  | .throttleLift .. =>
    [.now, .tu, .pw]
  | .droopDetect .. | .pwrFailNAssert .. | .thermalSample .. =>
    [.fc, .pw]
  | .pwrFailNDeassert .. | .wakeNAssert .. | .vddSramDipInDeep .. =>
    [.pw]
  | .pllUnlock .. =>
    [.fc, .ck]
  | .crystalStop .. =>
    [.fc, .pw, .ck]
  | .vddqDipInDeep .. =>
    [.sx]
  | .idleEntry .. =>
    [.now, .tu, .pw, .ck, .pm]
  | .coldStartStepDone .. =>
    [.out, .fresh, .now, .rg, .lp, .fu, .sx, .mc, .bw, .tu, .mb, .fc, .pw, .ck, .pm]
  | .perstNAssert .. | .hotReset .. | .linkDisable .. | .surpriseLinkDown .. =>
    [.out, .fresh, .dram, .hp, .rr, .rg, .ns, .tr, .cd, .lp, .sx, .mc, .bw, .qe, .sc, .ce, .mb, .fc, .pm]
  | .perstNRelease .. =>
    [.hp, .pw, .ck]
  | .linkUp .. | .hostViral .. | .ideMacFailure .. =>
    [.out, .hp, .sc, .fc, .pm]
  | .functionLevelReset .. =>
    [.hp, .qe, .sc, .ce, .fc, .pw, .pm]
  | .cxlReset .. | .linkRecoveryExit .. =>
    [.out, .fresh, .dram, .hp, .rr, .rg, .ns, .tr, .cd, .lp, .sx, .mc, .bw, .sc, .ce, .mb, .fc, .pw, .pm]
  | .flitError .. =>
    [.out, .hp, .fc, .pm]
  | .pmDumpLatch .. =>
    [.out, .now, .hp, .tu, .fc, .pm]
  | .pmParityError .. =>
    [.pm]
  | .linkRecoveryEntry .. =>
    [.hp]
  | .trstNChange .. =>
    [.pw, .ck, .pm]
  | .malformedSidebandTransaction .. =>
    [.fc, .pm]

end Sys2Proof.Machine
end

