-- ==== Sys2Proof/Certificates/Slice0/Obligations.lean ====
section
/-! DEFINITION. What is claimed of the model. -/

open Sys2Proof Sys2Proof.Machine

/-! ### The queue of commands, and what every step keeps -/

/-- A step runs the command at the front of the queue on the state with the rest of the queue; an empty queue lets a cycle of
CLK_TU pass (log 1). -/
def Obligations.StepRunsTheFrontCommand : Prop :=
  (∀ (c : Instr) (s : State) (rest : List Instr), s.pending = c :: rest → step s = exec c { s with pending := rest }) ∧
  (∀ s : State, s.pending = [] → step s = .next s.tick)

/-- A step takes one command off the queue and puts none on it. Where the spec is silent the model chooses: the one queue is log 1. -/
def Obligations.StepTakesOneCommand : Prop :=
  ∀ (s t : State), step s = .next t → t.pending = s.pending.tail

/-- Every step keeps the device whole: four functions, two ports, twelve channels, and the DRAM cells in canonical form. Where the spec is
silent the model chooses: the canonical form and what an unlisted cell reads as are log 5. -/
def Obligations.StepKeepsTheDeviceSound : Prop :=
  ∀ (s t : State), s.Sound → step s = .next t → t.Sound

/-- The state after reset is sound, and its queue is empty. Where the spec is silent the model chooses: the empty queue is log 1, the reset
values of log 4 are not claimed. -/
def Obligations.ResetIsSound : Prop :=
  State.reset.Sound ∧ State.reset.pending = []

/-- What no step undoes: what the device has sent stays sent, a free value is drawn once, a burned fuse stays burned, the burns left never
grow, and the security version never falls. Where the spec is silent the model chooses: the list of outputs is log 2, free values are log 3.
-/
def Obligations.StepKeepsWhatIsPermanent : Prop :=
  ∀ (s t : State), step s = .next t →
    s.out <+: t.out ∧ s.fresh ≤ t.fresh ∧ s.fu.burned <+: t.fu.burned ∧ t.fu.burnsLeft ≤ s.fu.burnsLeft ∧ s.fu.svn ≤ t.fu.svn

/-- The frame of every command: the parts of the state that `touched` does not name stay as they were, and so does the queue. Where the spec
is silent the model chooses: which parts a command may touch follows from the meanings, and so from the log entries they name. -/
def Obligations.CommandsChangeOnlyWhatTheyTouch : Prop :=
  ∀ (c : Instr) (s t : State), exec c s = .next t → State.AgreesBut (touched c) s t ∧ t.pending = s.pending

/-- The frame of memory: a command that does not touch the DRAM leaves what every cell reads as. Where the spec is silent the model chooses:
what an unlisted cell reads as is log 5. -/
def Obligations.CommandsThatStoreNothingKeepMemory : Prop :=
  ∀ (c : Instr) (s t : State) (k : Nat), Part.dram ∉ touched c → exec c s = .next t → memGet t.dram k = memGet s.dram k

/-- A codeword that is stored changes no cell outside the 81 cells of its line: the frame of every write to the DRAM. Where the spec is
silent the model chooses: what an unlisted cell reads as is log 5. -/
def Obligations.StoredCodewordChangesItsLineOnly : Prop :=
  ∀ (s : State) (c cla : Nat) (w : Stored) (k : Nat),
    (k < lineKey c (s.remap c cla) ∨ lineKey c (s.remap c cla) + 81 ≤ k) →
    memGet (s.putStored c cla w).dram k = memGet s.dram k

/-! ### Commands on the mailboxes, the rings and the sideband (14, 15) -/

/-- A management command of a principal without management level completes NOT_PERMITTED, and nothing but the path it came on, the answer
counts and the idle time changes (14 R499, R500). Where the spec is silent the model chooses: the order of the checks is log 16, the
smallest payloads log 45. -/
def Obligations.ManagementCommandsNeedTheLevel : Prop :=
  ∀ (s : State) (p : Path) (b : Bytes), s.isMgmt (who p) = false →
    (s.arrival p 0xC100 = .run → 24 ≤ b.length → b.length ≤ pathMax p →
      ∃ t, exec (.regionCfg p b) s = .next t ∧ s.Answers t p (ans stNotPermitted (rd b 4 4)) ∧ t.mb.sessions = s.mb.sessions) ∧
    (s.arrival p 0xC520 = .run → 10 ≤ b.length → b.length ≤ pathMax p →
      ∃ t, exec (.mcSpeed p b) s = .next t ∧ s.Answers t p (ans stNotPermitted (rd b 4 4)) ∧ t.mc = s.mc) ∧
    (s.arrival p 0xC722 = .run → 9 ≤ b.length → b.length ≤ pathMax p →
      ∃ t, exec (.fuseBurn p b) s = .next t ∧ s.Answers t p (ans stNotPermitted (rd b 4 4)) ∧ t.fu = s.fu)

/-- A frozen function's command outside the list of 14 R517 completes FROZEN and has no effect on its unit. Where the spec is silent the
model chooses: the order of the checks is log 16, the smallest payloads log 45. -/
def Obligations.FrozenFunctionsAreRefused : Prop :=
  ∀ (s : State) (p : Path) (b : Bytes), who p < 4 → s.isFrozen (who p) = true → s.pw.state = .run → s.fc.safe = false →
    (s.arrival p 0xC210 = .run → 37 ≤ b.length → b.length ≤ pathMax p →
      ∃ t, exec (.qeFreeRing p b) s = .next t ∧ s.Answers t p (ans stFrozen (rd b 4 4)) ∧ t.qe = s.qe) ∧
    (s.arrival p 0xC222 = .run → 8 ≤ b.length → b.length ≤ pathMax p →
      ∃ t, exec (.qeFlush p b) s = .next t ∧ s.Answers t p (ans stFrozen (rd b 4 4)) ∧ t.qe = s.qe)

/-- An opcode that no table lists completes Unsupported, with no effect on any unit (00 R20; 15 R561). Where the spec is silent the model
chooses: the number of the code Unsupported is that of CXL 3.1, log 14. -/
def Obligations.UnlistedOpcodesAreUnsupported : Prop :=
  ∀ (s : State) (p : Path) (op : Nat) (b : Bytes), cmdInfo op = none → s.arrival p op = .run →
    (∃ t, exec (.unassignedVendorOpcode p op b) s = .next t ∧ s.ReadsOnly t p (std rcUnsupported)) ∧
    (∃ t, exec (.unsupportedCxlCommand p op b) s = .next t ∧ s.ReadsOnly t p (std rcUnsupported))

/-- Staged commands put their object, with the payload as applied, at the end of the session's list, in place of an earlier one of the same
object, and answer SUCCESS or SUCCESS_CLAMPED: regions, tiers, the class table and regulation (14 R505 to R508). Where the spec is silent
the model chooses: the order of the checks is log 16, the smallest payloads log 45, what is cleared in OWNER log 44. -/
def Obligations.RegionAndClassCommandsAreStaged : Prop :=
  ∀ (s : State) (p : Path) (b : Bytes) (x : Session),
    (rd b 4 4 < 64 → s.CanStage p 0xC100 (rd b 4 4) 0 b x →
      ∃ t, exec (.regionCfg p b) s = .next t ∧ s.StagesObject t 0xC100 (rd b 4 4) 0 regionRules p b x) ∧
    (rd b 4 4 < 64 → s.CanStage p 0xC101 (rd b 4 4) 0 b x →
      ∃ t, exec (.regionDelete p b) s = .next t ∧ s.StagesObject t 0xC101 (rd b 4 4) 0 [] p b x) ∧
    (rd b 4 4 < 64 → s.CanStage p 0xC110 (rd b 4 4) 0 b x →
      ∃ t, exec (.tierCfg p b) s = .next t ∧ s.StagesObject t 0xC110 (rd b 4 4) 0 (s.tierRules p b) p b x) ∧
    (rd b 4 4 < 65 → s.CanStage p 0xC120 (rd b 4 4) 0 b x →
      ∃ t, exec (.mscRowCfg p b) s = .next t ∧ s.StagesObject t 0xC120 (rd b 4 4) 0 [⟨8, 8, fun v => v - v / 4096 % 4096 * 4096⟩]
      p b x) ∧
    (rd b 4 4 < 4 ∨ 8 ≤ rd b 4 4 ∧ rd b 4 4 < 16 →
      s.CanStage p 0xC420 (rd b 4 4) 0 b x →
      ∃ t, exec (.bwReqCfg p b) s = .next t ∧ s.StagesObject t 0xC420 (rd b 4 4) 0 [fRange 8 4 0 1048576, fRange 12 1 1 255] p b
      x) ∧
    (rd b 4 4 < 8 → s.CanStage p 0xC421 (rd b 4 4) 0 b x →
      ∃ t, exec (.bwGuarCfg p b) s = .next t ∧ s.StagesObject t 0xC421 (rd b 4 4) 0 [fRange 8 2 0 1100] p b x) ∧
    (rd b 4 4 < 1 → s.CanStage p 0xC422 (rd b 4 4) 0 b x →
      ∃ t, exec (.bwWindowCfg p b) s = .next t ∧ s.StagesObject t 0xC422 (rd b 4 4) 0 [fRange 8 2 1 1000] p b x)

/-- The same of the staged commands of the queue engine, the scheduler and the counter engine (14 R505 to R508). Where the spec is silent
the model chooses: the order of the checks is log 16, the smallest payloads log 45, DEFAULT_MAP log 27, the range of PIR log 46. -/
def Obligations.QueueAndCounterCommandsAreStaged : Prop :=
  ∀ (s : State) (p : Path) (b : Bytes) (x : Session),
    (rd b 4 4 < 262144 → s.CanStage p 0xC230 (rd b 4 4) 0 b x →
      ∃ t, exec (.qeQueueCfg p b) s = .next t ∧ s.StagesObject t 0xC230 (rd b 4 4) 0 (s.queueRules b) p b x) ∧
    (rd b 4 4 < 1048576 → s.CanStage p 0xC231 (rd b 4 4) 0 b x →
      ∃ t, exec (.qePolicerCfg p b) s = .next t ∧ s.StagesObject t 0xC231 (rd b 4 4) 0 (policerRules b) p b x) ∧
    (2 ≤ rd b 8 1 ∧ rd b 8 1 ≤ 4 ∧ rd b 4 4 < levelSize (rd b 8 1) →
      s.CanStage p 0xC240 (rd b 4 4) (rd b 8 1) b x →
      ∃ t, exec (.scNodeCfg p b) s = .next t ∧ s.StagesObject t 0xC240 (rd b 4 4) (rd b 8 1) (nodeRules b) p b x) ∧
    (rd b 4 4 < 64 → s.CanStage p 0xC241 (rd b 4 4) 0 b x →
      ∃ t, exec (.scPortCfg p b) s = .next t ∧ s.StagesObject t 0xC241 (rd b 4 4) 0 portRules p b x) ∧
    (rd b 4 4 < 64 → s.CanStage p 0xC242 (rd b 4 4) 0 b x →
      ∃ t, exec (.scGateList p b) s = .next t ∧ s.StagesObject t 0xC242 (rd b 4 4) 0 (gateRules b) p b x) ∧
    (rd b 4 4 < 4096 → s.CanStage p 0xC300 (rd b 4 4) 0 b x →
      ∃ t, exec (.ceSetCfg p b) s = .next t ∧ s.StagesObject t 0xC300 (rd b 4 4) 0 setRules p b x) ∧
    (rd b 4 4 < 4096 → s.CanStage p 0xC301 (rd b 4 4) 0 b x →
      ∃ t, exec (.ceSetDelete p b) s = .next t ∧ s.StagesObject t 0xC301 (rd b 4 4) 0 [] p b x) ∧
    (rd b 4 4 < 2 →
      (if rd b 4 4 = 0 then s.ce.bindP else s.ce.bindQ).any
        (fun x => x.set == (if rd b 8 2 < 4096 ∨ rd b 8 2 = 0xFFFF then rd b 8 2 else s.boundSet (rd b 4 4))) = false →
      s.CanStage p 0xC302 (rd b 4 4) 0 b x →
      ∃ t, exec (.ceQeBind p b) s = .next t ∧ s.StagesObject t 0xC302 (rd b 4 4) 0 (s.bindRules b) p b x)

/-- A field of a payload is applied by its own rule, and every other byte stays as given (14 R512). -/
def Obligations.FieldsAreAppliedOneByOne : Prop :=
  ∀ (r : FieldRule) (b : Bytes), r.off + r.len ≤ b.length → r.fix (rd b r.off r.len) < 256 ^ r.len →
    rd (applyRules [r] b).1 r.off r.len = r.fix (rd b r.off r.len) ∧
    (∀ o l, (o + l ≤ r.off ∨ r.off + r.len ≤ o) → rd (applyRules [r] b).1 o l = rd b o l) ∧
    (applyRules [r] b).2 = if r.fix (rd b r.off r.len) = rd b r.off r.len then []
      else [(r.off, rd b r.off r.len, r.fix (rd b r.off r.len))]

/-- Sessions: STAGE_OPEN opens one where fewer than 4 are open; STAGE_ABORT and STAGE_COMMIT end the session named, a commit with its report
retained; an idle second ends a session with a report of MB_SESSION_EXPIRED (14 R505, R509, R510, R513). Where the spec is silent the model
chooses: the numbers given are log 11. -/
def Obligations.SessionsOpenAndEnd : Prop :=
  ∀ (s : State) (p : Path) (b : Bytes),
    (s.Admits p 0xC000 b → s.mb.sessions.length < 4 → ∃ t n, exec (.stageOpen p b) s = .next t ∧
      t.mb.sessions = s.mb.sessions ++ [⟨n, who p, [], ⟨[], 0⟩, s.now⟩] ∧ s.Answers t p (ans stSuccess (rd b 4 4) (le 2 n))) ∧
    (∀ x, s.Admits p 0xC002 b → s.session (rd b 0 2) (who p) = some x → ∃ t, exec (.stageAbort p b) s = .next t ∧
      t.mb.sessions = s.mb.sessions.filter (fun y => y.number != x.number) ∧ s.Answers t p (ans stSuccess (rd b 4 4))) ∧
    (∀ x, s.Admits p 0xC001 b → s.session (rd b 0 2) (who p) = some x → ∃ t r, exec (.stageCommit p b) s = .next t ∧
      t.session (rd b 0 2) (who p) = none ∧ (who p, x.number, r) ∈ t.mb.retained) ∧
    (∀ n x, s.mb.sessions.find? (fun y => y.number == n) = some x → ∃ t m, exec (.sessionIdleExpiry n) s = .next t ∧
      t.mb.sessions = s.mb.sessions.filter (fun y => y.number != n) ∧ t.now = max s.now (x.lastAt + 1000000000) ∧
      t.fc.reports = s.fc.reports ++ [m] ∧ m.source = mbSessionExpired)

/-- The number that STAGE_OPEN gives names no open session and no retained report (14 R505, R513). Where the spec is silent the model
chooses: the numbers given are log 11. -/
def Obligations.SessionNumbersAreNew : Prop :=
  ∀ (s t : State) (p : Path) (b : Bytes), s.Admits p 0xC000 b → s.mb.sessions.length < 4 → exec (.stageOpen p b) s = .next t →
    ∃ x, t.mb.sessions = s.mb.sessions ++ [x] ∧ x.who = who p ∧ x.staged = [] ∧ 1 ≤ x.number ∧
      (∀ y ∈ s.mb.sessions, y.number ≠ x.number) ∧ (∀ y ∈ s.mb.retained, y.2.1 ≠ x.number)

/-- Queries answer the records of the objects from OBJECT upward (15 R535), and change no unit. Where the spec is silent the model chooses:
the layouts of the records are log 17, QUIET_LEFT log 47. -/
def Obligations.QueriesAnswerRecords : Prop :=
  ∀ (s : State) (p : Path) (b : Bytes),
    (s.Admits p 0xC102 b →
      ∃ t, exec (.regionQuery p b) s = .next t ∧ s.ReadsOnly t p (query p 0xC102 b (s.seen p) 64 408 (s.seen p).regionRecord).2) ∧
    (s.Admits p 0xC131 b →
      ∃ t, exec (.cdYardQuery p b) s = .next t ∧ s.ReadsOnly t p (query p 0xC131 b (s.seen p) 64 96 (s.seen p).yardRecord).2) ∧
    (s.Admits p 0xC223 b → ∃ t, exec (.qeQuery p b) s = .next t ∧ s.ReadsOnly t p (qeQuery p b (s.seen p)).2) ∧
    (s.Admits p 0xC243 b → ∃ t, exec (.scQuery p b) s = .next t ∧ s.ReadsOnly t p (scQuery p b (s.seen p)).2) ∧
    (s.Admits p 0xC252 b → ∃ t, exec (.tuQuery p b) s = .next t ∧ s.ReadsOnly t p (tuQuery p b (s.seen p)).2) ∧
    (s.Admits p 0xC304 b → ∃ t, exec (.ceQuery p b) s = .next t ∧ s.ReadsOnly t p (ceQuery p b (s.seen p)).2) ∧
    (s.Admits p 0xC404 b → (sourceInfo (rd b 4 4)).isSome →
      ∃ t, exec (.faultQuery p b) s = .next t ∧ s.ReadsOnly t p (query p 0xC404 b (s.seen p) 608 32 (s.seen p).srcRecord).2) ∧
    (s.Admits p 0xC423 b →
      ∃ t, exec (.bwQuery p b) s = .next t ∧ s.ReadsOnly t p (query p 0xC423 b (s.seen p) 16 112 (s.seen p).bwRecord).2) ∧
    (s.Admits p 0xC502 b → ∃ t, exec (.pwQuery p b) s = .next t ∧ s.ReadsOnly t p (pwQuery p b (s.seen p)).2) ∧
    (s.Admits p 0xC010 b → ∃ t, exec (.bgQuery p b) s = .next t ∧ s.ReadsOnly t p (bgQuery p b (s.seen p)).2) ∧
    (s.Admits p 0xC402 b → ∃ t, exec (.faultLogGet p b) s = .next t ∧ s.ReadsOnly t p (faultLogGet p b (s.seen p)).2) ∧
    (s.Admits p 0xC602 b → rd b 4 4 = 0 → ∃ t, exec (.pmRead p b) s = .next t ∧ s.ReadsOnly t p (pmRead p b (s.seen p)).2) ∧
    (∀ r, s.Admits p 0xC003 b → s.reportOf (rd b 0 2) (who p) = some r →
      ∃ t, exec (.clampReportGet p b) s = .next t ∧ s.ReadsOnly t p (clampReportGet p b (s.seen p)).2)

/-- The standard commands that read answer what 15 R560 lists, and change no unit. Where the spec is silent the model chooses: payload
layouts and return codes are log 14. -/
def Obligations.StandardReadsAnswer : Prop :=
  ∀ (s : State) (p : Path) (b : Bytes),
    (s.Admits p 0x0001 b → ∃ t, exec (.identify p b) s = .next t ∧ s.ReadsOnly t p (identify p b (s.seen p)).2) ∧
    (s.Admits p 0x0002 b → ∃ t, exec (.backgroundOperationStatus p b) s = .next t ∧ s.ReadsOnly t p (opStatus p b (s.seen p)).2) ∧
    (s.Admits p 0x0100 b → ∃ t, exec (.getEventRecords p b) s = .next t ∧ s.ReadsOnly t p (getEvents p b (s.seen p)).2) ∧
    (s.Admits p 0x0102 b →
      ∃ t, exec (.getEventInterruptPolicy p b) s = .next t ∧ s.ReadsOnly t p (std rcSuccess (((s.seen p).mb.policy.map (le
      1)).flatten))) ∧
    (s.Admits p 0x0200 b → ∃ t, exec (.getFwInfo p b) s = .next t ∧ s.ReadsOnly t p (getFwInfo p b (s.seen p)).2) ∧
    (s.Admits p 0x0300 b → ∃ t, exec (.getTimestamp p b) s = .next t ∧ s.ReadsOnly t p (std rcSuccess (le 8 (s.seen p).cxlTime))) ∧
    (s.Admits p 0x0400 b → ∃ t, exec (.getSupportedLogs p b) s = .next t ∧ s.ReadsOnly t p (getLogs p b (s.seen p)).2) ∧
    (s.Admits p 0x0401 b → ∃ t, exec (.getLog p b) s = .next t ∧ s.ReadsOnly t p (getLog p b (s.seen p)).2) ∧
    (s.Admits p 0x4000 b → ∃ t, exec (.identifyMemoryDevice p b) s = .next t ∧ s.ReadsOnly t p (identifyMemory p b (s.seen p)).2) ∧
    (s.Admits p 0x4200 b → ∃ t, exec (.getHealthInfo p b) s = .next t ∧ s.ReadsOnly t p (healthInfo p b (s.seen p)).2) ∧
    (s.Admits p 0x4201 b → ∃ t, exec (.getAlertConfiguration p b) s = .next t ∧ s.ReadsOnly t p (getAlerts p b (s.seen p)).2) ∧
    (s.Admits p 0x4300 b → ∃ t, exec (.getPoisonList p b) s = .next t ∧ s.ReadsOnly t p (getPoisonList p b (s.seen p)).2)

/-- The standard commands that write set what they name: the event interrupt policy, the timestamp, the alerts; all records of a log are
cleared; a line given new data leaves the poison list, and a poisoned write poisons one, where the region's owner mask names requester NM;
elsewhere the write is dropped and NM_WRITE_DENIED reported; accesses ordered behind the line's access enter after it (15 R560; 13 R681; 01
R35, R37, R45). Where the spec is silent the model chooses: payload layouts and return codes are log 14, the event logs log 74, the owner
check log 99, what enters after the access log 8. -/
def Obligations.StandardWritesSet : Prop :=
  ∀ (s : State) (p : Path) (b : Bytes),
    (s.Admits p 0x0101 b → rd b 0 1 < 4 → (rd b 1 1).testBit 0 = true → ∃ t, exec (.clearEventRecords p b) s = .next t ∧
      t.mb.evlog = lset s.mb.evlog (rd b 0 1) [] ∧ s.Answers t p (std rcSuccess)) ∧
    (s.Admits p 0x0103 b → (∀ i < 4, rd b i 1 < 2) → ∃ t, exec (.setEventInterruptPolicy p b) s = .next t ∧
      t.mb.policy = (List.range 4).map (fun i => rd b i 1) ∧ s.Answers t p (std rcSuccess)) ∧
    (s.Admits p 0x0301 b → ∃ t, exec (.setTimestamp p b) s = .next t ∧
      (t.mb.tsBase + s.now) % 2 ^ 64 = rd b 0 8 % 2 ^ 64 ∧ s.Answers t p (std rcSuccess)) ∧
    (s.Admits p 0x4202 b → ∃ t, exec (.setAlertConfiguration p b) s = .next t ∧
      t.mb.alert.getD 1 0 = (if (rd b 0 1).testBit 1 then rd b 4 2 else s.mb.alert.getD 1 0) ∧
      t.mb.alert.getD 2 0 = (if (rd b 0 1).testBit 2 then rd b 6 2 else s.mb.alert.getD 2 0) ∧
      t.mb.alert.getD 3 0 = (if (rd b 0 1).testBit 3 then rd b 8 2 else s.mb.alert.getD 3 0) ∧ s.Answers t p (std rcSuccess)) ∧
    (∀ n r o, s.Admits p 0x4302 b → s.lineRegion (rd b 0 8 / 64) = some (n, r, o) → ownerHas r.owner 15 = true →
      ∃ t : State, exec (.clearPoison p b) s = .next (t.afterEngine 15) ∧ rd b 0 8 / 64 * 64 ∉ t.mb.poison ∧ s.Answers t p (std rcSuccess)) ∧
    (∀ n r o k e, s.Admits p 0x4301 b → s.lineRegion (rd b 0 8 / 64) = some (n, r, o) → ownerHas r.owner 15 = true →
      s.ctrLine (rd b 0 8 / 64) = none → s.fetchOf (rd b 0 8 / 64) = none →
      s.nsFind (rd b 0 8 / 64) = some (k, e) → ∃ t : State, exec (.injectPoison p b) s = .next (t.afterEngine 15) ∧
      oget t.ns.lines k = some ⟨nsTag (rd b 0 8 / 64), true, true, 15, mergeLine e.data e.data fullEn⟩ ∧
      s.Answers t p (std rcSuccess)) ∧
    (∀ n r o, s.lineRegion (rd b 0 8 / 64) = some (n, r, o) → ownerHas r.owner 15 = false →
      (s.Admits p 0x4302 b → ∃ t : State, exec (.clearPoison p b) s = .next (t.afterEngine 15) ∧ t.mb.poison = s.mb.poison ∧ t.ns = s.ns ∧
        s.Reported t nmWriteDenied) ∧
      (s.Admits p 0x4301 b → s.ctrLine (rd b 0 8 / 64) = none → ∃ t : State, exec (.injectPoison p b) s = .next (t.afterEngine 15) ∧ t.ns = s.ns ∧
        s.Reported t nmWriteDenied))

/-- Management commands that act at once: the management function, the freeze threshold, the end of a freeze, a port's share, the way a
requester's freeze ends (14 R499, R516, R518; 02 R87). Where the spec is silent the model chooses: the order of the checks is log 16. -/
def Obligations.ManagementCommandsSet : Prop :=
  ∀ (s : State) (p : Path) (b : Bytes),
    (s.Admits p 0xC030 b → rd b 4 4 < 4 → ∃ t, exec (.mgmtDesignate p b) s = .next t ∧ t.mb.mgmt = rd b 4 4 ∧
      s.Answers t p (ans stSuccess (rd b 4 4))) ∧
    (s.Admits p 0xC410 b → rd b 4 4 = 0 → ∃ t, exec (.freezeCtl p b) s = .next t ∧
      t.mb.freezeThr = if validBit b 0 then clampN 1 65535 (rd b 8 2) else s.mb.freezeThr) ∧
    (s.Admits p 0xC411 b → rd b 4 4 < 4 → ∃ t, exec (.thaw p b) s = .next t ∧ t.isFrozen (rd b 4 4) = false ∧
      (∀ f, f ≠ rd b 4 4 → t.isFrozen f = s.isFrozen f) ∧ s.Answers t p (ans stSuccess (rd b 4 4))) ∧
    (s.Sound → s.Admits p 0xC430 b → rd b 4 4 < 2 → ∃ t, exec (.hpPortCfg p b) s = .next t ∧
      (t.portAt (rd b 4 4)).share = if validBit b 0 then clampN 4 15 (rd b 8 1) else (s.portAt (rd b 4 4)).share)

/-- Rings of the issuing function are registered with their bases aligned and their fields in range, and deregistered (14 R489; 11 R377,
R382, R402). Where the spec is silent the model chooses: the order of the checks is log 16, a pairing that is kept log 60. -/
def Obligations.RingsAreRegistered : Prop :=
  ∀ (s : State) (p : Path) (b : Bytes), s.Sound → who p < 4 →
    (s.Admits p 0xC020 b → rd b 4 4 = 0 → ((s.seen p).fnAt (who p)).ringOn = false → ∃ t q, exec (.fcrRegister p b) s = .next t ∧
      (t.fnAt (who p)).fcr = some q ∧ q.sub = roundDown 4096 (rd b 8 8) ∧ q.comp = roundDown 4096 (rd b 16 8) ∧
      q.slots = pow2Below 6 12 (rd b 24 4) ∧ q.modCount = clampN 1 64 (rd b 30 2) ∧ q.modTime = clampN 1 1000 (rd b 32 2)) ∧
    (s.Admits p 0xC021 b → rd b 4 4 = 0 → ((s.seen p).fnAt (who p)).ringOn = true → ∃ t, exec (.fcrDeregister p b) s = .next t ∧
      (t.fnAt (who p)).fcr = none) ∧
    (s.Admits p 0xC210 b → rd b 4 4 < 16 → s.freeRing (who p) (rd b 4 4) = none → rd b 29 1 ∈ s.qe.bufs →
      ∃ t q, exec (.qeFreeRing p b) s = .next t ∧ t.freeRing (who p) (rd b 4 4) = some q ∧ q.base = roundDown 64 (rd b 8 8) ∧
        q.slots = pow2Below 4 15 (rd b 24 4) ∧ q.region = rd b 29 1 ∧ q.modCount = clampN 1 256 (rd b 30 2)) ∧
    (s.Admits p 0xC211 b → rd b 4 4 < 16 → (s.freeRing (who p) (rd b 4 4)).isSome → ∃ t, exec (.qeFreeRingDereg p b) s = .next t ∧
      t.freeRing (who p) (rd b 4 4) = none) ∧
    (s.Admits p 0xC220 b → rd b 4 4 < 64 → (rd b 36 1).testBit 0 = false → s.egressRing (who p) (rd b 4 4) = none →
      ∃ t r, exec (.qeEgressRing p b) s = .next t ∧ t.egressRing (who p) (rd b 4 4) = some r ∧ r.base = roundDown 4096 (rd b 8 8) ∧
        r.slots = pow2Below 4 15 (rd b 24 4)) ∧
    (s.Admits p 0xC221 b → rd b 4 4 < 64 → (s.egressRing (who p) (rd b 4 4)).isSome → ∃ t, exec (.qeEgressDereg p b) s = .next t ∧
      t.egressRing (who p) (rd b 4 4) = none)

/-- Buffer regions are registered and deregistered, and halted contexts of the queue and counter engines restart (11 R373, R382; 15 R546).
Where the spec is silent the model chooses: the order of the checks is log 16, a link table without media log 9. -/
def Obligations.BufferRegionsAreRegistered : Prop :=
  ∀ (s : State) (p : Path) (b : Bytes),
    (∀ r, s.Admits p 0xC200 b → rd b 4 4 < 64 → s.region (rd b 4 4) = some r → r.base + r.size ≤ 2 ^ 40 → rd b 4 4 ∉ s.qe.bufs →
      s.qe.bufs.length < 4 → ∃ t, exec (.qeBufRegister p b) s = .next t ∧ t.qe = { s.qe with bufs := s.qe.bufs ++ [rd b 4 4] } ∧
        s.Answers t p (ans stSuccess (rd b 4 4))) ∧
    (∀ r, s.Admits p 0xC201 b → rd b 4 4 < 64 → rd b 4 4 ∈ s.qe.bufs → s.region (rd b 4 4) = some r → s.freeCount r = r.cellSpan.2 →
      ∃ t, exec (.qeBufDeregister p b) s = .next t ∧ rd b 4 4 ∉ t.qe.bufs ∧ s.Answers t p (ans stSuccess (rd b 4 4))) ∧
    (s.Admits p 0xC224 b → rd b 4 4 = 0 → ∃ t, exec (.qeCtl p b) s = .next t ∧
      t.qe = { s.qe with ctxHalted := s.qe.ctxHalted &&& ~~~(BitVec.ofNat 40 (rd b 8 8)) }) ∧
    (s.Admits p 0xC305 b → rd b 4 4 = 0 → ∃ t, exec (.ceCtl p b) s = .next t ∧
      t.ce = { s.ce with halted := s.ce.halted &&& ~~~(BitVec.ofNat 12 (rd b 8 8)) })

/-- Control commands of the tiers, the codec, scrubbing, time and the performance monitor set each field whose VALID bit is 1, clamped to
its range, and leave the others (15 R533, R544, R549, R555, R556). Where the spec is silent the model chooses: the order of the checks is
log 16. -/
def Obligations.UnitControlsSetTheirFields : Prop :=
  ∀ (s : State) (p : Path) (b : Bytes),
    (s.Admits p 0xC111 b → rd b 4 4 = 0 → ∃ t, exec (.tierCtl p b) s = .next t ∧
      t.tr.migRate = (if validBit b 0 then clampN 1 40 (rd b 8 1) else s.tr.migRate) ∧
      t.tr.sweepRate = (if validBit b 1 then clampN 1 40 (rd b 9 1) else s.tr.sweepRate)) ∧
    (s.Admits p 0xC130 b → validBit b 0 = false → validBit b 1 = false → ∃ t, exec (.cdCtl p b) s = .next t ∧
      t.cd.muckRate = (if validBit b 2 then clampN 1 40 (rd b 10 1) else s.cd.muckRate)) ∧
    (∀ r, s.Admits p 0xC130 b → s.region (rd b 4 4) = some r → r.tier ≠ 0 → rd b 4 4 < 64 → ∃ t x, exec (.cdCtl p b) s = .next t ∧
      t.region (rd b 4 4) = some x ∧ x.effort = (if validBit b 0 then if rd b 8 1 ≤ 1 then rd b 8 1 else 0 else r.effort) ∧
      x.lowPct = (if validBit b 1 then clampN 1 25 (rd b 9 1) else r.lowPct)) ∧
    (s.Admits p 0xC720 b → rd b 4 4 = 0 → ∃ t, exec (.scrubCtl p b) s = .next t ∧
      t.lp.patrolH = (if validBit b 0 then clampN 1 168 (rd b 8 1) else s.lp.patrolH) ∧
      t.lp.rowThr = (if validBit b 1 then clampN 1 15 (rd b 9 1) else s.lp.rowThr) ∧
      t.lp.rowWin = (if validBit b 2 then clampN 1 168 (rd b 10 1) else s.lp.rowWin) ∧
      t.lp.devThr = (if validBit b 3 then clampN 1 64 (rd b 11 1) else s.lp.devThr) ∧
      t.lp.resilverRate = (if validBit b 4 then clampN 1 80 (rd b 12 1) else s.lp.resilverRate)) ∧
    (s.Admits p 0xC250 b → rd b 4 4 = 0 → ∃ t, exec (.tuCtl p b) s = .next t ∧
      t.tu.ptmMs = (if validBit b 2 then clampN 1 1000 (rd b 10 2) else s.tu.ptmMs) ∧
      t.tu.ppsDelay = (if validBit b 3 then clampN 0 1000000 (rd b 12 4) else s.tu.ppsDelay) ∧
      t.tu.stepThr = (if validBit b 4 then clampN 1 1000000 (rd b 16 4) else s.tu.stepThr) ∧
      t.tu.ptmOffset = (if validBit b 5 then signed 64 (rd b 24 8) else s.tu.ptmOffset)) ∧
    (s.Admits p 0xC251 b → rd b 4 4 = 0 → s.tu.mode ≠ .acquiring → s.tu.mode ≠ .locked → ∃ t, exec (.tuSet p b) s = .next t ∧
      t.tu.ns40 = (rd b 16 6 * 1000000000 + clampN 0 999999999 (rd b 8 4)) * 2 ^ 40) ∧
    (s.Admits p 0xC600 b → rd b 4 4 < 512 → ∃ t, exec (.pmCfg p b) s = .next t ∧
      (rd b 4 4 ∈ t.pm.en ↔ (rd b 10 1).testBit 0 = true) ∧
      (eventListed (rd b 8 2 % 4096) = true → sget 0 t.pm.evt (rd b 4 4) = rd b 8 2 % 4096) ∧
      (∀ c, c ≠ rd b 4 4 → sget 0 t.pm.evt c = sget 0 s.pm.evt c)) ∧
    (s.Admits p 0xC601 b → rd b 4 4 = 0 → ∃ t, exec (.pmDumpCfg p b) s = .next t ∧ t.pm.base = roundDown 4096 (rd b 8 8) ∧
      t.pm.records = pow2Below 1 16 (rd b 16 4) ∧ t.pm.interval = min 1000000 (rd b 20 4))

/-- Fault control: the pin threshold and the quiet period; the default configuration of a source; the first-fault record, the log and the
recovery counters cleared (15 R552; 16 R567, R576, R581, R582). Where the spec is silent the model chooses: the order of the checks is log
16, the records of FC log 72. -/
def Obligations.FaultControlsSet : Prop :=
  ∀ (s : State) (p : Path) (b : Bytes),
    (s.Admits p 0xC401 b → rd b 4 4 = 0 → ∃ t, exec (.faultCtl p b) s = .next t ∧
      t.fc.pinThr = (if validBit b 0 then clampN 0 4 (rd b 8 1) else s.fc.pinThr) ∧
      t.fc.quiet = (if validBit b 1 then clampN 1 3600 (rd b 12 4) else s.fc.quiet)) ∧
    (s.Admits p 0xC400 b → (sourceInfo (rd b 4 4)).isSome → (rd b 21 1).testBit 0 = true →
      (∀ r e, (s.srcAt (rd b 4 4)).walk ≠ .window r e) → ∃ t, exec (.faultCfg p b) s = .next t ∧
        oget t.fc.cfg (rd b 4 4) = none ∧ s.Answers t p (ans stSuccess (rd b 4 4))) ∧
    (s.Admits p 0xC403 b → rd b 4 4 = 0 → ∃ t, exec (.faultClear p b) s = .next t ∧
      (rd b 8 1 = 0 → t.fc.first = none ∧ t.fc.log = s.fc.log) ∧ (rd b 8 1 = 1 → t.fc.log = [] ∧ t.fc.first = s.fc.first) ∧
      (rd b 8 1 = 2 → t.fc.recov = 0 ∧ t.fc.log = s.fc.log ∧ t.fc.first = s.fc.first))

/-- Class B commands of the engines are accepted with a handle and a running operation, and answer BACKGROUND_STARTED (14 R493, R503):
reclaiming, clearing counters, flushing a long queue, way groups, the re-key sweep, the fuses, and ranges above 1 MiB. Where the spec is
silent the model chooses: handles are log 11, that a command itself takes no time log 51, the return code log 85. -/
def Obligations.BackgroundCommandsStart : Prop :=
  ∀ (s : State) (p : Path) (b : Bytes), s.bgRoom (who p) = true →
    (s.Admits p 0xC212 b → who p < 4 → 4 ≤ rd b 8 1 → ∃ t, exec (.qeReclaim p b) s = .next t ∧ s.Starts t 0xC212 (rd b 4 4) p) ∧
    (∀ c, s.Admits p 0xC303 b → rd b 4 4 < 4096 → s.ceSet (rd b 4 4) = some c →
      ∃ t, exec (.ceClear p b) s = .next t ∧ s.Starts t 0xC303 (rd b 4 4) p) ∧
    (s.Admits p 0xC222 b → rd b 4 4 < 262144 → ownerHas (s.queueAt (rd b 4 4)).owner (who p) = true →
      s.flushing (rd b 4 4) = false → 4096 < (s.queueAt (rd b 4 4)).packets →
      ∃ t, exec (.qeFlush p b) s = .next t ∧ s.Starts t 0xC222 (rd b 4 4) p) ∧
    (s.Admits p 0xC510 b → rd b 4 4 = 0 → (∀ o ∈ s.running, ∀ x y, o.work ≠ .ways x y) →
      ∃ t, exec (.nsWays p b) s = .next t ∧ s.Starts t 0xC510 0 p) ∧
    (s.Admits p 0xC710 b → rd b 4 4 = 0 → s.sx.sweep = true → s.sx.halted = true →
      ∃ t, exec (.rekeyStart p b) s = .next t ∧ s.Starts t 0xC710 0 p) ∧
    (s.Admits p 0xC722 b → s.fu.soft ≠ [] → 0 < s.fu.burnsLeft →
      ∃ t, exec (.fuseBurn p b) s = .next t ∧ s.Starts t 0xC722 (rd b 4 4) p) ∧
    (∀ n r, s.Admits p 0xC700 b → s.regionAt (rd b 8 8 / 64 * 64) = some (n, r) → ownerHas r.owner (who p) = true →
      2 ^ 20 < min (fixRange (rd b 16 8)) (r.base + r.size - rd b 8 8 / 64 * 64) →
      ∃ t, exec (.zeroRange p b) s = .next t ∧ s.Starts t 0xC700 (rd b 4 4) p) ∧
    (∀ n r, s.Admits p 0xC701 b → s.regionAt (rd b 8 8 / 64 * 64) = some (n, r) → ownerHas r.owner (who p) = true →
      2 ^ 20 < min (fixRange (rd b 16 8)) (r.base + r.size - rd b 8 8 / 64 * 64) →
      ∃ t, exec (.nsMaint p b) s = .next t ∧ s.Starts t 0xC701 (rd b 4 4) p)

/-- PW_ENTER starts an entry: the state is ENTERING with its target and every session has ended; PW_WAKE answers while a wake runs; MC_SPEED
starts the change of the data rate; PPR_CTL takes the rank of the first row with a resource left out and repairs those rows (17 R599 to
R601, R613; 09 R340, R341; 07 R255). Where the spec is silent the model chooses: an entry in two stages is log 79. -/
def Obligations.PowerAndMemoryCommandsStart : Prop :=
  ∀ (s : State) (p : Path) (b : Bytes), s.bgRoom (who p) = true →
    (s.Admits p 0xC500 b → rd b 4 4 = 0 → rd b 8 1 = 1 → (s.seen p).entryBusy = false →
      ∃ t, exec (.pwEnter p b) s = .next t ∧ t.pw.state = .entering ∧ t.pw.target = 1 ∧ t.mb.sessions = []) ∧
    (s.pw.state = .waking → s.Admits p 0xC501 b → rd b 4 4 = 0 → ∃ t, exec (.pwWake p b) s = .next t ∧ s.Starts t 0xC501 0 p) ∧
    (∀ k < 12, s.Admits p 0xC520 b → rd b 4 4 = 0 → s.mc.speed = none → s.fenced k = false →
      ∃ t o, exec (.mcSpeed p b) s = .next t ∧ o ∈ t.mb.ops ∧ o.work = .speed ∧ o.running = true ∧ o.who = who p) ∧
    (∀ pop x rest, s.Admits p 0xC721 b → rd b 4 4 < 12 → (s.chan (rd b 4 4)).pop = some pop → s.fenced (rd b 4 4) = false →
      (s.lp.resilver.getD (rd b 4 4) Resilver.none).active = false →
      (s.holdsPlain (rd b 4 4) = false ∨ (rd b 16 1).testBit 0 = true) →
      (pprRows s (rd b 4 4) (applyRules (pprRules pop b) b).1).filter s.hardLeft = x :: rest →
      ∃ t o, exec (.pprCtl p b) s = .next t ∧ o ∈ t.mb.ops ∧ o.work = .ppr (rd b 4 4) (x :: rest) ∧ o.running = true ∧
        o.who = who p ∧ t.lp.rankOut = s.lp.rankOut ++ [(rd b 4 4, rowSub x, rowRank x)])

/-- MC_CTL with ACTION 0 sets a channel's age limit, write CRC and retraining threshold (09 R347; 15 R556). -/
def Obligations.ChannelControlsSet : Prop :=
  ∀ (s : State) (p : Path) (b : Bytes), s.Sound → s.Admits p 0xC730 b → rd b 4 4 < 12 → (s.chan (rd b 4 4)).pop.isSome → rd b 8 1
    = 0 →
    s.mb.sActive.length < 4 → ∃ t, exec (.mcCtl p b) s = .next t ∧
      (t.chan (rd b 4 4)).ageLimit = (if validBit b 0 then clampN 200 20000 (rd b 10 2) else (s.chan (rd b 4 4)).ageLimit) ∧
      (t.chan (rd b 4 4)).wcrc = (if validBit b 1 then decide (rd b 12 1 = 1) else (s.chan (rd b 4 4)).wcrc) ∧
      (t.chan (rd b 4 4)).retrainThr = (if validBit b 2 then clampN 16 4096 (rd b 14 2) else (s.chan (rd b 4 4)).retrainThr) ∧
      (∀ c, c ≠ rd b 4 4 → t.chan c = s.chan c)

/-- Diagnostics: a read of the control address space answers the registers' values in order, a write applies each register's own rule, and
an access that names a reserved window or crosses one completes CONTROL_RANGE with no effect; a granule of a region that is not compressed
completes NOT_COMPRESSED, a poisoned one GRANULE_POISONED with its descriptor, and any other gives descriptor, pointers and stored bytes (01
R32; 15 R530, R558, R559). Where the spec is silent the model chooses: granules in T1 frames and DPAs in no region are log 41. -/
def Obligations.DiagnosticsAnswer : Prop :=
  ∀ (s : State) (p : Path) (b : Bytes), rd b 4 4 = 0 →
    (∀ a l, a = roundDown 4 (rd b 8 8) → l = clampN 4 4096 ((rd b 16 2 + 1) / 4 * 4) →
      (s.Admits p 0xC800 b → badWindow a l = false → ∃ t, exec (.diagCtrlRead p b) s = .next t ∧
        s.Answers t p (ans (okStatus (applyRules diagRules b).2) 0 ((s.seen p).readWords a (l / 4)).2)) ∧
      (s.Admits p 0xC800 b → badWindow a l = true →
      ∃ t, exec (.diagCtrlRead p b) s = .next t ∧ s.ReadsOnly t p (ans stControlRange 0)) ∧
      (s.Admits p 0xC801 b → badWindow a l = true →
      ∃ t, exec (.diagCtrlWrite p b) s = .next t ∧ s.ReadsOnly t p (ans stControlRange 0))) ∧
    (s.Admits p 0xC800 b → rd b 8 8 = 0x10000C → rd b 16 2 = 4 → ∃ t, exec (.diagCtrlRead p b) s = .next t ∧
      s.Answers t p (ans stSuccess 0 (le 4 s.mb.freezeThr))) ∧
    (s.Admits p 0xC801 b → rd b 8 8 = 0x10000C → rd b 16 2 = 4 → 28 ≤ b.length → ∃ t, exec (.diagCtrlWrite p b) s = .next t ∧
      t.mb.freezeThr = clampN 1 65535 (rd b 24 4 % 65536)) ∧
    (∀ n r, s.Admits p 0xC810 b → s.regionAt (roundDown 512 (rd b 8 8)) = some (n, r) →
      (r.tier = 0 → ∃ t, exec (.cdGranuleRead p b) s = .next t ∧ s.ReadsOnly t p (ans stNotCompressed 0)) ∧
      (∀ v k, r.tier = 1 → k = (roundDown 512 (rd b 8 8) - r.base) / 512 → ((s.seen p).descGet n k 15).2 = some v →
        (field v 62 2 = 3 → ∃ t, exec (.cdGranuleRead p b) s = .next t ∧ s.Answers t p (ans stGranulePoisoned 0 (le 8 v))) ∧
        (field v 62 2 ≠ 3 → ∃ t g, exec (.cdGranuleRead p b) s = .next t ∧
          g = (((s.seen p).descGet n k 15).1.readGranAt n k 15 0 r v).2 ∧ s.Answers t p
            (ans (okStatus (applyRules [⟨8, 8, roundDown 512⟩] b).2) 0 (le 8 v ++ (g.ptrs.map (fun x => le 8 x)).flatten ++
            g.stored)))))

/-- Firmware: TRANSFER_FW of a part into the inactive slot runs in the background; an offline ACTIVATE_FW of a good image takes effect at
the next cold start (17 R626; 14 R520; 15 R560). Where the spec is silent the model chooses: payload layouts are log 14, the parts of an
image log 55. -/
def Obligations.FirmwareCommands : Prop :=
  ∀ (s : State) (p : Path) (b : Bytes),
    (s.Admits p 0x0201 b → s.bgRoom (who p) = true → rd b 0 1 = 1 → ∃ t o, exec (.transferFw p b) s = .next t ∧ o ∈ t.mb.ops ∧
      o.running = true ∧ o.work = .transferFw 1 (rd b 1 1 - 1) (rd b 4 4) (b.drop 128)) ∧
    (s.Admits p 0x0202 b → rd b 0 1 = 1 → 1 ≤ rd b 1 1 → rd b 1 1 ≤ 2 → s.pw.cold = .done →
      (s.mb.slots.getD (rd b 1 1 - 1) ⟨false, 0, 0, []⟩).good = true →
      s.fu.svn ≤ (s.mb.slots.getD (rd b 1 1 - 1) ⟨false, 0, 0, []⟩).svn →
      ∃ t, exec (.activateFw p b) s = .next t ∧ t.mb.bootSlot = rd b 1 1 - 1 ∧ t.mb.slot = s.mb.slot ∧
      s.Answers t p (std rcSuccess))

/-- ABORT and REQUEST_ABORT end a running reclaim with ABORTED; BACKGROUND_OPERATION_END completes it (14 R493, R503, R504). Where the spec
is silent the model chooses: how operations advance and end is log 80, a stop no rule states log 28. -/
def Obligations.BackgroundOperationsEnd : Prop :=
  ∀ (s : State) (p : Path) (b : Bytes) (o : BgOp) (f : Nat), o.work = .reclaim f → o.running = true →
    (s.Admits p 0xC011 b → rd b 8 1 = 0 → s.opAt o.handle = some o → s.mb.ops.find? (fun x => x.handle == rd b 4 4 && x.who ==
      who p) = some o →
      ∃ t, exec (.abort p b) s = .next t ∧ (∃ x, t.opAt o.handle = some x ∧ x.running = false ∧ x.status = stAborted)) ∧
    (s.Admits p 0x0005 b → s.opAt o.handle = some o → s.latestOp p = some o →
      ∃ t, exec (.requestAbortBackgroundOperation p b) s = .next t ∧
      (∃ x, t.opAt o.handle = some x ∧ x.running = false ∧ x.status = stAborted)) ∧
    (s.opAt o.handle = some o → s.narayUp = true → ∃ t, exec (.backgroundOperationEnd o.handle) s = .next t ∧
      (∃ x, t.opAt o.handle = some x ∧ x.running = false))

/-! ### The host ports (02) -/

/-- Writes to the doorbell page move a ring's count where it stays within the ring, and are HP_BAD_ACCESS with no effect on the ring
otherwise; a fetch error halts the fast command ring (02 R74 to R76, R86). Where the spec is silent the model chooses: one ring entry per
fetch is log 25. -/
def Obligations.DoorbellWritesMoveCounts : Prop :=
  (∀ (s : State) (f : Nat) (v : BitVec 32) (q : Fcr), s.ioReach f = true → (s.fnAt f).fcr = some q → (s.fnAt f).ringOn = true →
    ahead (v.toNat % 65536) (s.fnAt f).fcrCons ≤ q.slots →
    ∃ t, exec (.fcrDoorbellWrite f v) s = .next t ∧ (t.fnAt f).fcrProd = v.toNat % 65536) ∧
  (∀ (s : State) (f : Nat) (v : BitVec 32) (q : Fcr), s.ioReach f = true → (s.fnAt f).fcr = some q → (s.fnAt f).ringOn = true →
    q.slots < ahead (v.toNat % 65536) (s.fnAt f).fcrCons →
    ∃ t, exec (.fcrDoorbellWrite f v) s = .next t ∧ t.hp = s.hp ∧ s.Reported t (hpBadAccess (portOf f))) ∧
  (∀ (s : State) (f m : Nat) (v : BitVec 32) (q : FreeRing), s.ioReach f = true → s.freeRing f m = some q →
    ahead v.toNat q.cons ≤ ahead q.prod q.cons →
    ∃ t, exec (.freeRingConsWrite f m v) s = .next t ∧
      t.freeRing f m = some { q with cons := q.cons + ahead v.toNat q.cons, inSlots := q.inSlots.drop (ahead v.toNat q.cons) }) ∧
  (∀ (s : State) (f m : Nat) (v : BitVec 32) (q : FreeRing), s.ioReach f = true → s.freeRing f m = some q →
    ahead q.prod q.cons < ahead v.toNat q.cons →
    ∃ t, exec (.freeRingConsWrite f m v) s = .next t ∧ t.hp = s.hp ∧ s.Reported t (hpBadAccess (portOf f))) ∧
  (∀ (s : State) (f n : Nat) (v : BitVec 32) (q : EgressRing), s.ioReach f = true → s.egressRing f n = some q →
    ahead v.toNat q.cons ≤ ahead q.prod q.cons →
    ∃ t, exec (.egressRingConsWrite f n v) s = .next t ∧ t.egressRing f n = some { q with cons := q.cons + ahead v.toNat q.cons }) ∧
  (∀ (s : State) (f n : Nat) (v : BitVec 32) (q : EgressRing), s.ioReach f = true → s.egressRing f n = some q →
    ahead q.prod q.cons < ahead v.toNat q.cons →
    ∃ t, exec (.egressRingConsWrite f n v) s = .next t ∧ t.hp = s.hp ∧ s.Reported t (hpBadAccess (portOf f))) ∧
  (∀ (s : State) (f : Nat) (q : Fcr), (s.fnAt f).fcr = some q → (s.fnAt f).ringOn = true → q.fetching ≠ 0 →
    ∃ t, exec (.fcrFetchError f) s = .next t ∧ (t.fnAt f).fcrHalted = true ∧ s.Reported t (hpFcrFetch (portOf f)))

/-- The interrupt registers and the bus master bit of a function: writing 1 to INT_CAUSE clears, INT_ENABLE is written, an unmask opens a
vector or the function, and every other function stays as it was (02 R77, R80, R85). Where the spec is silent the model chooses: MSI-X
fields are log 14. -/
def Obligations.InterruptRegistersAreWritten : Prop :=
  ∀ (s : State) (f : Nat), s.ioReach f = true →
    (∀ v : BitVec 32, ∃ t, exec (.intCauseWrite f v) s = .next t ∧
      (t.fnAt f).intCause = (s.fnAt f).intCause &&& ~~~(v.setWidth 8) ∧ ∀ g, g ≠ f → t.fnAt g = s.fnAt g) ∧
    (∀ v : BitVec 32, ∃ t, exec (.intEnableWrite f v) s = .next t ∧ (t.fnAt f).intEnable = v.setWidth 8 ∧
      ∀ g, g ≠ f → t.fnAt g = s.fnAt g) ∧
    (∀ v, ∃ t, exec (.msixVectorUnmask f (some v)) s = .next t ∧ (t.fnAt f).msixMask = (s.fnAt f).msixMask &&& ~~~(1#256 <<< v) ∧
      ∀ g, g ≠ f → t.fnAt g = s.fnAt g) ∧
    (∃ t, exec (.msixVectorUnmask f none) s = .next t ∧ (t.fnAt f).fnMask = false ∧ ∀ g, g ≠ f → t.fnAt g = s.fnAt g) ∧
    (∃ t, exec (.busMasterEnableSet f) s = .next t ∧ (t.fnAt f).bme = true ∧ ∀ g, g ≠ f → t.fnAt g = s.fnAt g) ∧
    (∃ t, exec (.busMasterEnableClear f) s = .next t ∧ (t.fnAt f).bme = false ∧ ∀ g, g ≠ f → t.fnAt g = s.fnAt g)

/-- Other registers of a host: Max Payload Size and the write of a doorbell register through BAR0, a write of a wrong size as HP_BAD_ACCESS,
a register of a control node with its clamp, and the commit of a decoder (00 R13, R14; 02 R59, R62, R65 to R67; 14 R526). Where the spec is
silent the model chooses: PCI Express fields are log 14, commits of decoders log 67 and 94. -/
def Obligations.HostRegistersAreWritten : Prop :=
  ∀ (s : State) (f : Nat), s.ioReach f = true →
    (∀ v : BitVec 64, v.toNat < 6 → ∃ t, exec (.registerWrite (.config f .maxPayload) 4 v) s = .next t ∧
      (t.fnAt f).mps = 128 * 2 ^ v.toNat) ∧
    (∀ v : BitVec 64, ∃ t, exec (.registerWrite (.bar0 f 0x6000014) 4 v) s = .next t ∧ (t.fnAt f).intEnable = v.setWidth 8) ∧
    (∀ v : BitVec 64, ∃ t, exec (.registerWrite (.bar0 f 0x6000014) 2 v) s = .next t ∧ t.hp = s.hp ∧
      s.Reported t (hpBadAccess (portOf f))) ∧
    (∀ v : BitVec 64, ∃ t, exec (.registerWrite (.node 1 0xC) 4 v) s = .next t ∧
      t.mb = { s.mb with freezeThr := clampN 1 65535 (v.toNat % 65536) }) ∧
    (∀ (i : Nat) (d : DecoderCfg), i < 8 → i < (s.fnAt f).decoders.length →
      ((s.fnAt f).decoders.getD i Decoder.reset).committed = false →
      (decoderLegal d = true → (s.fnAt f).inTurn i d = true → ∃ t, exec (.hdmDecoderCommit f i d) s = .next t ∧
        (t.fnAt f).decoders.getD i Decoder.reset = ⟨d, true, false, (s.fnAt f).dpaBase i d⟩ ∧ ∀ g, g ≠ f → t.fnAt g = s.fnAt g) ∧
      ((decoderLegal d = false ∨ (s.fnAt f).inTurn i d = false) → ∃ t, exec (.hdmDecoderCommit f i d) s = .next t ∧
        (t.fnAt f).decoders.getD i Decoder.reset = ⟨d, false, true, 0⟩ ∧ ∀ g, g ≠ f → t.fnAt g = s.fnAt g))

/-- Reading SC_WHEEL_LAG, MB_LAT_F and MB_LAT_S returns and clears them; reading TU_TIME_S latches TU_TIME_NS (00 R14;
12 R456, R457; 14 R526). A latency within its bound is a free value (log 3), so the value is at least the bound misses known. -/
def Obligations.ReadsThatClear : Prop :=
  ∀ s : State,
    (∃ t, exec .scWheelLagRead s = .next t ∧ t.sc = { s.sc with wheelLag := 0 } ∧ t.out = s.out ++ [.regValue s.sc.wheelLag]) ∧
    (∃ t v, exec .mbLatFRead s = .next t ∧ t.mb = { s.mb with latF := 0, nF := 0 } ∧ t.out = s.out ++ [.regValue v] ∧
      s.mb.latF ≤ v ∧
      (s.mb.nF = 0 → v = s.mb.latF)) ∧
    (∃ t v, exec .mbLatSRead s = .next t ∧ t.mb = { s.mb with latS := 0, nS := 0 } ∧ t.out = s.out ++ [.regValue v] ∧
      s.mb.latS ≤ v ∧
      (s.mb.nS = 0 → v = s.mb.latS)) ∧
    (∃ t, exec .tuTimeSRead s = .next t ∧ t.tu = { s.tu with latchNs := s.tuNsReg } ∧
      t.out = s.out ++ [.regValue (s.netS % 2 ^ 48)])

/-- Writes to the enqueue and counter windows join the posted-write queue of their port whole and in order; one that breaks the rules of its
window is discarded whole and counted; while the queue has no room the host keeps the write (02 R68 to R71; 01 R49). Where the spec is
silent the model chooses: a poisoned write is log 68, a write without room log 91. -/
def Obligations.WindowWritesArePosted : Prop :=
  ∀ (s : State) (f w o : Nat) (d : Bytes), s.Sound → s.ioReach f = true → (s.fnAt f).viral = false → s.isFrozen f = false →
    (s.portAt (portOf f)).stalled = [] → d.length ≤ 256 →
    ((s.portAt (portOf f)).postedUsed ≤ 508 →
      (o % 32 = 0 → d.length % 32 = 0 → 32 ≤ d.length → o + d.length ≤ 65536 →
        ∃ t, exec (.enqueueWindowWrite f w o d true false) s = .next t ∧
          (t.portAt (portOf f)).posted = (s.portAt (portOf f)).posted ++ [⟨f, w, true, pieces 32 (d.length / 32) d⟩]) ∧
      (o % 64 = 0 → d.length % 64 = 0 → 64 ≤ d.length → o + d.length ≤ 65536 →
        ∃ t, exec (.counterUpdateWindowWrite f w o d true false) s = .next t ∧
          (t.portAt (portOf f)).posted = (s.portAt (portOf f)).posted ++ [⟨f, w, false, pieces 16 (d.length / 16) d⟩]) ∧
      (o % 32 ≠ 0 → ∃ t, exec (.enqueueWindowWrite f w o d true false) s = .next t ∧
        (t.portAt (portOf f)).posted = (s.portAt (portOf f)).posted ∧ t.qe.malformed = satAdd (2 ^ 32 - 1) s.qe.malformed 1) ∧
      (o % 64 ≠ 0 → ∃ t, exec (.counterUpdateWindowWrite f w o d true false) s = .next t ∧
        (t.portAt (portOf f)).posted = (s.portAt (portOf f)).posted ∧ t.ce.malformed = satAdd (2 ^ 32 - 1) s.ce.malformed 1)) ∧
    (512 < (s.portAt (portOf f)).postedUsed + (d.length + 63) / 64 → ∃ t, exec (.enqueueWindowWrite f w o d true false) s = .next t ∧
      (t.portAt (portOf f)).stalled = [⟨true, f, w, o, d, true, false⟩] ∧
      (t.portAt (portOf f)).posted = (s.portAt (portOf f)).posted ∧ t.qe = s.qe)

/-- Links: recovery and its end, training, and the ways a link goes down, each with its link state; a link that comes up serves CXL.io, and
one that goes down without a reset is marked lost (02 R54, R55, R92, R95, R98). Where the spec is silent the model chooses: Max Payload Size
found by training is log 70; the clause on slow links and the two severities are 02 R54, R55. -/
def Obligations.LinksChangeState : Prop :=
  (∀ (s : State) (f : Nat), s.linkL0 f = true →
    ∃ t, exec (.linkRecoveryEntry f) s = .next t ∧ (t.fnAt f).link = .recovery ∧ ∀ g, g ≠ f → t.fnAt g = s.fnAt g) ∧
  (∀ (s : State) (f : Nat), (s.fnAt f).link = .recovery → (s.fnAt f).held = [] →
    ∃ t : State, exec (.linkRecoveryExit f) s = .next t.enterKept ∧ (t.fnAt f).link = .l0) ∧
  (∀ (s : State) (f : Nat) (c : LinkCfg), s.fnExists f = true → s.linkLost f = true → s.mayTrain (portOf f) = true → c.ltssmOk = true →
    s.widthOk f c.width = true →
    ∃ t, exec (.linkUp f c) s = .next t ∧ (t.fnAt f).link = .l0 ∧ (t.fnAt f).mps = c.mps ∧ (t.fnAt f).gts = c.gts ∧
      (t.fnAt f).width = c.width ∧
      ((c.flit68 = true ∨ c.gts < 16) → s.Reported t (hpCxlUnavailable (portOf f)) ∧ t.ioReach f = true ∧
        ∀ q : MemReq, q.fn = f → t.gate q = .lost)) ∧
  severityOf (hpCxlUnavailable 0) = 3 ∧ severityOf (hpCxlUnavailable 1) = 3 ∧
  (∀ (s : State) (f : Nat), s.Quiet → s.fnExists f = true → s.linkLost f = false →
    (∃ t, exec (.hotReset f) s = .next t ∧ (t.fnAt f).link = .down ∧ (t.fnAt f).bme = false ∧ (t.fnAt f).fcr = none) ∧
    (∃ t, exec (.linkDisable f) s = .next t ∧ (t.fnAt f).link = .disabled ∧ (t.fnAt f).bme = false ∧ (t.fnAt f).fcr = none) ∧
    (∃ t, exec (.surpriseLinkDown f) s = .next t ∧ (t.fnAt f).link = .down ∧ (t.fnAt f).lost = true ∧
      (t.fnAt f).bme = (s.fnAt f).bme)) ∧
  (∀ (s : State) (port : Nat), s.Sound → s.Quiet → port < 2 → (s.portAt port).perst = false →
    ∃ t, exec (.perstNAssert port) s = .next t ∧ (t.portAt port).perst = true ∧ ∀ f ∈ s.fnsOf port, (t.fnAt f).link = .down) ∧
  (∀ (s : State) (port : Nat), s.Sound → port < 2 → (s.portAt port).perst = true →
    ∃ t, exec (.perstNRelease port) s = .next t ∧ (t.portAt port).perst = false ∧ t.hp.fns = s.hp.fns)

/-- Resets of a function, viral and link security (02 R89 to R92, R97, R100 to R102). Where the spec is silent the model chooses: a
function-level reset is log 69, link security log 70, the millisecond of flit errors log 95. -/
def Obligations.FunctionsResetAndGoViral : Prop :=
  (∀ (s : State) (f : Nat), s.Quiet → s.ioReach f = true →
    (∃ t, exec (.functionLevelReset f) s = .next t ∧ (t.fnAt f).bme = false ∧ (t.fnAt f).fcr = none ∧ (t.fnAt f).intEnable = 0 ∧
      (t.fnAt f).link = (s.fnAt f).link) ∧
    (∃ t, exec (.cxlReset f) s = .next t ∧ (t.fnAt f).viral = false ∧ (t.fnAt f).decoders = List.replicate 8 Decoder.reset ∧
      (t.fnAt f).link = (s.fnAt f).link)) ∧
  (∀ (s : State) (f : Nat), s.fnExists f = true → s.linkL0 f = true →
    (∃ t, exec (.hostViral f) s = .next t ∧ (t.fnAt f).viral = true) ∧
    ((s.fnAt f).ideOn = true → (s.fnAt f).ideOff = false →
      ∃ t, exec (.ideMacFailure f) s = .next t ∧ (t.fnAt f).viral = true ∧ (t.fnAt f).ideOff = true ∧
        s.Reported t (hpIdeFail (portOf f))) ∧
    (∀ ts, ts = (s.fnAt f).flitTimes.filter (fun x => decide (s.now < x + 1000000)) ++ [s.now] →
      ∃ t, exec (.flitError f) s = .next t ∧ s.Sent t (.errCor f) ∧
        (64 < ts.length → s.Reported t (hpLinkCorrected (portOf f))) ∧
        (ts.length ≤ 64 → t.fc = s.fc ∧ (t.fnAt f).flitTimes = ts))) ∧
  (∀ (s : State) (f : Nat), s.ioReach f = true →
    (∀ v, v = 2 ∨ v = 3 → ∃ t, exec (.spdmDoeMessage f (.authenticate v)) s = .next t ∧
      t.out = s.out ++ [.doe f (.authenticate v)] ∧ (t.fnAt f).spdm = some v ∧ (t.fnAt f).ideOn = (s.fnAt f).ideOn) ∧
    ((s.fnAt f).spdm.isSome = true → (s.fnAt f).ideOff = false → ∃ t, exec (.spdmDoeMessage f .setKeys) s = .next t ∧
      (t.fnAt f).ideOn = true ∧ t.out = s.out ++ [.doe f .setKeys]) ∧
    ((s.fnAt f).spdm = none → ∃ t, exec (.spdmDoeMessage f .setKeys) s = .next t ∧ t.hp = s.hp))

/-! ### Time and the performance monitor (12, 18) -/

/-- The time unit: dialogues on the links of enabled PTM sources, samples, and the loss of the time source (12 R445 to R448). Where the spec
is silent the model chooses: samples and steps are log 62. -/
def Obligations.TimeSourcesAreFollowed : Prop :=
  (∀ s : State, s.tuRuns = true → (s.enabledSource 1 = true ∨ s.enabledSource 2 = true) →
    ∃ t, exec .ptmDialogue s = .next t ∧ t.tu.ptmAt = t.now ∧ t.now = max s.now (s.tu.ptmAt + s.tu.ptmMs * 1000000)) ∧
  (∀ (s : State) (src sec ns : Nat), s.tuRuns = true → (src = 1 ∨ src = 2) → s.enabledSource src = true → s.ptmOpen src = true →
    ∃ t, exec (.ptmSample src true sec ns) s = .next t ∧ sget 0 t.tu.lastValid src = s.now + 1) ∧
  (∀ s : State, s.tuRuns = true → s.enabledSource 3 = true →
    ∃ t, exec .ppsInEdge s = .next t ∧ sget 0 t.tu.lastValid 3 = s.now + 1) ∧
  (∀ s : State, s.tuRuns = true → s.tu.mode = .locked → s.tu.secondary = 0 →
    ∃ t, exec .timeSourceTimeout s = .next t ∧ t.tu.mode = .holdover ∧ t.tu.active = 0 ∧ s.Reported t tuHoldover)

/-- The performance monitor: a latch writes its record and counts it, or is skipped and counted as missed; a parity error restarts a counter
and marks it (18 R640, R641, R644, R646). Where the spec is silent the model chooses: that time moves to the latch is log 1; the clause on
parity is 18 R640. -/
def Obligations.PerformanceRecordsAreLatched : Prop :=
  (∀ s : State, s.pm.interval ≠ 0 → s.awake = true → s.fc.safe = false → s.canSend s.pm.fn = false →
    ∃ t, exec (.pmDumpLatch false) s = .next t ∧ t.pm.seq = (s.pm.seq + 1) % 2 ^ 32 ∧
      t.pm.missed = satAdd (2 ^ 32 - 1) s.pm.missed 1 ∧
      t.out = s.out) ∧
  (∀ s : State, s.pm.interval ≠ 0 → s.awake = true → s.fc.safe = false → s.canSend s.pm.fn = true → (s.fnAt s.pm.fn).viral = false →
    ∃ t, exec (.pmDumpLatch false) s = .next t ∧ t.pm.seq = (s.pm.seq + 1) % 2 ^ 32 ∧ t.pm.missed = s.pm.missed ∧
      t.pm.gap = false) ∧
  (∀ (s : State) (c : Nat), c < 512 → ∃ t, exec (.pmParityError c) s = .next t ∧ sget 0 t.pm.cnt c = 0 ∧ c ∈ t.pm.sticky ∧
    t.pm.parity = satAdd (2 ^ 32 - 1) s.pm.parity 1 ∧ t.fc = s.fc ∧ ∀ d, d ≠ c → sget 0 t.pm.cnt d = sget 0 s.pm.cnt d)

/-! ### Requests of hosts and how lines come back (01, 04, 07, 08) -/

/-- A host's read of a line that the near store holds returns that line, and its write changes the line in the near store, in the bytes it
enables; the first write to an unfilled block of a DIRECT region fills the block (01 R38; 04 R126, R131, R132; 07 R266). Where the spec is
silent the model chooses: that a hit is answered in one step is log 51 and 82, requests kept for want of an entry log 91. -/
def Obligations.HostRequestsHitTheNearStore : Prop :=
  ∀ (s : State) (f hpa dpa n k : Nat) (r : Region) (e : NsLine), s.Clear → s.portFull f = false →
    (s.fnAt f).viral = false →
    s.regionAt dpa = some (n, r) → s.ctrLine (dpa / 64) = none → s.fetchOf (dpa / 64) = none → s.nsFind (dpa / 64) = some (k, e) →
    (∀ nc, s.gate ⟨f, hpa, .read nc⟩ = .to dpa → e.poison = false →
      ∃ t, exec (.cxlmemRead f hpa nc []) s = .next t ∧ t.out = s.out ++ [.readData f hpa e.data false] ∧ t.ns.lines = s.ns.lines) ∧
    (∀ d en, s.gate ⟨f, hpa, .write d en false⟩ = .to dpa → ownerHas r.owner f = true → r.tier = 0 →
      s.lineRegion (dpa / 64) = some (n, r, dpa / 64 * 64 - r.base) →
      ∃ t, exec (.cxlmemWrite f hpa d en false []) s = .next t ∧ t.out = s.out ++ [.writeDone f hpa] ∧
        oget t.ns.lines k = some ⟨nsTag (dpa / 64), true, !decide (en = fullEn) && e.poison, f, mergeLine e.data d en⟩) ∧
    (∀ d en, s.gate ⟨f, hpa, .write d en false⟩ = .to dpa → ownerHas r.owner f = true → r.tier = 0 → s.region n = some r →
      s.lineRegion (dpa / 64) = some (n, r, dpa / 64 * 64 - r.base) →
      ∃ t, exec (.fillOnTouchWrite f hpa d en false) s = .next t ∧ t.out = s.out ++ [.writeDone f hpa] ∧
        t.region n = some (r.touch 0 (dpa / 64 * 64 - r.base)))

/-- A request of a function that is viral or frozen, or outside every decoder, is answered with poison or dropped (02 R101; 14 R517). Where
the spec is silent the model chooses: the record that a drop leaves is log 31, the data of a poisoned answer log 3, an address of no decoder
log 22, requests kept for want of an entry log 91. -/
def Obligations.RefusedRequestsAreDropped : Prop :=
  ∀ (s : State) (f hpa cause : Nat) (d : Line) (en : BitVec 64) (p : Bool), s.Clear → s.portFull f = false →
    (s.gate ⟨f, hpa, .write d en p⟩ = .drop cause → ∃ t, exec (.cxlmemWrite f hpa d en p []) s = .next t ∧
      t = s.emit (.dropLog f hpa cause)) ∧
    (∀ nc, s.gate ⟨f, hpa, .read nc⟩ = .drop cause → s.fnExists f = true → s.linkLost f = false →
      ∃ t x, exec (.cxlmemRead f hpa nc []) s = .next t ∧ t.out = s.out ++ [.readData f hpa x true] ∧ t.fresh = s.fresh + 1)

/-- A codeword comes back for a fetch: one decoded as ADDRESS_ERROR is read again, and one that stays so waits for repair; a repair or a
good tag result ends the fetch (07 R234, R243; 08 R285, R286). Where the spec is silent the model chooses: which reads take several steps is
log 82, what the array gives log 15, what enters once a fetch ends log 91. -/
def Obligations.FetchedLinesComeBack : Prop :=
  (∀ (s : State) (f : Fetch) (n off : Nat) (r : Region), s.fetchOf f.line = some f →
    f.stage = .waiting → s.idQueued f.id = false →
    s.lineRegion f.line = some (n, r, off) → r.tier = 0 → s.readable f.copy (r.loc r.data off).cla = true →
    s.holding f.copy = false → ((s.upset ⟨[], []⟩).decodeCopy ⟨[], []⟩ (r.loc r.data off) r.scramble f.copy).1 = .addressError →
    ∃ t : State, exec (.dramReadReturn f.line ⟨[], []⟩) s = .next t.enterKept ∧ t.fetchOf f.line = some { f with stage := .reread }) ∧
  (∀ (s : State) (f : Fetch) (n off : Nat) (r : Region), s.fetchOf f.line = some f → f.stage = .reread →
    s.lineRegion f.line = some (n, r, off) → r.tier = 0 →
    ((s.upset ⟨[], []⟩).decodeCopy ⟨[], []⟩ (r.loc r.data off) r.scramble f.copy).1.good = false →
    ∃ (t : State) (d : Line), exec (.addressErrorReread f.line ⟨[], []⟩) s = .next t.enterKept ∧
      t.fetchOf f.line = some { f with stage := .repair false true d }) ∧
  (∀ (s : State) (f : Fetch) (env : ReadEnv) (tag addr : Bool) (d : Line) (n off : Nat) (r : Region),
    s.ns.victims.length < 64 → s.fetchOf f.line = some f → f.stage = .repair tag addr d → s.lineRegion f.line = some (n, r, off) → r.tier = 0 →
    ∃ t : State, exec (.lineRepair f.line env) s = .next t.enterKept ∧ t.fetchOf f.line = none) ∧
  (∀ (s : State) (f : Fetch) (d : Line) (p c : Bool), s.ns.victims.length < 64 → s.fetchOf f.line = some f →
    f.stage = .spec d p true →
    ∃ t : State, exec (.specVerifyResult f.line c) s = .next t.enterKept ∧ t.fetchOf f.line = none)

/-- The near store: an acknowledged write-back releases its victim, an answer to an offer releases it, a host's answer to a snoop ends the
snoop, a scrubbed tag is reported, and a way group is off or on once its walk is over (01 R43; 04 R129, R136, R137, R151, R152, R159). Where
the spec is silent the model chooses: the victim buffer is log 35, events that cannot happen log 6, misses that wait for an entry log 35. -/
def Obligations.NearStoreEventsEnd : Prop :=
  (∀ (s : State) (l : Nat) (v : Victim), (∀ x ∈ s.rr.fetches, ∀ d p i, x.stage ≠ .room d p i) →
    s.ns.victims.find? (fun x => x.line == l && x.ent.dirty) = some v →
    ∃ t, exec (.writebackAck l) s = .next t ∧ t.ns.victims = s.ns.victims.eraseP (fun x => x.line == l && x.ent.dirty)) ∧
  (∀ (s : State) (l : Nat) (v : Victim), (∀ x ∈ s.rr.fetches, ∀ d p i, x.stage ≠ .room d p i) →
    s.ns.victims.find? (fun x => x.line == l && x.offer) = some v → v.hit = false →
    ∃ t, exec (.evictionOfferAnswer l) s = .next t ∧ t.ns.victims = s.ns.victims.eraseP (fun x => x.line == l && x.offer)) ∧
  (∀ (s : State) (f l : Nat), s.Sound → s.Quiet → f < 4 → (f, l) ∈ (s.portAt (portOf f)).snoops →
    ∃ t, exec (.backInvalidateResponse f l) s = .next t ∧ (t.portAt (portOf f)).snoops = (s.portAt (portOf f)).snoops.erase (f,
      l)) ∧
  (∀ (s : State) (q set way : Nat), q < 4 → s.awake = true → set < 2 ^ 14 → way < 16 → s.wayLive way = true → q < s.ns.errLoc.length →
    ∃ t, exec (.nsTagScrub q [(set, way)]) s = .next t ∧ t.ns.errLoc.getD q 0 = set + way * 2 ^ 14 + 3 * 2 ^ 18 ∧
      s.Reported t (nsTagLost q) ∧ oget t.ns.lines (nsKey q set way) = none ∧
      t.now = max s.now (s.ns.tagAt.getD q 0 + s.ns.tagScrub.getD q 100 * 1000000)) ∧
  (∀ (s : State) (g : Nat) (rest : List Nat), s.groupsIn .draining = g :: rest →
    ∃ t, exec .nsWaysDrainDone s = .next t ∧ t.ns.enabled.getLsbD g = false ∧
      (g < s.ns.ways.length → t.ns.ways.getD g .on = .off)) ∧
  (∀ s : State, s.groupsIn .waking ≠ [] →
    ∃ t, exec .nsWaysEnableDone s = .next t ∧ ∀ g ∈ s.groupsIn .waking, t.ns.enabled.getLsbD g = true)

/-! ### The engines: tiers, codec, line protection, scrambler (05 to 08) -/

/-- Heat sweeps take place at the end of their epoch, or of a sweep that took longer; a switch ends its move: a promoted page is T1 in its
frame, a demoted page has no frame and no captured line, before further demotions start; MUCK visits granule by granule (05 R169, R170,
R173, R174; 06 R216; 07 R262). Where the spec is silent the model chooses: a page moves whole at its switch: log 36, what enters after an
engine's access is log 8 and 91. -/
def Obligations.TierEventsMovePages : Prop :=
  (∀ (s : State) (n : Nat) (r : Region), s.region n = some r → r.tier = 2 → s.enginesRun = true → s.bgPaused = false →
    s.tr.paused = false →
    ∃ t, exec (.heatSweep n) s = .next t ∧ t.now = max s.now (max (r.epochAt + r.epoch * 1000000) r.sweepEnd)) ∧
  (∀ (s : State) (n page : Nat) (m : Move) (e : State × PageEnt), s.entryFree 10 = true → s.moveOf n page = some m →
    m.up = true → s.enginesRun = true → s.bgPaused = false → s.tr.paused = false →
    e = ((s.pageRead n page 10).1.frameWrite n m.frame 10 (granLines (s.pageRead n page 10).2)).pageGet n page 10 →
    (e.1.moveOf n page).isSome = true →
    ∃ x y : State, exec (.promotionSwitch n page) s = .next (((y.count 16 0).startDemotions n 32).engineDone 10) ∧
      x = (e.1.zeroGrans n page 10).pageSet n page 10 { e.2 with state := 1, frame := m.frame } ∧
      y = { x with tr := { x.tr with moves := x.tr.moves.filter (fun z => !(z.region == n && z.page == page)) } }) ∧
  (∀ (s : State) (n page : Nat) (m : Move) (b : State × Bool), s.entryFree 10 = true → s.moveOf n page = some m →
    m.up = false → s.enginesRun = true → s.bgPaused = false → s.tr.paused = false →
    b = (s.frameLines n page m.frame).1.storePage n page (s.frameLines n page m.frame).2 → b.2 = true →
    ((b.1.pageGet n page 10).1.moveOf n page).isSome = true →
    ∃ x : State, exec (.demotionSwitch n page) s = .next (((x.count 16 2).startDemotions n 32).engineDone 10) ∧
      (∀ y ∈ x.tr.moves, ¬(y.region = n ∧ y.page = page)) ∧ (∀ c ∈ x.tr.captures, ¬(c.region = n ∧ c.page = page)) ∧
      ∀ r, x.region n = some r → ∀ e ∈ r.frames, e.1 ≠ page) ∧
  (∀ (s : State) (r : Region), s.entryFree 14 = true → s.bgPaused = false → s.cd.muckHalted = false → 0 ∉ s.cd.isolated →
    s.region s.cd.muckRegion = some r → r.tier ≠ 0 → s.cd.muckPos + 1 < r.size / 512 →
    ∃ t : State, exec (.muckVisit false) s = .next (t.engineDone 14) ∧ t.cd.muckPos = s.cd.muckPos + 1) ∧
  (∀ s : State, s.entryFree 14 = true → s.bgPaused = false → s.cd.muckHalted = false → 0 ∉ s.cd.isolated →
    ∃ t : State, exec (.muckVisit true) s = .next (t.engineDone 14) ∧ t.cd = { s.cd with muckHalted := true } ∧ s.Reported t cdMuckHalted)

/-- Scrubbing: the patrol passes an unfilled line, a demand read leaves its queue, an error of their reads halts them, a late patrol is
reported, FILL goes on by one block (07 R248 to R251, R262, R264). Where the spec is silent the model chooses: the extent of one FILL_BLOCK
is log 42, a late event log 1, what enters after an engine's access is log 8 and 91. -/
def Obligations.ScrubGoesOn : Prop :=
  (∀ (s : State) (c : Nat) (env : ReadEnv), s.entryFree 11 = true → s.lpRuns = true → s.lp.scrubHalted = false →
    s.fenced c = false → s.lp.patrolPos.getD c 0 + 1 < s.chanLines c → s.lineFilled c (s.lp.patrolPos.getD c 0) = false →
    ∃ t : State, exec (.patrolRead c env false) s = .next (t.engineDone 11) ∧
      t.lp = { s.lp with patrolPos := lset s.lp.patrolPos c (s.lp.patrolPos.getD c 0 + 1) } ∧ t.dram = s.dram) ∧
  (∀ (s : State) (c : Nat) (env : ReadEnv), s.entryFree 11 = true → s.lpRuns = true → s.lp.scrubHalted = false →
    s.fenced c = false → s.chanLines c ≠ 0 →
    ∃ t : State, exec (.patrolRead c env true) s = .next (t.engineDone 11) ∧ t.lp = { s.lp with scrubHalted := true } ∧ s.Reported t lpScrubHalted) ∧
  (∀ (s : State) (c cla : Nat) (rest : List (Nat × Nat)), s.entryFree 11 = true → s.enginesRun = true →
    s.lp.scrubHalted = false → s.lp.demandQ = (c, cla) :: rest →
    (s.readable c cla = false →
      ∃ t : State, exec (.demandScrub ⟨⟨[], []⟩, false⟩) s = .next (t.engineDone 11) ∧ t.lp = { s.lp with demandQ := rest } ∧ t.dram = s.dram) ∧
    (∃ t : State, exec (.demandScrub ⟨⟨[], []⟩, true⟩) s = .next (t.engineDone 11) ∧ t.lp = { s.lp with scrubHalted := true } ∧ s.Reported t lpScrubHalted)) ∧
  (∀ (s : State) (c : Nat), c < 12 → c < s.lp.patrolLate.length → s.fenced c = false → s.lp.patrolLate.getD c false = false →
    ∃ t, exec (.patrolLate c) s = .next t ∧ t.lp.patrolLate.getD c false = true ∧ s.Reported t lpPatrolLate ∧
      t.now = max s.now (s.lp.patrolStart.getD c 0 + s.lp.patrolH * hourNs / 10 * 11)) ∧
  (∀ (s : State) (b : Nat), s.entryFree 13 = true → s.bgPaused = false → s.lp.fillHalted = false → s.lp.paused = false →
    s.mediaReady = true → s.rg.qstate.toFill = some b →
    ∃ t : State, exec (.fillBlock false) s = .next (t.engineDone 13) ∧ t.rg = { s.rg with qstate := s.rg.qstate.fill b })

/-- Failing rows and channels: a row whose window ends is forgotten, a hard row is repaired by soft PPR or its pages are retired, hard PPR
brings its rank back with a resilver pass, and the pass goes on line by line to LP_RESILVER_DONE (07 R245, R253 to R256). Where the spec is
silent the model chooses: the count of a new row is log 48, what a soft PPR resource belongs to log 86, what enters after an engine's access
is log 8 and 91. -/
def Obligations.RowsAreRepaired : Prop :=
  (∀ (s : State) (row : Nat) (e : RowErr), s.lp.rows.find? (fun x => x.row == row) = some e →
    ∃ t, exec (.rowErrorWindowEnd row) s = .next t ∧ (∀ x ∈ t.lp.rows, x.row ≠ row) ∧
      t.now = max s.now (e.start + s.lp.rowWin * hourNs) ∧
      ((∀ x ∈ s.lp.rows, x.count < s.lp.rowThr) → t.lp = { s.lp with rows := s.lp.rows.filter (fun x => x.row != row) }) ∧
      (s.lp.rowThr ≤ e.count → row ∈ t.lp.hardRows)) ∧
  (∀ (s : State) (row : Nat), row ∈ s.lp.hardRows → softRes row ∉ s.lp.softUsed → s.enginesRun = true →
    ∃ t, exec (.softPpr row) s = .next t ∧ row ∉ t.lp.hardRows ∧ t.lp.softUsed = s.lp.softUsed ++ [softRes row] ∧
      (∃ l, t.lp.repairLog = s.lp.repairLog ++ l ++ [.softPpr row]) ∧ (∀ u ∈ t.mc.upsets, u.1 = rowChan row → u.2.1 ∉ s.linesIn row) ∧
      s.Reported t lpPprSoft) ∧
  (∀ (s : State) (c page sp row : Nat) (rest : List (Nat × Nat)), s.enginesRun = true → row ∈ s.lp.hardRows →
    softRes row ∈ s.lp.softUsed → s.hardLeft row = false → s.pageInRow c page row = true →
    (∀ e ∈ s.lp.retired, ¬(e.1 = c ∧ e.2.1 = page)) → takeSpare (s.lp.spareFree.getD c []) = some (sp, rest) →
    (s.lp.retired.filter (fun e => e.1 == c)).length < 131072 →
    ∃ t, exec (.pageRetirement c page) s = .next t ∧ t.lp.retired = s.lp.retired ++ [(c, page, sp)] ∧
      t.lp.spareFree = lset s.lp.spareFree c rest ∧ s.Reported t lpPageRetired) ∧
  (∀ (s : State) (c u r : Nat) (o : BgOp) (x : Nat) (rows : List Nat),
    s.bgOf (repairing c) = some o → o.work = .ppr c (x :: rows) → s.lp.rankOut.find? (fun y => y.1 == c) = some (c, u, r) →
    ∃ t, exec (.hardPprDone c) s = .next t ∧ t.lp.rankOut = s.lp.rankOut.filter (fun y => y.1 != c) ∧
      t.lp.resilver = lset s.lp.resilver c ⟨0, true, some (u, r)⟩) ∧
  (∀ (s : State) (c u r : Nat) (v : Resilver), s.lp.resilver[c]? = some v → v.active = true → v.rank = some (u, r) →
    s.entryFree 11 = true → s.lpRuns = true → s.lp.scrubHalted = false → s.fenced c = false →
    (s.placeOf c (s.remap c v.buoy)).rank ≠ r → v.buoy + 1 < s.chanLines c →
    ∃ t : State, exec (.resilverLine ⟨c, false⟩) s = .next (t.engineDone 11) ∧ t.lp = { s.lp with resilver := lset s.lp.resilver c { v with buoy := v.buoy + 1 } } ∧
      t.dram = s.dram) ∧
  (∀ (s : State) (c : Nat) (v : Resilver), s.lp.resilver[c]? = some v → v.active = true → v.rank = none →
    s.entryFree 11 = true → s.lpRuns = true → s.lp.scrubHalted = false → s.fenced c = false → s.lineFilled c v.buoy = false → s.chanLines c ≤ v.buoy + 1 →
    ∃ t : State, exec (.resilverLine ⟨c, false⟩) s = .next (t.engineDone 11) ∧ t.lp = { s.lp with resilver := lset s.lp.resilver c Resilver.none } ∧
      s.Reported t lpResilverDone)

/-- Keys: a step of the sweep moves the buoy on by one line of every channel, and a key check finds three copies that agree or one that does
not, which it reports (08 R292, R303). Where the spec is silent the model chooses: where the copies of keys lie in the state is the model's
own form, what enters after an engine's access is log 8 and 91. -/
def Obligations.KeysAreSweptAndChecked : Prop :=
  (∀ (s : State) (halt : Bool), s.entryFree 12 = true → s.sx.sweep = true → s.sx.halted = false → s.sx.paused = false → s.bgPaused = false →
    ∃ t : State, exec (.rekeyStep halt) s = .next (t.engineDone 12) ∧ t.sx.buoy = s.sx.buoy + 1) ∧
  (∀ (s : State) (k : BitVec 256), s.sx.key = some k → s.awake = true → s.mbReady = true →
    (∃ t, exec (.keyCheck []) s = .next t ∧ t.sx = { s.sx with copies := 7 } ∧ t.fc = s.fc) ∧
    (∃ t, exec (.keyCheck [1]) s = .next t ∧ t.sx = { s.sx with copies := 5 } ∧ s.Reported t sxKeyCorrected))

/-! ### The channel controllers and bandwidth regulation (09, 10) -/

/-- Refresh: an issued refresh is owed one less, a forced one is counted, and RFM is counted and lowers its bank's RAA counter (09 R323,
R324, R327). Where the spec is silent the model chooses: the RAA limits are free values, log 3. -/
def Obligations.RefreshIsIssued : Prop :=
  ∀ (s : State) (c u rank bank : Nat), s.refreshes c = true → u < 2 → u < (s.chan c).subs.length → bank < 4 →
    rank * 4 + bank ∈ s.refKeys c → s.retryFull c u 1 = false →
    ((∀ q ∈ (s.subAt c u).considered, indexOf (s.bankOf c q) ≠ rank * 4 + bank) → -4 < s.owedNow c u (rank * 4 + bank) →
      ∃ t, exec (.refreshIssue c u rank bank) s = .next t ∧
        sget 0 (t.subAt c u).owed (rank * 4 + bank) = s.owedNow c u (rank * 4 + bank) - 1 ∧ t.dram = s.dram) ∧
    (∃ t, exec (.refreshForced c u rank bank) s = .next t ∧ (t.chan c).refForced = satAdd (2 ^ 32 - 1) (s.chan c).refForced 1) ∧
    (∀ g, Config.raaInitial c ≤ sget 0 (s.subAt c u).raa (rank * 32 + g * 4 + bank) →
      ∃ t, exec (.rfmIssue c u rank g bank) s = .next t ∧ (t.chan c).rfmIssued = satAdd (2 ^ 32 - 1) (s.chan c).rfmIssued 1 ∧
        sget 0 (t.subAt c u).raa (rank * 32 + g * 4 + bank) =
          Config.raaLowered c (sget 0 (s.subAt c u).raa (rank * 32 + g * 4 + bank)))

/-- A command slot of a subchannel passes whatever is issued in it; a request older than the age limit is promoted; alerts replay up to
three times, then the channel is to retrain, and an episode ends; a drift triggers retraining (09 R319, R320, R329, R330, R333, R334). Where
the spec is silent the model chooses: positions in the frame are log 18, calibration and throttling log 66, the retry buffer log 64. -/
def Obligations.ChannelEventsAreServed : Prop :=
  (∀ (s : State) (c u : Nat) (ready : List Nat), s.chanIs c .service = true → u < 2 → u < (s.chan c).subs.length → s.awake = true →
    ∃ t, exec (.subchannelIssue c u ready) s = .next t ∧ (t.subAt c u).slot = ((s.subAt c u).slot + 1) % 1024) ∧
  (∀ (s : State) (c u id : Nat) (q : ChanReq), u < 2 → u < (s.chan c).subs.length → c < s.mc.chans.length →
    ((s.subAt c u).readQ ++ (s.subAt c u).writeQ).find? (fun q => q.tag == id && !q.promoted && !q.held) = some q →
    ∃ t, exec (.agePromotion c u id) s = .next t ∧ { q with promoted := true } ∈ (t.subAt c u).readQ ++ (t.subAt c u).writeQ ∧
      t.now = max s.now (q.at_ + (s.chan c).ageLimit + 1)) ∧
  (∀ (s : State) (c u : Nat), s.chanIs c .service = true → u < 2 → u < (s.chan c).subs.length →
    ((s.subAt c u).alerts < 3 → ∃ t, exec (.alertNAssert c u false) s = .next t ∧ (t.subAt c u).alerts = (s.subAt c u).alerts + 1 ∧
      (t.chan c).caRetries = satAdd (2 ^ 32 - 1) (s.chan c).caRetries 1) ∧
    (3 ≤ (s.subAt c u).alerts → ∃ t, exec (.alertNAssert c u false) s = .next t ∧ (t.subAt c u).alerts = 0 ∧
      (c ∈ t.mc.trigQ ∨ t.mc.training = some c))) ∧
  (∀ (s : State) (c u : Nat), u < 2 → u < (s.chan c).subs.length → c < s.mc.chans.length → (s.subAt c u).alerts ≠ 0 →
    64 ≤ (s.subAt c u).sinceAlert → ∃ t, exec (.alertEpisodeEnd c u) s = .next t ∧ (t.subAt c u).alerts = 0) ∧
  (∀ (s : State) (c r : Nat), s.chanIs c .service = true →
    ∃ t, exec (.dqsTracking c r true) s = .next t ∧ (c ∈ t.mc.trigQ ∨ t.mc.training = some c) ∧ t.mc.chans = s.mc.chans) ∧
  (∀ (s : State) (c r : Nat), exec (.zqCalibration c r) s = .next s) ∧
  (∀ (s : State) (c : Nat) (x : Int), c < 12 → c < s.mc.chans.length → (s.chan c).pop.isSome = true → s.fenced c = false → 85 < x →
    ∃ t, exec (.dimmTempRead c [some x]) s = .next t ∧ (t.chan c).hot = true ∧ (t.chan c).temp = x)

/-- Of the requests whose ACTIVATE is permitted, a scheduler issues one of lowest rank, and only one that no older request to its line, no
blocked bank and no reserved bank holds back (09 R318 to R320, R324, R327). Where the spec is silent the model chooses: classes of slots are
log 18, candidates log 37. -/
def Obligations.SchedulerIssuesInOrder : Prop :=
  ∀ (s : State) (c u : Nat) (ready : List Nat) (q : ChanReq) (own : Option Nat) (cand : List ChanReq),
    s.pickReq c u ready = some (q, own, cand) →
    q ∈ cand ∧ (∀ y ∈ cand, s.rank (s.subAt c u) own q ≤ s.rank (s.subAt c u) own y) ∧ q ∈ (s.subAt c u).considered ∧
      q.held = false ∧ q.tag ∈ ready ∧ (s.subAt c u).behind q = false ∧ s.bankBlocked c u (s.bankOf c q) = false

/-- Training: an error-driven or commanded retraining starts and ends with the channel in service, full training brings a fenced channel
back with a resilver pass, MC_SPEED changes one channel at a time and gives up after its wait, and a cold start trains every channel (09
R331, R332, R335 to R337, R341, R342; 07 R245). Where the spec is silent the model chooses: ends, ties and limits are log 65. -/
def Obligations.ChannelsTrain : Prop :=
  (∀ (s : State) (c : Nat), s.Sound → s.mc.training = none → s.awake = true →
    s.mc.trigQ.find? (fun c => s.chanIs c .service && !s.hardPprOn c) = some c → c < 12 →
    (∀ u ∈ (s.chan c).subs, ∀ q ∈ u.readQ, q.id = 0) →
    ∃ t, exec .retrainingStart s = .next t ∧ t.mc.training = some c ∧ (t.chan c).state = .retraining) ∧
  (∀ (s : State) (c : Nat), s.Sound → s.mc.training = some c → c < 12 → s.mc.speed = none →
    ∃ t, exec (.retrainingDone true) s = .next t ∧ t.mc.training = none ∧ (t.chan c).state = .service ∧
      s.Reported t (mcRetrained c)) ∧
  (∀ (s : State) (c : Nat) (o : BgOp), s.Sound → c < 12 → s.fullTraining c = some o → s.popOk c = true → s.mc.speed = none →
    c < s.lp.resilver.length →
    ∃ t, exec (.fencedChannelRetrainDone c true) s = .next t ∧ (t.chan c).state = .service ∧ (t.chan c).rate = s.mc.rate ∧
      t.lp.resilver.getD c Resilver.none = ⟨0, true, none⟩) ∧
  (∀ (s : State) (v : Speed), s.Sound → s.mc.speed = some v → v.next < 12 → s.chanIs v.next .speedChange = true →
    ∃ t, exec .speedChangeStepDone s = .next t ∧ (t.chan v.next).rate = v.target ∧ (t.chan v.next).state = .service) ∧
  (∀ (s : State) (v : Speed), s.mc.speed = some v → v.started = false →
    ∃ t, exec .speedChangeWaitTimeout s = .next t ∧ t.mc = { s.mc with speed := none } ∧ t.now = max s.now (v.at_ + 50000000)) ∧
  (∀ s : State, s.Sound → s.pw.cold = .step 6 →
    ∃ t, exec (.initialTrainingDone []) s = .next t ∧ ∀ c < 12, s.chanIs c .training = true →
      (t.chan c).state = .service ∧ (t.chan c).rate = s.mc.rate)

/-- Budget windows and service stamps (10 R354, R357, R366). Where the spec is silent the model chooses: when new counts apply is log 38. -/
def Obligations.BandwidthWindowsEnd : Prop :=
  ∀ s : State,
    (∃ t, exec .budgetWindowEnd s = .next t ∧ t.bw = { s.bw with charge := [], lowered := [], window := s.bw.windowNext, windowAt
      := t.now } ∧
      t.now = max s.now (s.bw.windowAt + s.bw.window * 1000)) ∧
    (∃ t, exec .bwStampUpdate s = .next t ∧ t.bw = { s.bw with stampPub := s.bw.stamp } ∧
      (∀ m ∈ t.mc.chans, ∀ u ∈ m.subs, u.own = []))

/-! ### Queues, the scheduler and counters (11, 12, 13) -/

/-- A packet's way: its descriptor is checked and queued, its head line comes, the scheduler selects it, it is read and pushed, and its
ring's moderation time ends; free rings are refilled in turn (11 R381, R388, R399, R400, R403, R405; 12 R422). Where the spec is silent the
model chooses: runs are log 10, a queue and its head line log 50, checks log 56, pushes log 60, what enters after an engine's access is log
8 and 91. -/
def Obligations.PacketsMoveOn : Prop :=
  (∀ (s t : State) (f w : Nat) (rec : Bytes), s.entryFree 8 = true → s.enginesRun = true → s.ctxFree 32 4 = true → s.takeRecord f true = some (t, w, rec) →
    (t.fnAt f).viral = false → t.isFrozen f = false → (descOf rec).reserved = true →
    ∃ x : State, exec (.enqueueDescriptor f none) s = .next ((x.engineDone 8).takeStalled (portOf f)) ∧ x.qe.malformed = satAdd (2 ^ 32 - 1) s.qe.malformed 1) ∧
  (∀ (s t : State) (f w g c : Nat) (rec : Bytes), s.entryFree 8 = true → s.enginesRun = true → s.ctxFree 32 4 = true → s.takeRecord f true = some (t, w,
    rec) →
    (t.fnAt f).viral = false → t.isFrozen f = false → (descOf rec).reserved = false → 1 ≤ (descOf rec).len → (descOf rec).len ≤
      16380 →
    t.heldRun (descOf rec).run = some (f, g, c) → (descOf rec).len + 4 ≤ 2 ^ c * 256 → (descOf rec).freeOnly = false →
    ownerHas (t.queueAt (descOf rec).queue).owner f = true → t.qe.draining = false → (t.queueAt (descOf rec).queue).enabled = true →
    (descOf rec).police = false →
    (t.queueAt (descOf rec).queue).cells + cellsFor (descOf rec).len ≤ (t.queueAt (descOf rec).queue).limit →
    ∃ x : State, exec (.enqueueDescriptor f none) s = .next ((x.engineDone 8).takeStalled (portOf f)) ∧
      (x.queueAt (descOf rec).queue).packets = (s.queueAt (descOf rec).queue).packets + 1 ∧
      (x.queueAt (descOf rec).queue).tail = some (descOf rec).run ∧
      (x.queueAt (descOf rec).queue).cells = (s.queueAt (descOf rec).queue).cells + cellsFor (descOf rec).len ∧
      x.ce.events = s.ce.events ++ [⟨false, (descOf rec).queue, evEnqueue, 1, (descOf rec).len⟩]) ∧
  (∀ (s : State) (q h : Nat), s.entryFree 8 = true → s.enginesRun = true → (s.queueAt q).head = some h → (s.queueAt q).headLine = none → s.sc.nodes = [] →
    s.qe.heads.length < 65536 →
    ∃ t : State, exec (.headLineReturn q) s = .next (t.engineDone 8) ∧ (t.queueAt q).headLine.isSome = true ∧ t.qe.heads = s.qe.heads ++ [q]) ∧
  (∀ (s s1 : State) (runs : List Nat) (q : FreeRing), s.enginesRun = true → s.qe.draining = false → s.ctxFree 36 4 = true →
    s.freeRing (s.qe.rrRing % 64 / 16) (s.qe.rrRing % 64 % 16) = some q → s.freeReady (s.qe.rrRing % 64 / 16) (s.qe.rrRing % 64 %
      16) = true →
    ((s.bufs.find? (fun b => b.1 == q.region)).bind
      (fun b => s.takeRuns (s.qe.rrRing % 64 / 16) (s.qe.rrRing % 64 % 16) q b.2 16 [])) = some (s1, runs) →
    ∃ t x, exec (.freeRingRefill none) s = .next t ∧ t.freeRing (s.qe.rrRing % 64 / 16) (s.qe.rrRing % 64 % 16) = some x ∧
      x.prod = q.prod + 1 ∧ x.inSlots = q.inSlots ++ [runs] ∧ t.qe.rrRing = (s.qe.rrRing % 64 + 1) % 64) ∧
  (∀ (s : State) (d : Deq) (q : Nat), s.enginesRun = true →
    s.qe.deq.find? (fun d => d.queue == q && !d.read && decide (d.entries ≠ 0)) = some d → (∀ x ∈ s.qe.deq, x.read = false → x.entries ≠ 0) →
    (∀ i < d.cells, s.cellFenced (d.first + i) = false) → (s.readPacket d).2.2 = none → headerOk (s.readPacket d).2.1 d.cells =
      true →
    s.egressOf q = none →
    ∃ (t : State) (x : Deq), exec (.dequeuePacketRead q none) s = .next (t.engineDone 8) ∧ x ∈ t.qe.deq ∧ x.queue = q ∧ x.first = d.first ∧ x.read = true ∧ x.entries = 0 ∧
      x.size = rd (s.readPacket d).2.1 0 2 % 2 ^ 15) ∧
  (∀ (s : State) (d : Deq) (r : EgressRing) (q f n : Nat), s.enginesRun = true → s.qe.deq.find? (fun d => d.queue == q && d.read)
    = some d →
    d.started = true → s.qe.deq.find? (fun x => x.first == d.first && x.started) = some d → d.target = some (f, n) →
    s.egressRing f n = some r → d.slot = r.prod → s.pushOpen f = true → s.linkL0 f = true →
    ∃ t x, exec (.packetPush q) s = .next t ∧ t.egressRing f n = some x ∧ x.prod = r.prod + 1 ∧ d ∉ t.qe.deq) ∧
  (∀ (s : State) (f m : Nat) (q : FreeRing), s.freeRing f m = some q → q.unsig ≠ 0 →
    ∃ t, exec (.ringModerationTimer f (.free m)) s = .next t ∧ t.freeRing f m = some { q with unsig := 0 } ∧
      t.now = max s.now (q.unsigAt + q.modTime * 1000))

/-- The scheduler: with every engine running, a decision is of the next port in turn whose line is free, and the packet it takes leaves its
queue; the wheel releases and cascades its slots; a gate list is followed and swapped (12 R422, R423, R434, R437, R439). Where the spec is
silent the model chooses: details of the scheduler are log 57 to 59. -/
def Obligations.SchedulerEventsHappen : Prop :=
  (∀ (s s2 s3 s4 : State) (p k2 l2 k3 l3 k4 l4 : Nat) (h : Nat), s.enginesRun = true →
    (s.schedSync.portsReady.find? (fun p => decide (s.schedSync.sc.rrPort ≤ p))).or s.schedSync.portsReady.head? = some p →
    s.schedSync.deqRoom = true → s.schedSync.pickChild (nodeKey 1 p) = some (s2, k2, l2) → s2.pickChild k2 = some (s3, k3, l3) →
    s3.pickChild k3 = some (s4, k4, l4) → (s.queueAt (keyNum k4)).head = some h →
    ∃ t d, exec .schedulerDecision s = .next t ∧ t.qe.deq = s.qe.deq ++ [d] ∧ d.queue = keyNum k4 ∧ d.first = h ∧ d.read = false ∧
      t.sc.rrPort = (p + 1) % 64) ∧
  (∀ (s : State) (x : Nat × Nat × Nat), s.enginesRun = true →
    minBy (fun (e : Nat × Nat × Nat) => e.2.1) (s.sc.wheel.filter (fun e => e.2.2 == 0)) = some x →
    ∃ t, exec .wheelSlotRelease s = .next t ∧ t.sc.wheel = s.sc.wheel.filter (fun e => !(e.2.2 == 0 && e.2.1 == x.2.1)) ∧
      t.now = max s.now (x.2.1 + s.sc.skew)) ∧
  (∀ (s : State) (x : Nat × Nat × Nat), s.enginesRun = true → minBy slotStart (s.sc.wheel.filter (fun e => e.2.2 != 0)) = some x →
    ∃ t, exec .wheelCascade s = .next t ∧ t.now = max s.now (slotStart x + s.sc.skew) ∧
      (t.sc.wheel.map (fun e => (e.1, e.2.1))) = s.sc.wheel.map (fun e => (e.1, e.2.1))) ∧
  (∀ (s : State) (p e : Nat), p < 64 → s.enginesRun = true → ((s.scPort p).gateAt s.netNs).2.2 = some e →
    ∃ t, exec (.gateEntryChange p) s = .next t ∧ t = (s.advanceNet e).schedSync ∧ t.tu = (s.advanceNet e).tu) ∧
  (∀ (s : State) (p w : Nat) (g : GateList), (s.scPort p).gate = true → (s.scPort p).admin = some g → (s.scPort p).swapAt = some w →
    s.enginesRun = true →
    ∃ t, exec (.gateSwap p) s = .next t ∧ (t.scPort p).oper = some g ∧ (t.scPort p).admin = none ∧ (t.scPort p).swapAt = none ∧
      s.Reported t scGateSwapped)

/-- Counters: a posted record is taken and a NOP changes nothing more, a malformed one is counted; a posted event is counted or, unbound,
discarded; a recomputation starts with the lowest stale ancestor (13 R467, R470, R474, R480). Where the spec is silent the model chooses:
lines of counters are log 13 and 21, sets log 33, what enters after an engine's access is log 8 and 91. -/
def Obligations.CounterUpdatesAreApplied : Prop :=
  (∀ (s t : State) (f w : Nat) (rec : Bytes), s.entryFree 9 = true → s.ceRuns = true → s.takeRecord f false = some (t, w, rec) → (t.fnAt f).viral = false →
    t.isFrozen f = false →
    (field (unle (rec.take 16)) 80 8 = 0 → exec (.updateRecord f none) s = .next ((t.engineDone 9).takeStalled (portOf f))) ∧
    (2 ≤ field (unle (rec.take 16)) 80 8 →
      ∃ x : State, exec (.updateRecord f none) s = .next ((x.engineDone 9).takeStalled (portOf f)) ∧ x.ce.malformed = satAdd (2 ^ 32 - 1) s.ce.malformed 1) ∧
    (∀ n c, field (unle (rec.take 16)) 80 8 = 1 → field (unle (rec.take 16)) 89 7 = 0 → field (unle (rec.take 16)) 96 32 = 0 →
      t.setOfLeaf (field (unle (rec.take 16)) 0 32) = some (n, c) → ownerHas c.owner f = true →
      exec (.updateRecord f none) s = .next (((t.ceAdd n (field (unle (rec.take 16)) 0 32 - c.first)
        (field (unle (rec.take 16)) 32 16)
        (field (unle (rec.take 16)) 48 32 * (if (unle (rec.take 16)).testBit 88 then 256 else 1))).engineDone 9).takeStalled
        (portOf f)))) ∧
  (∀ (s : State) (e : QEvent) (rest : List QEvent), s.entryFree 9 = true → s.ceRuns = true → s.ce.events = e :: rest →
    ((if e.policer then s.ce.bindP else s.ce.bindQ) = none → ∃ t : State, exec .queueEventCount s = .next (t.engineDone 9) ∧
      t.ce = { s.ce with events := rest, unbound := satAdd (2 ^ 32 - 1) s.ce.unbound 1 }) ∧
    (∀ b slot, (if e.policer then s.ce.bindP else s.ce.bindQ) = some b → b.map.getD e.code none = some slot → b.base ≤ e.number →
      e.number < b.base + b.count → exec .queueEventCount s = .next ((({ s with ce := { s.ce with events := rest } } : State).ceAdd b.set
        (slot * b.count + (e.number - b.base)) e.packets e.bytes).engineDone 9))) ∧
  (∀ (s : State) (set level anc : Nat) (c : CSet), s.entryFree 9 = true → s.ceRuns = true → s.bgPaused = false → s.ce.recompute = none →
    s.staleNext = some (set, level, anc) → s.ceSet set = some c →
    ∃ t : State, exec .ceRecomputeStep s = .next (t.engineDone 9) ∧
      t.ce = { s.ce with recompute := some ⟨set, level, anc, anc * c.fan.getD (level - 1) 1, 0, 0⟩ }) ∧
  (∀ (s : State) (f ctx : Nat) (t : State) (w : Nat) (rec : Bytes), s.entryFree 9 = true → s.ceRuns = true → s.takeRecord f false = some (t, w, rec) →
    (t.fnAt f).viral = false → t.isFrozen f = false → ctx < 12 →
    ∃ x : State, exec (.updateRecord f (some ctx)) s = .next ((x.engineDone 9).takeStalled (portOf f)) ∧ x.ce.halted.getLsbD ctx = true ∧ s.Reported x ceContextHalted)

/-! ### Firmware and management events (07, 14) -/

/-- Firmware: a ring entry that arrives is counted and its command received, windows and bounds end, an activation or reload ends with
commands executing again, and a trap of the core or a malformed sideband transaction is reported (07 R261; 14 R491, R498, R516, R522). Where
the spec is silent the model chooses: operations are log 80, a TAG log 54, the phase log 84; the clause on bounds, with the severity after
it, is 14 R498. -/
def Obligations.FirmwareEventsEnd : Prop :=
  (∀ (s : State) (f op tag : Nat) (e : Bytes) (q : Fcr), (s.fnAt f).fcr = some q → q.fetching ≠ 0 → (s.fnAt f).fcrHalted = false →
    op = rd (e ++ List.replicate (64 - e.length) 0) 0 2 → tag = rd (e ++ List.replicate (64 - e.length) 0) 2 2 → cmdInfo op = none →
    s.arrival (.ring f (s.fnAt f).fcrCons tag) op = .run →
    ∃ t, exec (.fcrEntryFetched f e) s = .next t ∧ (t.fnAt f).fcrCons = ((s.fnAt f).fcrCons + 1) % 65536 ∧
      s.Answers t (.ring f (s.fnAt f).fcrCons tag) (std rcUnsupported)) ∧
  (∀ s : State, ∃ t, exec .freezeWindowEnd s = .next t ∧ t.mb = { s.mb with malfCount := [0, 0, 0, 0], malfWin := t.now } ∧
    t.now = max s.now (s.mb.malfWin + 1000000)) ∧
  (∀ (s : State) (p : Path) (op : Nat), ∃ t, exec (.commandBoundMissed p op) s = .next t ∧
    t.mb.boundMiss = satAdd (2 ^ 32 - 1) s.mb.boundMiss 1 ∧ t.mb.ops = s.mb.ops ∧ t.mb.sActive = s.mb.sActive ∧ t.out = s.out ∧
    t.fc = { s.fc with reports := s.fc.reports ++ [s.faultMsg mbBoundMissed op (some (who p))] } ∧
    (s.faultMsg mbBoundMissed op (some (who p))).source = mbBoundMissed ∧
    (s.faultMsg mbBoundMissed op (some (who p))).detail = op ∧
    (s.hasRequester (who p) = true → (s.faultMsg mbBoundMissed op (some (who p))).req = some (who p))) ∧
  severityOf mbBoundMissed = 0 ∧
  (∀ s : State, s.mb.activating = true → s.mb.heldCmds = [] →
    (∃ t, exec .activationDone s = .next t ∧ t.mb.activating = false ∧ t.mb.actFailed = false ∧ t.mb.bootSlot = t.mb.slot ∧
      s.Reported t nmActivated) ∧
    (∃ t, exec .activationTimeout s = .next t ∧ t.mb.activating = false ∧ t.mb.actFailed = true ∧ t.mb.slot = s.mb.slot ∧
      s.Reported t nmActivationFailed ∧ t.now = max s.now (s.mb.actAt + 400000000))) ∧
  (∀ s : State, s.mbReady = true → s.awake = true → s.narayUp = true →
    ∃ t, exec .nmFetchUe s = .next t ∧ t.mb = { s.mb with reloading := true } ∧ s.Reported t nmFetchUe) ∧
  (∀ s : State, s.mb.reloading = true → s.mb.activating = false → s.mb.heldCmds = [] →
    ∃ t, exec (.nmReloadDone true) s = .next t ∧ t.mb = { s.mb with reloading := false }) ∧
  (∀ s : State, s.mbReady = true → s.awake = true →
    ∃ t, exec .malformedSidebandTransaction s = .next t ∧ s.Reported t sbProtocol ∧ t.mb = s.mb)

/-! ### Faults (16) -/

/-- The fault collector: a report is logged with the next SEQ and starts a walk at its ladder, an ACK rung opens a window, an ended window
or action lets the walk go on or end, a condition that clears settles, a quiet period ends in CLEAR, a shadow window and the copy to flash
(16 R568, R569, R573, R577, R579, R582). Where the spec is silent the model chooses: the list of reports is log 7, windows log 71, the
records log 72. -/
def Obligations.FaultsAreWalked : Prop :=
  (∀ (s : State) (m : FaultMsg) (rest : List Nat), s.fcRuns = true → minBy reportKey s.fc.reports = some m → s.fc.safe = false →
    s.shadowFor m.source m.at_ = none → (s.srcAt m.source).walk = .none → (s.cfgOf m.source).ladder = 3 :: rest →
    ∃ t, exec (.faultReport none) s = .next t ∧ t.fc.seq = (s.fc.seq + 1) % 2 ^ 32 ∧ t.fc.reports = s.fc.reports.erase m ∧
      (t.srcAt m.source).mode = .raised ∧ (t.srcAt m.source).walk = .window 0 (s.now + (s.cfgOf m.source).window * 1000) ∧
      (oget t.fc.log (s.fc.seq % 64)).isSome = true) ∧
  (∀ (s : State) (src rung u : Nat) (c : SrcCfg), s.fcRuns = true → severityOf src ≠ 4 → (s.srcAt src).walk = .action rung u → u
    ≠ 0 →
    (s.srcAt src).walkCfg = some c → c.ladder.length ≤ rung + 1 →
    ∃ t, exec (.actionRungDone src) s = .next t ∧ (t.srcAt src).walk = .none ∧ t.now = max s.now u) ∧
  (∀ (s : State) (src rung u : Nat) (c : SrcCfg), s.fcRuns = true → severityOf src ≠ 4 → (s.srcAt src).walk = .window rung u →
    (s.srcAt src).walkCfg = some c → c.ladder.length ≤ rung + 1 →
    ∃ t, exec (.handlingWindowExpiry src) s = .next t ∧ (t.srcAt src).walk = .none ∧ t.now = max s.now u) ∧
  (∀ (s : State) (src : Nat), s.fcRuns = true → isStateSource src = true → severityOf src ≠ 4 → (s.srcAt src).mode = .raised →
    s.condition src = false → (∀ r e, (s.srcAt src).walk ≠ .window r e) →
    ∃ t, exec (.sourceConditionClear src) s = .next t ∧ (t.srcAt src).mode = .settling ∧ (t.srcAt src).clearAt = s.now) ∧
  (∀ (s : State) (x : Nat × Src), s.fcRuns = true →
    minBy (fun e => s.clearDue e.2) ((oall s.fc.src).filter (fun e => decide (e.2.mode = .settling) && decide (severityOf e.1 ≠
      4))) = some x →
    ∃ t, exec .quietPeriodExpiry s = .next t ∧ (t.srcAt x.1).mode = .clear ∧ t.now = max s.now (s.clearDue x.2)) ∧
  (∀ (s : State) (w : Shadow), s.fcRuns = true →
    minBy (fun (w : Shadow) => w.end_.getD 0) (s.fc.shadows.filter (fun w => w.end_.isSome)) = some w →
    (∀ m ∈ s.fc.reports, w.end_.getD 0 < m.at_) →
    ∃ t, exec .shadowWindowEnd s = .next t ∧ t.fc = { s.fc with shadows := s.fc.shadows.erase w } ∧
      t.now = max s.now (w.end_.getD 0)) ∧
  (∀ s : State, s.fcRuns = true → s.fc.flashDue.isSome = true →
    ∃ t, exec .faultLogFlashCopy s = .next t ∧ t.fc = { s.fc with
        flash := some (s.logEntries, s.fc.first, s.lastSeq % 64), flashDue := none } ∧ t.out = s.out ++ [.flash 0x2400000]) ∧
  (∀ (s : State) (k : Nat), s.fcRuns = true →
    minBy (fun k => (s.srcAt k).clearAt) ((s.pw.bgBy ++ s.pw.dramBy).filter (fun k =>
      !s.condition k && decide ((s.srcAt k).mode ≠ .raised))) = some k →
    ∃ t, exec .throttleLift s = .next t ∧ t.pw = { s.pw with
        bgBy := s.pw.bgBy.filter (· != k), dramBy := s.pw.dramBy.filter (· != k) } ∧
      t.now = max s.now ((s.srcAt k).clearAt + 1000000))

/-! ### Supplies, power and start-up (16, 17, 19) -/

/-- Supplies and clocks: droop, power failure, temperature, loss of lock, the crystal, dips in DEEP and TRST_N (16 R584; 17 R614, R620,
R622, R631; 19 R669, R673). Where the spec is silent the model chooses: the crystal outside DEEP is log 78. -/
def Obligations.SuppliesAreWatched : Prop :=
  ∀ s : State,
    (s.pw.cold ≠ .held → s.pw.state ≠ .deep → s.pw.state ≠ .off → s.pw.droop = false →
      ∃ t, exec (.droopDetect true) s = .next t ∧ t.pw = { s.pw with droop := true } ∧ s.Reported t pwDroop) ∧
    (s.pw.pwrFail = false → s.fcRuns = true → s.pw.wake = none →
      ∃ t, exec .pwrFailNAssert s = .next t ∧ t.pw = { s.pw with pwrFail := true } ∧ s.Reported t pwFailWarn) ∧
    (s.pw.wake = none → ∃ t, exec .pwrFailNDeassert s = .next t ∧ t.pw = { s.pw with pwrFail := false } ∧ t.fc = s.fc) ∧
    (∀ (ts : List Int) (x : Int), x ∈ ts → (∀ y ∈ ts, y ≤ x) → s.pw.cold ≠ .held → s.pw.state ≠ .deep → s.pw.state ≠ .off →
      ∃ t, exec (.thermalSample ts) s = .next t ∧ t.pw.temp = x ∧ t.pw.warn = thermalHolds s.pw.warn thermalLimits.1 x ∧
        t.pw.throttle = thermalHolds s.pw.throttle thermalLimits.2.1 x ∧
        t.pw.shutdown = thermalHolds s.pw.shutdown thermalLimits.2.2 x ∧
        t.pw.thermN = (t.pw.warn || t.pw.throttle || t.pw.shutdown) ∧
        (thermalHolds s.pw.throttle thermalLimits.2.1 x = true → s.pw.throttle = false → s.Reported t pwTempThrottle)) ∧
    (s.ck.sysLock = true → ∃ t, exec (.pllUnlock false) s = .next t ∧ t.ck.sysLock = false ∧
      t.ck.unlocks = satAdd 65535 s.ck.unlocks 1 ∧ s.Reported t ckPllUnlock) ∧
    (s.ck.xtal = true → ∃ t, exec .crystalStop s = .next t ∧ t.ck.xtal = false) ∧
    (s.pw.state = .deep → ∃ t, exec .vddqDipInDeep s = .next t ∧ t.sx = { s.sx with dipSeen := true }) ∧
    (∀ g < 96, s.pw.state = .deep → s.pw.retain.getLsbD g = true →
      ∃ t, exec (.vddSramDipInDeep [g]) s = .next t ∧ t.pw.corrupt.getLsbD g = true) ∧
    (∀ h, ∃ t, exec (.trstNChange h) s = .next t ∧ t.pw = { s.pw with trst := h })

/-- Power states: IDLE, SLEEP, DEEP and OFF are reached, a drain limit discards, and WAKE_N, a host access and the end of a wake lead back
to RUN (17 R597, R601 to R603, R609, R611, R617). Where the spec is silent the model chooses: entries in two stages are log 79, a failed
retention log 76. -/
def Obligations.PowerStatesAreReached : Prop :=
  (∀ s : State, s.pw.state = .run → s.mbReady = true → s.pw.idleDelay ≠ 0 → s.running = [] → s.mb.heldCmds = [] → s.mb.sActive =
    [] →
    s.mb.activating = false → s.mb.reloading = false → (∀ h ∈ s.hp.fns, h.fcr = none) →
    (∀ e ∈ oall s.fc.src, ∀ r, e.2.walk ≠ .blocked r) → s.fc.safe = false →
    ∃ t, exec .idleEntry s = .next t ∧ t.pw.state = .idle ∧ t.now = max s.now (s.pw.idleAt + s.pw.idleDelay * 1000)) ∧
  (∀ (s : State) (e : Entry), s.pw.entry = some e → 7 ≤ e.step → e.wakeReq = none →
    (e.target = 1 → ∃ t, exec .powerStateReached s = .next t ∧ t.pw.state = .sleep ∧ t.pw.entry = none ∧ t.pw.asleepAt = s.now) ∧
    (e.target = 2 →
      ∃ t, exec .powerStateReached s = .next t ∧ t.pw.state = .deep ∧ t.pw.entry = none ∧ t.ck.naFio = true) ∧
    (e.target = 3 → ∃ t, exec .powerStateReached s = .next t ∧ t.pw.state = .off ∧ t.sx.key = none ∧ t.dram = [])) ∧
  (∀ (s : State) (e : Entry), s.pw.entry = some e → e.target = 2 → e.discard = false → e.step < 7 →
    ∃ t, exec .drainLimitExpiry s = .next t ∧ t.pw.entry = some { e with discard := true } ∧ t.now = max s.now e.limitAt) ∧
  (∀ s : State, s.pw.state = .off → ∃ t, exec .wakeNAssert s = .next t ∧ t.pw = { s.pw with wakeInOff := true }) ∧
  (∀ s : State, s.pw.state = .sleep →
    (∃ t, exec .wakeNAssert s = .next t ∧ t.pw.state = .waking ∧ t.pw.wakeCause = 3) ∧
    (∀ f, s.fnExists f = true → s.linkLost f = false → (∃ t, exec (.hostAccessWake f none) s = .next t ∧ t.pw.state = .waking ∧
        t.pw.wakeCause = 4) ∧
      ∀ q, ∃ t, exec (.hostAccessWake f (some q)) s = .next t ∧ t.pw.state = .waking ∧
        (t.fnAt f).held = (s.fnAt f).held ++ [{ q with fn := f }])) ∧
  (∀ (s : State) (w : Wake), s.pw.state = .waking → s.pw.wake = some w → w.deep = false → s.pw.coarse = false → s.mb.heldCmds = [] →
    (∀ h ∈ s.hp.fns, h.held = [] ∧ h.link ≠ .l1) → s.running = [] →
    ∃ t, exec (.wakeDone [] []) s = .next t ∧ t.pw.state = .run ∧ t.pw.wake = none)

/-- Reset and start-up: POR_N low leaves the reset state but for what flash, fuses and pins hold; POR_N high samples the straps; each step
of a cold start leads to the next (17 R618, R623, R624, R628, R630; 02 R56). Where the spec is silent the model chooses: what POR_N keeps is
log 75, values at reset log 4, what start-up replays log 77. -/
def Obligations.StartUpGoesStepByStep : Prop :=
  (∀ s : State, ∃ t, exec .porNAssert s = .next t ∧ t.pw.cold = .held ∧ t.rg = State.reset.rg ∧ t.dram = State.reset.dram ∧
    t.qe = State.reset.qe ∧ t.ce = State.reset.ce ∧ t.sx = State.reset.sx ∧ t.mb.slots = s.mb.slots ∧
      t.mb.bootSlot = s.mb.bootSlot ∧
    t.fu.burned = s.fu.burned ∧ t.fu.svn = s.fu.svn ∧ t.fc.flash = s.fc.flash ∧ t.lp.repairLog = s.lp.repairLog ∧
    t.pw.offLatch = s.pw.offLatch ∧ t.out = s.out) ∧
  (∀ (s : State) (st : BitVec 6), s.pw.cold = .held →
    ∃ t, exec (.porNRelease st) s = .next t ∧ t.pw.cold = .step 0 ∧ t.hp.straps = st ∧
    t.fnExists 0 = true ∧ t.fnExists 1 = st.getLsbD 0 ∧ t.fnExists 2 = true ∧ t.fnExists 3 = st.getLsbD 1) ∧
  (∀ (s : State) (i : BootInfo),
    (s.pw.cold = .step 0 → ∃ t, exec (.coldStartStepDone i) s = .next t ∧ t.pw.cold = .step 1 ∧ t.pw.offLatch = false) ∧
    (s.pw.cold = .step 1 → ∃ t, exec (.coldStartStepDone i) s = .next t ∧ t.pw.cold = .step 2) ∧
    (s.pw.cold = .step 2 → i.slotOk = true → ∃ t, exec (.coldStartStepDone i) s = .next t ∧ t.pw.cold = .step 4 ∧
      t.mb.slot = s.mb.bootSlot) ∧
    (s.pw.cold = .step 2 → i.slotOk = false → ∃ t, exec (.coldStartStepDone i) s = .next t ∧ t.pw.cold = .step 3) ∧
    (s.pw.cold = .step 3 → i.slotOk = true → ∃ t, exec (.coldStartStepDone i) s = .next t ∧ t.pw.cold = .step 4 ∧
      t.mb.slot = 1 - s.mb.bootSlot) ∧
    (s.pw.cold = .step 3 → i.slotOk = false → ∃ t, exec (.coldStartStepDone i) s = .next t ∧ t.pw.cold = .noImage) ∧
    (s.pw.cold = .step 4 → ∃ t, exec (.coldStartStepDone i) s = .next t ∧ t.pw.cold = .step 5 ∧ t.ck.sysLock = true ∧
      t.ck.memLock = true ∧ t.now = max s.now s.coreReadyAt) ∧
    (s.pw.cold = .step 5 → ∃ t, exec (.coldStartStepDone i) s = .next t ∧ t.pw.cold = .step 6) ∧
    (s.pw.cold = .step 6 → s.anyTraining = false → ∃ t, exec (.coldStartStepDone i) s = .next t ∧ t.pw.cold = .step 7) ∧
    (s.pw.cold = .step 8 → ∃ t, exec (.coldStartStepDone i) s = .next t ∧ t.pw.cold = .done ∧ s.fu.svn ≤ t.fu.svn ∧
      t.mb.bootSlot = s.mb.slot))
end

