-- ==== Sys2Proof/Laws/Maps.lean ====
section
/-! SUPPORT. The sparse maps: what is read back after an entry is set, and that they keep their canonical form; and the same of the
entries of lists. -/

set_option Elab.async false

namespace Sys2Proof.Machine
open Sys2Proof

variable {α : Type}

/-! ### Canonical form -/

theorem swf_mono [DecidableEq α] {d : α} {lo lo' : Nat} (h : lo' ≤ lo) :
    ∀ {m : SMap α}, swf d lo m = true → swf d lo' m = true
  | [], _ => rfl
  | (k, v) :: m, hm => by
    simp only [swf, Bool.and_eq_true, decide_eq_true_eq] at hm ⊢
    exact ⟨⟨le_trans h hm.1.1, hm.1.2⟩, hm.2⟩

/-- Leaving entries out keeps the canonical form. -/
theorem swf_filter [DecidableEq α] {d : α} (p : Nat × α → Bool) :
    ∀ {lo : Nat} {m : SMap α}, swf d lo m = true → swf d lo (m.filter p) = true
  | _, [], _ => rfl
  | lo, (k, v) :: m, hm => by
    simp only [swf, Bool.and_eq_true, decide_eq_true_eq] at hm
    rw [List.filter_cons]
    split
    · simp only [swf, Bool.and_eq_true, decide_eq_true_eq]
      exact ⟨hm.1, swf_filter p hm.2⟩
    · exact swf_mono (by omega) (swf_filter p hm.2)

theorem swf_sput [DecidableEq α] {d : α} {k : Nat} {v : α} (hv : v ≠ d) :
    ∀ {lo : Nat} {m : SMap α}, lo ≤ k → swf d lo m = true → swf d lo (sput m k v) = true
  | _, [], hk, _ => by simp [sput, swf, hv, hk]
  | lo, (k', v') :: m, hk, hm => by
    simp only [swf, Bool.and_eq_true, decide_eq_true_eq] at hm
    obtain ⟨⟨h1, h2⟩, h3⟩ := hm
    rw [sput]
    split_ifs with c1 c2
    · simp only [swf, Bool.and_eq_true, decide_eq_true_eq]; exact ⟨⟨hk, hv⟩, ⟨c1, h2⟩, h3⟩
    · subst c2; simp only [swf, Bool.and_eq_true, decide_eq_true_eq]; exact ⟨⟨hk, hv⟩, h3⟩
    · simp only [swf, Bool.and_eq_true, decide_eq_true_eq]; exact ⟨⟨h1, h2⟩, swf_sput hv (by omega) h3⟩

/-- Setting an entry keeps the canonical form. -/
theorem swf_sset [DecidableEq α] {d : α} {k : Nat} {v : α} {lo : Nat} {m : SMap α} (hk : lo ≤ k) (h : swf d lo m = true) :
    swf d lo (sset d m k v) = true := by
  unfold sset
  split_ifs with hv
  · exact swf_filter _ h
  · exact swf_sput hv hk h

/-! ### Reading back -/

theorem sget_filter_same {d : α} {k : Nat} : ∀ m : SMap α, sget d (m.filter (fun e => decide (e.1 ≠ k))) k = d
  | [] => rfl
  | (k', v') :: m => by
    rw [List.filter_cons]
    by_cases h : k' = k
    · rw [if_neg (by simp [h])]; exact sget_filter_same m
    · rw [if_pos (by simp [h]), sget, if_neg (fun e => h e.symm)]; exact sget_filter_same m

theorem sget_filter_other {d : α} {k j : Nat} (hj : j ≠ k) : ∀ m : SMap α, sget d (m.filter (fun e => decide (e.1 ≠ k))) j = sget d m j
  | [] => rfl
  | (k', v') :: m => by
    rw [List.filter_cons]
    by_cases h : k' = k
    · rw [if_neg (by simp [h]), sget, if_neg (fun e => hj (e.trans h))]; exact sget_filter_other hj m
    · rw [if_pos (by simp [h]), sget, sget, sget_filter_other hj m]

theorem sget_sput {d : α} {k j : Nat} {v : α} : ∀ m : SMap α, sget d (sput m k v) j = if j = k then v else sget d m j
  | [] => by simp [sput, sget]
  | (k', v') :: m => by
    rw [sput]
    by_cases c1 : k < k'
    · rw [if_pos c1, sget, sget]
    · rw [if_neg c1]
      by_cases c2 : k = k'
      · subst c2; rw [if_pos rfl, sget, sget]; split_ifs <;> rfl
      · rw [if_neg c2, sget, sget, sget_sput m]
        by_cases hj : j = k
        · subst hj; rw [if_neg c2, if_pos rfl, if_pos rfl]
        · rw [if_neg hj, if_neg hj]

/-- What is read back after an entry is set. -/
theorem sget_sset [DecidableEq α] {d : α} {k j : Nat} {v : α} {m : SMap α} : sget d (sset d m k v) j = if j = k then v else sget d m j := by
  unfold sset
  split_ifs with hv hj hj
  · subst hj; rw [sget_filter_same, hv]
  · exact sget_filter_other hj m
  · rw [sget_sput, if_pos hj]
  · rw [sget_sput, if_neg hj]

@[simp] theorem sget_sset_same [DecidableEq α] (d : α) (k : Nat) (v : α) (m : SMap α) : sget d (sset d m k v) k = v := by
  rw [sget_sset, if_pos rfl]

theorem sget_sset_other [DecidableEq α] {d : α} {k j : Nat} {v : α} {m : SMap α} (h : j ≠ k) : sget d (sset d m k v) j = sget d m j := by
  rw [sget_sset, if_neg h]

theorem sget_smod [DecidableEq α] {d : α} {k j : Nat} {f : α → α} {m : SMap α} :
    sget d (smod d m k f) j = if j = k then f (sget d m k) else sget d m j := sget_sset

@[simp] theorem sget_smod_same [DecidableEq α] (d : α) (k : Nat) (f : α → α) (m : SMap α) : sget d (smod d m k f) k = f (sget d m k) :=
  sget_sset_same d k _ m

theorem oget_oset [DecidableEq α] {m : SMap (Option α)} {k j : Nat} {v : Option α} :
    oget (oset m k v) j = if j = k then v else oget m j := sget_sset

@[simp] theorem oget_oset_same [DecidableEq α] (m : SMap (Option α)) (k : Nat) (v : Option α) : oget (oset m k v) k = v :=
  sget_sset_same none k v m

theorem oget_omod [DecidableEq α] {m : SMap (Option α)} {k j : Nat} {f : α → α} :
    oget (omod m k f) j = if j = k then (oget m k).map f else oget m j := sget_sset

@[simp] theorem oget_omod_same [DecidableEq α] (m : SMap (Option α)) (k : Nat) (f : α → α) : oget (omod m k f) k = (oget m k).map f :=
  sget_sset_same none k _ m

/-! ### Lists -/

theorem getD_lmod_same {l : List α} {i : Nat} {f : α → α} {d : α} (hi : i < l.length) : (lmod l i f).getD i d = f (l.getD i d) := by
  simp [lmod, List.getD_eq_getElem?_getD, hi]

theorem getD_lmod_other {l : List α} {i j : Nat} {f : α → α} {d : α} (h : j ≠ i) : (lmod l i f).getD j d = l.getD j d := by
  have h' : i ≠ j := fun e => h e.symm
  simp only [lmod, List.getD_eq_getElem?_getD, List.getElem?_modify]
  cases l[j]? <;> simp [h']

theorem getD_lset_same {l : List α} {i : Nat} {v d : α} (hi : i < l.length) : (lset l i v).getD i d = v := by
  simp [lset, List.getD_eq_getElem?_getD, hi]

theorem getD_lset_other {l : List α} {i j : Nat} {v d : α} (h : j ≠ i) : (lset l i v).getD j d = l.getD j d := by
  simp [lset, List.getD_eq_getElem?_getD, Ne.symm h]

end Sys2Proof.Machine
end

