-- ==== Sys2Proof/Laws/Memory.lean ====
section
/-! SUPPORT. The DRAM cells keep their canonical form, and read back what was written. -/

set_option Elab.async false

namespace Sys2Proof.Machine
open Sys2Proof

/-- Every write of a cell keeps the canonical form. -/
theorem memSet_wf {m : List Host.Cell} (k : Nat) (v : Byte) (h : Memory.wf m = true) : Memory.wf (memSet m k v) = true :=
  swf_sset (Nat.zero_le k) h

theorem memWrite_wf : ∀ (b : Bytes) {m : List Host.Cell} (k : Nat), Memory.wf m = true → Memory.wf (memWrite m k b) = true
  | [], _, _, h => h
  | _ :: b, _, k, h => memWrite_wf b (k + 1) (memSet_wf k _ h)

theorem mem_filter_wf {m : List Host.Cell} (p : Host.Cell → Bool) (h : Memory.wf m = true) : Memory.wf (m.filter p) = true :=
  swf_filter p h

/-- A cell reads as it was last written; every other cell as before. -/
theorem memGet_memSet {m : List Host.Cell} (k j : Nat) (v : Byte) :
    memGet (memSet m k v) j = if j = k then v else memGet m j :=
  sget_sset

theorem memGet_memWrite_other : ∀ (b : Bytes) {m : List Host.Cell} (k j : Nat),
    (j < k ∨ k + b.length ≤ j) → memGet (memWrite m k b) j = memGet m j
  | [], _, _, _, _ => rfl
  | x :: b, m, k, j, hj => by
    simp only [List.length_cons] at hj
    show memGet (memWrite (memSet m k x) (k + 1) b) j = memGet m j
    rw [memGet_memWrite_other b (k + 1) j (by omega), memGet_memSet k j x, if_neg (by omega)]

end Sys2Proof.Machine
end

