-- ==== Sys2Proof/Laws/Keeps.lean ====
section
/-! SUPPORT. What every operation keeps: `Keeps F s t` says that `t` comes from `s` by effects on the parts of `F`. It is a preorder; each
shared operation of the model has one lemma `…_keeps`, which later proofs cite instead of unfolding it. -/

set_option Elab.async false

namespace Sys2Proof.Machine
open Sys2Proof

/-- What an effect on the parts of `F` keeps: the queue and every other part are not touched, what was sent stays sent, a free value is
drawn once, burned fuses stay burned, the burns left never grow, the security version never falls, and the device stays sound. -/
structure Keeps (F : Part → Prop) (s t : State) : Prop where
  queue : t.pending = s.pending
  same  : ∀ p, ¬ F p → p.Same s t
  sent  : s.out <+: t.out
  draws : s.fresh ≤ t.fresh
  burns : t.fu.burnsLeft ≤ s.fu.burnsLeft
  svn   : s.fu.svn ≤ t.fu.svn
  burned : s.fu.burned <+: t.fu.burned
  sound : s.Sound → t.Sound

theorem Part.same_refl (s : State) (p : Part) : p.Same s s := by cases p <;> rfl

theorem Part.same_trans {s t u : State} {p : Part} (h : p.Same s t) (k : p.Same t u) : p.Same s u := by
  cases p <;> exact Eq.trans k h

@[refl] theorem Keeps.refl (F : Part → Prop) (s : State) : Keeps F s s :=
  ⟨rfl, fun p _ => p.same_refl s, List.prefix_refl _, le_refl _, le_refl _, le_refl _, List.prefix_refl _, fun h => h⟩

@[trans] theorem Keeps.trans {F : Part → Prop} {s t u : State} (h : Keeps F s t) (k : Keeps F t u) : Keeps F s u :=
  ⟨k.queue.trans h.queue, fun p hp => Part.same_trans (h.same p hp) (k.same p hp), h.sent.trans k.sent, h.draws.trans k.draws,
    k.burns.trans h.burns, h.svn.trans k.svn, h.burned.trans k.burned, fun x => k.sound (h.sound x)⟩

/-- An update of the parts of `F` keeps what `Keeps` speaks of. -/
theorem Keeps.upd {F : Part → Prop} {s t : State} (h : Keeps F s t) {now hp rr rg ns tr cd lp fu sx mc bw qe sc tu ce mb fc pw ck pm}
    (h_now : now = t.now ∨ F .now := by first | assumption | exact Or.inl rfl | exact Or.inr (by assumption))
    (h_hp : hp = t.hp ∨ F .hp := by first | assumption | exact Or.inl rfl | exact Or.inr (by assumption))
    (h_rr : rr = t.rr ∨ F .rr := by first | assumption | exact Or.inl rfl | exact Or.inr (by assumption))
    (h_rg : rg = t.rg ∨ F .rg := by first | assumption | exact Or.inl rfl | exact Or.inr (by assumption))
    (h_ns : ns = t.ns ∨ F .ns := by first | assumption | exact Or.inl rfl | exact Or.inr (by assumption))
    (h_tr : tr = t.tr ∨ F .tr := by first | assumption | exact Or.inl rfl | exact Or.inr (by assumption))
    (h_cd : cd = t.cd ∨ F .cd := by first | assumption | exact Or.inl rfl | exact Or.inr (by assumption))
    (h_lp : lp = t.lp ∨ F .lp := by first | assumption | exact Or.inl rfl | exact Or.inr (by assumption))
    (h_sx : sx = t.sx ∨ F .sx := by first | assumption | exact Or.inl rfl | exact Or.inr (by assumption))
    (h_mc : mc = t.mc ∨ F .mc := by first | assumption | exact Or.inl rfl | exact Or.inr (by assumption))
    (h_bw : bw = t.bw ∨ F .bw := by first | assumption | exact Or.inl rfl | exact Or.inr (by assumption))
    (h_qe : qe = t.qe ∨ F .qe := by first | assumption | exact Or.inl rfl | exact Or.inr (by assumption))
    (h_sc : sc = t.sc ∨ F .sc := by first | assumption | exact Or.inl rfl | exact Or.inr (by assumption))
    (h_tu : tu = t.tu ∨ F .tu := by first | assumption | exact Or.inl rfl | exact Or.inr (by assumption))
    (h_ce : ce = t.ce ∨ F .ce := by first | assumption | exact Or.inl rfl | exact Or.inr (by assumption))
    (h_mb : mb = t.mb ∨ F .mb := by first | assumption | exact Or.inl rfl | exact Or.inr (by assumption))
    (h_fc : fc = t.fc ∨ F .fc := by first | assumption | exact Or.inl rfl | exact Or.inr (by assumption))
    (h_pw : pw = t.pw ∨ F .pw := by first | assumption | exact Or.inl rfl | exact Or.inr (by assumption))
    (h_ck : ck = t.ck ∨ F .ck := by first | assumption | exact Or.inl rfl | exact Or.inr (by assumption))
    (h_pm : pm = t.pm ∨ F .pm := by first | assumption | exact Or.inl rfl | exact Or.inr (by assumption))
    (hf : hp.fns.length = t.hp.fns.length := by first | assumption | rfl) (hq : hp.ports.length = t.hp.ports.length := by first | assumption | rfl) (hc : mc.chans.length = t.mc.chans.length := by first | assumption | rfl)
    (hu : fu = t.fu ∨ F .fu := by first | assumption | exact Or.inl rfl | exact Or.inr (by assumption))
    (hb : fu.burnsLeft = t.fu.burnsLeft := by first | assumption | rfl) (hv : fu.svn = t.fu.svn := by first | assumption | rfl)
    (hn : fu.burned = t.fu.burned := by first | assumption | rfl) :
    Keeps F s ⟨t.pending, t.out, t.fresh, now, t.dram, hp, rr, rg, ns, tr, cd, lp, fu, sx, mc, bw, qe, sc, tu, ce, mb, fc, pw, ck, pm⟩ :=
  h.trans ⟨rfl, fun p x => by
      cases p <;> first | rfl | exact Or.resolve_right (by assumption) x,
    List.prefix_refl _, le_refl _, le_of_eq hb, le_of_eq hv.symm, hn ▸ List.prefix_refl _,
    fun x => ⟨hf.trans x.fns, hq.trans x.ports, hc.trans x.chans, x.cells⟩⟩

/-- An update of the parts of `F` keeps what `Keeps` speaks of, as a rule for the simplifier. -/
theorem keeps_upd {F : Part → Prop} {s t : State} {now hp rr rg ns tr cd lp fu sx mc bw qe sc tu ce mb fc pw ck pm}
    (h_now : now = t.now ∨ F .now)
    (h_hp : hp = t.hp ∨ F .hp)
    (h_rr : rr = t.rr ∨ F .rr)
    (h_rg : rg = t.rg ∨ F .rg)
    (h_ns : ns = t.ns ∨ F .ns)
    (h_tr : tr = t.tr ∨ F .tr)
    (h_cd : cd = t.cd ∨ F .cd)
    (h_lp : lp = t.lp ∨ F .lp)
    (h_sx : sx = t.sx ∨ F .sx)
    (h_mc : mc = t.mc ∨ F .mc)
    (h_bw : bw = t.bw ∨ F .bw)
    (h_qe : qe = t.qe ∨ F .qe)
    (h_sc : sc = t.sc ∨ F .sc)
    (h_tu : tu = t.tu ∨ F .tu)
    (h_ce : ce = t.ce ∨ F .ce)
    (h_mb : mb = t.mb ∨ F .mb)
    (h_fc : fc = t.fc ∨ F .fc)
    (h_pw : pw = t.pw ∨ F .pw)
    (h_ck : ck = t.ck ∨ F .ck)
    (h_pm : pm = t.pm ∨ F .pm)
    (hf : hp.fns.length = t.hp.fns.length) (hq : hp.ports.length = t.hp.ports.length) (hc : mc.chans.length = t.mc.chans.length)
    (hu : fu = t.fu ∨ F .fu) (hb : fu.burnsLeft = t.fu.burnsLeft) (hv : fu.svn = t.fu.svn) (hn : fu.burned = t.fu.burned) :
    Keeps F s ⟨t.pending, t.out, t.fresh, now, t.dram, hp, rr, rg, ns, tr, cd, lp, fu, sx, mc, bw, qe, sc, tu, ce, mb, fc, pw, ck, pm⟩ ↔ Keeps F s t := by
  refine ⟨fun k => ⟨k.queue, fun p x => ?_, k.sent, k.draws, hb ▸ k.burns, hv ▸ k.svn, hn ▸ k.burned, fun x => ?_⟩, fun h => h.upd⟩
  · have e := k.same p x
    cases p with
    | out => exact e
    | fresh => exact e
    | now => exact (h_now.resolve_right x).symm.trans e
    | dram => exact e
    | hp => exact (h_hp.resolve_right x).symm.trans e
    | rr => exact (h_rr.resolve_right x).symm.trans e
    | rg => exact (h_rg.resolve_right x).symm.trans e
    | ns => exact (h_ns.resolve_right x).symm.trans e
    | tr => exact (h_tr.resolve_right x).symm.trans e
    | cd => exact (h_cd.resolve_right x).symm.trans e
    | lp => exact (h_lp.resolve_right x).symm.trans e
    | fu => exact (hu.resolve_right x).symm.trans e
    | sx => exact (h_sx.resolve_right x).symm.trans e
    | mc => exact (h_mc.resolve_right x).symm.trans e
    | bw => exact (h_bw.resolve_right x).symm.trans e
    | qe => exact (h_qe.resolve_right x).symm.trans e
    | sc => exact (h_sc.resolve_right x).symm.trans e
    | tu => exact (h_tu.resolve_right x).symm.trans e
    | ce => exact (h_ce.resolve_right x).symm.trans e
    | mb => exact (h_mb.resolve_right x).symm.trans e
    | fc => exact (h_fc.resolve_right x).symm.trans e
    | pw => exact (h_pw.resolve_right x).symm.trans e
    | ck => exact (h_ck.resolve_right x).symm.trans e
    | pm => exact (h_pm.resolve_right x).symm.trans e
  · have y := k.sound x
    exact ⟨hf.symm.trans y.fns, hq.symm.trans y.ports, hc.symm.trans y.chans, y.cells⟩

/-- An update of the cells as well. -/
theorem Keeps.updCells {F : Part → Prop} {s t : State} (h : Keeps F s t) {now dram hp rr rg ns tr cd lp sx mc bw qe sc tu ce mb fc pw ck pm}
    (hd : Memory.wf t.dram = true → Memory.wf dram = true)
    (h_now : now = t.now ∨ F .now := by first | assumption | exact Or.inl rfl | exact Or.inr (by assumption)) (h_hp : hp = t.hp ∨ F .hp := by first | exact Or.inl rfl | exact Or.inr (by assumption)) (h_rr : rr = t.rr ∨ F .rr := by first | exact Or.inl rfl | exact Or.inr (by assumption)) (h_rg : rg = t.rg ∨ F .rg := by first | exact Or.inl rfl | exact Or.inr (by assumption)) (h_ns : ns = t.ns ∨ F .ns := by first | exact Or.inl rfl | exact Or.inr (by assumption)) (h_tr : tr = t.tr ∨ F .tr := by first | exact Or.inl rfl | exact Or.inr (by assumption)) (h_cd : cd = t.cd ∨ F .cd := by first | exact Or.inl rfl | exact Or.inr (by assumption)) (h_lp : lp = t.lp ∨ F .lp := by first | exact Or.inl rfl | exact Or.inr (by assumption)) (h_sx : sx = t.sx ∨ F .sx := by first | exact Or.inl rfl | exact Or.inr (by assumption)) (h_mc : mc = t.mc ∨ F .mc := by first | exact Or.inl rfl | exact Or.inr (by assumption)) (h_bw : bw = t.bw ∨ F .bw := by first | exact Or.inl rfl | exact Or.inr (by assumption)) (h_qe : qe = t.qe ∨ F .qe := by first | exact Or.inl rfl | exact Or.inr (by assumption)) (h_sc : sc = t.sc ∨ F .sc := by first | exact Or.inl rfl | exact Or.inr (by assumption)) (h_tu : tu = t.tu ∨ F .tu := by first | exact Or.inl rfl | exact Or.inr (by assumption)) (h_ce : ce = t.ce ∨ F .ce := by first | exact Or.inl rfl | exact Or.inr (by assumption)) (h_mb : mb = t.mb ∨ F .mb := by first | exact Or.inl rfl | exact Or.inr (by assumption)) (h_fc : fc = t.fc ∨ F .fc := by first | exact Or.inl rfl | exact Or.inr (by assumption)) (h_pw : pw = t.pw ∨ F .pw := by first | exact Or.inl rfl | exact Or.inr (by assumption)) (h_ck : ck = t.ck ∨ F .ck := by first | exact Or.inl rfl | exact Or.inr (by assumption)) (h_pm : pm = t.pm ∨ F .pm := by first | exact Or.inl rfl | exact Or.inr (by assumption)) (h_dram : F .dram := by assumption) (hf : hp.fns.length = t.hp.fns.length := by first | assumption | rfl) (hq : hp.ports.length = t.hp.ports.length := by first | assumption | rfl) (hc : mc.chans.length = t.mc.chans.length := by first | assumption | rfl) :
    Keeps F s ⟨t.pending, t.out, t.fresh, now, dram, hp, rr, rg, ns, tr, cd, lp, t.fu, sx, mc, bw, qe, sc, tu, ce, mb, fc, pw, ck, pm⟩ :=
  h.trans ⟨rfl, fun p x => by
      cases p <;> first | rfl | exact absurd (by assumption) x | exact Or.resolve_right (by assumption) x,
    List.prefix_refl _, le_refl _, le_refl _, le_refl _, List.prefix_refl _,
    fun x => ⟨hf.trans x.fns, hq.trans x.ports, hc.trans x.chans, hd x.cells⟩⟩

/-- An update of the fuses that unburns none, does not add burns and does not lower the security version. -/
theorem Keeps.updFu {F : Part → Prop} {s t : State} (h : Keeps F s t) {now hp rr rg ns tr cd lp fu sx mc bw qe sc tu ce mb fc pw ck pm}
    (hb : fu.burnsLeft ≤ t.fu.burnsLeft) (hv : t.fu.svn ≤ fu.svn) (hn : t.fu.burned <+: fu.burned)
    (h_now : now = t.now ∨ F .now := by first | assumption | exact Or.inl rfl | exact Or.inr (by assumption)) (h_hp : hp = t.hp ∨ F .hp := by first | exact Or.inl rfl | exact Or.inr (by assumption)) (h_rr : rr = t.rr ∨ F .rr := by first | exact Or.inl rfl | exact Or.inr (by assumption)) (h_rg : rg = t.rg ∨ F .rg := by first | exact Or.inl rfl | exact Or.inr (by assumption)) (h_ns : ns = t.ns ∨ F .ns := by first | exact Or.inl rfl | exact Or.inr (by assumption)) (h_tr : tr = t.tr ∨ F .tr := by first | exact Or.inl rfl | exact Or.inr (by assumption)) (h_cd : cd = t.cd ∨ F .cd := by first | exact Or.inl rfl | exact Or.inr (by assumption)) (h_lp : lp = t.lp ∨ F .lp := by first | exact Or.inl rfl | exact Or.inr (by assumption)) (h_sx : sx = t.sx ∨ F .sx := by first | exact Or.inl rfl | exact Or.inr (by assumption)) (h_mc : mc = t.mc ∨ F .mc := by first | exact Or.inl rfl | exact Or.inr (by assumption)) (h_bw : bw = t.bw ∨ F .bw := by first | exact Or.inl rfl | exact Or.inr (by assumption)) (h_qe : qe = t.qe ∨ F .qe := by first | exact Or.inl rfl | exact Or.inr (by assumption)) (h_sc : sc = t.sc ∨ F .sc := by first | exact Or.inl rfl | exact Or.inr (by assumption)) (h_tu : tu = t.tu ∨ F .tu := by first | exact Or.inl rfl | exact Or.inr (by assumption)) (h_ce : ce = t.ce ∨ F .ce := by first | exact Or.inl rfl | exact Or.inr (by assumption)) (h_mb : mb = t.mb ∨ F .mb := by first | exact Or.inl rfl | exact Or.inr (by assumption)) (h_fc : fc = t.fc ∨ F .fc := by first | exact Or.inl rfl | exact Or.inr (by assumption)) (h_pw : pw = t.pw ∨ F .pw := by first | exact Or.inl rfl | exact Or.inr (by assumption)) (h_ck : ck = t.ck ∨ F .ck := by first | exact Or.inl rfl | exact Or.inr (by assumption)) (h_pm : pm = t.pm ∨ F .pm := by first | exact Or.inl rfl | exact Or.inr (by assumption)) (h_fu : F .fu := by assumption) (hf : hp.fns.length = t.hp.fns.length := by first | assumption | rfl) (hq : hp.ports.length = t.hp.ports.length := by first | assumption | rfl) (hc : mc.chans.length = t.mc.chans.length := by first | assumption | rfl) :
    Keeps F s ⟨t.pending, t.out, t.fresh, now, t.dram, hp, rr, rg, ns, tr, cd, lp, fu, sx, mc, bw, qe, sc, tu, ce, mb, fc, pw, ck, pm⟩ :=
  h.trans ⟨rfl, fun p x => by
      cases p <;> first | rfl | exact absurd (by assumption) x | exact Or.resolve_right (by assumption) x,
    List.prefix_refl _, le_refl _, hb, hv, hn,
    fun x => ⟨hf.trans x.fns, hq.trans x.ports, hc.trans x.chans, x.cells⟩⟩

theorem Keeps.ite {F : Part → Prop} {s a b : State} {c : Prop} [Decidable c] (ha : c → Keeps F s a) (hb : ¬c → Keeps F s b) : Keeps F s (if c then a else b) := by
  by_cases h : c
  · rw [if_pos h]; exact ha h
  · rw [if_neg h]; exact hb h

theorem Keeps.iteP {α : Type} {F : Part → Prop} {s : State} {a b : State × α} {c : Prop} [Decidable c] (ha : c → Keeps F s a.1) (hb : ¬c → Keeps F s b.1) :
    Keeps F s (if c then a else b).1 := by
  by_cases h : c
  · rw [if_pos h]; exact ha h
  · rw [if_neg h]; exact hb h

theorem Keeps.foldlG {α β : Type} {F : Part → Prop} {s : State} {π : β → State} {f : β → α → β} (hf : ∀ a x, Keeps F s (π a) → Keeps F s (π (f a x))) :
    ∀ (l : List α) {t : β}, Keeps F s (π t) → Keeps F s (π (l.foldl f t))
  | [], _, h => h
  | x :: l, _, h => Keeps.foldlG hf l (hf _ x h)

theorem Keeps.foldl {α : Type} {F : Part → Prop} {s : State} {f : State → α → State} (hf : ∀ a x, Keeps F s a → Keeps F s (f a x)) :
    ∀ (l : List α) {t : State}, Keeps F s t → Keeps F s (l.foldl f t)
  | [], _, h => h
  | x :: l, _, h => Keeps.foldl hf l (hf _ x h)

theorem Keeps.foldlP {α β : Type} {F : Part → Prop} {s : State} {f : State × β → α → State × β}
    (hf : ∀ a x, Keeps F s a.1 → Keeps F s (f a x).1) : ∀ (l : List α) {t : State × β}, Keeps F s t.1 → Keeps F s (l.foldl f t).1
  | [], _, h => h
  | x :: l, _, h => Keeps.foldlP hf l (hf _ x h)

@[simp] theorem length_lmod {α : Type} (l : List α) (i : Nat) (g : α → α) : (lmod l i g).length = l.length := by
  simp [lmod]

@[simp] theorem length_lset {α : Type} (l : List α) (i : Nat) (v : α) : (lset l i v).length = l.length := by
  simp [lset]

end Sys2Proof.Machine
end

