-- ==== Sys2Proof/Laws/KeepsOps.lean ====
section
/-! SUPPORT. What each operation of Machine/Ops.lean keeps: the shared operations. -/

set_option Elab.async false

set_option linter.all false

namespace Sys2Proof.Machine
open Sys2Proof

variable {F : Part → Prop} {s t : State}

theorem State.emit_keeps (h : Keeps F s t) (o) (p_out : F .out := by assumption) : Keeps F s (t.emit o) := by
  exact h.trans ⟨rfl, fun p x => by cases p <;> first | rfl | exact absurd (by assumption) x,
    List.prefix_append _ _, le_refl _, le_refl _, le_refl _, List.prefix_refl _, fun x => ⟨x.1, x.2, x.3, x.4⟩⟩

theorem State.report_keeps (h : Keeps F s t) (source) (detail) (req) (p_fc : F .fc := by assumption)
    : Keeps F s (State.report t source detail req) := by
  unfold State.report
  try dsimp only
  repeat' first
    | with_reducible assumption | simp only [keeps_upd, p_fc, or_true, true_or, length_lmod, length_lset, List.length_map] | intro _

theorem State.reportAgg_keeps (h : Keeps F s t) (source) (obj) (period) (detail) (req) (p_fc : F .fc := by assumption)
    : Keeps F s (State.reportAgg t source obj period detail req) := by
  unfold State.reportAgg
  try dsimp only
  repeat' first
    | with_reducible assumption | with_reducible refine Keeps.ite (fun _ => ?_) (fun _ => ?_)
    | with_reducible refine Keeps.iteP (fun _ => ?_) (fun _ => ?_)
    | simp only [keeps_upd, p_fc, or_true, true_or, length_lmod, length_lset, List.length_map] | split | dsimp only | intro _

theorem State.openShadow_keeps (h : Keeps F s t) (node) (end_) (parent) (src) (p_fc : F .fc := by assumption)
    : Keeps F s (State.openShadow t node end_ parent src) := by
  unfold State.openShadow
  try dsimp only
  repeat' first
    | with_reducible assumption | simp only [keeps_upd, p_fc, or_true, true_or, length_lmod, length_lset, List.length_map] | intro _

theorem State.closeShadow_keeps (h : Keeps F s t) (node) (src) (p_fc : F .fc := by assumption)
    : Keeps F s (State.closeShadow t node src) := by
  unfold State.closeShadow
  try dsimp only
  repeat' first
    | with_reducible assumption | with_reducible refine Keeps.ite (fun _ => ?_) (fun _ => ?_)
    | with_reducible refine Keeps.iteP (fun _ => ?_) (fun _ => ?_)
    | simp only [keeps_upd, p_fc, or_true, true_or, length_lmod, length_lset, List.length_map] | split | dsimp only | intro _

theorem State.actionEnds_keeps (h : Keeps F s t) (node) (p_fc : F .fc := by assumption) : Keeps F s (State.actionEnds t node) := by
  unfold State.actionEnds
  try dsimp only
  repeat' first
    | with_reducible assumption | with_reducible refine Keeps.ite (fun _ => ?_) (fun _ => ?_)
    | with_reducible refine Keeps.iteP (fun _ => ?_) (fun _ => ?_)
    | simp only [keeps_upd, p_fc, or_true, true_or, length_lmod, length_lset, List.length_map] | split | dsimp only | intro _

theorem State.flashShadow_keeps (h : Keeps F s t) (node) (src) (p_fc : F .fc := by assumption)
    : Keeps F s (State.flashShadow t node src) := by
  unfold State.flashShadow
  try dsimp only
  repeat' first
    | with_reducible assumption | with_reducible refine State.openShadow_keeps ?_ _ _ _ _ | intro _

theorem State.drawn_keeps (h : Keeps F s t) (p_fresh : F .fresh := by assumption) : Keeps F s t.drawn := by
  exact h.trans ⟨rfl, fun p x => by cases p <;> first | rfl | exact absurd (by assumption) x,
    List.prefix_refl _, Nat.le_succ _, le_refl _, le_refl _, List.prefix_refl _, fun x => ⟨x.1, x.2, x.3, x.4⟩⟩

theorem State.advance_keeps (h : Keeps F s t) (x_t) (p_now : F .now := by assumption) (p_tu : F .tu := by assumption)
    : Keeps F s (State.advance t x_t) := by
  unfold State.advance
  try dsimp only
  repeat' first
    | with_reducible assumption | with_reducible refine Keeps.ite (fun _ => ?_) (fun _ => ?_)
    | with_reducible refine Keeps.iteP (fun _ => ?_) (fun _ => ?_)
    | simp only [keeps_upd, p_now, p_tu, or_true, true_or, length_lmod, length_lset, List.length_map] | split | intro _

theorem State.count_keeps (h : Keeps F s t) (node) (idx) (n) (p_pm : F .pm := by assumption)
    : Keeps F s (State.count t node idx n) := by
  unfold State.count
  try dsimp only
  repeat' first
    | with_reducible assumption | with_reducible refine Keeps.ite (fun _ => ?_) (fun _ => ?_)
    | with_reducible refine Keeps.iteP (fun _ => ?_) (fun _ => ?_)
    | simp only [keeps_upd, p_pm, or_true, true_or, length_lmod, length_lset, List.length_map] | split | intro _

theorem State.modFn_keeps (h : Keeps F s t) (f) (g) (p_hp : F .hp := by assumption) : Keeps F s (State.modFn t f g) := by
  unfold State.modFn
  try dsimp only
  repeat' first
    | with_reducible assumption | simp only [keeps_upd, p_hp, or_true, true_or, length_lmod, length_lset, List.length_map] | intro _

theorem State.modPort_keeps (h : Keeps F s t) (p) (g) (p_hp : F .hp := by assumption) : Keeps F s (State.modPort t p g) := by
  unfold State.modPort
  try dsimp only
  repeat' first
    | with_reducible assumption | simp only [keeps_upd, p_hp, or_true, true_or, length_lmod, length_lset, List.length_map] | intro _

theorem State.respond_keeps (h : Keeps F s t) (f) (o) (p_out : F .out := by assumption) (p_hp : F .hp := by assumption)
    : Keeps F s (State.respond t f o) := by
  unfold State.respond
  try dsimp only
  repeat' first
    | with_reducible assumption | with_reducible refine State.modFn_keeps ?_ _ _ | with_reducible refine State.emit_keeps ?_ _
    | with_reducible refine Keeps.ite (fun _ => ?_) (fun _ => ?_) | with_reducible refine Keeps.iteP (fun _ => ?_) (fun _ => ?_)
    | split | dsimp only | intro _

theorem State.flushAnswers_keeps (h : Keeps F s t) (f) (p_out : F .out := by assumption) (p_hp : F .hp := by assumption)
    : Keeps F s (State.flushAnswers t f) := by
  unfold State.flushAnswers
  try dsimp only
  repeat' first
    | with_reducible assumption | with_reducible refine State.emit_keeps ?_ _ | with_reducible refine State.modFn_keeps ?_ _ _
    | with_reducible refine Keeps.foldl (fun _ _ _ => ?_) _ ?_ | with_reducible refine Keeps.foldlP (fun _ _ _ => ?_) _ ?_
    | dsimp only | intro _

theorem State.vector_keeps (h : Keeps F s t) (f) (v) (p_out : F .out := by assumption) (p_hp : F .hp := by assumption)
    : Keeps F s (State.vector t f v) := by
  unfold State.vector
  try dsimp only
  repeat' first
    | with_reducible assumption | with_reducible refine State.emit_keeps ?_ _ | with_reducible refine State.modFn_keeps ?_ _ _
    | with_reducible refine Keeps.ite (fun _ => ?_) (fun _ => ?_) | with_reducible refine Keeps.iteP (fun _ => ?_) (fun _ => ?_)
    | split | dsimp only | intro _

theorem State.flushVectors_keeps (h : Keeps F s t) (f) (p_out : F .out := by assumption) (p_hp : F .hp := by assumption)
    : Keeps F s (State.flushVectors t f) := by
  unfold State.flushVectors
  try dsimp only
  repeat' first
    | with_reducible assumption | with_reducible refine State.modFn_keeps ?_ _ _ | with_reducible refine State.emit_keeps ?_ _
    | with_reducible refine Keeps.foldl (fun _ _ _ => ?_) _ ?_ | with_reducible refine Keeps.foldlP (fun _ _ _ => ?_) _ ?_
    | with_reducible refine Keeps.ite (fun _ => ?_) (fun _ => ?_) | with_reducible refine Keeps.iteP (fun _ => ?_) (fun _ => ?_)
    | split | dsimp only | intro _

theorem State.cause_keeps (h : Keeps F s t) (f) (b) (p_out : F .out := by assumption) (p_hp : F .hp := by assumption)
    : Keeps F s (State.cause t f b) := by
  unfold State.cause
  try dsimp only
  repeat' first
    | with_reducible assumption | with_reducible refine State.modFn_keeps ?_ _ _ | with_reducible refine State.vector_keeps ?_ _ _
    | with_reducible refine Keeps.ite (fun _ => ?_) (fun _ => ?_) | with_reducible refine Keeps.iteP (fun _ => ?_) (fun _ => ?_)
    | split | dsimp only | intro _

theorem State.sendWrite_keeps (h : Keeps F s t) (f) (addr) (d) (who) (p_out : F .out := by assumption)
    (p_pm : F .pm := by assumption) : Keeps F s (State.sendWrite t f addr d who) := by
  unfold State.sendWrite
  try dsimp only
  repeat' first
    | with_reducible assumption | with_reducible refine State.emit_keeps ?_ _
    | with_reducible refine State.hostWrite_keeps ?_ _ _ _ _ | with_reducible refine State.count_keeps ?_ _ _ _
    | with_reducible refine Keeps.foldl (fun _ _ _ => ?_) _ ?_ | with_reducible refine Keeps.foldlP (fun _ _ _ => ?_) _ ?_
    | dsimp only | intro _

theorem State.hostWrite_keeps (h : Keeps F s t) (f) (addr) (d) (who) (p_out : F .out := by assumption)
    (p_hp : F .hp := by assumption) (p_pm : F .pm := by assumption) : Keeps F s (State.hostWrite t f addr d who) := by
  unfold State.hostWrite
  try dsimp only
  repeat' first
    | with_reducible assumption | with_reducible refine State.sendWrite_keeps ?_ _ _ _ _
    | with_reducible refine State.modFn_keeps ?_ _ _ | with_reducible refine Keeps.ite (fun _ => ?_) (fun _ => ?_)
    | with_reducible refine Keeps.iteP (fun _ => ?_) (fun _ => ?_) | split | dsimp only | intro _

theorem State.flushWrites_keeps (h : Keeps F s t) (f) (p_out : F .out := by assumption) (p_hp : F .hp := by assumption)
    (p_pm : F .pm := by assumption) : Keeps F s (State.flushWrites t f) := by
  unfold State.flushWrites
  try dsimp only
  repeat' first
    | with_reducible assumption | with_reducible refine State.sendWrite_keeps ?_ _ _ _ _
    | with_reducible refine State.modFn_keeps ?_ _ _ | with_reducible refine Keeps.foldl (fun _ _ _ => ?_) _ ?_
    | with_reducible refine Keeps.foldlP (fun _ _ _ => ?_) _ ?_ | with_reducible refine Keeps.ite (fun _ => ?_) (fun _ => ?_)
    | with_reducible refine Keeps.iteP (fun _ => ?_) (fun _ => ?_) | split | dsimp only | intro _

theorem State.goViral_keeps (h : Keeps F s t) (f) (p_out : F .out := by assumption) (p_hp : F .hp := by assumption)
    (p_fc : F .fc := by assumption) : Keeps F s (State.goViral t f) := by
  unfold State.goViral
  try dsimp only
  repeat' first
    | with_reducible assumption | with_reducible refine State.modFn_keeps ?_ _ _ | with_reducible refine State.emit_keeps ?_ _
    | with_reducible refine State.cause_keeps ?_ _ _ | with_reducible refine State.report_keeps ?_ _ _ _
    | with_reducible refine Keeps.ite (fun _ => ?_) (fun _ => ?_) | with_reducible refine Keeps.iteP (fun _ => ?_) (fun _ => ?_)
    | split | dsimp only | intro _

theorem State.freeze_keeps (h : Keeps F s t) (f) (cause) (p_out : F .out := by assumption) (p_hp : F .hp := by assumption)
    (p_mb : F .mb := by assumption) (p_fc : F .fc := by assumption) : Keeps F s (State.freeze t f cause) := by
  unfold State.freeze
  try dsimp only
  repeat' first
    | with_reducible assumption | with_reducible refine State.cause_keeps ?_ _ _ | with_reducible refine State.report_keeps ?_ _ _ _
    | with_reducible refine Keeps.ite (fun _ => ?_) (fun _ => ?_) | with_reducible refine Keeps.iteP (fun _ => ?_) (fun _ => ?_)
    | simp only [keeps_upd, p_out, p_hp, p_mb, p_fc, or_true, true_or, length_lmod, length_lset, List.length_map] | split
    | dsimp only | intro _

theorem State.malformed_keeps (h : Keeps F s t) (f) (p_out : F .out := by assumption) (p_hp : F .hp := by assumption)
    (p_mb : F .mb := by assumption) (p_fc : F .fc := by assumption) : Keeps F s (State.malformed t f) := by
  unfold State.malformed
  try dsimp only
  repeat' first
    | with_reducible assumption | with_reducible refine State.freeze_keeps ?_ _ _
    | with_reducible refine Keeps.ite (fun _ => ?_) (fun _ => ?_) | with_reducible refine Keeps.iteP (fun _ => ?_) (fun _ => ?_)
    | simp only [keeps_upd, p_out, p_hp, p_mb, p_fc, or_true, true_or, length_lmod, length_lset, List.length_map] | split
    | dsimp only | intro _

end Sys2Proof.Machine
end

