-- ==== Sys2Proof/Laws/KeepsOperands.lean ====
section
/-! SUPPORT. What each operation of Machine/Operands.lean keeps: arrival, admission and answers of commands. -/

set_option Elab.async false

set_option linter.all false

namespace Sys2Proof.Machine
open Sys2Proof

variable {F : Part → Prop} {s t : State}

theorem State.direct_keeps (h : Keeps F s t) (p) (op) (kind) (obj) (cl) (p_mb : F .mb := by assumption)
    : Keeps F s (State.direct t p op kind obj cl) := by
  unfold State.direct
  try dsimp only
  repeat' first
    | with_reducible assumption | with_reducible refine Keeps.ite (fun _ => ?_) (fun _ => ?_)
    | with_reducible refine Keeps.iteP (fun _ => ?_) (fun _ => ?_)
    | simp only [keeps_upd, p_mb, or_true, true_or, length_lmod, length_lset, List.length_map] | split | intro _

theorem State.fcrDone_keeps (h : Keeps F s t) (f) (q) (p_out : F .out := by assumption) (p_hp : F .hp := by assumption)
    : Keeps F s (State.fcrDone t f q) := by
  unfold State.fcrDone
  try dsimp only
  repeat' first
    | with_reducible assumption | with_reducible refine State.modFn_keeps ?_ _ _ | with_reducible refine State.vector_keeps ?_ _ _
    | with_reducible refine Keeps.ite (fun _ => ?_) (fun _ => ?_) | with_reducible refine Keeps.iteP (fun _ => ?_) (fun _ => ?_)
    | split | dsimp only | intro _

theorem State.fetchOne_keeps (h : Keeps F s t) (f) (p_out : F .out := by assumption) (p_hp : F .hp := by assumption)
    : Keeps F s (State.fetchOne t f) := by
  unfold State.fetchOne
  try dsimp only
  repeat' first
    | with_reducible assumption | with_reducible refine State.modFn_keeps ?_ _ _ | with_reducible refine State.emit_keeps ?_ _
    | with_reducible refine Keeps.ite (fun _ => ?_) (fun _ => ?_) | with_reducible refine Keeps.iteP (fun _ => ?_) (fun _ => ?_)
    | split | dsimp only | intro _

theorem State.fetchRing_keeps (h : Keeps F s t) (f) (p_out : F .out := by assumption) (p_hp : F .hp := by assumption)
    : Keeps F s (State.fetchRing t f) := by
  unfold State.fetchRing
  try dsimp only
  repeat' first
    | with_reducible assumption | with_reducible refine State.fetchOne_keeps ?_ _
    | with_reducible refine Keeps.foldl (fun _ _ _ => ?_) _ ?_ | with_reducible refine Keeps.foldlP (fun _ _ _ => ?_) _ ?_
    | dsimp only | intro _

theorem State.ringTake_keeps (h : Keeps F s t) (f) (k) (tag) (p_hp : F .hp := by assumption)
    : Keeps F s (State.ringTake t f k tag) := by
  unfold State.ringTake
  try dsimp only
  repeat' first
    | with_reducible assumption | with_reducible refine State.modFn_keeps ?_ _ _
    | with_reducible refine Keeps.ite (fun _ => ?_) (fun _ => ?_) | with_reducible refine Keeps.iteP (fun _ => ?_) (fun _ => ?_)
    | split | dsimp only | intro _

theorem State.ringComplete_keeps (h : Keeps F s t) (f) (k) (tag) (r) (final) (p_out : F .out := by assumption)
    (p_hp : F .hp := by assumption) (p_pm : F .pm := by assumption) : Keeps F s (State.ringComplete t f k tag r final) := by
  unfold State.ringComplete
  try dsimp only
  repeat' first
    | with_reducible assumption | with_reducible refine State.modFn_keeps ?_ _ _
    | with_reducible refine State.hostWrite_keeps ?_ _ _ _ _ | with_reducible refine State.fcrDone_keeps ?_ _ _
    | with_reducible refine State.fetchRing_keeps ?_ _ | with_reducible refine Keeps.ite (fun _ => ?_) (fun _ => ?_)
    | with_reducible refine Keeps.iteP (fun _ => ?_) (fun _ => ?_) | split | dsimp only | intro _

theorem State.complete_keeps (h : Keeps F s t) (p) (r) (final) (p_out : F .out := by assumption) (p_hp : F .hp := by assumption)
    (p_pm : F .pm := by assumption) : Keeps F s (State.complete t p r final) := by
  unfold State.complete
  try dsimp only
  repeat' first
    | with_reducible assumption | with_reducible refine State.emit_keeps ?_ _
    | with_reducible refine State.ringComplete_keeps ?_ _ _ _ _ _ | with_reducible refine State.modFn_keeps ?_ _ _ | split
    | dsimp only | intro _

theorem State.beginWake_keeps (h : Keeps F s t) (cause) (p_pw : F .pw := by assumption) : Keeps F s (State.beginWake t cause) := by
  unfold State.beginWake
  try dsimp only
  repeat' first
    | with_reducible assumption | with_reducible refine Keeps.ite (fun _ => ?_) (fun _ => ?_)
    | with_reducible refine Keeps.iteP (fun _ => ?_) (fun _ => ?_)
    | simp only [keeps_upd, p_pw, or_true, true_or, length_lmod, length_lset, List.length_map] | split | intro _

theorem State.leaveIdle_keeps (h : Keeps F s t) (p_pw : F .pw := by assumption) (p_ck : F .ck := by assumption) (p_pm : F .pm := by assumption) : Keeps F s t.leaveIdle := by
  unfold State.leaveIdle
  try dsimp only
  repeat' first
    | with_reducible assumption | intro _ | with_reducible refine State.count_keeps ?_ _ _ _
    | with_reducible refine Keeps.ite (fun _ => ?_) (fun _ => ?_)
    | simp only [keeps_upd, p_pw, p_ck, p_pm, or_true, true_or, length_lmod, length_lset, List.length_map]

theorem State.holdCmd_keeps (h : Keeps F s t) (p) (op) (b) (p_mb : F .mb := by assumption) : Keeps F s (State.holdCmd t p op b) := by
  unfold State.holdCmd
  try dsimp only
  repeat' first
    | with_reducible assumption | simp only [keeps_upd, p_mb, or_true, true_or, length_lmod, length_lset, List.length_map] | intro _

theorem State.countAnswer_keeps (h : Keeps F s t) (i) (r) (p_mb : F .mb := by assumption) (p_pm : F .pm := by assumption)
    : Keeps F s (State.countAnswer t i r) := by
  unfold State.countAnswer
  try dsimp only
  repeat' first
    | with_reducible assumption | with_reducible refine State.count_keeps ?_ _ _ _
    | with_reducible refine Keeps.ite (fun _ => ?_) (fun _ => ?_) | with_reducible refine Keeps.iteP (fun _ => ?_) (fun _ => ?_)
    | simp only [keeps_upd, p_mb, p_pm, or_true, true_or, length_lmod, length_lset, List.length_map] | split | dsimp only | intro _

theorem State.execute_keeps (h : Keeps F s t) (i : CmdInfo) (p : Path) (op : Nat) (b : Bytes) (body : Body)
    (hb : ∀ u, Keeps F s u → Keeps F s (body p b u).1)
    (p_out : F .out := by assumption) (p_hp : F .hp := by assumption) (p_mb : F .mb := by assumption) (p_pw : F .pw := by assumption) (p_ck : F .ck := by assumption) (p_pm : F .pm := by assumption) : Keeps F s (State.execute t i p op b body) := by
  have h1 : Keeps F s ((t.leaveIdle).count 0 0) := State.count_keeps (State.leaveIdle_keeps h) _ _ _
  have h2 : Keeps F s (match ((t.leaveIdle).count 0 0).admission i p op b with
      | some r => ((t.leaveIdle).count 0 0, r)
      | none => body p b ((t.leaveIdle).count 0 0)).1 := by
    split
    · exact h1
    · exact hb _ h1
  unfold State.execute
  dsimp only
  refine Keeps.ite (fun _ => h2) (fun _ => State.complete_keeps (State.countAnswer_keeps h2 _ _) _ _ _)

theorem State.countArrival_keeps (h : Keeps F s t) (p) (p_hp : F .hp := by assumption) (p_pm : F .pm := by assumption)
    : Keeps F s (State.countArrival t p) := by
  unfold State.countArrival
  try dsimp only
  repeat' first
    | with_reducible assumption | with_reducible refine State.count_keeps ?_ _ _ _
    | with_reducible refine State.ringTake_keeps ?_ _ _ _ | split | intro _

theorem State.command_keeps (h : Keeps F s t) (p : Path) (op : Nat) (b : Bytes) (body : Body)
    (hb : ∀ u, Keeps F s u → Keeps F s (body p b u).1)
    (p_out : F .out := by assumption) (p_hp : F .hp := by assumption) (p_mb : F .mb := by assumption) (p_pw : F .pw := by assumption) (p_ck : F .ck := by assumption) (p_pm : F .pm := by assumption) : Keeps F s (State.command t p op b body) := by
  unfold State.command
  repeat' first
    | with_reducible assumption
    | with_reducible refine State.execute_keeps ?_ _ _ _ _ _ hb
    | with_reducible refine State.countArrival_keeps ?_ _
    | with_reducible refine State.beginWake_keeps ?_ _
    | with_reducible refine State.complete_keeps ?_ _ _ _
    | with_reducible refine State.countAnswer_keeps ?_ _ _
    | with_reducible refine State.holdCmd_keeps ?_ _ _ _
    | split

theorem State.startBg_keeps (h : Keeps F s t) (p) (op) (obj) (work) (total) (clamped) (p_mb : F .mb := by assumption)
    : Keeps F s (State.startBg t p op obj work total clamped).1 := by
  unfold State.startBg
  try dsimp only
  repeat' first
    | with_reducible assumption | with_reducible refine Keeps.ite (fun _ => ?_) (fun _ => ?_)
    | with_reducible refine Keeps.iteP (fun _ => ?_) (fun _ => ?_)
    | simp only [keeps_upd, p_mb, or_true, true_or, length_lmod, length_lset, List.length_map] | split | dsimp only | intro _

theorem State.modOp_keeps (h : Keeps F s t) (x_h) (g) (p_mb : F .mb := by assumption) : Keeps F s (State.modOp t x_h g) := by
  unfold State.modOp
  try dsimp only
  repeat' first
    | with_reducible assumption | with_reducible refine Keeps.ite (fun _ => ?_) (fun _ => ?_)
    | with_reducible refine Keeps.iteP (fun _ => ?_) (fun _ => ?_)
    | simp only [keeps_upd, p_mb, or_true, true_or, length_lmod, length_lset, List.length_map] | split | dsimp only | intro _

theorem State.endOp_keeps (h : Keeps F s t) (x_h) (st) (data) (p_out : F .out := by assumption) (p_hp : F .hp := by assumption)
    (p_mb : F .mb := by assumption) (p_pm : F .pm := by assumption) : Keeps F s (State.endOp t x_h st data) := by
  unfold State.endOp
  try dsimp only
  repeat' first
    | with_reducible assumption | with_reducible refine State.modOp_keeps ?_ _ _
    | with_reducible refine State.complete_keeps ?_ _ _ _ | with_reducible refine State.vector_keeps ?_ _ _
    | with_reducible refine Keeps.ite (fun _ => ?_) (fun _ => ?_) | with_reducible refine Keeps.iteP (fun _ => ?_) (fun _ => ?_)
    | split | dsimp only | intro _

theorem State.stage_keeps (h : Keeps F s t) (p) (op) (kind) (obj) (lvl) (inRange) (b) (rules) (p_mb : F .mb := by assumption)
    : Keeps F s (State.stage t p op kind obj lvl inRange b rules).1 := by
  unfold State.stage
  try dsimp only
  repeat' first
    | with_reducible assumption | with_reducible refine Keeps.ite (fun _ => ?_) (fun _ => ?_)
    | with_reducible refine Keeps.iteP (fun _ => ?_) (fun _ => ?_)
    | simp only [keeps_upd, p_mb, or_true, true_or, length_lmod, length_lset, List.length_map] | split | dsimp only | intro _

theorem query_keeps (h : Keeps F s t) (p) (op) (b) (n) (size) (rec) (p_mb : F .mb := by assumption)
    : Keeps F s (query p op b t n size rec).1 := by
  unfold query
  try dsimp only
  repeat' first
    | with_reducible assumption | with_reducible refine State.direct_keeps ?_ _ _ _ _ _
    | with_reducible refine Keeps.ite (fun _ => ?_) (fun _ => ?_) | with_reducible refine Keeps.iteP (fun _ => ?_) (fun _ => ?_)
    | split | dsimp only | intro _

end Sys2Proof.Machine
end

