-- ==== Sys2Proof/Laws/Essence.lean ====
section
/-! SUPPORT. What a state holds apart from what was sent, the counts of answers and events, and the progress of rings and vectors: the
answer of a command, a vector and a performance event change nothing of it. -/

set_option Elab.async false

namespace Sys2Proof.Machine
open Sys2Proof

/-- A ring's registration, apart from its progress. -/
def Fcr.essence (q : Fcr) : Fcr := { q with fetching := 0, outstanding := [], done := [], unsig := 0, unsigAt := 0 }

/-- A function apart from its ring's progress, its vectors and causes, the writes it holds and its mailboxes' last answers. -/
def HostFn.essence (h : HostFn) : HostFn := { h with fcr := h.fcr.map Fcr.essence, pba := 0, intCause := 0, heldW := [], mbox := [(0, []), (0, [])] }

/-- A state apart from what was sent, the counts of answers and events, and the rings' progress. -/
def State.essence (s : State) : State :=
  { s with
    out := []
    hp := { s.hp with fns := s.hp.fns.map HostFn.essence }
    mb := { s.mb with nF := 0, nS := 0 }
    pm := { s.pm with cnt := [], sticky := [] } }

/-! ### Reading it -/

theorem State.essence_fnAt (s : State) (f : Nat) : s.essence.fnAt f = (s.fnAt f).essence := by
  simp only [State.fnAt, State.essence, List.getD_eq_getElem?_getD, List.getElem?_map]
  cases s.hp.fns[f]? <;> rfl

theorem State.essence_portAt (s : State) (q : Nat) : s.essence.portAt q = s.portAt q := rfl

/-- Functions of states of the same essence. -/
theorem State.fnAt_of_essence {s t : State} (h : t.essence = s.essence) (f : Nat) : (t.fnAt f).essence = (s.fnAt f).essence := by
  rw [← State.essence_fnAt, ← State.essence_fnAt, h]

/-! ### States of the same essence -/

theorem State.pending_of_essence {s t : State} (h : t.essence = s.essence) : t.pending = s.pending := by
  have e := congrArg State.pending h; exact e
theorem State.fresh_of_essence {s t : State} (h : t.essence = s.essence) : t.fresh = s.fresh := by
  have e := congrArg State.fresh h; exact e
theorem State.now_of_essence {s t : State} (h : t.essence = s.essence) : t.now = s.now := by
  have e := congrArg State.now h; exact e
theorem State.dram_of_essence {s t : State} (h : t.essence = s.essence) : t.dram = s.dram := by
  have e := congrArg State.dram h; exact e
theorem State.rr_of_essence {s t : State} (h : t.essence = s.essence) : t.rr = s.rr := by
  have e := congrArg State.rr h; exact e
theorem State.rg_of_essence {s t : State} (h : t.essence = s.essence) : t.rg = s.rg := by
  have e := congrArg State.rg h; exact e
theorem State.ns_of_essence {s t : State} (h : t.essence = s.essence) : t.ns = s.ns := by
  have e := congrArg State.ns h; exact e
theorem State.tr_of_essence {s t : State} (h : t.essence = s.essence) : t.tr = s.tr := by
  have e := congrArg State.tr h; exact e
theorem State.cd_of_essence {s t : State} (h : t.essence = s.essence) : t.cd = s.cd := by
  have e := congrArg State.cd h; exact e
theorem State.lp_of_essence {s t : State} (h : t.essence = s.essence) : t.lp = s.lp := by
  have e := congrArg State.lp h; exact e
theorem State.fu_of_essence {s t : State} (h : t.essence = s.essence) : t.fu = s.fu := by
  have e := congrArg State.fu h; exact e
theorem State.sx_of_essence {s t : State} (h : t.essence = s.essence) : t.sx = s.sx := by
  have e := congrArg State.sx h; exact e
theorem State.mc_of_essence {s t : State} (h : t.essence = s.essence) : t.mc = s.mc := by
  have e := congrArg State.mc h; exact e
theorem State.bw_of_essence {s t : State} (h : t.essence = s.essence) : t.bw = s.bw := by
  have e := congrArg State.bw h; exact e
theorem State.qe_of_essence {s t : State} (h : t.essence = s.essence) : t.qe = s.qe := by
  have e := congrArg State.qe h; exact e
theorem State.sc_of_essence {s t : State} (h : t.essence = s.essence) : t.sc = s.sc := by
  have e := congrArg State.sc h; exact e
theorem State.tu_of_essence {s t : State} (h : t.essence = s.essence) : t.tu = s.tu := by
  have e := congrArg State.tu h; exact e
theorem State.ce_of_essence {s t : State} (h : t.essence = s.essence) : t.ce = s.ce := by
  have e := congrArg State.ce h; exact e
theorem State.fc_of_essence {s t : State} (h : t.essence = s.essence) : t.fc = s.fc := by
  have e := congrArg State.fc h; exact e
theorem State.pw_of_essence {s t : State} (h : t.essence = s.essence) : t.pw = s.pw := by
  have e := congrArg State.pw h; exact e
theorem State.ck_of_essence {s t : State} (h : t.essence = s.essence) : t.ck = s.ck := by
  have e := congrArg State.ck h; exact e
theorem State.ports_of_essence {s t : State} (h : t.essence = s.essence) : t.hp.ports = s.hp.ports := by
  have e := congrArg (fun x : State => x.hp.ports) h; exact e
theorem State.fns_length_of_essence {s t : State} (h : t.essence = s.essence) : t.hp.fns.length = s.hp.fns.length := by
  have e := congrArg (fun x : State => x.hp.fns.length) h
  simpa only [State.essence, List.length_map] using e
theorem State.mb_of_essence {s t : State} (h : t.essence = s.essence) : t.mb = { s.mb with nF := t.mb.nF, nS := t.mb.nS } := by
  have e := congrArg (fun x : State => ({ x.mb with nF := t.mb.nF, nS := t.mb.nS } : Mb)) h; exact e
theorem State.pm_of_essence {s t : State} (h : t.essence = s.essence) : t.pm = { s.pm with cnt := t.pm.cnt, sticky := t.pm.sticky } := by
  have e := congrArg (fun x : State => ({ x.pm with cnt := t.pm.cnt, sticky := t.pm.sticky } : Pm)) h; exact e

/-! ### What changes nothing of it -/

@[simp] theorem State.essence_emit (s : State) (o : Out) : (s.emit o).essence = s.essence := rfl

theorem pmEvent_rest (pm : Pm) (ev n : Nat) :
    { pmEvent pm ev n with cnt := [], sticky := [] } = { pm with cnt := [], sticky := [] } := by
  have e : ∀ (l : List Nat) (x : Pm),
      { l.foldl (fun p c => if sget 0 p.evt c = ev then pmAdd p c n else p) x with cnt := [], sticky := [] } =
        { x with cnt := [], sticky := [] } := by
    intro l
    induction l with
    | nil => intro x; rfl
    | cons c l ih => intro x; rw [List.foldl_cons, ih]; split_ifs <;> rfl
  exact e pm.en pm

@[simp] theorem State.essence_count (s : State) (node idx n : Nat) : (s.count node idx n).essence = s.essence := by
  unfold State.count
  split_ifs
  · simp only [State.essence, pmEvent_rest]
  · rfl

theorem State.essence_modFn (s : State) (f : Nat) {g : HostFn → HostFn} (h : ∀ x, (g x).essence = x.essence) :
    (s.modFn f g).essence = s.essence := by
  have e : (lmod s.hp.fns f g).map HostFn.essence = s.hp.fns.map HostFn.essence := by
    apply List.ext_getElem?
    intro i
    simp only [lmod, List.getElem?_map, List.getElem?_modify]
    cases s.hp.fns[i]? with
    | none => rfl
    | some x => simp only [Option.map_eq_map, Option.map_some, Option.some.injEq]; split_ifs <;> simp [h]
  simp only [State.modFn, State.essence, e]

@[simp] theorem State.essence_vector (s : State) (f v : Nat) : (s.vector f v).essence = s.essence := by
  unfold State.vector
  split_ifs
  · rfl
  · exact State.essence_modFn s f fun _ => rfl

@[simp] theorem State.essence_cause (s : State) (f b : Nat) : (s.cause f b).essence = s.essence := by
  unfold State.cause
  dsimp only
  split_ifs
  · rw [State.essence_vector]; exact State.essence_modFn s f fun _ => rfl
  · exact State.essence_modFn s f fun _ => rfl

/-- A fold of effects none of which changes the essence. -/
theorem State.essence_foldl {α : Type} (g : State → α → State) (h : ∀ s x, (g s x).essence = s.essence) (l : List α) (s : State) :
    (l.foldl g s).essence = s.essence := by
  induction l generalizing s with
  | nil => rfl
  | cons x l ih => rw [List.foldl_cons, ih, h]

@[simp] theorem State.essence_flushVectors (s : State) (f : Nat) : (s.flushVectors f).essence = s.essence := by
  refine State.essence_foldl _ (fun s v => ?_) _ _
  split_ifs
  · rw [State.essence_emit]; exact State.essence_modFn s f fun _ => rfl
  · rfl

@[simp] theorem State.essence_sendWrite (s : State) (f addr : Nat) (d : Bytes) (w : Nat) :
    (s.sendWrite f addr d w).essence = s.essence :=
  State.essence_foldl _ (fun s t => by rw [State.essence_count, State.essence_emit]) _ _

@[simp] theorem State.essence_hostWrite (s : State) (f addr : Nat) (d : Bytes) (w : Nat) :
    (s.hostWrite f addr d w).essence = s.essence := by
  unfold State.hostWrite
  dsimp only
  split_ifs
  · rfl
  · exact State.essence_sendWrite ..
  · exact State.essence_modFn s f fun _ => rfl
  · rfl

@[simp] theorem State.essence_flushWrites (s : State) (f : Nat) : (s.flushWrites f).essence = s.essence := by
  unfold State.flushWrites
  split_ifs
  · rw [State.essence_foldl _ (fun s w => State.essence_sendWrite ..)]; exact State.essence_modFn s f fun _ => rfl
  · rfl

@[simp] theorem State.essence_fetchOne (s : State) (f : Nat) : (s.fetchOne f).essence = s.essence := by
  unfold State.fetchOne
  split
  · rfl
  · rename_i q hq
    dsimp only
    split_ifs
    · rw [State.essence_emit]
      have e : (lmod s.hp.fns f fun h => { h with fcr := some { q with fetching := q.fetching + 1 } }).map HostFn.essence =
          s.hp.fns.map HostFn.essence := by
        apply List.ext_getElem?
        intro i
        simp only [lmod, List.getElem?_map, List.getElem?_modify]
        cases hx : s.hp.fns[i]? with
        | none => rfl
        | some x =>
          simp only [Option.map_eq_map, Option.map_some, Option.some.injEq]
          split_ifs with hi
          · subst hi
            have : x.fcr = some q := by
              rw [State.fnAt, List.getD_eq_getElem?_getD, hx] at hq; exact hq
            simp [HostFn.essence, this, Fcr.essence]
          · rfl
      simp only [State.modFn, State.essence, e]
    · rfl

@[simp] theorem State.essence_fetchRing (s : State) (f : Nat) : (s.fetchRing f).essence = s.essence :=
  State.essence_foldl _ (fun s _ => State.essence_fetchOne s f) _ _

@[simp] theorem State.essence_fcrDone (s : State) (f : Nat) (q : Fcr) : (s.fcrDone f q).essence = s.essence := by
  have e : ∀ a b, (s.modFn f (fun h => { h with
      intCause := h.intCause ||| 1#8, fcr := h.fcr.map (fun q => { q with unsig := a, unsigAt := b }) })).essence = s.essence :=
    fun a b => State.essence_modFn s f fun h => by
      simp only [HostFn.essence, Option.map_map]; rfl
  unfold State.fcrDone
  dsimp only
  split_ifs
  · rw [State.essence_vector, e]
  · rw [e]

@[simp] theorem State.essence_ringTake (s : State) (f k tag : Nat) : (s.ringTake f k tag).essence = s.essence :=
  State.essence_modFn s f fun h => by
    simp only [HostFn.essence, Option.map_map]
    congr 1
    cases h.fcr with
    | none => rfl
    | some q => simp only [Option.map_some, Function.comp_apply]; split_ifs <;> rfl

@[simp] theorem State.essence_ringComplete (s : State) (f k tag : Nat) (r : Reply) (final : Bool) :
    (s.ringComplete f k tag r final).essence = s.essence := by
  have e : (s.modFn f (fun h => { h with fcr := h.fcr.map (fun q => if final then
        { q with outstanding := q.outstanding.filter (fun e => e.1 != k), done := q.done ++ [(k, tag)] } else q) })).essence =
      s.essence := State.essence_modFn s f fun h => by
    simp only [HostFn.essence, Option.map_map]
    congr 1
    cases h.fcr with
    | none => rfl
    | some q => simp only [Option.map_some, Function.comp_apply]; split_ifs <;> rfl
  unfold State.ringComplete
  split
  · rfl
  · dsimp only
    refine (apply_ite State.essence _ _ _).trans (ite_eq_left_iff.mpr fun _ => (apply_ite State.essence _ _ _).trans ?_)
    rw [State.essence_fetchRing, State.essence_fcrDone, State.essence_hostWrite, e, ite_self]

/-- An answer given through a mailbox. -/
theorem State.essence_mailbox (s : State) (f k : Nat) (v : Nat × Bytes) (o : Out) :
    ((s.emit o).modFn f (fun h => { h with mbox := lset h.mbox k v })).essence = s.essence := by
  rw [State.essence_modFn (g := fun h => { h with mbox := lset h.mbox k v }) _ _ fun _ => rfl, State.essence_emit]

@[simp] theorem State.essence_complete (s : State) (p : Path) (r : Reply) (final : Bool) : (s.complete p r final).essence = s.essence := by
  unfold State.complete
  dsimp only
  cases p with
  | primary f => exact State.essence_mailbox ..
  | secondary f => exact State.essence_mailbox ..
  | ring f k tag => simp
  | sideband => simp

@[simp] theorem State.essence_countAnswer (s : State) (i : CmdInfo) (r : Reply) : (s.countAnswer i r).essence = s.essence := by
  have e : ∀ t : State, (∀ n : Nat, ({ t with mb := { t.mb with nF := n } } : State).essence = t.essence) ∧
    ∀ n : Nat, ({ t with mb := { t.mb with nS := n } } : State).essence = t.essence := fun _ => ⟨fun _ => rfl, fun _ => rfl⟩
  unfold State.countAnswer
  dsimp only
  split_ifs <;> simp [e]

@[simp] theorem State.essence_countArrival (s : State) (p : Path) : (s.countArrival p).essence = s.essence := by
  unfold State.countArrival
  cases p <;> simp

/-- What a command finds: only the idle state and its clock differ. -/
theorem State.essence_seen (s : State) (p : Path) :
    (s.seen p).essence = { s.essence with pw := (s.seen p).pw, ck := (s.seen p).ck } := by
  have c : ∀ (t : State) (a b n : Nat), (t.count a b n).pw = t.pw ∧ (t.count a b n).ck = t.ck := by
    intro t a b n; unfold State.count; split_ifs <;> exact ⟨rfl, rfl⟩
  have e : ∀ t : State, (t.leaveIdle).essence = { t.essence with pw := t.leaveIdle.pw, ck := t.leaveIdle.ck } := by
    intro t
    unfold State.leaveIdle
    dsimp only
    split_ifs
    · rw [State.essence_count, (c _ _ _ _).1, (c _ _ _ _).2]; rfl
    · rfl
  rw [State.seen, State.essence_count, e, State.essence_countArrival, (c _ _ _ _).1, (c _ _ _ _).2]

end Sys2Proof.Machine
end

