-- ==== Sys2Proof/Laws/Command.lean ====
section
/-! SUPPORT. What a command does that executes: it finds the state `seen`, its body runs once, and its answer follows. -/

set_option Elab.async false

namespace Sys2Proof.Machine
open Sys2Proof

/-- What counting an arrival and leaving IDLE may change. -/
theorem State.seen_keeps (s : State) (p : Path) : Keeps (· ∈ [.hp, .pw, .ck, .pm]) s (s.seen p) := by
  have m : ∀ x ∈ [Part.hp, .pw, .ck, .pm], (fun y => y ∈ [Part.hp, .pw, .ck, .pm]) x := fun _ h => h
  have hp := m .hp (by decide); have pw := m .pw (by decide); have ck := m .ck (by decide); have pm := m .pm (by decide)
  exact State.count_keeps (State.leaveIdle_keeps (State.countArrival_keeps (Keeps.refl _ s) p)) _ _ _

/-- What an answer that is given may change. -/
theorem State.answer_keeps (s : State) (i : CmdInfo) (p : Path) (r : Reply) (final : Bool) :
    Keeps (· ∈ [.out, .hp, .mb, .pm]) s ((s.countAnswer i r).complete p r final) := by
  have m : ∀ x ∈ [Part.out, .hp, .mb, .pm], (fun y => y ∈ [Part.out, .hp, .mb, .pm]) x := fun _ h => h
  have out := m .out (by decide); have hp := m .hp (by decide); have mb := m .mb (by decide); have pm := m .pm (by decide)
  exact State.complete_keeps (State.countAnswer_keeps (Keeps.refl _ s) i r) p r final

/-- The answer is sent. -/
theorem State.complete_sent (s : State) (p : Path) (r : Reply) (final : Bool) :
    s.Sent (s.complete p r final) (.completion p r.rc r.out final) := by
  have m : ∀ x ∈ [Part.out, .hp, .mb, .pm], (fun y => y ∈ [Part.out, .hp, .mb, .pm]) x := fun _ h => h
  have out := m .out (by decide); have hp := m .hp (by decide); have mb := m .mb (by decide); have pm := m .pm (by decide)
  have key : Keeps (· ∈ [Part.out, .hp, .mb, .pm]) (s.emit (.completion p r.rc r.out final)) (s.complete p r final) := by
    unfold State.complete
    dsimp only
    cases p <;> first | exact Keeps.refl _ _ | exact State.ringComplete_keeps (Keeps.refl _ _) _ _ _ _ _ | exact State.modFn_keeps (Keeps.refl _ _) _ _
  obtain ⟨l, hl⟩ := key.sent
  exact ⟨.completion p r.rc r.out final :: l, by rw [← hl]; simp [State.emit], List.mem_cons_self ..⟩

/-- Counting an answer sends nothing. -/
theorem State.countAnswer_out (s : State) (i : CmdInfo) (r : Reply) : (s.countAnswer i r).out = s.out := by
  have m : ∀ x ∈ [Part.mb, .pm], (fun y => y ∈ [Part.mb, .pm]) x := fun _ h => h
  have mb := m .mb (by decide); have pm := m .pm (by decide)
  exact (State.countAnswer_keeps (F := (· ∈ [Part.mb, .pm])) (Keeps.refl _ s) i r).same .out (by decide)

/-- An answer: what it may change, that it changes nothing of the essence, and that it is given. -/
theorem State.answered (s s0 : State) (i : CmdInfo) (p : Path) (r : Reply) (final : Bool) :
    Keeps (· ∈ [.out, .hp, .mb, .pm]) s ((s.countAnswer i r).complete p r final) ∧
      ((s.countAnswer i r).complete p r final).essence = s.essence ∧
      (s0.out <+: s.out → s0.Answers ((s.countAnswer i r).complete p r final) p r) := by
  refine ⟨State.answer_keeps .., by rw [State.essence_complete, State.essence_countAnswer], fun ho => ⟨final, ?_⟩⟩
  obtain ⟨l, hl, hm⟩ := State.complete_sent (s.countAnswer i r) p r final
  obtain ⟨k, hk⟩ := ho
  exact ⟨k ++ l, by rw [hl, State.countAnswer_out, ← hk, List.append_assoc], List.mem_append_right _ hm⟩

/-- An admitted command: what its body does, once, and its answer. -/
theorem State.command_admitted {s : State} {p : Path} {op : Nat} {b : Bytes} (h : s.Admits p op b) (body : Body)
    (hr : (body p b (s.seen p)).2 ≠ owedLater) :
    Keeps (· ∈ [.out, .hp, .mb, .pm]) (body p b (s.seen p)).1 (s.command p op b body) ∧
      (s.command p op b body).essence = (body p b (s.seen p)).1.essence ∧
      (s.out <+: (body p b (s.seen p)).1.out → s.Answers (s.command p op b body) p (body p b (s.seen p)).2) := by
  obtain ⟨ha, i, hi, hn⟩ := h
  have e : s.command p op b body =
      ((body p b (s.seen p)).1.countAnswer i (body p b (s.seen p)).2).complete p (body p b (s.seen p)).2
        (!isAcceptance i (body p b (s.seen p)).2) := by
    have hn' : (((s.countArrival p).leaveIdle).count 0 0).admission i p op b = none := hn
    have hr' : (body p b (((s.countArrival p).leaveIdle).count 0 0)).2 ≠ owedLater := hr
    simp only [State.command, hi, ha, State.execute, hn', if_neg hr', State.seen]
  rw [e]
  exact State.answered ..

/-- A command that a check refuses answers the refusal, and does nothing else. -/
theorem State.command_refused {s : State} {p : Path} {op : Nat} {b : Bytes} {i : CmdInfo} {r : Reply} (ha : s.arrival p op = .run)
    (hi : cmdInfo op = some i) (hn : (s.seen p).admission i p op b = some r) (hr : r ≠ owedLater) (body : Body) :
    Keeps (· ∈ [.out, .hp, .mb, .pm]) (s.seen p) (s.command p op b body) ∧
      (s.command p op b body).essence = (s.seen p).essence ∧ s.Answers (s.command p op b body) p r := by
  have e : s.command p op b body = ((s.seen p).countAnswer i r).complete p r (!isAcceptance i r) := by
    have hn' : (((s.countArrival p).leaveIdle).count 0 0).admission i p op b = some r := hn
    simp only [State.command, hi, ha, State.execute, hn', if_neg hr, State.seen]
  rw [e]
  obtain ⟨h1, h2, h3⟩ := State.answered (s.seen p) s i p r (!isAcceptance i r)
  exact ⟨h1, h2, h3 ((State.seen_keeps s p).same .out (by decide) ▸ List.prefix_refl _)⟩

/-- A command that is admitted has the fixed part of its input (15 R528, R560). -/
theorem State.Admits.length {s : State} {p : Path} {op : Nat} {b : Bytes} (h : s.Admits p op b) {i : CmdInfo} (hi : cmdInfo op = some i) :
    i.len ≤ b.length := by
  obtain ⟨_, j, hj, hn⟩ := h
  obtain rfl := Option.some.inj (hi.symm.trans hj)
  by_contra hl
  rw [State.admission] at hn
  simp only [if_pos (Or.inl (not_le.mp hl))] at hn
  cases hn

/-- What a command finds has sent what was sent. -/
theorem State.seen_out (s : State) (p : Path) : (s.seen p).out = s.out := (State.seen_keeps s p).same .out (by decide)
theorem State.seen_mb (s : State) (p : Path) : (s.seen p).mb = s.mb := (State.seen_keeps s p).same .mb (by decide)
theorem State.seen_rg (s : State) (p : Path) : (s.seen p).rg = s.rg := (State.seen_keeps s p).same .rg (by decide)
theorem State.seen_ns (s : State) (p : Path) : (s.seen p).ns = s.ns := (State.seen_keeps s p).same .ns (by decide)
theorem State.seen_tr (s : State) (p : Path) : (s.seen p).tr = s.tr := (State.seen_keeps s p).same .tr (by decide)
theorem State.seen_cd (s : State) (p : Path) : (s.seen p).cd = s.cd := (State.seen_keeps s p).same .cd (by decide)
theorem State.seen_lp (s : State) (p : Path) : (s.seen p).lp = s.lp := (State.seen_keeps s p).same .lp (by decide)
theorem State.seen_fu (s : State) (p : Path) : (s.seen p).fu = s.fu := (State.seen_keeps s p).same .fu (by decide)
theorem State.seen_sx (s : State) (p : Path) : (s.seen p).sx = s.sx := (State.seen_keeps s p).same .sx (by decide)
theorem State.seen_mc (s : State) (p : Path) : (s.seen p).mc = s.mc := (State.seen_keeps s p).same .mc (by decide)
theorem State.seen_bw (s : State) (p : Path) : (s.seen p).bw = s.bw := (State.seen_keeps s p).same .bw (by decide)
theorem State.seen_qe (s : State) (p : Path) : (s.seen p).qe = s.qe := (State.seen_keeps s p).same .qe (by decide)
theorem State.seen_sc (s : State) (p : Path) : (s.seen p).sc = s.sc := (State.seen_keeps s p).same .sc (by decide)
theorem State.seen_tu (s : State) (p : Path) : (s.seen p).tu = s.tu := (State.seen_keeps s p).same .tu (by decide)
theorem State.seen_ce (s : State) (p : Path) : (s.seen p).ce = s.ce := (State.seen_keeps s p).same .ce (by decide)
theorem State.seen_fc (s : State) (p : Path) : (s.seen p).fc = s.fc := (State.seen_keeps s p).same .fc (by decide)
theorem State.seen_now (s : State) (p : Path) : (s.seen p).now = s.now := (State.seen_keeps s p).same .now (by decide)
theorem State.seen_dram (s : State) (p : Path) : (s.seen p).dram = s.dram := (State.seen_keeps s p).same .dram (by decide)

end Sys2Proof.Machine
end

