-- ==== Sys2Proof/Laws/Fields.lean ====
section
/-! SUPPORT. Payload fields: reading what was written, and that `applyRules` gives every field its own rule. -/

set_option Elab.async false

namespace Sys2Proof.Machine
open Sys2Proof

@[simp] theorem length_le (n v : Nat) : (le n v).length = n := by
  induction n generalizing v with
  | zero => rfl
  | succ n ih => simp [le, ih]

theorem unle_lt (b : Bytes) : unle b < 256 ^ b.length := by
  induction b with
  | nil => simp [unle]
  | cons x b ih =>
    have := x.isLt
    simp only [unle, List.length_cons, pow_succ]
    omega

theorem unle_le (n v : Nat) : unle (le n v) = v % 256 ^ n := by
  induction n generalizing v with
  | zero => simp [le, unle, Nat.mod_one]
  | succ n ih =>
    have e : (BitVec.ofNat 8 v).toNat = v % 256 := BitVec.toNat_ofNat v 8
    rw [le, unle, ih, e, pow_succ, Nat.mul_comm (256 ^ n) 256, Nat.mod_mul]

theorem rd_lt (b : Bytes) (off n : Nat) : rd b off n < 256 ^ n :=
  lt_of_lt_of_le (unle_lt _) (Nat.pow_le_pow_right (by decide) (by simp))

@[simp] theorem length_wr (b : Bytes) (off n v : Nat) (h : off + n ≤ b.length) : (wr b off n v).length = b.length := by
  simp only [wr, List.length_take, List.length_append, length_le, List.length_drop]
  omega

theorem wr_eq (b : Bytes) (off n v : Nat) (h : off + n ≤ b.length) : wr b off n v = b.take off ++ le n v ++ b.drop (off + n) := by
  rw [wr, List.take_of_length_le]
  simp only [List.length_append, List.length_take, length_le, List.length_drop]
  omega

theorem rd_wr_same (b : Bytes) (off n v : Nat) (h : off + n ≤ b.length) : rd (wr b off n v) off n = v % 256 ^ n := by
  rw [rd, wr_eq b off n v h, List.append_assoc, List.drop_append_of_le_length (by simp; omega),
    List.drop_take_self, List.nil_append, List.take_append_of_le_length (by simp), List.take_of_length_le (by simp), unle_le]

theorem rd_wr_other (b : Bytes) (off n v o l : Nat) (h : off + n ≤ b.length) (hd : o + l ≤ off ∨ off + n ≤ o) :
    rd (wr b off n v) o l = rd b o l := by
  unfold rd
  congr 1
  apply List.ext_getElem?
  intro i
  simp only [List.getElem?_take, List.getElem?_drop]
  split
  · rename_i hi
    rw [wr_eq b off n v h]
    rcases hd with hd | hd
    · rw [List.append_assoc, List.getElem?_append_left (by simp; omega), List.getElem?_take, if_pos (by omega)]
    · rw [List.getElem?_append_right (by simp; omega), List.getElem?_drop]
      congr 1
      simp
      omega
  · rfl

/-- Two fields do not overlap. -/
def FieldRule.Apart (r q : FieldRule) : Prop := r.off + r.len ≤ q.off ∨ q.off + q.len ≤ r.off

/-- A field lies in a payload, and its rule gives a value that the field can hold. -/
def FieldRule.Fits (r : FieldRule) (b : Bytes) : Prop := r.off + r.len ≤ b.length ∧ r.fix (rd b r.off r.len) < 256 ^ r.len

/-- One rule applied. -/
def fieldStep (acc : Bytes × List (Nat × Nat × Nat)) (r : FieldRule) : Bytes × List (Nat × Nat × Nat) :=
  if r.fix (rd acc.1 r.off r.len) = rd acc.1 r.off r.len then acc
  else (wr acc.1 r.off r.len (r.fix (rd acc.1 r.off r.len)), acc.2 ++ [(r.off, rd acc.1 r.off r.len, r.fix (rd acc.1 r.off r.len))])

theorem applyRules_eq (rs : List FieldRule) (b : Bytes) : applyRules rs b = rs.foldl fieldStep (b, []) := rfl

theorem fieldStep_length (acc : Bytes × List (Nat × Nat × Nat)) (r : FieldRule) (h : r.off + r.len ≤ acc.1.length) :
    (fieldStep acc r).1.length = acc.1.length := by
  unfold fieldStep
  split
  · rfl
  · exact length_wr _ _ _ _ h

theorem fieldStep_other (acc : Bytes × List (Nat × Nat × Nat)) (r : FieldRule) (o l : Nat) (h : r.off + r.len ≤ acc.1.length)
    (hd : o + l ≤ r.off ∨ r.off + r.len ≤ o) : rd (fieldStep acc r).1 o l = rd acc.1 o l := by
  unfold fieldStep
  split
  · rfl
  · exact rd_wr_other _ _ _ _ _ _ h hd

theorem fieldStep_same (acc : Bytes × List (Nat × Nat × Nat)) (r : FieldRule) (h : r.Fits acc.1) :
    rd (fieldStep acc r).1 r.off r.len = r.fix (rd acc.1 r.off r.len) := by
  unfold fieldStep
  split
  · rename_i e; exact e.symm
  · rw [rd_wr_same _ _ _ _ h.1, Nat.mod_eq_of_lt h.2]

theorem foldFields_other (rs : List FieldRule) (o l : Nat) (acc : Bytes × List (Nat × Nat × Nat))
    (h : ∀ r ∈ rs, r.off + r.len ≤ acc.1.length) (hd : ∀ r ∈ rs, o + l ≤ r.off ∨ r.off + r.len ≤ o) :
    rd (rs.foldl fieldStep acc).1 o l = rd acc.1 o l := by
  induction rs generalizing acc with
  | nil => rfl
  | cons r rs ih =>
    have h0 := h r (List.mem_cons_self ..)
    rw [List.foldl_cons, ih]
    · exact fieldStep_other _ _ _ _ h0 (hd r (List.mem_cons_self ..))
    · intro q hq
      rw [fieldStep_length _ _ h0]
      exact h q (List.mem_cons_of_mem _ hq)
    · exact fun q hq => hd q (List.mem_cons_of_mem _ hq)

/-- Fields outside every rule stay as given. -/
theorem applyRules_other (rs : List FieldRule) (b : Bytes) (o l : Nat) (h : ∀ r ∈ rs, r.off + r.len ≤ b.length)
    (hd : ∀ r ∈ rs, o + l ≤ r.off ∨ r.off + r.len ≤ o) : rd (applyRules rs b).1 o l = rd b o l :=
  foldFields_other rs o l (b, []) h hd

theorem foldFields_field (rs : List FieldRule) (acc : Bytes × List (Nat × Nat × Nat)) (r : FieldRule) (hr : r ∈ rs)
    (hp : rs.Pairwise FieldRule.Apart) (h : ∀ q ∈ rs, q.Fits acc.1) :
    rd (rs.foldl fieldStep acc).1 r.off r.len = r.fix (rd acc.1 r.off r.len) := by
  induction rs generalizing acc with
  | nil => cases hr
  | cons q rs ih =>
    obtain ⟨hq, hp⟩ := List.pairwise_cons.1 hp
    have h0 := h q (List.mem_cons_self ..)
    rw [List.foldl_cons]
    rcases List.mem_cons.1 hr with rfl | hr
    · rw [foldFields_other]
      · exact fieldStep_same _ _ h0
      · intro x hx
        rw [fieldStep_length _ _ h0.1]
        exact (h x (List.mem_cons_of_mem _ hx)).1
      · exact hq
    · have keep : ∀ x ∈ rs, rd (fieldStep acc q).1 x.off x.len = rd acc.1 x.off x.len :=
        fun x hx => fieldStep_other _ _ _ _ h0.1 ((hq x hx).symm)
      rw [ih _ hr hp, keep r hr]
      intro x hx
      have := h x (List.mem_cons_of_mem _ hx)
      exact ⟨by rw [fieldStep_length _ _ h0.1]; exact this.1, by rw [keep x hx]; exact this.2⟩

/-- Every field of a payload is given its own rule (14 R512). -/
theorem applyRules_field (rs : List FieldRule) (b : Bytes) (r : FieldRule) (hr : r ∈ rs) (hp : rs.Pairwise FieldRule.Apart)
    (h : ∀ q ∈ rs, q.Fits b) : rd (applyRules rs b).1 r.off r.len = r.fix (rd b r.off r.len) :=
  foldFields_field rs (b, []) r hr hp h

/-- A control command gives a field whose VALID bit is 1 its own rule (15 R533). -/
theorem validRules_field (rs : List (Nat × FieldRule)) (b : Bytes) (k : Nat) (r : FieldRule) (hr : (k, r) ∈ rs) (hv : validBit b k = true)
    (hp : (rs.map (fun x => x.2)).Pairwise FieldRule.Apart) (h : ∀ q ∈ rs, q.2.Fits b) :
    rd (applyRules (validRules b rs) b).1 r.off r.len = r.fix (rd b r.off r.len) := by
  have sub : (validRules b rs).Sublist (rs.map (fun x => x.2)) := by
    unfold validRules
    clear hr hp h
    induction rs with
    | nil => simp
    | cons q rs ih =>
      rw [List.filterMap_cons, List.map_cons]
      split
      · exact ih.trans (List.sublist_cons_self ..)
      · rename_i e
        split_ifs at e
        rw [← Option.some.inj e]
        exact ih.cons_cons _
  refine applyRules_field _ _ _ (List.mem_filterMap.mpr ⟨(k, r), hr, if_pos hv⟩) (hp.sublist sub) fun q hq => ?_
  obtain ⟨x, hx, rfl⟩ := List.mem_map.mp (sub.subset hq)
  exact h x hx

theorem clampN_le (lo hi v : Nat) (h : lo ≤ hi) : clampN lo hi v ≤ hi := by unfold clampN; omega

theorem roundDown_le (m v : Nat) : roundDown m v ≤ v := Nat.div_mul_le_self v m

theorem pow2Below_le (lo hi v : Nat) (h : lo ≤ hi) : pow2Below lo hi v ≤ 2 ^ hi := by
  unfold pow2Below
  have key : ∀ (l : List Nat) (x : Nat), (∀ k ∈ l, k ≤ hi) → x ≤ 2 ^ hi → l.foldl (fun _ k => 2 ^ k) x ≤ 2 ^ hi := by
    intro l
    induction l with
    | nil => intro x _ hx; exact hx
    | cons k l ih =>
      intro x hl _
      exact ih _ (fun j hj => hl j (List.mem_cons_of_mem _ hj)) (Nat.pow_le_pow_right (by decide) (hl k (List.mem_cons_self ..)))
  refine key _ _ (fun k hk => ?_) (Nat.pow_le_pow_right (by decide) h)
  have := List.mem_range.mp (List.mem_of_mem_filter hk)
  omega

end Sys2Proof.Machine
end

