-- ==== Sys2Proof/Laws/KeepsOwner.lean ====
section
/-! SUPPORT. What each operation of Machine/Owner.lean keeps. -/

set_option Elab.async false

set_option linter.all false

namespace Sys2Proof.Machine
open Sys2Proof

variable {F : Part → Prop} {s t : State}

theorem State.modChan_keeps (h : Keeps F s t) (x_c) (g) (p_mc : F .mc := by assumption) : Keeps F s (State.modChan t x_c g) := by
  unfold State.modChan
  try dsimp only
  repeat' first
    | with_reducible assumption | simp only [keeps_upd, p_mc, or_true, true_or, length_lmod, length_lset, List.length_map] | intro _

end Sys2Proof.Machine
end

