-- ==== Sys2Proof/Laws/KeepsStaging.lean ====
section
/-! SUPPORT. What each operation of Machine/Staging.lean keeps: staging. -/

set_option Elab.async false

set_option linter.all false

namespace Sys2Proof.Machine
open Sys2Proof

variable {F : Part → Prop} {s t : State}

theorem stageOpen_keeps (h : Keeps F s t) (a1) (a2) (p_mb : F .mb := by assumption) : Keeps F s (stageOpen a1 a2 t).1 := by
  unfold stageOpen
  try dsimp only
  repeat' first
    | with_reducible assumption | with_reducible refine Keeps.ite (fun _ => ?_) (fun _ => ?_)
    | with_reducible refine Keeps.iteP (fun _ => ?_) (fun _ => ?_)
    | simp only [keeps_upd, p_mb, or_true, true_or, length_lmod, length_lset, List.length_map] | split | dsimp only | intro _

theorem State.endSession_keeps (h : Keeps F s t) (n) (p_mb : F .mb := by assumption) : Keeps F s (State.endSession t n) := by
  unfold State.endSession
  try dsimp only
  repeat' first
    | with_reducible assumption | simp only [keeps_upd, p_mb, or_true, true_or, length_lmod, length_lset, List.length_map]
    | dsimp only | intro _

theorem State.endSessionsOf_keeps (h : Keeps F s t) (w) (p_mb : F .mb := by assumption) : Keeps F s (State.endSessionsOf t w) := by
  unfold State.endSessionsOf
  try dsimp only
  repeat' first
    | with_reducible assumption | simp only [keeps_upd, p_mb, or_true, true_or, length_lmod, length_lset, List.length_map]
    | dsimp only | intro _

theorem stageAbort_keeps (h : Keeps F s t) (a1) (a2) (p_mb : F .mb := by assumption) : Keeps F s (stageAbort a1 a2 t).1 := by
  unfold stageAbort
  try dsimp only
  repeat' first
    | with_reducible assumption | with_reducible refine State.endSession_keeps ?_ _ | split | dsimp only | intro _

theorem clampReportGet_keeps (h : Keeps F s t) (a1) (a2) (p_mb : F .mb := by assumption) : Keeps F s (clampReportGet a1 a2 t).1 := by
  unfold clampReportGet
  try dsimp only
  repeat' first
    | with_reducible assumption | with_reducible refine State.direct_keeps ?_ _ _ _ _ _
    | with_reducible refine Keeps.ite (fun _ => ?_) (fun _ => ?_) | with_reducible refine Keeps.iteP (fun _ => ?_) (fun _ => ?_)
    | simp only [keeps_upd, p_mb, or_true, true_or, length_lmod, length_lset, List.length_map] | split | dsimp only | intro _

theorem sessionExpiry_keeps (h : Keeps F s t) (n) (p_now : F .now := by assumption) (p_tu : F .tu := by assumption)
    (p_mb : F .mb := by assumption) (p_fc : F .fc := by assumption) : Keeps F s (sessionExpiry n t) := by
  unfold sessionExpiry
  try dsimp only
  repeat' first
    | with_reducible assumption | with_reducible refine State.advance_keeps ?_ _ | with_reducible refine State.endSession_keeps ?_ _
    | with_reducible refine State.report_keeps ?_ _ _ _ | split | dsimp only | intro _

theorem stageWith_keeps (h : Keeps F s t) (op) (kind) (n) (rules) (a1) (a2) (p_mb : F .mb := by assumption)
    : Keeps F s (stageWith op kind n rules a1 a2 t).1 := by
  unfold stageWith
  try dsimp only
  repeat' first
    | with_reducible assumption | with_reducible refine State.stage_keeps ?_ _ _ _ _ _ _ _ _ | dsimp only | intro _

theorem regionCfg_keeps (h : Keeps F s t) (a1) (a2) (p_mb : F .mb := by assumption) : Keeps F s (regionCfg a1 a2 t).1 := by
  unfold regionCfg
  try dsimp only
  repeat' first
    | with_reducible assumption | with_reducible refine stageWith_keeps ?_ _ _ _ _ _ _ | intro _

theorem regionDelete_keeps (h : Keeps F s t) (a1) (a2) (p_mb : F .mb := by assumption) : Keeps F s (regionDelete a1 a2 t).1 := by
  unfold regionDelete
  try dsimp only
  repeat' first
    | with_reducible assumption | with_reducible refine stageWith_keeps ?_ _ _ _ _ _ _ | intro _

theorem tierCfg_keeps (h : Keeps F s t) (a1) (a2) (p_mb : F .mb := by assumption) : Keeps F s (tierCfg a1 a2 t).1 := by
  unfold tierCfg
  try dsimp only
  repeat' first
    | with_reducible assumption | with_reducible refine State.stage_keeps ?_ _ _ _ _ _ _ _ _ | dsimp only | intro _

theorem mscRowCfg_keeps (h : Keeps F s t) (a1) (a2) (p_mb : F .mb := by assumption) : Keeps F s (mscRowCfg a1 a2 t).1 := by
  unfold mscRowCfg
  try dsimp only
  repeat' first
    | with_reducible assumption | with_reducible refine stageWith_keeps ?_ _ _ _ _ _ _ | dsimp only | intro _

theorem bwReqCfg_keeps (h : Keeps F s t) (a1) (a2) (p_mb : F .mb := by assumption) : Keeps F s (bwReqCfg a1 a2 t).1 := by
  unfold bwReqCfg
  try dsimp only
  repeat' first
    | with_reducible assumption | with_reducible refine State.stage_keeps ?_ _ _ _ _ _ _ _ _ | dsimp only | intro _

theorem bwGuarCfg_keeps (h : Keeps F s t) (a1) (a2) (p_mb : F .mb := by assumption) : Keeps F s (bwGuarCfg a1 a2 t).1 := by
  unfold bwGuarCfg
  try dsimp only
  repeat' first
    | with_reducible assumption | with_reducible refine stageWith_keeps ?_ _ _ _ _ _ _ | intro _

theorem bwWindowCfg_keeps (h : Keeps F s t) (a1) (a2) (p_mb : F .mb := by assumption) : Keeps F s (bwWindowCfg a1 a2 t).1 := by
  unfold bwWindowCfg
  try dsimp only
  repeat' first
    | with_reducible assumption | with_reducible refine stageWith_keeps ?_ _ _ _ _ _ _ | intro _

theorem qeQueueCfg_keeps (h : Keeps F s t) (a1) (a2) (p_mb : F .mb := by assumption) : Keeps F s (qeQueueCfg a1 a2 t).1 := by
  unfold qeQueueCfg
  try dsimp only
  repeat' first
    | with_reducible assumption | with_reducible refine State.stage_keeps ?_ _ _ _ _ _ _ _ _ | dsimp only | intro _

theorem qePolicerCfg_keeps (h : Keeps F s t) (a1) (a2) (p_mb : F .mb := by assumption) : Keeps F s (qePolicerCfg a1 a2 t).1 := by
  unfold qePolicerCfg
  try dsimp only
  repeat' first
    | with_reducible assumption | with_reducible refine State.stage_keeps ?_ _ _ _ _ _ _ _ _ | dsimp only | intro _

theorem scNodeCfg_keeps (h : Keeps F s t) (a1) (a2) (p_mb : F .mb := by assumption) : Keeps F s (scNodeCfg a1 a2 t).1 := by
  unfold scNodeCfg
  try dsimp only
  repeat' first
    | with_reducible assumption | with_reducible refine State.stage_keeps ?_ _ _ _ _ _ _ _ _ | dsimp only | intro _

theorem scPortCfg_keeps (h : Keeps F s t) (a1) (a2) (p_mb : F .mb := by assumption) : Keeps F s (scPortCfg a1 a2 t).1 := by
  unfold scPortCfg
  try dsimp only
  repeat' first
    | with_reducible assumption | with_reducible refine stageWith_keeps ?_ _ _ _ _ _ _ | intro _

theorem scGateList_keeps (h : Keeps F s t) (a1) (a2) (p_mb : F .mb := by assumption) : Keeps F s (scGateList a1 a2 t).1 := by
  unfold scGateList
  try dsimp only
  repeat' first
    | with_reducible assumption | with_reducible refine State.stage_keeps ?_ _ _ _ _ _ _ _ _ | dsimp only | intro _

theorem ceSetCfg_keeps (h : Keeps F s t) (a1) (a2) (p_mb : F .mb := by assumption) : Keeps F s (ceSetCfg a1 a2 t).1 := by
  unfold ceSetCfg
  try dsimp only
  repeat' first
    | with_reducible assumption | with_reducible refine stageWith_keeps ?_ _ _ _ _ _ _ | intro _

theorem ceSetDelete_keeps (h : Keeps F s t) (a1) (a2) (p_mb : F .mb := by assumption) : Keeps F s (ceSetDelete a1 a2 t).1 := by
  unfold ceSetDelete
  try dsimp only
  repeat' first
    | with_reducible assumption | with_reducible refine stageWith_keeps ?_ _ _ _ _ _ _ | intro _

theorem ceQeBind_keeps (h : Keeps F s t) (a1) (a2) (p_mb : F .mb := by assumption) : Keeps F s (ceQeBind a1 a2 t).1 := by
  unfold ceQeBind
  try dsimp only
  repeat' first
    | with_reducible assumption | with_reducible refine State.stage_keeps ?_ _ _ _ _ _ _ _ _
    | with_reducible refine Keeps.ite (fun _ => ?_) (fun _ => ?_) | with_reducible refine Keeps.iteP (fun _ => ?_) (fun _ => ?_)
    | split | dsimp only | intro _

end Sys2Proof.Machine
end

