-- ==== Sys2Proof/Laws/KeepsMgmt.lean ====
section
/-! SUPPORT. What each operation of Machine/Mgmt.lean keeps: management commands. -/

set_option Elab.async false

set_option linter.all false

namespace Sys2Proof.Machine
open Sys2Proof

variable {F : Part → Prop} {s t : State}

theorem bgQuery_keeps (h : Keeps F s t) (a1) (a2)  : Keeps F s (bgQuery a1 a2 t).1 := by
  unfold bgQuery
  try dsimp only
  repeat' first
    | with_reducible assumption | with_reducible refine Keeps.ite (fun _ => ?_) (fun _ => ?_)
    | with_reducible refine Keeps.iteP (fun _ => ?_) (fun _ => ?_) | split | dsimp only | intro _

theorem fcrRegister_keeps (h : Keeps F s t) (a1) (a2) (p_hp : F .hp := by assumption) (p_mb : F .mb := by assumption)
    : Keeps F s (fcrRegister a1 a2 t).1 := by
  unfold fcrRegister
  try dsimp only
  repeat' first
    | with_reducible assumption | with_reducible refine State.modFn_keeps ?_ _ _
    | with_reducible refine State.direct_keeps ?_ _ _ _ _ _ | with_reducible refine Keeps.ite (fun _ => ?_) (fun _ => ?_)
    | with_reducible refine Keeps.iteP (fun _ => ?_) (fun _ => ?_) | split | dsimp only | intro _

theorem fcrDeregister_keeps (h : Keeps F s t) (a1) (a2) (p_hp : F .hp := by assumption) : Keeps F s (fcrDeregister a1 a2 t).1 := by
  unfold fcrDeregister
  try dsimp only
  repeat' first
    | with_reducible assumption | with_reducible refine State.modFn_keeps ?_ _ _
    | with_reducible refine Keeps.ite (fun _ => ?_) (fun _ => ?_) | with_reducible refine Keeps.iteP (fun _ => ?_) (fun _ => ?_)
    | split | dsimp only | intro _

theorem mgmtDesignate_keeps (h : Keeps F s t) (a1) (a2) (p_mb : F .mb := by assumption) : Keeps F s (mgmtDesignate a1 a2 t).1 := by
  unfold mgmtDesignate
  try dsimp only
  repeat' first
    | with_reducible assumption | with_reducible refine Keeps.ite (fun _ => ?_) (fun _ => ?_)
    | with_reducible refine Keeps.iteP (fun _ => ?_) (fun _ => ?_)
    | simp only [keeps_upd, p_mb, or_true, true_or, length_lmod, length_lset, List.length_map] | split | dsimp only | intro _

theorem freezeCtl_keeps (h : Keeps F s t) (a1) (a2) (p_mb : F .mb := by assumption) : Keeps F s (freezeCtl a1 a2 t).1 := by
  unfold freezeCtl
  try dsimp only
  repeat' first
    | with_reducible assumption | with_reducible refine State.direct_keeps ?_ _ _ _ _ _
    | with_reducible refine Keeps.ite (fun _ => ?_) (fun _ => ?_) | with_reducible refine Keeps.iteP (fun _ => ?_) (fun _ => ?_)
    | simp only [keeps_upd, p_mb, or_true, true_or, length_lmod, length_lset, List.length_map] | split | dsimp only | intro _

theorem State.unfreeze_keeps (h : Keeps F s t) (f) (p_mb : F .mb := by assumption) : Keeps F s (State.unfreeze t f) := by
  unfold State.unfreeze
  try dsimp only
  repeat' first
    | with_reducible assumption | simp only [keeps_upd, p_mb, or_true, true_or, length_lmod, length_lset, List.length_map] | intro _

theorem thaw_keeps (h : Keeps F s t) (a1) (a2) (p_mb : F .mb := by assumption) : Keeps F s (thaw a1 a2 t).1 := by
  unfold thaw
  try dsimp only
  repeat' first
    | with_reducible assumption | with_reducible refine State.unfreeze_keeps ?_ _
    | with_reducible refine Keeps.ite (fun _ => ?_) (fun _ => ?_) | with_reducible refine Keeps.iteP (fun _ => ?_) (fun _ => ?_)
    | split | dsimp only | intro _

theorem hpPortCfg_keeps (h : Keeps F s t) (a1) (a2) (p_hp : F .hp := by assumption) (p_mb : F .mb := by assumption)
    : Keeps F s (hpPortCfg a1 a2 t).1 := by
  unfold hpPortCfg
  try dsimp only
  repeat' first
    | with_reducible assumption | with_reducible refine State.modPort_keeps ?_ _ _
    | with_reducible refine State.direct_keeps ?_ _ _ _ _ _ | with_reducible refine Keeps.ite (fun _ => ?_) (fun _ => ?_)
    | with_reducible refine Keeps.iteP (fun _ => ?_) (fun _ => ?_) | split | dsimp only | intro _

theorem freezeWindowEnd_keeps (h : Keeps F s t) (p_now : F .now := by assumption) (p_tu : F .tu := by assumption)
    (p_mb : F .mb := by assumption) : Keeps F s (freezeWindowEnd t) := by
  unfold freezeWindowEnd
  try dsimp only
  repeat' first
    | with_reducible assumption | with_reducible refine State.advance_keeps ?_ _
    | simp only [keeps_upd, p_now, p_tu, p_mb, or_true, true_or, length_lmod, length_lset, List.length_map] | dsimp only | intro _

theorem boundMissed_keeps (h : Keeps F s t) (p) (op) (p_fresh : F .fresh := by assumption) (p_mb : F .mb := by assumption)
    (p_fc : F .fc := by assumption) (p_pm : F .pm := by assumption) : Keeps F s (boundMissed p op t) := by
  unfold boundMissed
  try dsimp only
  repeat' first
    | with_reducible assumption | with_reducible refine State.drawn_keeps ?_ | with_reducible refine State.report_keeps ?_ _ _ _
    | with_reducible refine State.count_keeps ?_ _ _ _ | with_reducible refine Keeps.ite (fun _ => ?_) (fun _ => ?_)
    | with_reducible refine Keeps.iteP (fun _ => ?_) (fun _ => ?_)
    | simp only [keeps_upd, p_fresh, p_mb, p_fc, p_pm, or_true, true_or, length_lmod, length_lset, List.length_map] | split
    | dsimp only | intro _

theorem latFRead_keeps (h : Keeps F s t) (p_out : F .out := by assumption) (p_fresh : F .fresh := by assumption)
    (p_mb : F .mb := by assumption) : Keeps F s (latFRead t) := by
  unfold latFRead
  try dsimp only
  repeat' first
    | with_reducible assumption | with_reducible refine State.drawn_keeps ?_ | with_reducible refine State.emit_keeps ?_ _
    | simp only [keeps_upd, p_out, p_fresh, p_mb, or_true, true_or, length_lmod, length_lset, List.length_map] | dsimp only
    | intro _

theorem latSRead_keeps (h : Keeps F s t) (p_out : F .out := by assumption) (p_fresh : F .fresh := by assumption)
    (p_mb : F .mb := by assumption) : Keeps F s (latSRead t) := by
  unfold latSRead
  try dsimp only
  repeat' first
    | with_reducible assumption | with_reducible refine State.drawn_keeps ?_ | with_reducible refine State.emit_keeps ?_ _
    | simp only [keeps_upd, p_out, p_fresh, p_mb, or_true, true_or, length_lmod, length_lset, List.length_map] | dsimp only
    | intro _

theorem sidebandMalformed_keeps (h : Keeps F s t) (p_fc : F .fc := by assumption) (p_pm : F .pm := by assumption)
    : Keeps F s (sidebandMalformed t) := by
  unfold sidebandMalformed
  try dsimp only
  repeat' first
    | with_reducible assumption | with_reducible refine State.report_keeps ?_ _ _ _
    | with_reducible refine State.count_keeps ?_ _ _ _ | with_reducible refine Keeps.ite (fun _ => ?_) (fun _ => ?_)
    | with_reducible refine Keeps.iteP (fun _ => ?_) (fun _ => ?_) | split | intro _

theorem State.unsupported_keeps (h : Keeps F s t) (p) (op) (b) (p_out : F .out := by assumption) (p_hp : F .hp := by assumption)
    (p_mb : F .mb := by assumption) (p_pw : F .pw := by assumption) (p_ck : F .ck := by assumption)
    (p_pm : F .pm := by assumption) : Keeps F s (State.unsupported t p op b) := by
  unfold State.unsupported
  try dsimp only
  repeat' first
    | with_reducible assumption | with_reducible refine State.countArrival_keeps ?_ _
    | with_reducible refine State.holdCmd_keeps ?_ _ _ _ | with_reducible refine State.beginWake_keeps ?_ _
    | with_reducible refine State.leaveIdle_keeps ?_ | with_reducible refine State.count_keeps ?_ _ _ _
    | with_reducible refine State.complete_keeps ?_ _ _ _ | split | intro _

end Sys2Proof.Machine
end

