-- ==== Sys2Proof/Laws/KeepsPerf.lean ====
section
/-! SUPPORT. What each operation of Machine/Perf.lean keeps: the performance monitor. -/

set_option Elab.async false

set_option linter.all false

namespace Sys2Proof.Machine
open Sys2Proof

variable {F : Part → Prop} {s t : State}

theorem State.setDomain_keeps (h : Keeps F s t) (d) (on) (p_ck : F .ck := by assumption) (p_pm : F .pm := by assumption)
    : Keeps F s (State.setDomain t d on) := by
  unfold State.setDomain
  try dsimp only
  repeat' first
    | with_reducible assumption | with_reducible refine State.count_keeps ?_ _ _ _
    | with_reducible refine Keeps.ite (fun _ => ?_) (fun _ => ?_) | with_reducible refine Keeps.iteP (fun _ => ?_) (fun _ => ?_)
    | simp only [keeps_upd, p_ck, p_pm, or_true, true_or, length_lmod, length_lset, List.length_map] | split | dsimp only | intro _

theorem State.pmClock_keeps (h : Keeps F s t) (p_ck : F .ck := by assumption) (p_pm : F .pm := by assumption) :
    Keeps F s t.pmClock := by
  unfold State.pmClock
  repeat' first | with_reducible assumption | with_reducible refine State.setDomain_keeps ?_ _ _

theorem pmCfg_keeps (h : Keeps F s t) (a1) (a2) (p_mb : F .mb := by assumption) (p_ck : F .ck := by assumption)
    (p_pm : F .pm := by assumption) : Keeps F s (pmCfg a1 a2 t).1 := by
  unfold pmCfg
  try dsimp only
  repeat' first
    | with_reducible assumption | with_reducible refine State.pmClock_keeps ?_
    | with_reducible refine State.direct_keeps ?_ _ _ _ _ _ | with_reducible refine Keeps.ite (fun _ => ?_) (fun _ => ?_)
    | with_reducible refine Keeps.iteP (fun _ => ?_) (fun _ => ?_)
    | simp only [keeps_upd, p_mb, p_ck, p_pm, or_true, true_or, length_lmod, length_lset, List.length_map] | split | dsimp only
    | intro _

theorem pmDumpCfg_keeps (h : Keeps F s t) (a1) (a2) (p_mb : F .mb := by assumption) (p_ck : F .ck := by assumption)
    (p_pm : F .pm := by assumption) : Keeps F s (pmDumpCfg a1 a2 t).1 := by
  unfold pmDumpCfg
  try dsimp only
  repeat' first
    | with_reducible assumption | with_reducible refine State.pmClock_keeps ?_
    | with_reducible refine State.direct_keeps ?_ _ _ _ _ _ | with_reducible refine Keeps.ite (fun _ => ?_) (fun _ => ?_)
    | with_reducible refine Keeps.iteP (fun _ => ?_) (fun _ => ?_)
    | simp only [keeps_upd, p_mb, p_ck, p_pm, or_true, true_or, length_lmod, length_lset, List.length_map] | split | dsimp only
    | intro _

theorem pmRead_keeps (h : Keeps F s t) (a1) (a2) (p_mb : F .mb := by assumption) : Keeps F s (pmRead a1 a2 t).1 := by
  unfold pmRead
  try dsimp only
  repeat' first
    | with_reducible assumption | with_reducible refine State.direct_keeps ?_ _ _ _ _ _
    | with_reducible refine Keeps.ite (fun _ => ?_) (fun _ => ?_) | with_reducible refine Keeps.iteP (fun _ => ?_) (fun _ => ?_)
    | split | dsimp only | intro _

theorem pmLatch_keeps (h : Keeps F s t) (ue) (p_out : F .out := by assumption) (p_now : F .now := by assumption)
    (p_hp : F .hp := by assumption) (p_tu : F .tu := by assumption) (p_fc : F .fc := by assumption)
    (p_pm : F .pm := by assumption) : Keeps F s (pmLatch ue t) := by
  unfold pmLatch
  try dsimp only
  repeat' first
    | with_reducible assumption | with_reducible refine State.advance_keeps ?_ _ | with_reducible refine State.count_keeps ?_ _ _ _
    | with_reducible refine State.sendWrite_keeps ?_ _ _ _ _ | with_reducible refine State.cause_keeps ?_ _ _
    | with_reducible refine State.report_keeps ?_ _ _ _ | with_reducible refine Keeps.ite (fun _ => ?_) (fun _ => ?_)
    | with_reducible refine Keeps.iteP (fun _ => ?_) (fun _ => ?_)
    | simp only [keeps_upd, p_out, p_now, p_hp, p_tu, p_fc, p_pm, or_true, true_or, length_lmod, length_lset, List.length_map]
    | split | dsimp only | intro _

theorem pmParity_keeps (h : Keeps F s t) (x_c) (p_pm : F .pm := by assumption) : Keeps F s (pmParity x_c t) := by
  unfold pmParity
  try dsimp only
  repeat' first
    | with_reducible assumption | with_reducible refine Keeps.ite (fun _ => ?_) (fun _ => ?_)
    | with_reducible refine Keeps.iteP (fun _ => ?_) (fun _ => ?_)
    | simp only [keeps_upd, p_pm, or_true, true_or, length_lmod, length_lset, List.length_map] | split | intro _

end Sys2Proof.Machine
end

