-- ==== Sys2Proof/Laws/KeepsMedia.lean ====
section
/-! SUPPORT. What each operation of Machine/Media.lean keeps: reading and writing codewords. -/

set_option Elab.async false

set_option linter.all false

namespace Sys2Proof.Machine
open Sys2Proof

variable {F : Part → Prop} {s t : State}

theorem State.putStored_keeps (h : Keeps F s t) (c) (cla) (x) (p_dram : F .dram := by assumption) (p_mc : F .mc := by assumption) :
    Keeps F s (t.putStored c cla x) := by
  exact Keeps.updCells h (memWrite_wf _ _)

theorem State.upset_keeps (h : Keeps F s t) (env) (p_mc : F .mc := by assumption) : Keeps F s (State.upset t env) := by
  unfold State.upset
  try dsimp only
  repeat' first
    | with_reducible assumption | simp only [keeps_upd, p_mc, or_true, true_or, length_lmod, length_lset, List.length_map] | intro _

theorem State.enterErasure_keeps (h : Keeps F s t) (x_c) (p) (dev) (p_lp : F .lp := by assumption)
    (p_fc : F .fc := by assumption) : Keeps F s (State.enterErasure t x_c p dev) := by
  unfold State.enterErasure
  try dsimp only
  repeat' first
    | with_reducible assumption | with_reducible refine Com.bind_keeps ?_ _ | with_reducible refine State.report_keeps ?_ _ _ _
    | with_reducible refine Keeps.ite (fun _ => ?_) (fun _ => ?_) | with_reducible refine Keeps.iteP (fun _ => ?_) (fun _ => ?_)
    | simp only [keeps_upd, p_lp, p_fc, or_true, true_or, length_lmod, length_lset, List.length_map] | split | dsimp only | intro _

theorem State.countDevice_keeps (h : Keeps F s t) (x_c) (cla) (dev) (p_lp : F .lp := by assumption)
    (p_fc : F .fc := by assumption) : Keeps F s (State.countDevice t x_c cla dev) := by
  unfold State.countDevice
  try dsimp only
  repeat' first
    | with_reducible assumption | with_reducible refine State.enterErasure_keeps ?_ _ _ _
    | with_reducible refine Keeps.ite (fun _ => ?_) (fun _ => ?_) | with_reducible refine Keeps.iteP (fun _ => ?_) (fun _ => ?_)
    | simp only [keeps_upd, p_lp, p_fc, or_true, true_or, length_lmod, length_lset, List.length_map] | split | dsimp only | intro _

theorem State.hardenRows_keeps (h : Keeps F s t) (p_lp : F .lp := by assumption) (p_fc : F .fc := by assumption)
    : Keeps F s (State.hardenRows t) := by
  unfold State.hardenRows
  try dsimp only
  repeat' first
    | with_reducible assumption | with_reducible refine State.count_keeps ?_ _ _ _
    | with_reducible refine State.report_keeps ?_ _ _ _ | with_reducible refine Keeps.foldl (fun _ _ _ => ?_) _ ?_
    | with_reducible refine Keeps.foldlP (fun _ _ _ => ?_) _ ?_ | with_reducible refine Keeps.ite (fun _ => ?_) (fun _ => ?_)
    | with_reducible refine Keeps.iteP (fun _ => ?_) (fun _ => ?_)
    | simp only [keeps_upd, p_lp, p_fc, or_true, true_or, length_lmod, length_lset, List.length_map] | split | dsimp only | intro _

theorem State.rowSeen_keeps (h : Keeps F s t) (row) (p_lp : F .lp := by assumption) (p_fc : F .fc := by assumption)
    : Keeps F s (State.rowSeen t row) := by
  unfold State.rowSeen
  try dsimp only
  repeat' first
    | with_reducible assumption | with_reducible refine State.count_keeps ?_ _ _ _ | with_reducible refine State.hardenRows_keeps ?_
    | with_reducible refine Keeps.ite (fun _ => ?_) (fun _ => ?_) | with_reducible refine Keeps.iteP (fun _ => ?_) (fun _ => ?_)
    | simp only [keeps_upd, p_lp, p_fc, or_true, true_or, length_lmod, length_lset, List.length_map] | split | dsimp only | intro _

theorem State.clearDevLine_keeps (h : Keeps F s t) (x_c) (cla) (p_lp : F .lp := by assumption)
    : Keeps F s (State.clearDevLine t x_c cla) := by
  unfold State.clearDevLine
  try dsimp only
  repeat' first
    | with_reducible assumption | with_reducible refine Keeps.ite (fun _ => ?_) (fun _ => ?_)
    | with_reducible refine Keeps.iteP (fun _ => ?_) (fun _ => ?_)
    | simp only [keeps_upd, p_lp, or_true, true_or, length_lmod, length_lset, List.length_map] | split | dsimp only | intro _

theorem State.noteClass_keeps (h : Keeps F s t) (q) (x_c) (cla) (k) (dev) (p_lp : F .lp := by assumption)
    (p_fc : F .fc := by assumption) (p_pm : F .pm := by assumption) : Keeps F s (State.noteClass t q x_c cla k dev) := by
  unfold State.noteClass
  try dsimp only
  repeat' first
    | with_reducible assumption | with_reducible refine State.countDevice_keeps ?_ _ _ _
    | with_reducible refine State.count_keeps ?_ _ _ _ | with_reducible refine State.rowSeen_keeps ?_ _
    | with_reducible refine State.reportAgg_keeps ?_ _ _ _ _ _ | with_reducible refine State.clearDevLine_keeps ?_ _ _
    | with_reducible refine Keeps.ite (fun _ => ?_) (fun _ => ?_) | with_reducible refine Keeps.iteP (fun _ => ?_) (fun _ => ?_)
    | simp only [keeps_upd, p_lp, p_fc, p_pm, or_true, true_or, length_lmod, length_lset, List.length_map] | split | dsimp only
    | intro _

theorem State.trigger_keeps (h : Keeps F s t) (x_c) (p_mc : F .mc := by assumption) : Keeps F s (State.trigger t x_c) := by
  unfold State.trigger
  try dsimp only
  repeat' first
    | with_reducible assumption | with_reducible refine Keeps.ite (fun _ => ?_) (fun _ => ?_)
    | with_reducible refine Keeps.iteP (fun _ => ?_) (fun _ => ?_)
    | simp only [keeps_upd, p_mc, or_true, true_or, length_lmod, length_lset, List.length_map] | split | intro _

theorem State.spread_keeps (h : Keeps F s t) (x_c) (x_u) (devs) (p_mc : F .mc := by assumption)
    : Keeps F s (State.spread t x_c x_u devs) := by
  unfold State.spread
  try dsimp only
  repeat' first
    | with_reducible assumption | with_reducible refine State.modChan_keeps ?_ _ _ | with_reducible refine State.trigger_keeps ?_ _
    | with_reducible refine Keeps.ite (fun _ => ?_) (fun _ => ?_) | with_reducible refine Keeps.iteP (fun _ => ?_) (fun _ => ?_)
    | split | dsimp only | intro _

theorem State.noteRead_keeps (h : Keeps F s t) (env) (q) (l) (scr) (x_c) (r) (p_lp : F .lp := by assumption)
    (p_mc : F .mc := by assumption) (p_fc : F .fc := by assumption) (p_pm : F .pm := by assumption)
    : Keeps F s (State.noteRead t env q l scr x_c r) := by
  unfold State.noteRead
  try dsimp only
  repeat' first
    | with_reducible assumption | with_reducible refine State.noteClass_keeps ?_ _ _ _ _ _
    | with_reducible refine State.spread_keeps ?_ _ _ _ | with_reducible refine Keeps.ite (fun _ => ?_) (fun _ => ?_)
    | with_reducible refine Keeps.iteP (fun _ => ?_) (fun _ => ?_) | split | dsimp only | intro _

theorem State.readDecoded_keeps (h : Keeps F s t) (env) (q) (l) (scr) (x_c) (p_lp : F .lp := by assumption)
    (p_mc : F .mc := by assumption) (p_fc : F .fc := by assumption) (p_pm : F .pm := by assumption)
    : Keeps F s (State.readDecoded t env q l scr x_c).1 := by
  unfold State.readDecoded
  try dsimp only
  repeat' first
    | with_reducible assumption | with_reducible refine State.noteRead_keeps ?_ _ _ _ _ _ _
    | with_reducible refine State.report_keeps ?_ _ _ _ | with_reducible refine Keeps.ite (fun _ => ?_) (fun _ => ?_)
    | with_reducible refine Keeps.iteP (fun _ => ?_) (fun _ => ?_) | split | dsimp only | intro _

theorem State.readCopy_keeps (h : Keeps F s t) (env) (q) (l) (scr) (x_c) (p_lp : F .lp := by assumption)
    (p_mc : F .mc := by assumption) (p_fc : F .fc := by assumption) (p_pm : F .pm := by assumption)
    : Keeps F s (State.readCopy t env q l scr x_c).1 := by
  unfold State.readCopy
  try dsimp only
  repeat' first
    | with_reducible assumption | with_reducible refine State.readDecoded_keeps ?_ _ _ _ _ _ | dsimp only | intro _

theorem State.rebuild_keeps (h : Keeps F s t) (env) (q) (l) (scr) (row) (x_c) (p_lp : F .lp := by assumption)
    (p_mc : F .mc := by assumption) (p_fc : F .fc := by assumption) (p_pm : F .pm := by assumption)
    : Keeps F s (State.rebuild t env q l scr row x_c).1 := by
  unfold State.rebuild
  try dsimp only
  repeat' first
    | with_reducible assumption | with_reducible refine State.readDecoded_keeps ?_ _ _ _ _ _
    | with_reducible refine Keeps.foldl (fun _ _ _ => ?_) _ ?_ | with_reducible refine Keeps.foldlP (fun _ _ _ => ?_) _ ?_
    | with_reducible refine Keeps.ite (fun _ => ?_) (fun _ => ?_) | with_reducible refine Keeps.iteP (fun _ => ?_) (fun _ => ?_)
    | split | dsimp only | intro _

theorem State.redundant_keeps (h : Keeps F s t) (env) (q) (l) (scr) (x_c) (p_lp : F .lp := by assumption)
    (p_mc : F .mc := by assumption) (p_fc : F .fc := by assumption) (p_pm : F .pm := by assumption)
    : Keeps F s (State.redundant t env q l scr x_c).1 := by
  unfold State.redundant
  try dsimp only
  repeat' first
    | with_reducible assumption | with_reducible refine State.readCopy_keeps ?_ _ _ _ _ _
    | with_reducible refine State.rebuild_keeps ?_ _ _ _ _ _ _ | with_reducible refine Keeps.ite (fun _ => ?_) (fun _ => ?_)
    | with_reducible refine Keeps.iteP (fun _ => ?_) (fun _ => ?_) | split | dsimp only | intro _

theorem State.putCopy_keeps (h : Keeps F s t) (l) (x_c) (x) (p_dram : F .dram := by assumption) (p_lp : F .lp := by assumption)
    (p_mc : F .mc := by assumption) : Keeps F s (State.putCopy t l x_c x) := by
  unfold State.putCopy
  try dsimp only
  repeat' first
    | with_reducible assumption | with_reducible refine State.clearDevLine_keeps ?_ _ _
    | with_reducible refine State.putStored_keeps ?_ _ _ _ | with_reducible refine Keeps.ite (fun _ => ?_) (fun _ => ?_)
    | with_reducible refine Keeps.iteP (fun _ => ?_) (fun _ => ?_) | split | intro _

theorem State.putLine_keeps (h : Keeps F s t) (l) (scr) (d) (poison) (kind) (w) (p_dram : F .dram := by assumption)
    (p_lp : F .lp := by assumption) (p_mc : F .mc := by assumption) (p_fc : F .fc := by assumption)
    (p_pm : F .pm := by assumption) : Keeps F s (State.putLine t l scr d poison kind w) := by
  unfold State.putLine
  try dsimp only
  repeat' first
    | with_reducible assumption | with_reducible refine State.putCopy_keeps ?_ _ _ _
    | with_reducible refine State.rebuild_keeps ?_ _ _ _ _ _ _ | with_reducible refine Keeps.ite (fun _ => ?_) (fun _ => ?_)
    | with_reducible refine Keeps.iteP (fun _ => ?_) (fun _ => ?_) | split | dsimp only | intro _

theorem State.mendCopy_keeps (h : Keeps F s t) (l) (scr) (x_c) (d) (poison) (kind) (p_dram : F .dram := by assumption)
    (p_lp : F .lp := by assumption) (p_mc : F .mc := by assumption) : Keeps F s (State.mendCopy t l scr x_c d poison kind) := by
  unfold State.mendCopy
  try dsimp only
  repeat' first
    | with_reducible assumption | with_reducible refine State.putCopy_keeps ?_ _ _ _ | intro _

theorem State.refreshParity_keeps (h : Keeps F s t) (l) (scr) (p_dram : F .dram := by assumption)
    (p_lp : F .lp := by assumption) (p_mc : F .mc := by assumption) : Keeps F s (State.refreshParity t l scr) := by
  unfold State.refreshParity
  try dsimp only
  repeat' first
    | with_reducible assumption | with_reducible refine State.putCopy_keeps ?_ _ _ _
    | with_reducible refine Keeps.foldl (fun _ _ _ => ?_) _ ?_ | with_reducible refine Keeps.foldlP (fun _ _ _ => ?_) _ ?_
    | with_reducible refine Keeps.ite (fun _ => ?_) (fun _ => ?_) | with_reducible refine Keeps.iteP (fun _ => ?_) (fun _ => ?_)
    | split | dsimp only | intro _

theorem State.noteTag_keeps (h : Keeps F s t) (x_c) (cla) (outcome) (w) (spec) (p_sx : F .sx := by assumption)
    : Keeps F s (State.noteTag t x_c cla outcome w spec) := by
  unfold State.noteTag
  try dsimp only
  repeat' first
    | with_reducible assumption | simp only [keeps_upd, p_sx, or_true, true_or, length_lmod, length_lset, List.length_map] | intro _

theorem State.repair_keeps (h : Keeps F s t) (env) (q) (l) (scr) (x_c) (bad) (p_dram : F .dram := by assumption)
    (p_lp : F .lp := by assumption) (p_sx : F .sx := by assumption) (p_mc : F .mc := by assumption)
    (p_fc : F .fc := by assumption) (p_pm : F .pm := by assumption) : Keeps F s (State.repair t env q l scr x_c bad).1 := by
  unfold State.repair
  try dsimp only
  repeat' first
    | with_reducible assumption | with_reducible refine State.count_keeps ?_ _ _ _
    | with_reducible refine State.redundant_keeps ?_ _ _ _ _ _ | with_reducible refine State.mendCopy_keeps ?_ _ _ _ _ _ _
    | with_reducible refine State.report_keeps ?_ _ _ _ | with_reducible refine State.noteTag_keeps ?_ _ _ _ _ _
    | with_reducible refine State.refreshParity_keeps ?_ _ _ | with_reducible refine Keeps.ite (fun _ => ?_) (fun _ => ?_)
    | with_reducible refine Keeps.iteP (fun _ => ?_) (fun _ => ?_) | split | dsimp only | intro _

theorem State.readLine_keeps (h : Keeps F s t) (env) (q) (l) (scr) (p_dram : F .dram := by assumption)
    (p_lp : F .lp := by assumption) (p_sx : F .sx := by assumption) (p_mc : F .mc := by assumption)
    (p_fc : F .fc := by assumption) (p_pm : F .pm := by assumption) : Keeps F s (State.readLine t env q l scr).1 := by
  unfold State.readLine
  try dsimp only
  repeat' first
    | with_reducible assumption | with_reducible refine State.readCopy_keeps ?_ _ _ _ _ _
    | with_reducible refine State.repair_keeps ?_ _ _ _ _ _ _ | with_reducible refine State.redundant_keeps ?_ _ _ _ _ _
    | with_reducible refine State.report_keeps ?_ _ _ _ | with_reducible refine Keeps.ite (fun _ => ?_) (fun _ => ?_)
    | with_reducible refine Keeps.iteP (fun _ => ?_) (fun _ => ?_) | split | dsimp only | intro _

theorem State.mergeWrite_keeps (h : Keeps F s t) (env) (q) (l) (scr) (d) (en) (poison) (p_dram : F .dram := by assumption)
    (p_lp : F .lp := by assumption) (p_sx : F .sx := by assumption) (p_mc : F .mc := by assumption)
    (p_fc : F .fc := by assumption) (p_pm : F .pm := by assumption) : Keeps F s (State.mergeWrite t env q l scr d en poison) := by
  unfold State.mergeWrite
  try dsimp only
  repeat' first
    | with_reducible assumption | with_reducible refine State.readLine_keeps ?_ _ _ _ _
    | with_reducible refine State.putLine_keeps ?_ _ _ _ _ _ _ | split | dsimp only | intro _

end Sys2Proof.Machine
end

