-- ==== Sys2Proof/Laws/KeepsBw.lean ====
section
/-! SUPPORT. What each operation of Machine/Bw.lean keeps: bandwidth regulation. -/

set_option Elab.async false

set_option linter.all false

namespace Sys2Proof.Machine
open Sys2Proof

variable {F : Part → Prop} {s t : State}

theorem State.raiseStamp_keeps (h : Keeps F s t) (cls) (who) (p_bw : F .bw := by assumption)
    : Keeps F s (State.raiseStamp t cls who) := by
  unfold State.raiseStamp
  try dsimp only
  repeat' first
    | with_reducible assumption | with_reducible refine Keeps.ite (fun _ => ?_) (fun _ => ?_)
    | with_reducible refine Keeps.iteP (fun _ => ?_) (fun _ => ?_)
    | simp only [keeps_upd, p_bw, or_true, true_or, length_lmod, length_lset, List.length_map] | split | dsimp only | intro _

theorem State.modSub_keeps (h : Keeps F s t) (x_c) (x_u) (g) (p_mc : F .mc := by assumption)
    : Keeps F s (State.modSub t x_c x_u g) := by
  unfold State.modSub
  try dsimp only
  repeat' first
    | with_reducible assumption | with_reducible refine State.modChan_keeps ?_ _ _ | dsimp only | intro _

theorem State.enterQueue_keeps (h : Keeps F s t) (x_c) (cla) (write) (who) (row) (id) (p_mc : F .mc := by assumption)
    (p_bw : F .bw := by assumption) : Keeps F s (State.enterQueue t x_c cla write who row id) := by
  unfold State.enterQueue
  try dsimp only
  repeat' first
    | with_reducible assumption | with_reducible refine State.raiseStamp_keeps ?_ _ _
    | with_reducible refine State.modSub_keeps ?_ _ _ _ | with_reducible refine Keeps.ite (fun _ => ?_) (fun _ => ?_)
    | with_reducible refine Keeps.iteP (fun _ => ?_) (fun _ => ?_)
    | simp only [keeps_upd, p_mc, p_bw, or_true, true_or, length_lmod, length_lset, List.length_map] | split | dsimp only | intro _

theorem State.queueRead_keeps (h : Keeps F s t) (l) (who) (row) (id) (p_mc : F .mc := by assumption)
    (p_bw : F .bw := by assumption) : Keeps F s (State.queueRead t l who row id) := by
  unfold State.queueRead
  try dsimp only
  repeat' first
    | with_reducible assumption | with_reducible refine State.enterQueue_keeps ?_ _ _ _ _ _ _
    | with_reducible refine Keeps.foldl (fun _ _ _ => ?_) _ ?_ | with_reducible refine Keeps.foldlP (fun _ _ _ => ?_) _ ?_
    | with_reducible refine Keeps.ite (fun _ => ?_) (fun _ => ?_) | with_reducible refine Keeps.iteP (fun _ => ?_) (fun _ => ?_)
    | split | dsimp only | intro _

theorem State.letIn_keeps (h : Keeps F s t) (x_c) (x_u) (p_mc : F .mc := by assumption) (p_bw : F .bw := by assumption)
    : Keeps F s (State.letIn t x_c x_u) := by
  unfold State.letIn
  try dsimp only
  repeat' first
    | with_reducible assumption | with_reducible refine State.raiseStamp_keeps ?_ _ _
    | with_reducible refine State.modSub_keeps ?_ _ _ _ | with_reducible refine Keeps.foldl (fun _ _ _ => ?_) _ ?_
    | with_reducible refine Keeps.foldlP (fun _ _ _ => ?_) _ ?_ | split | dsimp only | intro _

theorem State.queueWrite_keeps (h : Keeps F s t) (l) (who) (row) (mode) (p_mc : F .mc := by assumption)
    (p_bw : F .bw := by assumption) : Keeps F s (State.queueWrite t l who row mode) := by
  unfold State.queueWrite
  try dsimp only
  repeat' first
    | with_reducible assumption | with_reducible refine State.enterQueue_keeps ?_ _ _ _ _ _ _
    | with_reducible refine Keeps.foldl (fun _ _ _ => ?_) _ ?_ | with_reducible refine Keeps.foldlP (fun _ _ _ => ?_) _ ?_
    | with_reducible refine Keeps.ite (fun _ => ?_) (fun _ => ?_) | with_reducible refine Keeps.iteP (fun _ => ?_) (fun _ => ?_)
    | split | dsimp only | intro _

theorem State.charge_keeps (h : Keeps F s t) (who) (p_bw : F .bw := by assumption) (p_pm : F .pm := by assumption)
    : Keeps F s (State.charge t who) := by
  unfold State.charge
  try dsimp only
  repeat' first
    | with_reducible assumption | with_reducible refine State.count_keeps ?_ _ _ _
    | with_reducible refine Keeps.ite (fun _ => ?_) (fun _ => ?_) | with_reducible refine Keeps.iteP (fun _ => ?_) (fun _ => ?_)
    | simp only [keeps_upd, p_bw, p_pm, or_true, true_or, length_lmod, length_lset, List.length_map] | split | dsimp only | intro _

theorem State.served_keeps (h : Keeps F s t) (x_c) (x_u) (q) (p_mc : F .mc := by assumption) (p_bw : F .bw := by assumption)
    (p_pm : F .pm := by assumption) : Keeps F s (State.served t x_c x_u q) := by
  unfold State.served
  try dsimp only
  repeat' first
    | with_reducible assumption | with_reducible refine State.modSub_keeps ?_ _ _ _ | with_reducible refine State.charge_keeps ?_ _
    | simp only [keeps_upd, p_mc, p_bw, p_pm, or_true, true_or, length_lmod, length_lset, List.length_map] | dsimp only | intro _

theorem budgetWindowEnd_keeps (h : Keeps F s t) (p_now : F .now := by assumption) (p_bw : F .bw := by assumption)
    (p_tu : F .tu := by assumption) : Keeps F s (budgetWindowEnd t) := by
  unfold budgetWindowEnd
  try dsimp only
  repeat' first
    | with_reducible assumption | with_reducible refine State.advance_keeps ?_ _
    | simp only [keeps_upd, p_now, p_bw, p_tu, or_true, true_or, length_lmod, length_lset, List.length_map] | dsimp only | intro _

theorem bwStampUpdate_keeps (h : Keeps F s t) (p_mc : F .mc := by assumption) (p_bw : F .bw := by assumption)
    : Keeps F s (bwStampUpdate t) := by
  unfold bwStampUpdate
  try dsimp only
  repeat' first
    | with_reducible assumption | simp only [keeps_upd, p_mc, p_bw, or_true, true_or, length_lmod, length_lset, List.length_map]
    | dsimp only | intro _

theorem State.rescale_keeps (h : Keeps F s t) (p_bw : F .bw := by assumption) (p_fc : F .fc := by assumption) :
    Keeps F s t.rescale := by
  unfold State.rescale
  try dsimp only
  repeat' first
    | with_reducible assumption | intro _ | with_reducible refine State.report_keeps ?_ _ _ _
    | with_reducible refine Keeps.ite (fun _ => ?_) (fun _ => ?_)
    | simp only [keeps_upd, p_bw, p_fc, or_true, true_or, length_lmod, length_lset, List.length_map]

theorem State.rescaleCommit_keeps (h : Keeps F s t) (p_bw : F .bw := by assumption) (p_fc : F .fc := by assumption) :
    Keeps F s t.rescaleCommit.1 := by
  unfold State.rescaleCommit
  try dsimp only
  repeat' first
    | with_reducible assumption | intro _ | with_reducible refine State.report_keeps ?_ _ _ _
    | with_reducible refine Keeps.ite (fun _ => ?_) (fun _ => ?_) | with_reducible refine Keeps.iteP (fun _ => ?_) (fun _ => ?_)
    | simp only [keeps_upd, p_bw, p_fc, or_true, true_or, length_lmod, length_lset, List.length_map]

theorem State.startFrame_keeps (h : Keeps F s t) (x_c) (x_u) (p_mc : F .mc := by assumption)
    : Keeps F s (State.startFrame t x_c x_u) := by
  unfold State.startFrame
  try dsimp only
  repeat' first
    | with_reducible assumption | with_reducible refine State.modSub_keeps ?_ _ _ _
    | with_reducible refine Keeps.ite (fun _ => ?_) (fun _ => ?_) | with_reducible refine Keeps.iteP (fun _ => ?_) (fun _ => ?_)
    | split | dsimp only | intro _

theorem bwQuery_keeps (h : Keeps F s t) (a1) (a2) (p_mb : F .mb := by assumption) : Keeps F s (bwQuery a1 a2 t).1 := by
  unfold bwQuery
  try dsimp only
  repeat' first
    | with_reducible assumption | with_reducible refine query_keeps ?_ _ _ _ _ _ _ | dsimp only | intro _

end Sys2Proof.Machine
end

