-- ==== Sys2Proof/Laws/KeepsLine.lean ====
section
/-! SUPPORT. What each operation of Machine/Line.lean keeps: lines of regions. -/

set_option Elab.async false

set_option linter.all false

namespace Sys2Proof.Machine
open Sys2Proof

variable {F : Part → Prop} {s t : State}

theorem State.modRegion_keeps (h : Keeps F s t) (n) (g) (p_rg : F .rg := by assumption) : Keeps F s (State.modRegion t n g) := by
  unfold State.modRegion
  try dsimp only
  repeat' first
    | with_reducible assumption | with_reducible refine Com.regions_keeps ?_ _
    | simp only [keeps_upd, p_rg, or_true, true_or, length_lmod, length_lset, List.length_map] | intro _

theorem State.fillUpsets_keeps (h : Keeps F s t) (protect) (grain) (mask) (x) (b) (p_mc : F .mc := by assumption)
    : Keeps F s (State.fillUpsets t protect grain mask x b) := by
  unfold State.fillUpsets
  try dsimp only
  repeat' first
    | with_reducible assumption | simp only [keeps_upd, p_mc, or_true, true_or, length_lmod, length_lset, List.length_map] | split
    | dsimp only | intro _

theorem State.touchBlock_keeps (h : Keeps F s t) (n) (kind) (off) (p_rg : F .rg := by assumption)
    (p_mc : F .mc := by assumption) : Keeps F s (State.touchBlock t n kind off) := by
  unfold State.touchBlock
  try dsimp only
  repeat' first
    | with_reducible assumption | with_reducible refine State.modRegion_keeps ?_ _ _
    | with_reducible refine State.fillUpsets_keeps ?_ _ _ _ _ _ | with_reducible refine Keeps.ite (fun _ => ?_) (fun _ => ?_)
    | with_reducible refine Keeps.iteP (fun _ => ?_) (fun _ => ?_) | split | dsimp only | intro _

theorem State.readOn_keeps (h : Keeps F s t) (l) (scr) (w) (x_c) (p_lp : F .lp := by assumption) (p_mc : F .mc := by assumption)
    (p_fc : F .fc := by assumption) (p_pm : F .pm := by assumption) : Keeps F s (State.readOn t l scr w x_c).1 := by
  unfold State.readOn
  try dsimp only
  repeat' first
    | with_reducible assumption | with_reducible refine State.readCopy_keeps ?_ _ _ _ _ _
    | with_reducible refine Keeps.ite (fun _ => ?_) (fun _ => ?_) | with_reducible refine Keeps.iteP (fun _ => ?_) (fun _ => ?_)
    | split | dsimp only | intro _

theorem State.extRead_keeps (h : Keeps F s t) (n) (kind) (off) (w) (sel) (p_dram : F .dram := by assumption)
    (p_lp : F .lp := by assumption) (p_sx : F .sx := by assumption) (p_mc : F .mc := by assumption)
    (p_bw : F .bw := by assumption) (p_fc : F .fc := by assumption) (p_pm : F .pm := by assumption)
    : Keeps F s (State.extRead t n kind off w sel).1 := by
  unfold State.extRead
  try dsimp only
  repeat' first
    | with_reducible assumption | with_reducible refine State.readLine_keeps ?_ _ _ _ _
    | with_reducible refine State.readOn_keeps ?_ _ _ _ _ | with_reducible refine State.queueRead_keeps ?_ _ _ _ _
    | with_reducible refine Keeps.ite (fun _ => ?_) (fun _ => ?_) | with_reducible refine Keeps.iteP (fun _ => ?_) (fun _ => ?_)
    | split | dsimp only | intro _

theorem State.fencedWrite_keeps (h : Keeps F s t) (l) (w) (p_out : F .out := by assumption) (p_fc : F .fc := by assumption)
    : Keeps F s (State.fencedWrite t l w) := by
  unfold State.fencedWrite
  try dsimp only
  repeat' first
    | with_reducible assumption | with_reducible refine State.reportAgg_keeps ?_ _ _ _ _ _
    | with_reducible refine State.emit_keeps ?_ _ | with_reducible refine Keeps.ite (fun _ => ?_) (fun _ => ?_)
    | with_reducible refine Keeps.iteP (fun _ => ?_) (fun _ => ?_) | split | intro _

theorem State.extWrite_keeps (h : Keeps F s t) (n) (kind) (off) (w) (d) (poison) (mode) (p_out : F .out := by assumption)
    (p_dram : F .dram := by assumption) (p_rg : F .rg := by assumption) (p_lp : F .lp := by assumption)
    (p_mc : F .mc := by assumption) (p_bw : F .bw := by assumption) (p_fc : F .fc := by assumption)
    (p_pm : F .pm := by assumption) : Keeps F s (State.extWrite t n kind off w d poison mode) := by
  unfold State.extWrite
  try dsimp only
  repeat' first
    | with_reducible assumption | with_reducible refine State.touchBlock_keeps ?_ _ _ _
    | with_reducible refine State.fencedWrite_keeps ?_ _ _ | with_reducible refine State.queueWrite_keeps ?_ _ _ _ _
    | with_reducible refine State.putLine_keeps ?_ _ _ _ _ _ _ | split | dsimp only | intro _

theorem State.extMerge_keeps (h : Keeps F s t) (n) (kind) (off) (w) (d) (en) (poison) (p_out : F .out := by assumption)
    (p_dram : F .dram := by assumption) (p_rg : F .rg := by assumption) (p_lp : F .lp := by assumption)
    (p_sx : F .sx := by assumption) (p_mc : F .mc := by assumption) (p_bw : F .bw := by assumption)
    (p_fc : F .fc := by assumption) (p_pm : F .pm := by assumption) : Keeps F s (State.extMerge t n kind off w d en poison) := by
  unfold State.extMerge
  try dsimp only
  repeat' first
    | with_reducible assumption | with_reducible refine State.touchBlock_keeps ?_ _ _ _
    | with_reducible refine State.fencedWrite_keeps ?_ _ _ | with_reducible refine State.mergeWrite_keeps ?_ _ _ _ _ _ _ _
    | with_reducible refine State.queueRead_keeps ?_ _ _ _ _ | with_reducible refine State.queueWrite_keeps ?_ _ _ _ _ | split
    | dsimp only | intro _

theorem State.writeFree_keeps (h : Keeps F s t) (n) (p_dram : F .dram := by assumption) (p_rg : F .rg := by assumption)
    (p_lp : F .lp := by assumption) (p_mc : F .mc := by assumption) (p_fc : F .fc := by assumption)
    (p_pm : F .pm := by assumption) : Keeps F s (State.writeFree t n) := by
  unfold State.writeFree
  try dsimp only
  repeat' first
    | with_reducible assumption | with_reducible refine State.putLine_keeps ?_ _ _ _ _ _ _
    | with_reducible refine State.modRegion_keeps ?_ _ _ | with_reducible refine Keeps.foldl (fun _ _ _ => ?_) _ ?_
    | with_reducible refine Keeps.foldlP (fun _ _ _ => ?_) _ ?_ | with_reducible refine Keeps.ite (fun _ => ?_) (fun _ => ?_)
    | with_reducible refine Keeps.iteP (fun _ => ?_) (fun _ => ?_) | split | dsimp only | intro _

theorem State.extPut_keeps (h : Keeps F s t) (n) (kind) (off) (w) (d) (en) (poison) (p_out : F .out := by assumption)
    (p_dram : F .dram := by assumption) (p_rg : F .rg := by assumption) (p_lp : F .lp := by assumption)
    (p_sx : F .sx := by assumption) (p_mc : F .mc := by assumption) (p_bw : F .bw := by assumption)
    (p_fc : F .fc := by assumption) (p_pm : F .pm := by assumption) : Keeps F s (State.extPut t n kind off w d en poison) := by
  unfold State.extPut
  try dsimp only
  repeat' first
    | with_reducible assumption | with_reducible refine State.extWrite_keeps ?_ _ _ _ _ _ _ _
    | with_reducible refine State.extMerge_keeps ?_ _ _ _ _ _ _ _ | with_reducible refine Keeps.ite (fun _ => ?_) (fun _ => ?_)
    | with_reducible refine Keeps.iteP (fun _ => ?_) (fun _ => ?_) | split | intro _

end Sys2Proof.Machine
end

