-- ==== Sys2Proof/Laws/KeepsYard.lean ====
section
/-! SUPPORT. What each operation of Machine/Yard.lean keeps: the yard. -/

set_option Elab.async false

set_option linter.all false

namespace Sys2Proof.Machine
open Sys2Proof

variable {F : Part → Prop} {s t : State}

theorem State.metaBack_keeps (h : Keeps F s t) (m) (p_out : F .out := by assumption) (p_dram : F .dram := by assumption)
    (p_rg : F .rg := by assumption) (p_lp : F .lp := by assumption) (p_mc : F .mc := by assumption)
    (p_bw : F .bw := by assumption) (p_fc : F .fc := by assumption) (p_pm : F .pm := by assumption)
    : Keeps F s (State.metaBack t m) := by
  unfold State.metaBack
  try dsimp only
  repeat' first
    | with_reducible assumption | with_reducible refine State.extWrite_keeps ?_ _ _ _ _ _ _ _
    | with_reducible refine State.count_keeps ?_ _ _ _ | with_reducible refine Keeps.ite (fun _ => ?_) (fun _ => ?_)
    | with_reducible refine Keeps.iteP (fun _ => ?_) (fun _ => ?_) | split | intro _

theorem State.metaInstall_keeps (h : Keeps F s t) (m) (p_out : F .out := by assumption) (p_dram : F .dram := by assumption)
    (p_rg : F .rg := by assumption) (p_cd : F .cd := by assumption) (p_lp : F .lp := by assumption)
    (p_mc : F .mc := by assumption) (p_bw : F .bw := by assumption) (p_fc : F .fc := by assumption)
    (p_pm : F .pm := by assumption) : Keeps F s (State.metaInstall t m) := by
  unfold State.metaInstall
  try dsimp only
  repeat' first
    | with_reducible assumption | with_reducible refine State.metaSet_keeps ?_ _ _ _ _
    | with_reducible refine State.metaBack_keeps ?_ _ | with_reducible refine Keeps.ite (fun _ => ?_) (fun _ => ?_)
    | with_reducible refine Keeps.iteP (fun _ => ?_) (fun _ => ?_)
    | simp only [keeps_upd, p_out, p_dram, p_rg, p_cd, p_lp, p_mc, p_bw, p_fc, p_pm, or_true, true_or, length_lmod, length_lset, List.length_map]
    | split | dsimp only | intro _

theorem State.metaRaw_keeps (h : Keeps F s t) (n) (i) (w) (sel) (p_dram : F .dram := by assumption)
    (p_lp : F .lp := by assumption) (p_sx : F .sx := by assumption) (p_mc : F .mc := by assumption)
    (p_bw : F .bw := by assumption) (p_fc : F .fc := by assumption) (p_pm : F .pm := by assumption)
    : Keeps F s (State.metaRaw t n i w sel).1 := by
  unfold State.metaRaw
  try dsimp only
  repeat' first
    | with_reducible assumption | with_reducible refine State.extRead_keeps ?_ _ _ _ _ _
    | with_reducible refine Keeps.ite (fun _ => ?_) (fun _ => ?_) | with_reducible refine Keeps.iteP (fun _ => ?_) (fun _ => ?_)
    | split | dsimp only | intro _

theorem State.metaOther_keeps (h : Keeps F s t) (n) (i) (w) (p_dram : F .dram := by assumption) (p_lp : F .lp := by assumption)
    (p_sx : F .sx := by assumption) (p_mc : F .mc := by assumption) (p_bw : F .bw := by assumption)
    (p_fc : F .fc := by assumption) (p_pm : F .pm := by assumption) : Keeps F s (State.metaOther t n i w).1 := by
  unfold State.metaOther
  try dsimp only
  repeat' first
    | with_reducible assumption | with_reducible refine State.metaRaw_keeps ?_ _ _ _ _
    | with_reducible refine Keeps.ite (fun _ => ?_) (fun _ => ?_) | with_reducible refine Keeps.iteP (fun _ => ?_) (fun _ => ?_)
    | split | dsimp only | intro _

theorem State.noteDecode_keeps (h : Keeps F s t) (dpa) (e) (repaired) (p_cd : F .cd := by assumption)
    : Keeps F s (State.noteDecode t dpa e repaired) := by
  unfold State.noteDecode
  try dsimp only
  repeat' first
    | with_reducible assumption | simp only [keeps_upd, p_cd, or_true, true_or, length_lmod, length_lset, List.length_map]
    | dsimp only | intro _

theorem State.decodeRepaired_keeps (h : Keeps F s t) (dpa) (e) (w) (p_cd : F .cd := by assumption)
    (p_fc : F .fc := by assumption) (p_pm : F .pm := by assumption) : Keeps F s (State.decodeRepaired t dpa e w) := by
  unfold State.decodeRepaired
  try dsimp only
  repeat' first
    | with_reducible assumption | with_reducible refine State.noteDecode_keeps ?_ _ _ _
    | with_reducible refine State.count_keeps ?_ _ _ _ | with_reducible refine State.report_keeps ?_ _ _ _
    | with_reducible refine Keeps.ite (fun _ => ?_) (fun _ => ?_) | with_reducible refine Keeps.iteP (fun _ => ?_) (fun _ => ?_)
    | split | dsimp only | intro _

theorem State.descsMended_keeps (h : Keeps F s t) (n) (i) (w) (p_cd : F .cd := by assumption) (p_fc : F .fc := by assumption)
    (p_pm : F .pm := by assumption) : Keeps F s (State.descsMended t n i w) := by
  unfold State.descsMended
  try dsimp only
  repeat' first
    | with_reducible assumption | with_reducible refine State.decodeRepaired_keeps ?_ _ _ _
    | with_reducible refine Keeps.foldl (fun _ _ _ => ?_) _ ?_ | with_reducible refine Keeps.foldlP (fun _ _ _ => ?_) _ ?_
    | with_reducible refine Keeps.ite (fun _ => ?_) (fun _ => ?_) | with_reducible refine Keeps.iteP (fun _ => ?_) (fun _ => ?_)
    | split | dsimp only | intro _

theorem State.metaLine_keeps (h : Keeps F s t) (n) (i) (w) (p_out : F .out := by assumption) (p_dram : F .dram := by assumption)
    (p_rg : F .rg := by assumption) (p_cd : F .cd := by assumption) (p_lp : F .lp := by assumption)
    (p_sx : F .sx := by assumption) (p_mc : F .mc := by assumption) (p_bw : F .bw := by assumption)
    (p_fc : F .fc := by assumption) (p_pm : F .pm := by assumption) : Keeps F s (State.metaLine t n i w).1 := by
  unfold State.metaLine
  try dsimp only
  repeat' first
    | with_reducible assumption | with_reducible refine State.count_keeps ?_ _ _ _
    | with_reducible refine State.metaRaw_keeps ?_ _ _ _ _ | with_reducible refine State.metaInstall_keeps ?_ _
    | with_reducible refine State.metaOther_keeps ?_ _ _ _ | with_reducible refine State.descsMended_keeps ?_ _ _ _ | split
    | dsimp only | intro _

theorem State.metaSet_keeps (h : Keeps F s t) (n) (i) (w) (d) (p_out : F .out := by assumption)
    (p_dram : F .dram := by assumption) (p_rg : F .rg := by assumption) (p_cd : F .cd := by assumption)
    (p_lp : F .lp := by assumption) (p_mc : F .mc := by assumption) (p_bw : F .bw := by assumption)
    (p_fc : F .fc := by assumption) (p_pm : F .pm := by assumption) : Keeps F s (State.metaSet t n i w d) := by
  unfold State.metaSet
  try dsimp only
  repeat' first
    | with_reducible assumption | with_reducible refine State.metaInstall_keeps ?_ _
    | with_reducible refine Keeps.ite (fun _ => ?_) (fun _ => ?_) | with_reducible refine Keeps.iteP (fun _ => ?_) (fun _ => ?_)
    | simp only [keeps_upd, p_out, p_dram, p_rg, p_cd, p_lp, p_mc, p_bw, p_fc, p_pm, or_true, true_or, length_lmod, length_lset, List.length_map]
    | split | dsimp only | intro _

theorem State.descGet_keeps (h : Keeps F s t) (n) (k) (w) (sel) (p_out : F .out := by assumption)
    (p_dram : F .dram := by assumption) (p_rg : F .rg := by assumption) (p_cd : F .cd := by assumption)
    (p_lp : F .lp := by assumption) (p_sx : F .sx := by assumption) (p_mc : F .mc := by assumption)
    (p_bw : F .bw := by assumption) (p_fc : F .fc := by assumption) (p_pm : F .pm := by assumption)
    : Keeps F s (State.descGet t n k w sel).1 := by
  unfold State.descGet
  try dsimp only
  repeat' first
    | with_reducible assumption | with_reducible refine State.metaLine_keeps ?_ _ _ _
    | with_reducible refine State.metaRaw_keeps ?_ _ _ _ _ | with_reducible refine Keeps.ite (fun _ => ?_) (fun _ => ?_)
    | with_reducible refine Keeps.iteP (fun _ => ?_) (fun _ => ?_) | split | dsimp only | intro _

theorem State.leak_keeps (h : Keeps F s t) (n) (v) (p_rg : F .rg := by assumption) : Keeps F s (State.leak t n v) := by
  unfold State.leak
  try dsimp only
  repeat' first
    | with_reducible assumption | with_reducible refine State.modRegion_keeps ?_ _ _ | dsimp only | intro _

theorem State.decodeError_keeps (h : Keeps F s t) (dpa) (e) (w) (p_cd : F .cd := by assumption) (p_fc : F .fc := by assumption)
    (p_pm : F .pm := by assumption) : Keeps F s (State.decodeError t dpa e w) := by
  unfold State.decodeError
  try dsimp only
  repeat' first
    | with_reducible assumption | with_reducible refine State.noteDecode_keeps ?_ _ _ _
    | with_reducible refine State.count_keeps ?_ _ _ _ | with_reducible refine State.report_keeps ?_ _ _ _
    | with_reducible refine Keeps.ite (fun _ => ?_) (fun _ => ?_) | with_reducible refine Keeps.iteP (fun _ => ?_) (fun _ => ?_)
    | split | dsimp only | intro _

theorem State.descsPoison_keeps (h : Keeps F s t) (n) (i) (w) (p_out : F .out := by assumption)
    (p_dram : F .dram := by assumption) (p_rg : F .rg := by assumption) (p_cd : F .cd := by assumption)
    (p_lp : F .lp := by assumption) (p_mc : F .mc := by assumption) (p_bw : F .bw := by assumption)
    (p_fc : F .fc := by assumption) (p_pm : F .pm := by assumption) : Keeps F s (State.descsPoison t n i w) := by
  unfold State.descsPoison
  try dsimp only
  repeat' first
    | with_reducible assumption | with_reducible refine State.leak_keeps ?_ _ _ | with_reducible refine State.modRegion_keeps ?_ _ _
    | with_reducible refine State.metaSet_keeps ?_ _ _ _ _ | with_reducible refine Keeps.foldl (fun _ _ _ => ?_) _ ?_
    | with_reducible refine Keeps.foldlP (fun _ _ _ => ?_) _ ?_ | split | dsimp only | intro _

theorem State.lostDescs_keeps (h : Keeps F s t) (n) (k) (w) (p_out : F .out := by assumption)
    (p_dram : F .dram := by assumption) (p_rg : F .rg := by assumption) (p_cd : F .cd := by assumption)
    (p_lp : F .lp := by assumption) (p_mc : F .mc := by assumption) (p_bw : F .bw := by assumption)
    (p_fc : F .fc := by assumption) (p_pm : F .pm := by assumption) : Keeps F s (State.lostDescs t n k w) := by
  unfold State.lostDescs
  try dsimp only
  repeat' first
    | with_reducible assumption | with_reducible refine State.decodeError_keeps ?_ _ _ _
    | with_reducible refine State.descsPoison_keeps ?_ _ _ _ | with_reducible refine Keeps.foldl (fun _ _ _ => ?_) _ ?_
    | with_reducible refine Keeps.foldlP (fun _ _ _ => ?_) _ ?_ | split | dsimp only | intro _

theorem State.descSet_keeps (h : Keeps F s t) (n) (k) (w) (v) (p_out : F .out := by assumption)
    (p_dram : F .dram := by assumption) (p_rg : F .rg := by assumption) (p_cd : F .cd := by assumption)
    (p_lp : F .lp := by assumption) (p_sx : F .sx := by assumption) (p_mc : F .mc := by assumption)
    (p_bw : F .bw := by assumption) (p_fc : F .fc := by assumption) (p_pm : F .pm := by assumption)
    : Keeps F s (State.descSet t n k w v) := by
  unfold State.descSet
  try dsimp only
  repeat' first
    | with_reducible assumption | with_reducible refine State.metaLine_keeps ?_ _ _ _
    | with_reducible refine State.lostDescs_keeps ?_ _ _ _ | with_reducible refine State.metaSet_keeps ?_ _ _ _ _
    | with_reducible refine State.modRegion_keeps ?_ _ _ | with_reducible refine Keeps.ite (fun _ => ?_) (fun _ => ?_)
    | with_reducible refine Keeps.iteP (fun _ => ?_) (fun _ => ?_) | split | dsimp only | intro _

theorem State.stallRead_keeps (h : Keeps F s t) (n) (kind) (off) (w) (sel) (p_dram : F .dram := by assumption)
    (p_lp : F .lp := by assumption) (p_sx : F .sx := by assumption) (p_mc : F .mc := by assumption)
    (p_bw : F .bw := by assumption) (p_fc : F .fc := by assumption) (p_pm : F .pm := by assumption)
    : Keeps F s (State.stallRead t n kind off w sel).1 := by
  unfold State.stallRead
  try dsimp only
  repeat' first
    | with_reducible assumption | with_reducible refine State.extRead_keeps ?_ _ _ _ _ _ | dsimp only | intro _

theorem State.walkChain_keeps (h : Keeps F s t) (n) (k) (w) (sel) (cl) (base) (nlinks) (a8) (a9) (a10) (a11) (a12)
    (p_dram : F .dram := by assumption) (p_lp : F .lp := by assumption) (p_sx : F .sx := by assumption) (p_mc : F .mc := by assumption) (p_bw : F .bw := by assumption) (p_fc : F .fc := by assumption) (p_pm : F .pm := by assumption) :
    Keeps F s (t.walkChain n k w sel cl base nlinks a8 a9 a10 a11 a12).1 := by
  induction a8 generalizing t n k w sel cl base nlinks a9 a10 a11 a12 with
  | zero => unfold State.walkChain; with_reducible exact h
  | succ _ ih =>
    unfold State.walkChain
    try dsimp only
    repeat' first
      | with_reducible assumption | with_reducible refine ih ?_ _ _ _ _ _ _ _ _ _ _ _ | intro _
      | with_reducible refine State.count_keeps ?_ _ _ _ | with_reducible refine State.stallRead_keeps ?_ _ _ _ _ _
      | with_reducible refine Keeps.ite (fun _ => ?_) (fun _ => ?_) | with_reducible refine Keeps.iteP (fun _ => ?_) (fun _ => ?_)
      | simp only [keeps_upd, p_dram, p_lp, p_sx, p_mc, p_bw, p_fc, p_pm, or_true, true_or, length_lmod, length_lset, List.length_map]
      | split

theorem State.readStalls_keeps (h : Keeps F s t) (n) (idx) (m) (w) (sel) (p_dram : F .dram := by assumption)
    (p_lp : F .lp := by assumption) (p_sx : F .sx := by assumption) (p_mc : F .mc := by assumption)
    (p_bw : F .bw := by assumption) (p_fc : F .fc := by assumption) (p_pm : F .pm := by assumption)
    : Keeps F s (State.readStalls t n idx m w sel).1 := by
  unfold State.readStalls
  try dsimp only
  repeat' first
    | with_reducible assumption | with_reducible refine State.stallRead_keeps ?_ _ _ _ _ _
    | with_reducible refine Keeps.foldl (fun _ _ _ => ?_) _ ?_ | with_reducible refine Keeps.foldlP (fun _ _ _ => ?_) _ ?_ | split
    | dsimp only | intro _

theorem State.readGranAt_keeps (h : Keeps F s t) (n) (k) (w) (sel) (r) (v) (p_dram : F .dram := by assumption)
    (p_lp : F .lp := by assumption) (p_sx : F .sx := by assumption) (p_mc : F .mc := by assumption)
    (p_bw : F .bw := by assumption) (p_fc : F .fc := by assumption) (p_pm : F .pm := by assumption)
    : Keeps F s (State.readGranAt t n k w sel r v).1 := by
  unfold State.readGranAt
  try dsimp only
  repeat' first
    | with_reducible assumption | with_reducible refine State.readStalls_keeps ?_ _ _ _ _ _
    | with_reducible refine State.walkChain_keeps ?_ _ _ _ _ _ _ _ _ _ _ _ _ | with_reducible refine State.count_keeps ?_ _ _ _
    | with_reducible refine Keeps.ite (fun _ => ?_) (fun _ => ?_) | with_reducible refine Keeps.iteP (fun _ => ?_) (fun _ => ?_)
    | split | dsimp only | intro _

theorem State.readGran_keeps (h : Keeps F s t) (n) (k) (w) (sel) (p_out : F .out := by assumption)
    (p_dram : F .dram := by assumption) (p_rg : F .rg := by assumption) (p_cd : F .cd := by assumption)
    (p_lp : F .lp := by assumption) (p_sx : F .sx := by assumption) (p_mc : F .mc := by assumption)
    (p_bw : F .bw := by assumption) (p_fc : F .fc := by assumption) (p_pm : F .pm := by assumption)
    : Keeps F s (State.readGran t n k w sel).1 := by
  unfold State.readGran
  try dsimp only
  repeat' first
    | with_reducible assumption | with_reducible refine State.descGet_keeps ?_ _ _ _ _
    | with_reducible refine State.readGranAt_keeps ?_ _ _ _ _ _ _ | split | dsimp only | intro _

theorem State.freeGran_keeps (h : Keeps F s t) (n) (idx) (m) (links) (p_dram : F .dram := by assumption)
    (p_rg : F .rg := by assumption) (p_lp : F .lp := by assumption) (p_mc : F .mc := by assumption)
    (p_fc : F .fc := by assumption) (p_pm : F .pm := by assumption) : Keeps F s (State.freeGran t n idx m links) := by
  unfold State.freeGran
  try dsimp only
  repeat' first
    | with_reducible assumption | with_reducible refine State.modRegion_keeps ?_ _ _
    | with_reducible refine State.writeFree_keeps ?_ _ | dsimp only | intro _

theorem State.checkLow_keeps (h : Keeps F s t) (n) (p_rg : F .rg := by assumption) (p_cd : F .cd := by assumption)
    (p_fc : F .fc := by assumption) : Keeps F s (State.checkLow t n) := by
  unfold State.checkLow
  try dsimp only
  repeat' first
    | with_reducible assumption | with_reducible refine State.modRegion_keeps ?_ _ _
    | with_reducible refine State.report_keeps ?_ _ _ _ | with_reducible refine Keeps.ite (fun _ => ?_) (fun _ => ?_)
    | with_reducible refine Keeps.iteP (fun _ => ?_) (fun _ => ?_)
    | simp only [keeps_upd, p_rg, p_cd, p_fc, or_true, true_or, length_lmod, length_lset, List.length_map] | split | dsimp only
    | intro _

theorem State.poisonGran_keeps (h : Keeps F s t) (n) (k) (w) (g) (p_out : F .out := by assumption)
    (p_dram : F .dram := by assumption) (p_rg : F .rg := by assumption) (p_cd : F .cd := by assumption)
    (p_lp : F .lp := by assumption) (p_sx : F .sx := by assumption) (p_mc : F .mc := by assumption)
    (p_bw : F .bw := by assumption) (p_fc : F .fc := by assumption) (p_pm : F .pm := by assumption)
    : Keeps F s (State.poisonGran t n k w g) := by
  unfold State.poisonGran
  try dsimp only
  repeat' first
    | with_reducible assumption | with_reducible refine State.descSet_keeps ?_ _ _ _ _
    | with_reducible refine State.freeGran_keeps ?_ _ _ _ _ | with_reducible refine State.checkLow_keeps ?_ _ | dsimp only | intro _

theorem State.restoreGran_keeps (h : Keeps F s t) (n) (k) (w) (sel) (g) (r) (p_out : F .out := by assumption)
    (p_dram : F .dram := by assumption) (p_rg : F .rg := by assumption) (p_cd : F .cd := by assumption)
    (p_lp : F .lp := by assumption) (p_sx : F .sx := by assumption) (p_mc : F .mc := by assumption)
    (p_bw : F .bw := by assumption) (p_fc : F .fc := by assumption) (p_pm : F .pm := by assumption)
    : Keeps F s (State.restoreGran t n k w sel g r) := by
  unfold State.restoreGran
  try dsimp only
  repeat' first
    | with_reducible assumption | with_reducible refine State.extRead_keeps ?_ _ _ _ _ _
    | with_reducible refine State.extWrite_keeps ?_ _ _ _ _ _ _ _ | with_reducible refine State.descSet_keeps ?_ _ _ _ _
    | with_reducible refine Keeps.foldl (fun _ _ _ => ?_) _ ?_ | with_reducible refine Keeps.foldlP (fun _ _ _ => ?_) _ ?_
    | dsimp only | intro _

theorem State.goodCopy_keeps (h : Keeps F s t) (n) (k) (w) (p_out : F .out := by assumption) (p_dram : F .dram := by assumption)
    (p_rg : F .rg := by assumption) (p_cd : F .cd := by assumption) (p_lp : F .lp := by assumption)
    (p_sx : F .sx := by assumption) (p_mc : F .mc := by assumption) (p_bw : F .bw := by assumption)
    (p_fc : F .fc := by assumption) (p_pm : F .pm := by assumption) : Keeps F s (State.goodCopy t n k w).1 := by
  unfold State.goodCopy
  try dsimp only
  repeat' first
    | with_reducible assumption | with_reducible refine State.readGran_keeps ?_ _ _ _ _
    | with_reducible refine Keeps.ite (fun _ => ?_) (fun _ => ?_) | with_reducible refine Keeps.iteP (fun _ => ?_) (fun _ => ?_)
    | split | dsimp only | intro _

theorem State.getGran_keeps (h : Keeps F s t) (n) (k) (w) (p_out : F .out := by assumption) (p_dram : F .dram := by assumption)
    (p_rg : F .rg := by assumption) (p_cd : F .cd := by assumption) (p_lp : F .lp := by assumption)
    (p_sx : F .sx := by assumption) (p_mc : F .mc := by assumption) (p_bw : F .bw := by assumption)
    (p_fc : F .fc := by assumption) (p_pm : F .pm := by assumption) : Keeps F s (State.getGran t n k w).1 := by
  unfold State.getGran
  try dsimp only
  repeat' first
    | with_reducible assumption | with_reducible refine State.readGran_keeps ?_ _ _ _ _
    | with_reducible refine State.goodCopy_keeps ?_ _ _ _ | with_reducible refine State.restoreGran_keeps ?_ _ _ _ _ _ _
    | with_reducible refine State.decodeRepaired_keeps ?_ _ _ _ | with_reducible refine State.lostDescs_keeps ?_ _ _ _
    | with_reducible refine State.poisonGran_keeps ?_ _ _ _ _ | with_reducible refine State.decodeError_keeps ?_ _ _ _
    | with_reducible refine Keeps.ite (fun _ => ?_) (fun _ => ?_) | with_reducible refine Keeps.iteP (fun _ => ?_) (fun _ => ?_)
    | split | dsimp only | intro _

theorem State.writeStored_keeps (h : Keeps F s t) (n) (k) (w) (r) (p) (out) (poison) (only) (p_out : F .out := by assumption)
    (p_dram : F .dram := by assumption) (p_rg : F .rg := by assumption) (p_lp : F .lp := by assumption)
    (p_mc : F .mc := by assumption) (p_bw : F .bw := by assumption) (p_fc : F .fc := by assumption)
    (p_pm : F .pm := by assumption) : Keeps F s (State.writeStored t n k w r p out poison only) := by
  unfold State.writeStored
  try dsimp only
  repeat' first
    | with_reducible assumption | with_reducible refine State.extWrite_keeps ?_ _ _ _ _ _ _ _
    | with_reducible refine Keeps.foldl (fun _ _ _ => ?_) _ ?_ | with_reducible refine Keeps.foldlP (fun _ _ _ => ?_) _ ?_
    | with_reducible refine Keeps.ite (fun _ => ?_) (fun _ => ?_) | with_reducible refine Keeps.iteP (fun _ => ?_) (fun _ => ?_)
    | split | dsimp only | intro _

theorem State.storeGran_keeps (h : Keeps F s t) (n) (k) (w) (g) (data) (poison) (rewrites) (raw) (only)
    (p_out : F .out := by assumption) (p_dram : F .dram := by assumption) (p_rg : F .rg := by assumption)
    (p_cd : F .cd := by assumption) (p_lp : F .lp := by assumption) (p_sx : F .sx := by assumption)
    (p_mc : F .mc := by assumption) (p_bw : F .bw := by assumption) (p_fc : F .fc := by assumption)
    (p_pm : F .pm := by assumption) : Keeps F s (State.storeGran t n k w g data poison rewrites raw only).1 := by
  unfold State.storeGran
  try dsimp only
  repeat' first
    | with_reducible assumption | with_reducible refine State.descSet_keeps ?_ _ _ _ _
    | with_reducible refine State.freeGran_keeps ?_ _ _ _ _ | with_reducible refine State.checkLow_keeps ?_ _
    | with_reducible refine State.count_keeps ?_ _ _ _ | with_reducible refine State.fillUpsets_keeps ?_ _ _ _ _ _
    | with_reducible refine State.modRegion_keeps ?_ _ _ | with_reducible refine State.writeStored_keeps ?_ _ _ _ _ _ _ _ _
    | with_reducible refine Keeps.foldl (fun _ _ _ => ?_) _ ?_ | with_reducible refine Keeps.foldlP (fun _ _ _ => ?_) _ ?_
    | with_reducible refine Keeps.ite (fun _ => ?_) (fun _ => ?_) | with_reducible refine Keeps.iteP (fun _ => ?_) (fun _ => ?_)
    | split | dsimp only | intro _

theorem State.exhausted_keeps (h : Keeps F s t) (n) (k) (w) (g) (p_out : F .out := by assumption)
    (p_dram : F .dram := by assumption) (p_rg : F .rg := by assumption) (p_cd : F .cd := by assumption)
    (p_lp : F .lp := by assumption) (p_sx : F .sx := by assumption) (p_mc : F .mc := by assumption)
    (p_bw : F .bw := by assumption) (p_fc : F .fc := by assumption) (p_pm : F .pm := by assumption)
    : Keeps F s (State.exhausted t n k w g) := by
  unfold State.exhausted
  try dsimp only
  repeat' first
    | with_reducible assumption | with_reducible refine State.poisonGran_keeps ?_ _ _ _ _
    | with_reducible refine State.report_keeps ?_ _ _ _ | split | intro _

theorem State.writeGran_keeps (h : Keeps F s t) (n) (k) (j) (w) (d) (en) (poison) (p_out : F .out := by assumption)
    (p_dram : F .dram := by assumption) (p_rg : F .rg := by assumption) (p_cd : F .cd := by assumption)
    (p_lp : F .lp := by assumption) (p_sx : F .sx := by assumption) (p_mc : F .mc := by assumption)
    (p_bw : F .bw := by assumption) (p_fc : F .fc := by assumption) (p_pm : F .pm := by assumption)
    : Keeps F s (State.writeGran t n k j w d en poison).1 := by
  unfold State.writeGran
  try dsimp only
  repeat' first
    | with_reducible assumption | with_reducible refine State.getGran_keeps ?_ _ _ _
    | with_reducible refine State.storeGran_keeps ?_ _ _ _ _ _ _ _ _ _ | with_reducible refine Keeps.ite (fun _ => ?_) (fun _ => ?_)
    | with_reducible refine Keeps.iteP (fun _ => ?_) (fun _ => ?_) | split | dsimp only | intro _

theorem State.readYard_keeps (h : Keeps F s t) (n) (k) (j) (w) (p_out : F .out := by assumption)
    (p_dram : F .dram := by assumption) (p_rg : F .rg := by assumption) (p_cd : F .cd := by assumption)
    (p_lp : F .lp := by assumption) (p_sx : F .sx := by assumption) (p_mc : F .mc := by assumption)
    (p_bw : F .bw := by assumption) (p_fc : F .fc := by assumption) (p_pm : F .pm := by assumption)
    : Keeps F s (State.readYard t n k j w).1 := by
  unfold State.readYard
  try dsimp only
  repeat' first
    | with_reducible assumption | with_reducible refine State.getGran_keeps ?_ _ _ _
    | with_reducible refine Keeps.ite (fun _ => ?_) (fun _ => ?_) | with_reducible refine Keeps.iteP (fun _ => ?_) (fun _ => ?_)
    | split | dsimp only | intro _

end Sys2Proof.Machine
end

