-- ==== Sys2Proof/Laws/KeepsTier.lean ====
section
/-! SUPPORT. What each operation of Machine/Tier.lean keeps: the tiers. -/

set_option Elab.async false

set_option linter.all false

namespace Sys2Proof.Machine
open Sys2Proof

variable {F : Part → Prop} {s t : State}

theorem State.lostMap_keeps (h : Keeps F s t) (n) (w) (r) (line) (p_out : F .out := by assumption)
    (p_dram : F .dram := by assumption) (p_rg : F .rg := by assumption) (p_tr : F .tr := by assumption)
    (p_cd : F .cd := by assumption) (p_lp : F .lp := by assumption) (p_sx : F .sx := by assumption)
    (p_mc : F .mc := by assumption) (p_bw : F .bw := by assumption) (p_fc : F .fc := by assumption)
    (p_pm : F .pm := by assumption) : Keeps F s (State.lostMap t n w r line) := by
  unfold State.lostMap
  try dsimp only
  repeat' first
    | with_reducible assumption | with_reducible refine State.metaSet_keeps ?_ _ _ _ _
    | with_reducible refine State.getGran_keeps ?_ _ _ _ | with_reducible refine State.poisonGran_keeps ?_ _ _ _ _
    | with_reducible refine State.modRegion_keeps ?_ _ _ | with_reducible refine State.report_keeps ?_ _ _ _
    | with_reducible refine Keeps.foldl (fun _ _ _ => ?_) _ ?_ | with_reducible refine Keeps.foldlP (fun _ _ _ => ?_) _ ?_
    | with_reducible refine Keeps.ite (fun _ => ?_) (fun _ => ?_) | with_reducible refine Keeps.iteP (fun _ => ?_) (fun _ => ?_)
    | simp only [keeps_upd, p_out, p_dram, p_rg, p_tr, p_cd, p_lp, p_sx, p_mc, p_bw, p_fc, p_pm, or_true, true_or, length_lmod, length_lset, List.length_map]
    | split | dsimp only | intro _

theorem State.pageGet_keeps (h : Keeps F s t) (n) (page) (w) (p_out : F .out := by assumption)
    (p_dram : F .dram := by assumption) (p_rg : F .rg := by assumption) (p_tr : F .tr := by assumption)
    (p_cd : F .cd := by assumption) (p_lp : F .lp := by assumption) (p_sx : F .sx := by assumption)
    (p_mc : F .mc := by assumption) (p_bw : F .bw := by assumption) (p_fc : F .fc := by assumption)
    (p_pm : F .pm := by assumption) : Keeps F s (State.pageGet t n page w).1 := by
  unfold State.pageGet
  try dsimp only
  repeat' first
    | with_reducible assumption | with_reducible refine State.metaLine_keeps ?_ _ _ _
    | with_reducible refine State.lostMap_keeps ?_ _ _ _ _ | split | dsimp only | intro _

theorem State.pageSet_keeps (h : Keeps F s t) (n) (page) (w) (e) (p_out : F .out := by assumption)
    (p_dram : F .dram := by assumption) (p_rg : F .rg := by assumption) (p_cd : F .cd := by assumption)
    (p_lp : F .lp := by assumption) (p_sx : F .sx := by assumption) (p_mc : F .mc := by assumption)
    (p_bw : F .bw := by assumption) (p_fc : F .fc := by assumption) (p_pm : F .pm := by assumption)
    : Keeps F s (State.pageSet t n page w e) := by
  unfold State.pageSet
  try dsimp only
  repeat' first
    | with_reducible assumption | with_reducible refine State.metaLine_keeps ?_ _ _ _
    | with_reducible refine State.metaSet_keeps ?_ _ _ _ _ | split | dsimp only | intro _

theorem State.holdFrame_keeps (h : Keeps F s t) (n) (page) (frame) (p_rg : F .rg := by assumption)
    : Keeps F s (State.holdFrame t n page frame) := by
  unfold State.holdFrame
  try dsimp only
  repeat' first
    | with_reducible assumption | with_reducible refine State.modRegion_keeps ?_ _ _ | dsimp only | intro _

theorem State.dropFrame_keeps (h : Keeps F s t) (n) (page) (p_rg : F .rg := by assumption)
    : Keeps F s (State.dropFrame t n page) := by
  unfold State.dropFrame
  try dsimp only
  repeat' first
    | with_reducible assumption | with_reducible refine State.modRegion_keeps ?_ _ _ | dsimp only | intro _

theorem State.startPromotion_keeps (h : Keeps F s t) (n) (page) (w) (e) (p_out : F .out := by assumption)
    (p_dram : F .dram := by assumption) (p_rg : F .rg := by assumption) (p_tr : F .tr := by assumption)
    (p_cd : F .cd := by assumption) (p_lp : F .lp := by assumption) (p_sx : F .sx := by assumption)
    (p_mc : F .mc := by assumption) (p_bw : F .bw := by assumption) (p_fc : F .fc := by assumption)
    (p_pm : F .pm := by assumption) : Keeps F s (State.startPromotion t n page w e) := by
  unfold State.startPromotion
  try dsimp only
  repeat' first
    | with_reducible assumption | with_reducible refine State.count_keeps ?_ _ _ _
    | with_reducible refine State.holdFrame_keeps ?_ _ _ _ | with_reducible refine State.pageSet_keeps ?_ _ _ _ _
    | with_reducible refine Keeps.ite (fun _ => ?_) (fun _ => ?_) | with_reducible refine Keeps.iteP (fun _ => ?_) (fun _ => ?_)
    | simp only [keeps_upd, p_out, p_dram, p_rg, p_tr, p_cd, p_lp, p_sx, p_mc, p_bw, p_fc, p_pm, or_true, true_or, length_lmod, length_lset, List.length_map]
    | split | dsimp only | intro _

theorem State.dropCaptures_keeps (h : Keeps F s t) (n) (page) (p_tr : F .tr := by assumption)
    : Keeps F s (State.dropCaptures t n page) := by
  unfold State.dropCaptures
  try dsimp only
  repeat' first
    | with_reducible assumption | simp only [keeps_upd, p_tr, or_true, true_or, length_lmod, length_lset, List.length_map]
    | dsimp only | intro _

theorem State.startDemotions_keeps (h : Keeps F s t) (n) (a2) (p_out : F .out := by assumption) (p_dram : F .dram := by assumption) (p_rg : F .rg := by assumption) (p_tr : F .tr := by assumption) (p_cd : F .cd := by assumption) (p_lp : F .lp := by assumption) (p_sx : F .sx := by assumption) (p_mc : F .mc := by assumption) (p_bw : F .bw := by assumption) (p_fc : F .fc := by assumption) (p_pm : F .pm := by assumption) :
    Keeps F s (t.startDemotions n a2) := by
  induction a2 generalizing t n with
  | zero => unfold State.startDemotions; with_reducible exact h
  | succ _ ih =>
    unfold State.startDemotions
    try dsimp only
    repeat' first
      | with_reducible assumption | with_reducible refine ih ?_ _ | intro _ | with_reducible refine State.modRegion_keeps ?_ _ _
      | with_reducible refine State.pageGet_keeps ?_ _ _ _ | with_reducible refine State.pageSet_keeps ?_ _ _ _ _
      | with_reducible refine Keeps.ite (fun _ => ?_) (fun _ => ?_) | with_reducible refine Keeps.iteP (fun _ => ?_) (fun _ => ?_)
      | simp only [keeps_upd, p_dram, p_rg, p_tr, p_cd, p_lp, p_sx, p_mc, p_bw, p_fc, p_pm, or_true, true_or, length_lmod, length_lset, List.length_map]
      | split

theorem State.abortMove_keeps (h : Keeps F s t) (n) (page) (w) (p_out : F .out := by assumption)
    (p_dram : F .dram := by assumption) (p_rg : F .rg := by assumption) (p_tr : F .tr := by assumption)
    (p_cd : F .cd := by assumption) (p_lp : F .lp := by assumption) (p_sx : F .sx := by assumption)
    (p_mc : F .mc := by assumption) (p_bw : F .bw := by assumption) (p_fc : F .fc := by assumption)
    (p_pm : F .pm := by assumption) : Keeps F s (State.abortMove t n page w) := by
  unfold State.abortMove
  try dsimp only
  repeat' first
    | with_reducible assumption | with_reducible refine State.dropCaptures_keeps ?_ _ _
    | with_reducible refine State.pageGet_keeps ?_ _ _ _ | with_reducible refine State.pageSet_keeps ?_ _ _ _ _
    | with_reducible refine State.dropFrame_keeps ?_ _ _ | with_reducible refine State.modRegion_keeps ?_ _ _
    | with_reducible refine State.count_keeps ?_ _ _ _ | with_reducible refine Keeps.ite (fun _ => ?_) (fun _ => ?_)
    | with_reducible refine Keeps.iteP (fun _ => ?_) (fun _ => ?_)
    | simp only [keeps_upd, p_out, p_dram, p_rg, p_tr, p_cd, p_lp, p_sx, p_mc, p_bw, p_fc, p_pm, or_true, true_or, length_lmod, length_lset, List.length_map]
    | split | dsimp only | intro _

theorem State.warm_keeps (h : Keeps F s t) (n) (page) (w) (p_out : F .out := by assumption) (p_dram : F .dram := by assumption)
    (p_rg : F .rg := by assumption) (p_tr : F .tr := by assumption) (p_cd : F .cd := by assumption)
    (p_lp : F .lp := by assumption) (p_sx : F .sx := by assumption) (p_mc : F .mc := by assumption)
    (p_bw : F .bw := by assumption) (p_fc : F .fc := by assumption) (p_pm : F .pm := by assumption)
    : Keeps F s (State.warm t n page w).1 := by
  unfold State.warm
  try dsimp only
  repeat' first
    | with_reducible assumption | with_reducible refine State.pageGet_keeps ?_ _ _ _
    | with_reducible refine State.heat_keeps ?_ _ _ _ | with_reducible refine State.pageSet_keeps ?_ _ _ _ _
    | with_reducible refine Keeps.ite (fun _ => ?_) (fun _ => ?_) | with_reducible refine Keeps.iteP (fun _ => ?_) (fun _ => ?_)
    | split | dsimp only | intro _

theorem State.hot_keeps (h : Keeps F s t) (n) (page) (w) (e) (p_out : F .out := by assumption)
    (p_dram : F .dram := by assumption) (p_rg : F .rg := by assumption) (p_tr : F .tr := by assumption)
    (p_cd : F .cd := by assumption) (p_lp : F .lp := by assumption) (p_sx : F .sx := by assumption)
    (p_mc : F .mc := by assumption) (p_bw : F .bw := by assumption) (p_fc : F .fc := by assumption)
    (p_pm : F .pm := by assumption) : Keeps F s (State.hot t n page w e) := by
  unfold State.hot
  try dsimp only
  repeat' first
    | with_reducible assumption | with_reducible refine State.heat_keeps ?_ _ _ _
    | with_reducible refine State.startPromotion_keeps ?_ _ _ _ _ | with_reducible refine Keeps.ite (fun _ => ?_) (fun _ => ?_)
    | with_reducible refine Keeps.iteP (fun _ => ?_) (fun _ => ?_) | split | intro _

theorem State.heat_keeps (h : Keeps F s t) (n) (page) (w) (p_out : F .out := by assumption) (p_dram : F .dram := by assumption)
    (p_rg : F .rg := by assumption) (p_tr : F .tr := by assumption) (p_cd : F .cd := by assumption)
    (p_lp : F .lp := by assumption) (p_sx : F .sx := by assumption) (p_mc : F .mc := by assumption)
    (p_bw : F .bw := by assumption) (p_fc : F .fc := by assumption) (p_pm : F .pm := by assumption)
    : Keeps F s (State.heat t n page w).1 := by
  unfold State.heat
  try dsimp only
  repeat' first
    | with_reducible assumption | with_reducible refine State.warm_keeps ?_ _ _ _ | with_reducible refine State.hot_keeps ?_ _ _ _ _
    | with_reducible refine State.pageGet_keeps ?_ _ _ _ | dsimp only | intro _

theorem State.tierRead_keeps (h : Keeps F s t) (n) (off) (w) (p_out : F .out := by assumption)
    (p_dram : F .dram := by assumption) (p_rg : F .rg := by assumption) (p_tr : F .tr := by assumption)
    (p_cd : F .cd := by assumption) (p_lp : F .lp := by assumption) (p_sx : F .sx := by assumption)
    (p_mc : F .mc := by assumption) (p_bw : F .bw := by assumption) (p_fc : F .fc := by assumption)
    (p_pm : F .pm := by assumption) : Keeps F s (State.tierRead t n off w).1 := by
  unfold State.tierRead
  try dsimp only
  repeat' first
    | with_reducible assumption | with_reducible refine Com.tier_keeps ?_ _ _
    | with_reducible refine State.extRead_keeps ?_ _ _ _ _ _ | with_reducible refine State.readYard_keeps ?_ _ _ _ _
    | with_reducible refine State.heat_keeps ?_ _ _ _ | with_reducible refine Keeps.ite (fun _ => ?_) (fun _ => ?_)
    | with_reducible refine Keeps.iteP (fun _ => ?_) (fun _ => ?_) | split | dsimp only | intro _

theorem State.pageZero_keeps (h : Keeps F s t) (n) (page) (w) (p_out : F .out := by assumption)
    (p_dram : F .dram := by assumption) (p_rg : F .rg := by assumption) (p_cd : F .cd := by assumption)
    (p_lp : F .lp := by assumption) (p_sx : F .sx := by assumption) (p_mc : F .mc := by assumption)
    (p_bw : F .bw := by assumption) (p_fc : F .fc := by assumption) (p_pm : F .pm := by assumption)
    : Keeps F s (State.pageZero t n page w).1 := by
  unfold State.pageZero
  try dsimp only
  repeat' first
    | with_reducible assumption | with_reducible refine State.descGet_keeps ?_ _ _ _ _
    | with_reducible refine Keeps.foldl (fun _ _ _ => ?_) _ ?_ | with_reducible refine Keeps.foldlP (fun _ _ _ => ?_) _ ?_ | split
    | dsimp only | intro _

theorem State.pageRead_keeps (h : Keeps F s t) (n) (page) (w) (p_out : F .out := by assumption)
    (p_dram : F .dram := by assumption) (p_rg : F .rg := by assumption) (p_cd : F .cd := by assumption)
    (p_lp : F .lp := by assumption) (p_sx : F .sx := by assumption) (p_mc : F .mc := by assumption)
    (p_bw : F .bw := by assumption) (p_fc : F .fc := by assumption) (p_pm : F .pm := by assumption)
    : Keeps F s (State.pageRead t n page w).1 := by
  unfold State.pageRead
  try dsimp only
  repeat' first
    | with_reducible assumption | with_reducible refine State.getGran_keeps ?_ _ _ _
    | with_reducible refine Keeps.foldl (fun _ _ _ => ?_) _ ?_ | with_reducible refine Keeps.foldlP (fun _ _ _ => ?_) _ ?_
    | dsimp only | intro _

theorem State.zeroGrans_keeps (h : Keeps F s t) (n) (page) (w) (p_out : F .out := by assumption)
    (p_dram : F .dram := by assumption) (p_rg : F .rg := by assumption) (p_cd : F .cd := by assumption)
    (p_lp : F .lp := by assumption) (p_sx : F .sx := by assumption) (p_mc : F .mc := by assumption)
    (p_bw : F .bw := by assumption) (p_fc : F .fc := by assumption) (p_pm : F .pm := by assumption)
    : Keeps F s (State.zeroGrans t n page w) := by
  unfold State.zeroGrans
  try dsimp only
  repeat' first
    | with_reducible assumption | with_reducible refine State.descGet_keeps ?_ _ _ _ _
    | with_reducible refine State.descSet_keeps ?_ _ _ _ _ | with_reducible refine State.freeGran_keeps ?_ _ _ _ _
    | with_reducible refine State.checkLow_keeps ?_ _ | with_reducible refine Keeps.foldl (fun _ _ _ => ?_) _ ?_
    | with_reducible refine Keeps.foldlP (fun _ _ _ => ?_) _ ?_ | dsimp only | intro _

theorem State.frameWrite_keeps (h : Keeps F s t) (n) (frame) (w) (ls) (p_out : F .out := by assumption)
    (p_dram : F .dram := by assumption) (p_rg : F .rg := by assumption) (p_lp : F .lp := by assumption)
    (p_mc : F .mc := by assumption) (p_bw : F .bw := by assumption) (p_fc : F .fc := by assumption)
    (p_pm : F .pm := by assumption) : Keeps F s (State.frameWrite t n frame w ls) := by
  unfold State.frameWrite
  try dsimp only
  repeat' first
    | with_reducible assumption | with_reducible refine State.extWrite_keeps ?_ _ _ _ _ _ _ _
    | with_reducible refine Keeps.foldl (fun _ _ _ => ?_) _ ?_ | with_reducible refine Keeps.foldlP (fun _ _ _ => ?_) _ ?_
    | dsimp only | intro _

theorem State.pageUp_keeps (h : Keeps F s t) (n) (page) (frame) (w) (p_out : F .out := by assumption)
    (p_dram : F .dram := by assumption) (p_rg : F .rg := by assumption) (p_tr : F .tr := by assumption)
    (p_cd : F .cd := by assumption) (p_lp : F .lp := by assumption) (p_sx : F .sx := by assumption)
    (p_mc : F .mc := by assumption) (p_bw : F .bw := by assumption) (p_fc : F .fc := by assumption)
    (p_pm : F .pm := by assumption) : Keeps F s (State.pageUp t n page frame w) := by
  unfold State.pageUp
  try dsimp only
  repeat' first
    | with_reducible assumption | with_reducible refine State.pageRead_keeps ?_ _ _ _
    | with_reducible refine State.holdFrame_keeps ?_ _ _ _ | with_reducible refine State.frameWrite_keeps ?_ _ _ _ _
    | with_reducible refine State.zeroGrans_keeps ?_ _ _ _ | with_reducible refine State.pageGet_keeps ?_ _ _ _
    | with_reducible refine State.pageSet_keeps ?_ _ _ _ _ | dsimp only | intro _

theorem State.yardWrite_keeps (h : Keeps F s t) (n) (off) (w) (d) (en) (poison) (p_out : F .out := by assumption)
    (p_dram : F .dram := by assumption) (p_rg : F .rg := by assumption) (p_tr : F .tr := by assumption)
    (p_cd : F .cd := by assumption) (p_lp : F .lp := by assumption) (p_sx : F .sx := by assumption)
    (p_mc : F .mc := by assumption) (p_bw : F .bw := by assumption) (p_fc : F .fc := by assumption)
    (p_pm : F .pm := by assumption) : Keeps F s (State.yardWrite t n off w d en poison) := by
  unfold State.yardWrite
  try dsimp only
  repeat' first
    | with_reducible assumption | with_reducible refine State.writeGran_keeps ?_ _ _ _ _ _ _ _
    | with_reducible refine Com.tier_keeps ?_ _ _ | with_reducible refine State.pageUp_keeps ?_ _ _ _ _
    | with_reducible refine State.extPut_keeps ?_ _ _ _ _ _ _ _ | with_reducible refine State.exhausted_keeps ?_ _ _ _ _
    | with_reducible refine Keeps.ite (fun _ => ?_) (fun _ => ?_) | with_reducible refine Keeps.iteP (fun _ => ?_) (fun _ => ?_)
    | split | dsimp only | intro _

theorem State.churned_keeps (h : Keeps F s t) (n) (off) (w) (p_out : F .out := by assumption)
    (p_dram : F .dram := by assumption) (p_rg : F .rg := by assumption) (p_tr : F .tr := by assumption)
    (p_cd : F .cd := by assumption) (p_lp : F .lp := by assumption) (p_sx : F .sx := by assumption)
    (p_mc : F .mc := by assumption) (p_bw : F .bw := by assumption) (p_fc : F .fc := by assumption)
    (p_pm : F .pm := by assumption) : Keeps F s (State.churned t n off w) := by
  unfold State.churned
  try dsimp only
  repeat' first
    | with_reducible assumption | with_reducible refine Com.tier_keeps ?_ _ _ | with_reducible refine State.pageGet_keeps ?_ _ _ _
    | with_reducible refine State.startPromotion_keeps ?_ _ _ _ _ | with_reducible refine Keeps.ite (fun _ => ?_) (fun _ => ?_)
    | with_reducible refine Keeps.iteP (fun _ => ?_) (fun _ => ?_) | split | dsimp only | intro _

theorem State.tierWrite_keeps (h : Keeps F s t) (n) (off) (w) (d) (en) (poison) (p_out : F .out := by assumption)
    (p_dram : F .dram := by assumption) (p_rg : F .rg := by assumption) (p_tr : F .tr := by assumption)
    (p_cd : F .cd := by assumption) (p_lp : F .lp := by assumption) (p_sx : F .sx := by assumption)
    (p_mc : F .mc := by assumption) (p_bw : F .bw := by assumption) (p_fc : F .fc := by assumption)
    (p_pm : F .pm := by assumption) : Keeps F s (State.tierWrite t n off w d en poison) := by
  unfold State.tierWrite
  try dsimp only
  repeat' first
    | with_reducible assumption | with_reducible refine Com.tier_keeps ?_ _ _
    | with_reducible refine State.extPut_keeps ?_ _ _ _ _ _ _ _ | with_reducible refine State.yardWrite_keeps ?_ _ _ _ _ _ _
    | with_reducible refine State.warm_keeps ?_ _ _ _ | with_reducible refine State.abortMove_keeps ?_ _ _ _
    | with_reducible refine State.churned_keeps ?_ _ _ _ | with_reducible refine State.pageZero_keeps ?_ _ _ _
    | with_reducible refine State.pageUp_keeps ?_ _ _ _ _ | with_reducible refine State.pageGet_keeps ?_ _ _ _
    | with_reducible refine State.hot_keeps ?_ _ _ _ _ | with_reducible refine Keeps.ite (fun _ => ?_) (fun _ => ?_)
    | with_reducible refine Keeps.iteP (fun _ => ?_) (fun _ => ?_) | split | dsimp only | intro _

theorem promotionSwitch_keeps (h : Keeps F s t) (n) (page) (p_out : F .out := by assumption) (p_dram : F .dram := by assumption)
    (p_rg : F .rg := by assumption) (p_tr : F .tr := by assumption) (p_cd : F .cd := by assumption)
    (p_lp : F .lp := by assumption) (p_sx : F .sx := by assumption) (p_mc : F .mc := by assumption)
    (p_bw : F .bw := by assumption) (p_fc : F .fc := by assumption) (p_pm : F .pm := by assumption)
    : Keeps F s (promotionSwitch n page t) := by
  unfold promotionSwitch
  try dsimp only
  repeat' first
    | with_reducible assumption | with_reducible refine State.pageRead_keeps ?_ _ _ _
    | with_reducible refine State.frameWrite_keeps ?_ _ _ _ _ | with_reducible refine State.pageGet_keeps ?_ _ _ _
    | with_reducible refine State.zeroGrans_keeps ?_ _ _ _ | with_reducible refine State.pageSet_keeps ?_ _ _ _ _
    | with_reducible refine State.count_keeps ?_ _ _ _ | with_reducible refine State.startDemotions_keeps ?_ _ _
    | with_reducible refine Keeps.ite (fun _ => ?_) (fun _ => ?_) | with_reducible refine Keeps.iteP (fun _ => ?_) (fun _ => ?_)
    | simp only [keeps_upd, p_out, p_dram, p_rg, p_tr, p_cd, p_lp, p_sx, p_mc, p_bw, p_fc, p_pm, or_true, true_or, length_lmod, length_lset, List.length_map]
    | split | dsimp only | intro _

theorem State.frameLines_keeps (h : Keeps F s t) (n) (page) (frame) (p_dram : F .dram := by assumption)
    (p_lp : F .lp := by assumption) (p_sx : F .sx := by assumption) (p_mc : F .mc := by assumption)
    (p_bw : F .bw := by assumption) (p_fc : F .fc := by assumption) (p_pm : F .pm := by assumption)
    : Keeps F s (State.frameLines t n page frame).1 := by
  unfold State.frameLines
  try dsimp only
  repeat' first
    | with_reducible assumption | with_reducible refine State.extRead_keeps ?_ _ _ _ _ _
    | with_reducible refine Keeps.foldl (fun _ _ _ => ?_) _ ?_ | with_reducible refine Keeps.foldlP (fun _ _ _ => ?_) _ ?_ | split
    | dsimp only | intro _

theorem State.storePage_keeps (h : Keeps F s t) (n) (page) (ls) (p_out : F .out := by assumption)
    (p_dram : F .dram := by assumption) (p_rg : F .rg := by assumption) (p_cd : F .cd := by assumption)
    (p_lp : F .lp := by assumption) (p_sx : F .sx := by assumption) (p_mc : F .mc := by assumption)
    (p_bw : F .bw := by assumption) (p_fc : F .fc := by assumption) (p_pm : F .pm := by assumption)
    : Keeps F s (State.storePage t n page ls).1 := by
  unfold State.storePage
  try dsimp only
  repeat' first
    | with_reducible assumption | with_reducible refine State.storeGran_keeps ?_ _ _ _ _ _ _ _ _ _
    | with_reducible refine Keeps.foldl (fun _ _ _ => ?_) _ ?_ | with_reducible refine Keeps.foldlP (fun _ _ _ => ?_) _ ?_
    | with_reducible refine Keeps.ite (fun _ => ?_) (fun _ => ?_) | with_reducible refine Keeps.iteP (fun _ => ?_) (fun _ => ?_)
    | split | dsimp only | intro _

theorem demotionSwitch_keeps (h : Keeps F s t) (n) (page) (p_out : F .out := by assumption) (p_dram : F .dram := by assumption)
    (p_rg : F .rg := by assumption) (p_tr : F .tr := by assumption) (p_cd : F .cd := by assumption)
    (p_lp : F .lp := by assumption) (p_sx : F .sx := by assumption) (p_mc : F .mc := by assumption)
    (p_bw : F .bw := by assumption) (p_fc : F .fc := by assumption) (p_pm : F .pm := by assumption)
    : Keeps F s (demotionSwitch n page t) := by
  unfold demotionSwitch
  try dsimp only
  repeat' first
    | with_reducible assumption | with_reducible refine State.frameLines_keeps ?_ _ _ _
    | with_reducible refine State.storePage_keeps ?_ _ _ _ | with_reducible refine State.pageGet_keeps ?_ _ _ _
    | with_reducible refine State.dropCaptures_keeps ?_ _ _ | with_reducible refine State.pageSet_keeps ?_ _ _ _ _
    | with_reducible refine State.dropFrame_keeps ?_ _ _ | with_reducible refine State.count_keeps ?_ _ _ _
    | with_reducible refine State.startDemotions_keeps ?_ _ _ | with_reducible refine State.zeroGrans_keeps ?_ _ _ _
    | with_reducible refine State.abortMove_keeps ?_ _ _ _ | with_reducible refine State.modRegion_keeps ?_ _ _
    | with_reducible refine State.report_keeps ?_ _ _ _ | with_reducible refine Keeps.ite (fun _ => ?_) (fun _ => ?_)
    | with_reducible refine Keeps.iteP (fun _ => ?_) (fun _ => ?_)
    | simp only [keeps_upd, p_out, p_dram, p_rg, p_tr, p_cd, p_lp, p_sx, p_mc, p_bw, p_fc, p_pm, or_true, true_or, length_lmod, length_lset, List.length_map]
    | split | dsimp only | intro _

theorem State.sweepPage_keeps (h : Keeps F s t) (n) (page) (occ) (queued) (p_out : F .out := by assumption)
    (p_dram : F .dram := by assumption) (p_rg : F .rg := by assumption) (p_tr : F .tr := by assumption)
    (p_cd : F .cd := by assumption) (p_lp : F .lp := by assumption) (p_sx : F .sx := by assumption)
    (p_mc : F .mc := by assumption) (p_bw : F .bw := by assumption) (p_fc : F .fc := by assumption)
    (p_pm : F .pm := by assumption) : Keeps F s (State.sweepPage t n page occ queued).1 := by
  unfold State.sweepPage
  try dsimp only
  repeat' first
    | with_reducible assumption | with_reducible refine State.pageGet_keeps ?_ _ _ _
    | with_reducible refine State.heat_keeps ?_ _ _ _ | with_reducible refine State.modRegion_keeps ?_ _ _
    | with_reducible refine State.pageSet_keeps ?_ _ _ _ _ | with_reducible refine Keeps.ite (fun _ => ?_) (fun _ => ?_)
    | with_reducible refine Keeps.iteP (fun _ => ?_) (fun _ => ?_) | split | dsimp only | intro _

theorem heatSweep_keeps (h : Keeps F s t) (n) (p_out : F .out := by assumption) (p_now : F .now := by assumption)
    (p_dram : F .dram := by assumption) (p_rg : F .rg := by assumption) (p_tr : F .tr := by assumption)
    (p_cd : F .cd := by assumption) (p_lp : F .lp := by assumption) (p_sx : F .sx := by assumption)
    (p_mc : F .mc := by assumption) (p_bw : F .bw := by assumption) (p_tu : F .tu := by assumption)
    (p_fc : F .fc := by assumption) (p_pm : F .pm := by assumption) : Keeps F s (heatSweep n t) := by
  unfold heatSweep
  try dsimp only
  repeat' first
    | with_reducible assumption | with_reducible refine Com.tier_keeps ?_ _ _ | with_reducible refine State.advance_keeps ?_ _
    | with_reducible refine State.sweepPage_keeps ?_ _ _ _ _ | with_reducible refine State.modRegion_keeps ?_ _ _
    | with_reducible refine State.pageGet_keeps ?_ _ _ _ | with_reducible refine State.startPromotion_keeps ?_ _ _ _ _
    | with_reducible refine State.startDemotions_keeps ?_ _ _ | with_reducible refine State.report_keeps ?_ _ _ _
    | with_reducible refine Keeps.foldl (fun _ _ _ => ?_) _ ?_ | with_reducible refine Keeps.foldlP (fun _ _ _ => ?_) _ ?_
    | with_reducible refine Keeps.ite (fun _ => ?_) (fun _ => ?_) | with_reducible refine Keeps.iteP (fun _ => ?_) (fun _ => ?_)
    | simp only [keeps_upd, p_out, p_now, p_dram, p_rg, p_tr, p_cd, p_lp, p_sx, p_mc, p_bw, p_tu, p_fc, p_pm, or_true, true_or, length_lmod, length_lset, List.length_map]
    | split | dsimp only | intro _

theorem State.restartMig_keeps (h : Keeps F s t) (p_tr : F .tr := by assumption) : Keeps F s t.restartMig := by
  unfold State.restartMig
  repeat' first | with_reducible assumption | simp only [keeps_upd, p_tr, or_true, true_or, length_lmod, length_lset, List.length_map]

theorem State.abortMoves_keeps (h : Keeps F s t) (p_out : F .out := by assumption) (p_dram : F .dram := by assumption) (p_rg : F .rg := by assumption) (p_tr : F .tr := by assumption) (p_cd : F .cd := by assumption) (p_lp : F .lp := by assumption) (p_sx : F .sx := by assumption) (p_mc : F .mc := by assumption) (p_bw : F .bw := by assumption) (p_fc : F .fc := by assumption) (p_pm : F .pm := by assumption) :
    Keeps F s t.abortMoves := by
  unfold State.abortMoves
  repeat' first
    | with_reducible assumption | intro _ | with_reducible refine State.abortMove_keeps ?_ _ _ _
    | with_reducible refine Keeps.foldl (fun _ _ _ => ?_) _ ?_

end Sys2Proof.Machine
end

