-- ==== Sys2Proof/Laws/KeepsNear.lean ====
section
/-! SUPPORT. What each operation of Machine/Near.lean keeps: the near store. -/

set_option Elab.async false

set_option linter.all false

namespace Sys2Proof.Machine
open Sys2Proof

variable {F : Part → Prop} {s t : State}

theorem State.sendSnoops_keeps (h : Keeps F s t) (fs) (line) (p_out : F .out := by assumption) (p_hp : F .hp := by assumption)
    (p_pm : F .pm := by assumption) : Keeps F s (State.sendSnoops t fs line) := by
  unfold State.sendSnoops
  try dsimp only
  repeat' first
    | with_reducible assumption | with_reducible refine State.modPort_keeps ?_ _ _ | with_reducible refine State.emit_keeps ?_ _
    | with_reducible refine State.count_keeps ?_ _ _ _ | with_reducible refine Keeps.foldl (fun _ _ _ => ?_) _ ?_
    | with_reducible refine Keeps.foldlP (fun _ _ _ => ?_) _ ?_ | dsimp only | intro _

theorem State.nsSetAt_keeps (h : Keeps F s t) (key) (e) (p_ns : F .ns := by assumption) : Keeps F s (State.nsSetAt t key e) := by
  unfold State.nsSetAt
  try dsimp only
  repeat' first
    | with_reducible assumption | simp only [keeps_upd, p_ns, or_true, true_or, length_lmod, length_lset, List.length_map] | intro _

theorem State.nsTouch_keeps (h : Keeps F s t) (key) (p_ns : F .ns := by assumption) : Keeps F s (State.nsTouch t key) := by
  unfold State.nsTouch
  try dsimp only
  repeat' first
    | with_reducible assumption | simp only [keeps_upd, p_ns, or_true, true_or, length_lmod, length_lset, List.length_map]
    | dsimp only | intro _

theorem State.nsBack_keeps (h : Keeps F s t) (l) (e) (p_out : F .out := by assumption) (p_dram : F .dram := by assumption)
    (p_rg : F .rg := by assumption) (p_tr : F .tr := by assumption) (p_cd : F .cd := by assumption)
    (p_lp : F .lp := by assumption) (p_sx : F .sx := by assumption) (p_mc : F .mc := by assumption)
    (p_bw : F .bw := by assumption) (p_fc : F .fc := by assumption) (p_pm : F .pm := by assumption)
    : Keeps F s (State.nsBack t l e) := by
  unfold State.nsBack
  try dsimp only
  repeat' first
    | with_reducible assumption | with_reducible refine State.tierWrite_keeps ?_ _ _ _ _ _ _
    | with_reducible refine State.count_keeps ?_ _ _ _ | split | intro _

theorem State.t1Page_keeps (h : Keeps F s t) (l) (p_out : F .out := by assumption) (p_dram : F .dram := by assumption)
    (p_rg : F .rg := by assumption) (p_tr : F .tr := by assumption) (p_cd : F .cd := by assumption)
    (p_lp : F .lp := by assumption) (p_sx : F .sx := by assumption) (p_mc : F .mc := by assumption)
    (p_bw : F .bw := by assumption) (p_fc : F .fc := by assumption) (p_pm : F .pm := by assumption)
    : Keeps F s (State.t1Page t l).1 := by
  unfold State.t1Page
  try dsimp only
  repeat' first
    | with_reducible assumption | with_reducible refine Com.tier_keeps ?_ _ _ | with_reducible refine State.pageGet_keeps ?_ _ _ _
    | with_reducible refine Keeps.ite (fun _ => ?_) (fun _ => ?_) | with_reducible refine Keeps.iteP (fun _ => ?_) (fun _ => ?_)
    | split | dsimp only | intro _

theorem State.dropVictim_keeps (h : Keeps F s t) (p) (p_ns : F .ns := by assumption) : Keeps F s (State.dropVictim t p) := by
  unfold State.dropVictim
  try dsimp only
  repeat' first
    | with_reducible assumption | simp only [keeps_upd, p_ns, or_true, true_or, length_lmod, length_lset, List.length_map] | intro _

theorem State.nsPut_keeps (h : Keeps F s t) (l) (e) (p_out : F .out := by assumption) (p_dram : F .dram := by assumption)
    (p_rg : F .rg := by assumption) (p_ns : F .ns := by assumption) (p_tr : F .tr := by assumption)
    (p_cd : F .cd := by assumption) (p_lp : F .lp := by assumption) (p_sx : F .sx := by assumption)
    (p_mc : F .mc := by assumption) (p_bw : F .bw := by assumption) (p_fc : F .fc := by assumption)
    (p_pm : F .pm := by assumption) : Keeps F s (State.nsPut t l e) := by
  unfold State.nsPut
  try dsimp only
  repeat' first
    | with_reducible assumption | with_reducible refine State.nsSetAt_keeps ?_ _ _ | with_reducible refine State.t1Page_keeps ?_ _
    | with_reducible refine Keeps.ite (fun _ => ?_) (fun _ => ?_) | with_reducible refine Keeps.iteP (fun _ => ?_) (fun _ => ?_)
    | simp only [keeps_upd, p_out, p_dram, p_rg, p_ns, p_tr, p_cd, p_lp, p_sx, p_mc, p_bw, p_fc, p_pm, or_true, true_or, length_lmod, length_lset, List.length_map]
    | split | dsimp only | intro _

theorem State.ackBack_keeps (h : Keeps F s t) (l) (p_out : F .out := by assumption) (p_dram : F .dram := by assumption)
    (p_rg : F .rg := by assumption) (p_ns : F .ns := by assumption) (p_tr : F .tr := by assumption)
    (p_cd : F .cd := by assumption) (p_lp : F .lp := by assumption) (p_sx : F .sx := by assumption)
    (p_mc : F .mc := by assumption) (p_bw : F .bw := by assumption) (p_fc : F .fc := by assumption)
    (p_pm : F .pm := by assumption) : Keeps F s (State.ackBack t l) := by
  unfold State.ackBack
  try dsimp only
  repeat' first
    | with_reducible assumption | with_reducible refine State.dropVictim_keeps ?_ _
    | with_reducible refine State.nsBack_keeps ?_ _ _ | split | dsimp only | intro _

theorem State.answerOffer_keeps (h : Keeps F s t) (l) (p_out : F .out := by assumption) (p_dram : F .dram := by assumption)
    (p_rg : F .rg := by assumption) (p_ns : F .ns := by assumption) (p_tr : F .tr := by assumption)
    (p_cd : F .cd := by assumption) (p_lp : F .lp := by assumption) (p_sx : F .sx := by assumption)
    (p_mc : F .mc := by assumption) (p_bw : F .bw := by assumption) (p_fc : F .fc := by assumption)
    (p_pm : F .pm := by assumption) : Keeps F s (State.answerOffer t l) := by
  unfold State.answerOffer
  try dsimp only
  repeat' first
    | with_reducible assumption | with_reducible refine State.dropVictim_keeps ?_ _ | with_reducible refine State.t1Page_keeps ?_ _
    | with_reducible refine State.count_keeps ?_ _ _ _ | with_reducible refine State.nsPut_keeps ?_ _ _
    | with_reducible refine Keeps.ite (fun _ => ?_) (fun _ => ?_) | with_reducible refine Keeps.iteP (fun _ => ?_) (fun _ => ?_)
    | simp only [keeps_upd, p_out, p_dram, p_rg, p_ns, p_tr, p_cd, p_lp, p_sx, p_mc, p_bw, p_fc, p_pm, or_true, true_or, length_lmod, length_lset, List.length_map]
    | split | dsimp only | intro _

theorem State.victimRoom_keeps (h : Keeps F s t) (l) (b0) (p_out : F .out := by assumption) (p_dram : F .dram := by assumption)
    (p_rg : F .rg := by assumption) (p_ns : F .ns := by assumption) (p_tr : F .tr := by assumption)
    (p_cd : F .cd := by assumption) (p_lp : F .lp := by assumption) (p_sx : F .sx := by assumption)
    (p_mc : F .mc := by assumption) (p_bw : F .bw := by assumption) (p_fc : F .fc := by assumption)
    (p_pm : F .pm := by assumption) : Keeps F s (State.victimRoom t l b0) := by
  induction b0 generalizing t l with
  | zero => unfold State.victimRoom; with_reducible exact h
  | succ _ ih =>
    unfold State.victimRoom
    try dsimp only
    repeat' first
      | with_reducible assumption | with_reducible refine ih ?_ _ | with_reducible refine State.ackBack_keeps ?_ _
      | with_reducible refine State.answerOffer_keeps ?_ _ | with_reducible refine Keeps.ite (fun _ => ?_) (fun _ => ?_)
      | with_reducible refine Keeps.iteP (fun _ => ?_) (fun _ => ?_) | split | dsimp only | intro _

theorem State.nsInstall_keeps (h : Keeps F s t) (l) (e) (p_out : F .out := by assumption) (p_dram : F .dram := by assumption)
    (p_rg : F .rg := by assumption) (p_ns : F .ns := by assumption) (p_tr : F .tr := by assumption)
    (p_cd : F .cd := by assumption) (p_lp : F .lp := by assumption) (p_sx : F .sx := by assumption)
    (p_mc : F .mc := by assumption) (p_bw : F .bw := by assumption) (p_fc : F .fc := by assumption)
    (p_pm : F .pm := by assumption) : Keeps F s (State.nsInstall t l e) := by
  unfold State.nsInstall
  try dsimp only
  repeat' first
    | with_reducible assumption | with_reducible refine State.victimRoom_keeps ?_ _ _
    | with_reducible refine State.nsPut_keeps ?_ _ _ | with_reducible refine State.nsTouch_keeps ?_ _ | split | dsimp only | intro _

theorem State.captureBroken_keeps (h : Keeps F s t) (l) (p_out : F .out := by assumption) (p_dram : F .dram := by assumption)
    (p_rg : F .rg := by assumption) (p_tr : F .tr := by assumption) (p_cd : F .cd := by assumption)
    (p_lp : F .lp := by assumption) (p_sx : F .sx := by assumption) (p_mc : F .mc := by assumption)
    (p_bw : F .bw := by assumption) (p_fc : F .fc := by assumption) (p_pm : F .pm := by assumption)
    : Keeps F s (State.captureBroken t l) := by
  unfold State.captureBroken
  try dsimp only
  repeat' first
    | with_reducible assumption | with_reducible refine Com.tier_keeps ?_ _ _ | with_reducible refine State.abortMove_keeps ?_ _ _ _
    | with_reducible refine Keeps.ite (fun _ => ?_) (fun _ => ?_) | with_reducible refine Keeps.iteP (fun _ => ?_) (fun _ => ?_)
    | split | dsimp only | intro _

theorem State.moveBroken_keeps (h : Keeps F s t) (l) (p_out : F .out := by assumption) (p_dram : F .dram := by assumption)
    (p_rg : F .rg := by assumption) (p_tr : F .tr := by assumption) (p_cd : F .cd := by assumption)
    (p_lp : F .lp := by assumption) (p_sx : F .sx := by assumption) (p_mc : F .mc := by assumption)
    (p_bw : F .bw := by assumption) (p_fc : F .fc := by assumption) (p_pm : F .pm := by assumption)
    : Keeps F s (State.moveBroken t l) := by
  unfold State.moveBroken
  try dsimp only
  repeat' first
    | with_reducible assumption | with_reducible refine Com.tier_keeps ?_ _ _ | with_reducible refine State.abortMove_keeps ?_ _ _ _
    | with_reducible refine Keeps.ite (fun _ => ?_) (fun _ => ?_) | with_reducible refine Keeps.iteP (fun _ => ?_) (fun _ => ?_)
    | split | intro _

theorem State.nsServe_keeps (h : Keeps F s t) (l) (p_ns : F .ns := by assumption) (p_pm : F .pm := by assumption)
    : Keeps F s (State.nsServe t l).1 := by
  unfold State.nsServe
  try dsimp only
  repeat' first
    | with_reducible assumption | with_reducible refine State.nsTouch_keeps ?_ _ | with_reducible refine State.count_keeps ?_ _ _ _
    | with_reducible refine Keeps.ite (fun _ => ?_) (fun _ => ?_) | with_reducible refine Keeps.iteP (fun _ => ?_) (fun _ => ?_)
    | simp only [keeps_upd, p_ns, p_pm, or_true, true_or, length_lmod, length_lset, List.length_map] | split | dsimp only | intro _

theorem State.nsRead_keeps (h : Keeps F s t) (l) (w) (p_out : F .out := by assumption) (p_dram : F .dram := by assumption)
    (p_rg : F .rg := by assumption) (p_ns : F .ns := by assumption) (p_tr : F .tr := by assumption)
    (p_cd : F .cd := by assumption) (p_lp : F .lp := by assumption) (p_sx : F .sx := by assumption)
    (p_mc : F .mc := by assumption) (p_bw : F .bw := by assumption) (p_fc : F .fc := by assumption)
    (p_pm : F .pm := by assumption) : Keeps F s (State.nsRead t l w).1 := by
  unfold State.nsRead
  try dsimp only
  repeat' first
    | with_reducible assumption | with_reducible refine State.nsServe_keeps ?_ _ | with_reducible refine State.count_keeps ?_ _ _ _
    | with_reducible refine State.tierRead_keeps ?_ _ _ _ | with_reducible refine State.nsInstall_keeps ?_ _ _
    | with_reducible refine Keeps.ite (fun _ => ?_) (fun _ => ?_) | with_reducible refine Keeps.iteP (fun _ => ?_) (fun _ => ?_)
    | split | dsimp only | intro _

theorem State.nsWrite_keeps (h : Keeps F s t) (l) (w) (d) (en) (poison) (p_out : F .out := by assumption)
    (p_dram : F .dram := by assumption) (p_rg : F .rg := by assumption) (p_ns : F .ns := by assumption)
    (p_tr : F .tr := by assumption) (p_cd : F .cd := by assumption) (p_lp : F .lp := by assumption)
    (p_sx : F .sx := by assumption) (p_mc : F .mc := by assumption) (p_bw : F .bw := by assumption)
    (p_fc : F .fc := by assumption) (p_pm : F .pm := by assumption) : Keeps F s (State.nsWrite t l w d en poison) := by
  unfold State.nsWrite
  try dsimp only
  repeat' first
    | with_reducible assumption | with_reducible refine State.captureBroken_keeps ?_ _
    | with_reducible refine State.nsSetAt_keeps ?_ _ _ | with_reducible refine State.nsTouch_keeps ?_ _
    | with_reducible refine State.count_keeps ?_ _ _ _ | with_reducible refine State.nsInstall_keeps ?_ _ _
    | with_reducible refine State.dropVictim_keeps ?_ _ | with_reducible refine State.tierWrite_keeps ?_ _ _ _ _ _ _
    | with_reducible refine State.tierRead_keeps ?_ _ _ _ | with_reducible refine Keeps.ite (fun _ => ?_) (fun _ => ?_)
    | with_reducible refine Keeps.iteP (fun _ => ?_) (fun _ => ?_) | split | dsimp only | intro _

theorem State.answerRead_keeps (h : Keeps F s t) (q) (d) (poison) (p_out : F .out := by assumption)
    (p_fresh : F .fresh := by assumption) (p_hp : F .hp := by assumption) : Keeps F s (State.answerRead t q d poison) := by
  unfold State.answerRead
  try dsimp only
  repeat' first
    | with_reducible assumption | with_reducible refine State.respond_keeps ?_ _ _ | with_reducible refine State.drawn_keeps ?_
    | with_reducible refine Keeps.ite (fun _ => ?_) (fun _ => ?_) | with_reducible refine Keeps.iteP (fun _ => ?_) (fun _ => ?_)
    | split | intro _

theorem State.serveWaiters_keeps (h : Keeps F s t) (l) (d) (poison) (keep) (b0) (b1) (p_out : F .out := by assumption)
    (p_fresh : F .fresh := by assumption) (p_dram : F .dram := by assumption) (p_hp : F .hp := by assumption)
    (p_rg : F .rg := by assumption) (p_ns : F .ns := by assumption) (p_tr : F .tr := by assumption)
    (p_cd : F .cd := by assumption) (p_lp : F .lp := by assumption) (p_sx : F .sx := by assumption)
    (p_mc : F .mc := by assumption) (p_bw : F .bw := by assumption) (p_fc : F .fc := by assumption)
    (p_pm : F .pm := by assumption) : Keeps F s (State.serveWaiters t l d poison keep b0 b1) := by
  induction b0 generalizing t l d poison keep b1 with
  | nil => unfold State.serveWaiters; with_reducible exact h
  | cons _ _ ih =>
    unfold State.serveWaiters
    try dsimp only
    repeat' first
      | with_reducible assumption | with_reducible refine ih ?_ _ _ _ _ _ | with_reducible refine State.answerRead_keeps ?_ _ _ _
      | with_reducible refine State.nsRead_keeps ?_ _ _ | with_reducible refine State.captureBroken_keeps ?_ _
      | with_reducible refine State.nsInstall_keeps ?_ _ _ | with_reducible refine State.tierWrite_keeps ?_ _ _ _ _ _ _
      | with_reducible refine State.nsWrite_keeps ?_ _ _ _ _ _ | with_reducible refine Keeps.ite (fun _ => ?_) (fun _ => ?_)
      | with_reducible refine Keeps.iteP (fun _ => ?_) (fun _ => ?_) | split | dsimp only | intro _

theorem State.dropFetch_keeps (h : Keeps F s t) (l) (p_rr : F .rr := by assumption) : Keeps F s (State.dropFetch t l) := by
  unfold State.dropFetch
  try dsimp only
  repeat' first
    | with_reducible assumption | simp only [keeps_upd, p_rr, or_true, true_or, length_lmod, length_lset, List.length_map]
    | dsimp only | intro _

theorem State.finishFetch_keeps (h : Keeps F s t) (l) (d) (poison) (install) (p_out : F .out := by assumption)
    (p_fresh : F .fresh := by assumption) (p_dram : F .dram := by assumption) (p_hp : F .hp := by assumption)
    (p_rr : F .rr := by assumption) (p_rg : F .rg := by assumption) (p_ns : F .ns := by assumption)
    (p_tr : F .tr := by assumption) (p_cd : F .cd := by assumption) (p_lp : F .lp := by assumption)
    (p_sx : F .sx := by assumption) (p_mc : F .mc := by assumption) (p_bw : F .bw := by assumption)
    (p_fc : F .fc := by assumption) (p_pm : F .pm := by assumption) : Keeps F s (State.finishFetch t l d poison install) := by
  unfold State.finishFetch
  try dsimp only
  repeat' first
    | with_reducible assumption | with_reducible refine State.dropFetch_keeps ?_ _
    | with_reducible refine State.serveWaiters_keeps ?_ _ _ _ _ _ _ | with_reducible refine State.nsInstall_keeps ?_ _ _
    | with_reducible refine Keeps.ite (fun _ => ?_) (fun _ => ?_) | with_reducible refine Keeps.iteP (fun _ => ?_) (fun _ => ?_)
    | split | dsimp only | intro _

theorem State.setStage_keeps (h : Keeps F s t) (l) (g) (p_rr : F .rr := by assumption) : Keeps F s (State.setStage t l g) := by
  unfold State.setStage
  try dsimp only
  repeat' first
    | with_reducible assumption | with_reducible refine Keeps.ite (fun _ => ?_) (fun _ => ?_)
    | with_reducible refine Keeps.iteP (fun _ => ?_) (fun _ => ?_)
    | simp only [keeps_upd, p_rr, or_true, true_or, length_lmod, length_lset, List.length_map] | split | dsimp only | intro _

theorem State.arrive_keeps (h : Keeps F s t) (l) (d) (poison) (p_out : F .out := by assumption)
    (p_fresh : F .fresh := by assumption) (p_dram : F .dram := by assumption) (p_hp : F .hp := by assumption)
    (p_rr : F .rr := by assumption) (p_rg : F .rg := by assumption) (p_ns : F .ns := by assumption)
    (p_tr : F .tr := by assumption) (p_cd : F .cd := by assumption) (p_lp : F .lp := by assumption)
    (p_sx : F .sx := by assumption) (p_mc : F .mc := by assumption) (p_bw : F .bw := by assumption)
    (p_fc : F .fc := by assumption) (p_pm : F .pm := by assumption) : Keeps F s (State.arrive t l d poison) := by
  unfold State.arrive
  try dsimp only
  repeat' first
    | with_reducible assumption | with_reducible refine State.setStage_keeps ?_ _ _
    | with_reducible refine State.finishFetch_keeps ?_ _ _ _ _ | with_reducible refine Keeps.ite (fun _ => ?_) (fun _ => ?_)
    | with_reducible refine Keeps.iteP (fun _ => ?_) (fun _ => ?_) | split | intro _

theorem State.roomFreed_keeps (h : Keeps F s t) (q) (p_out : F .out := by assumption) (p_fresh : F .fresh := by assumption)
    (p_dram : F .dram := by assumption) (p_hp : F .hp := by assumption) (p_rr : F .rr := by assumption)
    (p_rg : F .rg := by assumption) (p_ns : F .ns := by assumption) (p_tr : F .tr := by assumption)
    (p_cd : F .cd := by assumption) (p_lp : F .lp := by assumption) (p_sx : F .sx := by assumption)
    (p_mc : F .mc := by assumption) (p_bw : F .bw := by assumption) (p_fc : F .fc := by assumption)
    (p_pm : F .pm := by assumption) : Keeps F s (State.roomFreed t q) := by
  unfold State.roomFreed
  try dsimp only
  repeat' first
    | with_reducible assumption | with_reducible refine State.stage_keeps ?_ _ _ _ _ _ _ _ _
    | with_reducible refine State.finishFetch_keeps ?_ _ _ _ _ | with_reducible refine Keeps.foldl (fun _ _ _ => ?_) _ ?_
    | with_reducible refine Keeps.foldlP (fun _ _ _ => ?_) _ ?_ | with_reducible refine Keeps.ite (fun _ => ?_) (fun _ => ?_)
    | with_reducible refine Keeps.iteP (fun _ => ?_) (fun _ => ?_) | split | dsimp only | intro _

theorem State.fetchRead_keeps (h : Keeps F s t) (n) (off) (w) (p_out : F .out := by assumption)
    (p_dram : F .dram := by assumption) (p_rg : F .rg := by assumption) (p_tr : F .tr := by assumption)
    (p_cd : F .cd := by assumption) (p_lp : F .lp := by assumption) (p_sx : F .sx := by assumption)
    (p_mc : F .mc := by assumption) (p_bw : F .bw := by assumption) (p_fc : F .fc := by assumption)
    (p_pm : F .pm := by assumption) : Keeps F s (State.fetchRead t n off w).1 := by
  unfold State.fetchRead
  try dsimp only
  repeat' first
    | with_reducible assumption | with_reducible refine Com.tier_keeps ?_ _ _ | with_reducible refine State.pageGet_keeps ?_ _ _ _
    | with_reducible refine State.extRead_keeps ?_ _ _ _ _ _ | with_reducible refine State.readYard_keeps ?_ _ _ _ _
    | with_reducible refine State.tierRead_keeps ?_ _ _ _ | with_reducible refine Keeps.ite (fun _ => ?_) (fun _ => ?_)
    | with_reducible refine Keeps.iteP (fun _ => ?_) (fun _ => ?_) | split | dsimp only | intro _

theorem State.settle_keeps (h : Keeps F s t) (l) (install) (p_out : F .out := by assumption)
    (p_fresh : F .fresh := by assumption) (p_dram : F .dram := by assumption) (p_hp : F .hp := by assumption)
    (p_rr : F .rr := by assumption) (p_rg : F .rg := by assumption) (p_ns : F .ns := by assumption)
    (p_tr : F .tr := by assumption) (p_cd : F .cd := by assumption) (p_lp : F .lp := by assumption)
    (p_sx : F .sx := by assumption) (p_mc : F .mc := by assumption) (p_bw : F .bw := by assumption)
    (p_fc : F .fc := by assumption) (p_pm : F .pm := by assumption) : Keeps F s (State.settle t l install) := by
  unfold State.settle
  try dsimp only
  repeat' first
    | with_reducible assumption | with_reducible refine State.stage_keeps ?_ _ _ _ _ _ _ _ _
    | with_reducible refine State.finishFetch_keeps ?_ _ _ _ _ | with_reducible refine State.fetchRead_keeps ?_ _ _ _
    | simp only [keeps_upd, p_out, p_fresh, p_dram, p_hp, p_rr, p_rg, p_ns, p_tr, p_cd, p_lp, p_sx, p_mc, p_bw, p_fc, p_pm, or_true, true_or, length_lmod, length_lset, List.length_map]
    | split | dsimp only | intro _

theorem State.orderedRead_keeps (h : Keeps F s t) (l) (w) (p_out : F .out := by assumption)
    (p_fresh : F .fresh := by assumption) (p_dram : F .dram := by assumption) (p_hp : F .hp := by assumption)
    (p_rr : F .rr := by assumption) (p_rg : F .rg := by assumption) (p_ns : F .ns := by assumption)
    (p_tr : F .tr := by assumption) (p_cd : F .cd := by assumption) (p_lp : F .lp := by assumption)
    (p_sx : F .sx := by assumption) (p_mc : F .mc := by assumption) (p_bw : F .bw := by assumption)
    (p_fc : F .fc := by assumption) (p_pm : F .pm := by assumption) : Keeps F s (State.orderedRead t l w).1 := by
  unfold State.orderedRead
  try dsimp only
  repeat' first
    | with_reducible assumption | with_reducible refine State.settle_keeps ?_ _ _ | with_reducible refine State.nsRead_keeps ?_ _ _
    | intro _

theorem State.drainVictims_keeps (h : Keeps F s t) (l) (a2) (p_out : F .out := by assumption) (p_dram : F .dram := by assumption) (p_rg : F .rg := by assumption) (p_ns : F .ns := by assumption) (p_tr : F .tr := by assumption) (p_cd : F .cd := by assumption) (p_lp : F .lp := by assumption) (p_sx : F .sx := by assumption) (p_mc : F .mc := by assumption) (p_bw : F .bw := by assumption) (p_fc : F .fc := by assumption) (p_pm : F .pm := by assumption) : Keeps F s (t.drainVictims l a2) := by
  induction a2 generalizing t l with
  | zero => unfold State.drainVictims; with_reducible exact h
  | succ _ ih =>
    unfold State.drainVictims
    repeat' first | with_reducible assumption | with_reducible refine ih ?_ _ | with_reducible refine State.ackBack_keeps ?_ _

theorem State.maintain_keeps (h : Keeps F s t) (op) (l) (p_out : F .out := by assumption) (p_fresh : F .fresh := by assumption)
    (p_dram : F .dram := by assumption) (p_hp : F .hp := by assumption) (p_rr : F .rr := by assumption)
    (p_rg : F .rg := by assumption) (p_ns : F .ns := by assumption) (p_tr : F .tr := by assumption)
    (p_cd : F .cd := by assumption) (p_lp : F .lp := by assumption) (p_sx : F .sx := by assumption)
    (p_mc : F .mc := by assumption) (p_bw : F .bw := by assumption) (p_fc : F .fc := by assumption)
    (p_pm : F .pm := by assumption) : Keeps F s (State.maintain t op l) := by
  unfold State.maintain
  try dsimp only
  repeat' first
    | with_reducible assumption | with_reducible refine State.settle_keeps ?_ _ _
    | with_reducible refine State.drainVictims_keeps ?_ _ _ | with_reducible refine State.moveBroken_keeps ?_ _
    | with_reducible refine State.nsSetAt_keeps ?_ _ _ | with_reducible refine State.nsBack_keeps ?_ _ _
    | with_reducible refine Keeps.ite (fun _ => ?_) (fun _ => ?_) | with_reducible refine Keeps.iteP (fun _ => ?_) (fun _ => ?_)
    | split | dsimp only | intro _

theorem State.zeroLine_keeps (h : Keeps F s t) (l) (p_out : F .out := by assumption) (p_fresh : F .fresh := by assumption)
    (p_dram : F .dram := by assumption) (p_hp : F .hp := by assumption) (p_rr : F .rr := by assumption)
    (p_rg : F .rg := by assumption) (p_ns : F .ns := by assumption) (p_tr : F .tr := by assumption)
    (p_cd : F .cd := by assumption) (p_lp : F .lp := by assumption) (p_sx : F .sx := by assumption)
    (p_mc : F .mc := by assumption) (p_bw : F .bw := by assumption) (p_fc : F .fc := by assumption)
    (p_pm : F .pm := by assumption) : Keeps F s (State.zeroLine t l) := by
  unfold State.zeroLine
  try dsimp only
  repeat' first
    | with_reducible assumption | with_reducible refine State.settle_keeps ?_ _ _
    | with_reducible refine State.moveBroken_keeps ?_ _ | with_reducible refine State.captureBroken_keeps ?_ _
    | with_reducible refine State.dropVictim_keeps ?_ _ | with_reducible refine State.nsSetAt_keeps ?_ _ _
    | with_reducible refine State.drainVictims_keeps ?_ _ _ | with_reducible refine State.tierWrite_keeps ?_ _ _ _ _ _ _
    | with_reducible refine State.victimRoom_keeps ?_ _ _ | with_reducible refine State.nsPut_keeps ?_ _ _
    | with_reducible refine Keeps.ite (fun _ => ?_) (fun _ => ?_) | with_reducible refine Keeps.iteP (fun _ => ?_) (fun _ => ?_)
    | split | dsimp only | intro _

theorem State.nsDiscard_keeps (h : Keeps F s t) (l) (p_ns : F .ns := by assumption) : Keeps F s (State.nsDiscard t l) := by
  unfold State.nsDiscard
  try dsimp only
  repeat' first
    | with_reducible assumption | with_reducible refine State.nsSetAt_keeps ?_ _ _
    | simp only [keeps_upd, p_ns, or_true, true_or, length_lmod, length_lset, List.length_map] | split | dsimp only | intro _

theorem writebackAck_keeps (h : Keeps F s t) (l) (p_out : F .out := by assumption) (p_fresh : F .fresh := by assumption)
    (p_dram : F .dram := by assumption) (p_hp : F .hp := by assumption) (p_rr : F .rr := by assumption)
    (p_rg : F .rg := by assumption) (p_ns : F .ns := by assumption) (p_tr : F .tr := by assumption)
    (p_cd : F .cd := by assumption) (p_lp : F .lp := by assumption) (p_sx : F .sx := by assumption)
    (p_mc : F .mc := by assumption) (p_bw : F .bw := by assumption) (p_fc : F .fc := by assumption)
    (p_pm : F .pm := by assumption) : Keeps F s (writebackAck l t) := by
  unfold writebackAck
  try dsimp only
  repeat' first
    | with_reducible assumption | with_reducible refine State.ackBack_keeps ?_ _ | with_reducible refine State.roomFreed_keeps ?_ _
    | intro _

theorem evictionOfferAnswer_keeps (h : Keeps F s t) (l) (p_out : F .out := by assumption) (p_fresh : F .fresh := by assumption)
    (p_dram : F .dram := by assumption) (p_hp : F .hp := by assumption) (p_rr : F .rr := by assumption)
    (p_rg : F .rg := by assumption) (p_ns : F .ns := by assumption) (p_tr : F .tr := by assumption)
    (p_cd : F .cd := by assumption) (p_lp : F .lp := by assumption) (p_sx : F .sx := by assumption)
    (p_mc : F .mc := by assumption) (p_bw : F .bw := by assumption) (p_fc : F .fc := by assumption)
    (p_pm : F .pm := by assumption) : Keeps F s (evictionOfferAnswer l t) := by
  unfold evictionOfferAnswer
  try dsimp only
  repeat' first
    | with_reducible assumption | with_reducible refine State.answerOffer_keeps ?_ _
    | with_reducible refine State.roomFreed_keeps ?_ _ | intro _

theorem State.nsErrAt_keeps (h : Keeps F s t) (q) (set) (way) (kind) (p_ns : F .ns := by assumption)
    : Keeps F s (State.nsErrAt t q set way kind) := by
  unfold State.nsErrAt
  try dsimp only
  repeat' first
    | with_reducible assumption | simp only [keeps_upd, p_ns, or_true, true_or, length_lmod, length_lset, List.length_map] | intro _

theorem State.tagLost_keeps (h : Keeps F s t) (q) (set) (way) (p_ns : F .ns := by assumption)
    : Keeps F s (State.tagLost t q set way) := by
  unfold State.tagLost
  try dsimp only
  repeat' first
    | with_reducible assumption | with_reducible refine State.nsErrAt_keeps ?_ _ _ _ _
    | with_reducible refine State.nsSetAt_keeps ?_ _ _ | intro _

theorem nsTagScrub_keeps (h : Keeps F s t) (q) (bad) (p_now : F .now := by assumption) (p_ns : F .ns := by assumption)
    (p_tu : F .tu := by assumption) (p_fc : F .fc := by assumption) : Keeps F s (nsTagScrub q bad t) := by
  unfold nsTagScrub
  try dsimp only
  repeat' first
    | with_reducible assumption | with_reducible refine State.advance_keeps ?_ _
    | with_reducible refine State.tagLost_keeps ?_ _ _ _ | with_reducible refine State.report_keeps ?_ _ _ _
    | with_reducible refine Keeps.foldl (fun _ _ _ => ?_) _ ?_ | with_reducible refine Keeps.foldlP (fun _ _ _ => ?_) _ ?_
    | with_reducible refine Keeps.ite (fun _ => ?_) (fun _ => ?_) | with_reducible refine Keeps.iteP (fun _ => ?_) (fun _ => ?_)
    | simp only [keeps_upd, p_now, p_ns, p_tu, p_fc, or_true, true_or, length_lmod, length_lset, List.length_map] | split
    | dsimp only | intro _

theorem State.nsDataError_keeps (h : Keeps F s t) (q) (kind) (line) (w) (p_out : F .out := by assumption)
    (p_dram : F .dram := by assumption) (p_rg : F .rg := by assumption) (p_ns : F .ns := by assumption)
    (p_tr : F .tr := by assumption) (p_cd : F .cd := by assumption) (p_lp : F .lp := by assumption)
    (p_sx : F .sx := by assumption) (p_mc : F .mc := by assumption) (p_bw : F .bw := by assumption)
    (p_fc : F .fc := by assumption) (p_pm : F .pm := by assumption) : Keeps F s (State.nsDataError t q kind line w) := by
  unfold State.nsDataError
  dsimp only
  have h2 := State.nsErrAt_keeps h q (nsSet line) (t.wayFound line) kind
  generalize State.nsErrAt t q (nsSet line) (t.wayFound line) kind = t1 at h2 ⊢
  refine Keeps.ite (fun _ => ?_) (fun _ => Keeps.ite (fun _ => ?_) (fun _ => h2))
  · split
    · refine Keeps.ite (fun _ => State.nsSetAt_keeps ?_ _ _) (fun _ => ?_) <;> exact h2.upd
    · exact h2.upd
  · have gone : ∀ (g : Option State), (∀ u, g = some u → Keeps F s u) → Keeps F s (match g, t1.lineRegion line with
        | some s2, some (n, r, off) =>
          if r.readAllocs = true then (s2.tierRead n off w).1.nsInstall line ⟨nsTag line, false, (s2.tierRead n off w).2.poison, w, (s2.tierRead n off w).2.data⟩
          else (s2.tierRead n off w).1
        | some s2, none => s2
        | none, _ => t1) := by
      intro g hg
      split
      · exact Keeps.ite (fun _ => State.nsInstall_keeps (State.tierRead_keeps (hg _ rfl) _ _ _) _ _) (fun _ => State.tierRead_keeps (hg _ rfl) _ _ _)
      · exact hg _ rfl
      · exact h2
    refine gone _ ?_
    intro u hu
    split at hu
    · split at hu
      · cases hu
      · obtain rfl := Option.some.inj hu; exact State.nsSetAt_keeps h2 _ _
    · split at hu
      · obtain rfl := Option.some.inj hu; exact State.dropVictim_keeps h2 _
      · cases hu

theorem State.applySoft_keeps (h : Keeps F s t) (lo) (hi) (p_fu : F .fu := by assumption) : Keeps F s (State.applySoft t lo hi) := by
  unfold State.applySoft
  try dsimp only
  repeat' first
    | with_reducible assumption | simp only [keeps_upd, p_fu, or_true, true_or, length_lmod, length_lset, List.length_map]
    | dsimp only | intro _

end Sys2Proof.Machine
end

