-- ==== Sys2Proof/Laws/KeepsCounters.lean ====
section
/-! SUPPORT. What each operation of Machine/Counters.lean keeps: the counter engine. -/

set_option Elab.async false

set_option linter.all false

namespace Sys2Proof.Machine
open Sys2Proof

variable {F : Part → Prop} {s t : State}

theorem State.denyEngine_keeps (h : Keeps F s t) (w) (dpa) (p_out : F .out := by assumption) (p_fc : F .fc := by assumption)
    (p_pm : F .pm := by assumption) : Keeps F s (State.denyEngine t w dpa) := by
  unfold State.denyEngine
  try dsimp only
  repeat' first
    | with_reducible assumption | with_reducible refine State.count_keeps ?_ _ _ _ | with_reducible refine State.emit_keeps ?_ _
    | with_reducible refine State.report_keeps ?_ _ _ _ | with_reducible refine Keeps.ite (fun _ => ?_) (fun _ => ?_)
    | with_reducible refine Keeps.iteP (fun _ => ?_) (fun _ => ?_) | split | intro _

theorem State.ceBack_keeps (h : Keeps F s t) (x) (p_out : F .out := by assumption) (p_dram : F .dram := by assumption)
    (p_rg : F .rg := by assumption) (p_tr : F .tr := by assumption) (p_cd : F .cd := by assumption)
    (p_lp : F .lp := by assumption) (p_sx : F .sx := by assumption) (p_mc : F .mc := by assumption)
    (p_bw : F .bw := by assumption) (p_fc : F .fc := by assumption) (p_pm : F .pm := by assumption)
    : Keeps F s (State.ceBack t x) := by
  unfold State.ceBack
  try dsimp only
  repeat' first
    | with_reducible assumption | with_reducible refine State.tierWrite_keeps ?_ _ _ _ _ _ _
    | with_reducible refine State.denyEngine_keeps ?_ _ _ | with_reducible refine Keeps.ite (fun _ => ?_) (fun _ => ?_)
    | with_reducible refine Keeps.iteP (fun _ => ?_) (fun _ => ?_) | split | intro _

theorem State.ceInstall_keeps (h : Keeps F s t) (x) (p_out : F .out := by assumption) (p_dram : F .dram := by assumption)
    (p_rg : F .rg := by assumption) (p_tr : F .tr := by assumption) (p_cd : F .cd := by assumption)
    (p_lp : F .lp := by assumption) (p_sx : F .sx := by assumption) (p_mc : F .mc := by assumption)
    (p_bw : F .bw := by assumption) (p_ce : F .ce := by assumption) (p_fc : F .fc := by assumption)
    (p_pm : F .pm := by assumption) : Keeps F s (State.ceInstall t x) := by
  unfold State.ceInstall
  try dsimp only
  repeat' first
    | with_reducible assumption | with_reducible refine State.ceBack_keeps ?_ _
    | with_reducible refine Keeps.ite (fun _ => ?_) (fun _ => ?_) | with_reducible refine Keeps.iteP (fun _ => ?_) (fun _ => ?_)
    | simp only [keeps_upd, p_out, p_dram, p_rg, p_tr, p_cd, p_lp, p_sx, p_mc, p_bw, p_ce, p_fc, p_pm, or_true, true_or, length_lmod, length_lset, List.length_map]
    | split | dsimp only | intro _

theorem State.ceSetLine_keeps (h : Keeps F s t) (l) (d) (p_out : F .out := by assumption) (p_dram : F .dram := by assumption)
    (p_rg : F .rg := by assumption) (p_tr : F .tr := by assumption) (p_cd : F .cd := by assumption)
    (p_lp : F .lp := by assumption) (p_sx : F .sx := by assumption) (p_mc : F .mc := by assumption)
    (p_bw : F .bw := by assumption) (p_ce : F .ce := by assumption) (p_fc : F .fc := by assumption)
    (p_pm : F .pm := by assumption) : Keeps F s (State.ceSetLine t l d) := by
  unfold State.ceSetLine
  try dsimp only
  repeat' first
    | with_reducible assumption | with_reducible refine State.ceInstall_keeps ?_ _
    | with_reducible refine Keeps.ite (fun _ => ?_) (fun _ => ?_) | with_reducible refine Keeps.iteP (fun _ => ?_) (fun _ => ?_)
    | simp only [keeps_upd, p_out, p_dram, p_rg, p_tr, p_cd, p_lp, p_sx, p_mc, p_bw, p_ce, p_fc, p_pm, or_true, true_or, length_lmod, length_lset, List.length_map]
    | split | dsimp only | intro _

theorem State.ceFetch_keeps (h : Keeps F s t) (l) (p_out : F .out := by assumption) (p_dram : F .dram := by assumption)
    (p_rg : F .rg := by assumption) (p_tr : F .tr := by assumption) (p_cd : F .cd := by assumption)
    (p_lp : F .lp := by assumption) (p_sx : F .sx := by assumption) (p_mc : F .mc := by assumption)
    (p_bw : F .bw := by assumption) (p_ce : F .ce := by assumption) (p_fc : F .fc := by assumption)
    (p_pm : F .pm := by assumption) : Keeps F s (State.ceFetch t l).1 := by
  unfold State.ceFetch
  try dsimp only
  repeat' first
    | with_reducible assumption | with_reducible refine State.count_keeps ?_ _ _ _
    | with_reducible refine State.tierRead_keeps ?_ _ _ _ | with_reducible refine State.ceInstall_keeps ?_ _
    | with_reducible refine Keeps.ite (fun _ => ?_) (fun _ => ?_) | with_reducible refine Keeps.iteP (fun _ => ?_) (fun _ => ?_)
    | split | dsimp only | intro _

theorem State.ceReport_keeps (h : Keeps F s t) (l) (src) (detail) (p_fc : F .fc := by assumption)
    : Keeps F s (State.ceReport t l src detail) := by
  unfold State.ceReport
  try dsimp only
  repeat' first
    | with_reducible assumption | with_reducible refine State.report_keeps ?_ _ _ _
    | with_reducible refine Keeps.ite (fun _ => ?_) (fun _ => ?_) | with_reducible refine Keeps.iteP (fun _ => ?_) (fun _ => ?_)
    | split | dsimp only | intro _

theorem State.stLine_keeps (h : Keeps F s t) (x_c) (set) (i) (p_out : F .out := by assumption)
    (p_dram : F .dram := by assumption) (p_rg : F .rg := by assumption) (p_tr : F .tr := by assumption)
    (p_cd : F .cd := by assumption) (p_lp : F .lp := by assumption) (p_sx : F .sx := by assumption)
    (p_mc : F .mc := by assumption) (p_bw : F .bw := by assumption) (p_ce : F .ce := by assumption)
    (p_fc : F .fc := by assumption) (p_pm : F .pm := by assumption) : Keeps F s (State.stLine t x_c set i).1 := by
  unfold State.stLine
  try dsimp only
  repeat' first
    | with_reducible assumption | with_reducible refine State.ceFetch_keeps ?_ _
    | with_reducible refine State.ceReport_keeps ?_ _ _ _ | with_reducible refine State.ceSetLine_keeps ?_ _ _ | split | dsimp only
    | intro _

theorem State.stGet_keeps (h : Keeps F s t) (x_c) (set) (p) (p_out : F .out := by assumption)
    (p_dram : F .dram := by assumption) (p_rg : F .rg := by assumption) (p_tr : F .tr := by assumption)
    (p_cd : F .cd := by assumption) (p_lp : F .lp := by assumption) (p_sx : F .sx := by assumption)
    (p_mc : F .mc := by assumption) (p_bw : F .bw := by assumption) (p_ce : F .ce := by assumption)
    (p_fc : F .fc := by assumption) (p_pm : F .pm := by assumption) : Keeps F s (State.stGet t x_c set p).1 := by
  unfold State.stGet
  try dsimp only
  repeat' first
    | with_reducible assumption | with_reducible refine State.stLine_keeps ?_ _ _ _ | dsimp only | intro _

theorem State.stSet_keeps (h : Keeps F s t) (x_c) (set) (p) (v) (p_out : F .out := by assumption)
    (p_dram : F .dram := by assumption) (p_rg : F .rg := by assumption) (p_tr : F .tr := by assumption)
    (p_cd : F .cd := by assumption) (p_lp : F .lp := by assumption) (p_sx : F .sx := by assumption)
    (p_mc : F .mc := by assumption) (p_bw : F .bw := by assumption) (p_ce : F .ce := by assumption)
    (p_fc : F .fc := by assumption) (p_pm : F .pm := by assumption) : Keeps F s (State.stSet t x_c set p v) := by
  unfold State.stSet
  try dsimp only
  repeat' first
    | with_reducible assumption | with_reducible refine State.stLine_keeps ?_ _ _ _
    | with_reducible refine State.ceSetLine_keeps ?_ _ _ | with_reducible refine Com.sets_keeps ?_ _
    | with_reducible refine Keeps.ite (fun _ => ?_) (fun _ => ?_) | with_reducible refine Keeps.iteP (fun _ => ?_) (fun _ => ?_)
    | simp only [keeps_upd, p_out, p_dram, p_rg, p_tr, p_cd, p_lp, p_sx, p_mc, p_bw, p_ce, p_fc, p_pm, or_true, true_or, length_lmod, length_lset, List.length_map]
    | split | dsimp only | intro _

theorem State.reread_keeps (h : Keeps F s t) (x_c) (set) (ps) (p_ce : F .ce := by assumption)
    : Keeps F s (State.reread t x_c set ps) := by
  unfold State.reread
  try dsimp only
  repeat' first
    | with_reducible assumption | with_reducible refine Keeps.ite (fun _ => ?_) (fun _ => ?_)
    | with_reducible refine Keeps.iteP (fun _ => ?_) (fun _ => ?_)
    | simp only [keeps_upd, p_ce, or_true, true_or, length_lmod, length_lset, List.length_map] | split | dsimp only | intro _

theorem State.lostLeaves_keeps (h : Keeps F s t) (x_c) (set) (i) (p_out : F .out := by assumption)
    (p_dram : F .dram := by assumption) (p_rg : F .rg := by assumption) (p_tr : F .tr := by assumption)
    (p_cd : F .cd := by assumption) (p_lp : F .lp := by assumption) (p_sx : F .sx := by assumption)
    (p_mc : F .mc := by assumption) (p_bw : F .bw := by assumption) (p_ce : F .ce := by assumption)
    (p_fc : F .fc := by assumption) (p_pm : F .pm := by assumption) : Keeps F s (State.lostLeaves t x_c set i) := by
  unfold State.lostLeaves
  try dsimp only
  repeat' first
    | with_reducible assumption | with_reducible refine State.ceReport_keeps ?_ _ _ _
    | with_reducible refine State.ceSetLine_keeps ?_ _ _ | with_reducible refine State.stGet_keeps ?_ _ _ _
    | with_reducible refine State.stSet_keeps ?_ _ _ _ _ | with_reducible refine Com.sets_keeps ?_ _
    | with_reducible refine State.reread_keeps ?_ _ _ _ | with_reducible refine Keeps.foldl (fun _ _ _ => ?_) _ ?_
    | with_reducible refine Keeps.foldlP (fun _ _ _ => ?_) _ ?_
    | simp only [keeps_upd, p_out, p_dram, p_rg, p_tr, p_cd, p_lp, p_sx, p_mc, p_bw, p_ce, p_fc, p_pm, or_true, true_or, length_lmod, length_lset, List.length_map]
    | split | dsimp only | intro _

theorem State.lostAncestors_keeps (h : Keeps F s t) (x_c) (set) (i) (p_out : F .out := by assumption)
    (p_dram : F .dram := by assumption) (p_rg : F .rg := by assumption) (p_tr : F .tr := by assumption)
    (p_cd : F .cd := by assumption) (p_lp : F .lp := by assumption) (p_sx : F .sx := by assumption)
    (p_mc : F .mc := by assumption) (p_bw : F .bw := by assumption) (p_ce : F .ce := by assumption)
    (p_fc : F .fc := by assumption) (p_pm : F .pm := by assumption) : Keeps F s (State.lostAncestors t x_c set i) := by
  unfold State.lostAncestors
  try dsimp only
  repeat' first
    | with_reducible assumption | with_reducible refine State.ceReport_keeps ?_ _ _ _
    | with_reducible refine State.ceSetLine_keeps ?_ _ _ | with_reducible refine State.stGet_keeps ?_ _ _ _
    | with_reducible refine State.stSet_keeps ?_ _ _ _ _ | with_reducible refine Com.sets_keeps ?_ _
    | with_reducible refine Keeps.foldl (fun _ _ _ => ?_) _ ?_ | with_reducible refine Keeps.foldlP (fun _ _ _ => ?_) _ ?_
    | with_reducible refine Keeps.ite (fun _ => ?_) (fun _ => ?_) | with_reducible refine Keeps.iteP (fun _ => ?_) (fun _ => ?_)
    | simp only [keeps_upd, p_out, p_dram, p_rg, p_tr, p_cd, p_lp, p_sx, p_mc, p_bw, p_ce, p_fc, p_pm, or_true, true_or, length_lmod, length_lset, List.length_map]
    | split | dsimp only | intro _

theorem State.cLine_keeps (h : Keeps F s t) (x_c) (set) (i) (p_out : F .out := by assumption)
    (p_dram : F .dram := by assumption) (p_rg : F .rg := by assumption) (p_tr : F .tr := by assumption)
    (p_cd : F .cd := by assumption) (p_lp : F .lp := by assumption) (p_sx : F .sx := by assumption)
    (p_mc : F .mc := by assumption) (p_bw : F .bw := by assumption) (p_ce : F .ce := by assumption)
    (p_fc : F .fc := by assumption) (p_pm : F .pm := by assumption) : Keeps F s (State.cLine t x_c set i).1 := by
  unfold State.cLine
  try dsimp only
  repeat' first
    | with_reducible assumption | with_reducible refine State.ceFetch_keeps ?_ _
    | with_reducible refine State.lostLeaves_keeps ?_ _ _ _ | with_reducible refine State.lostAncestors_keeps ?_ _ _ _
    | with_reducible refine Keeps.ite (fun _ => ?_) (fun _ => ?_) | with_reducible refine Keeps.iteP (fun _ => ?_) (fun _ => ?_)
    | split | dsimp only | intro _

theorem State.pairGet_keeps (h : Keeps F s t) (x_c) (set) (p) (p_out : F .out := by assumption)
    (p_dram : F .dram := by assumption) (p_rg : F .rg := by assumption) (p_tr : F .tr := by assumption)
    (p_cd : F .cd := by assumption) (p_lp : F .lp := by assumption) (p_sx : F .sx := by assumption)
    (p_mc : F .mc := by assumption) (p_bw : F .bw := by assumption) (p_ce : F .ce := by assumption)
    (p_fc : F .fc := by assumption) (p_pm : F .pm := by assumption) : Keeps F s (State.pairGet t x_c set p).1 := by
  unfold State.pairGet
  try dsimp only
  repeat' first
    | with_reducible assumption | with_reducible refine State.cLine_keeps ?_ _ _ _ | dsimp only | intro _

theorem State.pairSet_keeps (h : Keeps F s t) (x_c) (set) (p) (pk) (by_) (p_out : F .out := by assumption)
    (p_dram : F .dram := by assumption) (p_rg : F .rg := by assumption) (p_tr : F .tr := by assumption)
    (p_cd : F .cd := by assumption) (p_lp : F .lp := by assumption) (p_sx : F .sx := by assumption)
    (p_mc : F .mc := by assumption) (p_bw : F .bw := by assumption) (p_ce : F .ce := by assumption)
    (p_fc : F .fc := by assumption) (p_pm : F .pm := by assumption) : Keeps F s (State.pairSet t x_c set p pk by_) := by
  unfold State.pairSet
  try dsimp only
  repeat' first
    | with_reducible assumption | with_reducible refine State.cLine_keeps ?_ _ _ _
    | with_reducible refine State.ceSetLine_keeps ?_ _ _ | dsimp only | intro _

theorem State.ceEnded_keeps (h : Keeps F s t) (set) (p_ce : F .ce := by assumption) (p_fc : F .fc := by assumption)
    : Keeps F s (State.ceEnded t set) := by
  unfold State.ceEnded
  try dsimp only
  repeat' first
    | with_reducible assumption | with_reducible refine Com.sets_keeps ?_ _ | with_reducible refine State.report_keeps ?_ _ _ _
    | with_reducible refine Keeps.ite (fun _ => ?_) (fun _ => ?_) | with_reducible refine Keeps.iteP (fun _ => ?_) (fun _ => ?_)
    | simp only [keeps_upd, p_ce, p_fc, or_true, true_or, length_lmod, length_lset, List.length_map] | split | dsimp only | intro _

theorem State.pairAdd_keeps (h : Keeps F s t) (set) (leaf) (level) (pk) (by_) (p_out : F .out := by assumption)
    (p_dram : F .dram := by assumption) (p_rg : F .rg := by assumption) (p_tr : F .tr := by assumption)
    (p_cd : F .cd := by assumption) (p_lp : F .lp := by assumption) (p_sx : F .sx := by assumption)
    (p_mc : F .mc := by assumption) (p_bw : F .bw := by assumption) (p_ce : F .ce := by assumption)
    (p_fc : F .fc := by assumption) (p_pm : F .pm := by assumption) : Keeps F s (State.pairAdd t set leaf level pk by_) := by
  unfold State.pairAdd
  try dsimp only
  repeat' first
    | with_reducible assumption | with_reducible refine State.stGet_keeps ?_ _ _ _
    | with_reducible refine State.count_keeps ?_ _ _ _ | with_reducible refine State.pairGet_keeps ?_ _ _ _
    | with_reducible refine State.pairSet_keeps ?_ _ _ _ _ _ | with_reducible refine State.stSet_keeps ?_ _ _ _ _
    | with_reducible refine State.ceEnded_keeps ?_ _ | with_reducible refine Keeps.ite (fun _ => ?_) (fun _ => ?_)
    | with_reducible refine Keeps.iteP (fun _ => ?_) (fun _ => ?_)
    | simp only [keeps_upd, p_out, p_dram, p_rg, p_tr, p_cd, p_lp, p_sx, p_mc, p_bw, p_ce, p_fc, p_pm, or_true, true_or, length_lmod, length_lset, List.length_map]
    | split | dsimp only | intro _

theorem State.ceReady_keeps (h : Keeps F s t) (l) (p_out : F .out := by assumption) (p_hp : F .hp := by assumption)
    (p_ce : F .ce := by assumption) (p_pm : F .pm := by assumption) : Keeps F s (State.ceReady t l).1 := by
  unfold State.ceReady
  try dsimp only
  repeat' first
    | with_reducible assumption | with_reducible refine State.sendSnoops_keeps ?_ _ _
    | with_reducible refine State.count_keeps ?_ _ _ _ | with_reducible refine Keeps.ite (fun _ => ?_) (fun _ => ?_)
    | with_reducible refine Keeps.iteP (fun _ => ?_) (fun _ => ?_)
    | simp only [keeps_upd, p_out, p_hp, p_ce, p_pm, or_true, true_or, length_lmod, length_lset, List.length_map] | split
    | dsimp only | intro _

theorem State.allReady_keeps (h : Keeps F s t) (ls) (p_out : F .out := by assumption) (p_hp : F .hp := by assumption)
    (p_ce : F .ce := by assumption) (p_pm : F .pm := by assumption) : Keeps F s (State.allReady t ls).1 := by
  unfold State.allReady
  try dsimp only
  repeat' first
    | with_reducible assumption | with_reducible refine State.ceReady_keeps ?_ _
    | with_reducible refine Keeps.foldl (fun _ _ _ => ?_) _ ?_ | with_reducible refine Keeps.foldlP (fun _ _ _ => ?_) _ ?_
    | dsimp only | intro _

theorem State.ceUpdate_keeps (h : Keeps F s t) (set) (leaf) (level) (pk) (by_) (p_out : F .out := by assumption)
    (p_dram : F .dram := by assumption) (p_hp : F .hp := by assumption) (p_rg : F .rg := by assumption)
    (p_tr : F .tr := by assumption) (p_cd : F .cd := by assumption) (p_lp : F .lp := by assumption)
    (p_sx : F .sx := by assumption) (p_mc : F .mc := by assumption) (p_bw : F .bw := by assumption)
    (p_ce : F .ce := by assumption) (p_fc : F .fc := by assumption) (p_pm : F .pm := by assumption)
    : Keeps F s (State.ceUpdate t set leaf level pk by_) := by
  unfold State.ceUpdate
  try dsimp only
  repeat' first
    | with_reducible assumption | with_reducible refine State.allReady_keeps ?_ _
    | with_reducible refine State.pairAdd_keeps ?_ _ _ _ _ _ | with_reducible refine Keeps.ite (fun _ => ?_) (fun _ => ?_)
    | with_reducible refine Keeps.iteP (fun _ => ?_) (fun _ => ?_)
    | simp only [keeps_upd, p_out, p_dram, p_hp, p_rg, p_tr, p_cd, p_lp, p_sx, p_mc, p_bw, p_ce, p_fc, p_pm, or_true, true_or, length_lmod, length_lset, List.length_map]
    | split | dsimp only | intro _

theorem State.ceAdd_keeps (h : Keeps F s t) (set) (leaf) (pk) (by_) (p_out : F .out := by assumption)
    (p_dram : F .dram := by assumption) (p_hp : F .hp := by assumption) (p_rg : F .rg := by assumption)
    (p_tr : F .tr := by assumption) (p_cd : F .cd := by assumption) (p_lp : F .lp := by assumption)
    (p_sx : F .sx := by assumption) (p_mc : F .mc := by assumption) (p_bw : F .bw := by assumption)
    (p_ce : F .ce := by assumption) (p_fc : F .fc := by assumption) (p_pm : F .pm := by assumption)
    : Keeps F s (State.ceAdd t set leaf pk by_) := by
  unfold State.ceAdd
  try dsimp only
  repeat' first
    | with_reducible assumption | with_reducible refine State.ceUpdate_keeps ?_ _ _ _ _ _
    | with_reducible refine Keeps.foldl (fun _ _ _ => ?_) _ ?_ | with_reducible refine Keeps.foldlP (fun _ _ _ => ?_) _ ?_ | split
    | dsimp only | intro _

theorem State.ceResume_keeps (h : Keeps F s t) (p_out : F .out := by assumption) (p_dram : F .dram := by assumption) (p_hp : F .hp := by assumption) (p_rg : F .rg := by assumption) (p_tr : F .tr := by assumption) (p_cd : F .cd := by assumption) (p_lp : F .lp := by assumption) (p_sx : F .sx := by assumption) (p_mc : F .mc := by assumption) (p_bw : F .bw := by assumption) (p_ce : F .ce := by assumption) (p_fc : F .fc := by assumption) (p_pm : F .pm := by assumption) : Keeps F s t.ceResume := by
  unfold State.ceResume
  repeat' first
    | with_reducible assumption | intro _ | with_reducible refine State.ceUpdate_keeps ?_ _ _ _ _ _
    | with_reducible refine Keeps.foldl (fun _ _ _ => ?_) _ ?_
    | simp only [keeps_upd, p_out, p_dram, p_hp, p_rg, p_tr, p_cd, p_lp, p_sx, p_mc, p_bw, p_ce, p_fc, p_pm, or_true, true_or, length_lmod, length_lset, List.length_map]

theorem State.ceMalf_keeps (h : Keeps F s t) (f) (window) (reason) (counts) (p_out : F .out := by assumption)
    (p_hp : F .hp := by assumption) (p_ce : F .ce := by assumption) (p_mb : F .mb := by assumption)
    (p_fc : F .fc := by assumption) : Keeps F s (State.ceMalf t f window reason counts) := by
  unfold State.ceMalf
  try dsimp only
  repeat' first
    | with_reducible assumption | with_reducible refine State.malformed_keeps ?_ _
    | with_reducible refine State.reportAgg_keeps ?_ _ _ _ _ _ | with_reducible refine Keeps.ite (fun _ => ?_) (fun _ => ?_)
    | with_reducible refine Keeps.iteP (fun _ => ?_) (fun _ => ?_)
    | simp only [keeps_upd, p_out, p_hp, p_ce, p_mb, p_fc, or_true, true_or, length_lmod, length_lset, List.length_map] | split
    | dsimp only | intro _

theorem State.ceRecord_keeps (h : Keeps F s t) (f) (window) (rec) (p_out : F .out := by assumption)
    (p_dram : F .dram := by assumption) (p_hp : F .hp := by assumption) (p_rg : F .rg := by assumption)
    (p_tr : F .tr := by assumption) (p_cd : F .cd := by assumption) (p_lp : F .lp := by assumption)
    (p_sx : F .sx := by assumption) (p_mc : F .mc := by assumption) (p_bw : F .bw := by assumption)
    (p_ce : F .ce := by assumption) (p_mb : F .mb := by assumption) (p_fc : F .fc := by assumption)
    (p_pm : F .pm := by assumption) : Keeps F s (State.ceRecord t f window rec) := by
  unfold State.ceRecord
  try dsimp only
  repeat' first
    | with_reducible assumption | with_reducible refine State.ceMalf_keeps ?_ _ _ _ _
    | with_reducible refine State.report_keeps ?_ _ _ _ | with_reducible refine State.freeze_keeps ?_ _ _
    | with_reducible refine State.ceAdd_keeps ?_ _ _ _ _ | with_reducible refine Keeps.ite (fun _ => ?_) (fun _ => ?_)
    | with_reducible refine Keeps.iteP (fun _ => ?_) (fun _ => ?_) | split | dsimp only | intro _

theorem State.takeRecord_keeps (h : Keeps F s t) (f) (enqueue) {u} (hu : t.takeRecord f enqueue = some u)
    (p_hp : F .hp := by assumption) : Keeps F s u.1 := by
  unfold State.takeRecord at hu
  dsimp only at hu
  repeat' (split at hu)
  all_goals first
    | (cases hu; done)
    | (obtain rfl := Option.some.inj hu; exact State.modPort_keeps h _ _)

theorem State.ceHalt_keeps (h : Keeps F s t) (ctx) (p_ce : F .ce := by assumption) (p_fc : F .fc := by assumption)
    : Keeps F s (State.ceHalt t ctx) := by
  unfold State.ceHalt
  try dsimp only
  repeat' first
    | with_reducible assumption | with_reducible refine State.report_keeps ?_ _ _ _
    | simp only [keeps_upd, p_ce, p_fc, or_true, true_or, length_lmod, length_lset, List.length_map] | split | intro _

theorem updateRecord_keeps (h : Keeps F s t) (f) (halt) (p_out : F .out := by assumption) (p_dram : F .dram := by assumption)
    (p_hp : F .hp := by assumption) (p_rg : F .rg := by assumption) (p_tr : F .tr := by assumption)
    (p_cd : F .cd := by assumption) (p_lp : F .lp := by assumption) (p_sx : F .sx := by assumption)
    (p_mc : F .mc := by assumption) (p_bw : F .bw := by assumption) (p_ce : F .ce := by assumption)
    (p_mb : F .mb := by assumption) (p_fc : F .fc := by assumption) (p_pm : F .pm := by assumption)
    : Keeps F s (updateRecord f halt t) := by
  unfold updateRecord
  try dsimp only
  repeat' first
    | with_reducible assumption | with_reducible exact State.takeRecord_keeps (by assumption) _ _ (by assumption)
    | with_reducible refine State.emit_keeps ?_ _ | with_reducible refine State.ceHalt_keeps ?_ _
    | with_reducible refine State.ceRecord_keeps ?_ _ _ _ | with_reducible refine Keeps.ite (fun _ => ?_) (fun _ => ?_)
    | with_reducible refine Keeps.iteP (fun _ => ?_) (fun _ => ?_) | split | intro _

theorem queueEventCount_keeps (h : Keeps F s t) (p_out : F .out := by assumption) (p_dram : F .dram := by assumption)
    (p_hp : F .hp := by assumption) (p_rg : F .rg := by assumption) (p_tr : F .tr := by assumption)
    (p_cd : F .cd := by assumption) (p_lp : F .lp := by assumption) (p_sx : F .sx := by assumption)
    (p_mc : F .mc := by assumption) (p_bw : F .bw := by assumption) (p_ce : F .ce := by assumption)
    (p_fc : F .fc := by assumption) (p_pm : F .pm := by assumption) : Keeps F s (queueEventCount t) := by
  unfold queueEventCount
  try dsimp only
  repeat' first
    | with_reducible assumption | with_reducible refine State.count_keeps ?_ _ _ _
    | with_reducible refine State.ceAdd_keeps ?_ _ _ _ _ | with_reducible refine Keeps.ite (fun _ => ?_) (fun _ => ?_)
    | with_reducible refine Keeps.iteP (fun _ => ?_) (fun _ => ?_)
    | simp only [keeps_upd, p_out, p_dram, p_hp, p_rg, p_tr, p_cd, p_lp, p_sx, p_mc, p_bw, p_ce, p_fc, p_pm, or_true, true_or, length_lmod, length_lset, List.length_map]
    | split | dsimp only | intro _

theorem ceRecomputeStep_keeps (h : Keeps F s t) (p_out : F .out := by assumption) (p_dram : F .dram := by assumption)
    (p_hp : F .hp := by assumption) (p_rg : F .rg := by assumption) (p_tr : F .tr := by assumption)
    (p_cd : F .cd := by assumption) (p_lp : F .lp := by assumption) (p_sx : F .sx := by assumption)
    (p_mc : F .mc := by assumption) (p_bw : F .bw := by assumption) (p_ce : F .ce := by assumption)
    (p_fc : F .fc := by assumption) (p_pm : F .pm := by assumption) : Keeps F s (ceRecomputeStep t) := by
  unfold ceRecomputeStep
  try dsimp only
  repeat' first
    | with_reducible assumption | with_reducible refine State.allReady_keeps ?_ _ | with_reducible refine State.stGet_keeps ?_ _ _ _
    | with_reducible refine State.pairGet_keeps ?_ _ _ _ | with_reducible refine State.pairSet_keeps ?_ _ _ _ _ _
    | with_reducible refine State.stSet_keeps ?_ _ _ _ _ | with_reducible refine State.ceEnded_keeps ?_ _
    | with_reducible refine Com.sets_keeps ?_ _ | with_reducible refine Keeps.ite (fun _ => ?_) (fun _ => ?_)
    | with_reducible refine Keeps.iteP (fun _ => ?_) (fun _ => ?_)
    | simp only [keeps_upd, p_out, p_dram, p_hp, p_rg, p_tr, p_cd, p_lp, p_sx, p_mc, p_bw, p_ce, p_fc, p_pm, or_true, true_or, length_lmod, length_lset, List.length_map]
    | split | dsimp only | intro _

theorem State.ctrRead_keeps (h : Keeps F s t) (x) (p_out : F .out := by assumption) (p_dram : F .dram := by assumption)
    (p_rg : F .rg := by assumption) (p_tr : F .tr := by assumption) (p_cd : F .cd := by assumption)
    (p_lp : F .lp := by assumption) (p_sx : F .sx := by assumption) (p_mc : F .mc := by assumption)
    (p_bw : F .bw := by assumption) (p_ce : F .ce := by assumption) (p_fc : F .fc := by assumption)
    (p_pm : F .pm := by assumption) : Keeps F s (State.ctrRead t x).1 := by
  unfold State.ctrRead
  try dsimp only
  repeat' first
    | with_reducible assumption | with_reducible refine State.stLine_keeps ?_ _ _ _
    | with_reducible refine State.cLine_keeps ?_ _ _ _ | with_reducible refine Keeps.ite (fun _ => ?_) (fun _ => ?_)
    | with_reducible refine Keeps.iteP (fun _ => ?_) (fun _ => ?_) | split | intro _

theorem State.ctrReady_keeps (h : Keeps F s t) (x) (l) (write) (full) (cached) (p_out : F .out := by assumption)
    (p_hp : F .hp := by assumption) (p_ce : F .ce := by assumption) (p_pm : F .pm := by assumption)
    : Keeps F s (State.ctrReady t x l write full cached).1 := by
  unfold State.ctrReady
  try dsimp only
  repeat' first
    | with_reducible assumption | with_reducible refine State.allReady_keeps ?_ _
    | with_reducible refine Keeps.ite (fun _ => ?_) (fun _ => ?_) | with_reducible refine Keeps.iteP (fun _ => ?_) (fun _ => ?_)
    | split | dsimp only | intro _

theorem State.filterRead_keeps (h : Keeps F s t) (l) (p_out : F .out := by assumption) (p_hp : F .hp := by assumption)
    (p_ce : F .ce := by assumption) (p_pm : F .pm := by assumption) : Keeps F s (State.filterRead t l) := by
  unfold State.filterRead
  try dsimp only
  repeat' first
    | with_reducible assumption | with_reducible refine State.sendSnoops_keeps ?_ _ _
    | with_reducible refine Keeps.ite (fun _ => ?_) (fun _ => ?_) | with_reducible refine Keeps.iteP (fun _ => ?_) (fun _ => ?_)
    | simp only [keeps_upd, p_out, p_hp, p_ce, p_pm, or_true, true_or, length_lmod, length_lset, List.length_map] | split
    | dsimp only | intro _

theorem State.ceBad_keeps (h : Keeps F s t) (x) (p_out : F .out := by assumption) (p_dram : F .dram := by assumption)
    (p_hp : F .hp := by assumption) (p_rg : F .rg := by assumption) (p_tr : F .tr := by assumption)
    (p_cd : F .cd := by assumption) (p_lp : F .lp := by assumption) (p_sx : F .sx := by assumption)
    (p_mc : F .mc := by assumption) (p_bw : F .bw := by assumption) (p_ce : F .ce := by assumption)
    (p_fc : F .fc := by assumption) (p_pm : F .pm := by assumption) : Keeps F s (State.ceBad t x) := by
  unfold State.ceBad
  try dsimp only
  repeat' first
    | with_reducible assumption | with_reducible refine State.ceUpdate_keeps ?_ _ _ _ _ _
    | with_reducible refine Keeps.ite (fun _ => ?_) (fun _ => ?_) | with_reducible refine Keeps.iteP (fun _ => ?_) (fun _ => ?_)
    | simp only [keeps_upd, p_out, p_dram, p_hp, p_rg, p_tr, p_cd, p_lp, p_sx, p_mc, p_bw, p_ce, p_fc, p_pm, or_true, true_or, length_lmod, length_lset, List.length_map]
    | split | dsimp only | intro _

theorem State.ctrWrite_keeps (h : Keeps F s t) (x) (l) (d) (en) (p_out : F .out := by assumption)
    (p_dram : F .dram := by assumption) (p_rg : F .rg := by assumption) (p_tr : F .tr := by assumption)
    (p_cd : F .cd := by assumption) (p_lp : F .lp := by assumption) (p_sx : F .sx := by assumption)
    (p_mc : F .mc := by assumption) (p_bw : F .bw := by assumption) (p_ce : F .ce := by assumption)
    (p_fc : F .fc := by assumption) (p_pm : F .pm := by assumption) : Keeps F s (State.ctrWrite t x l d en) := by
  unfold State.ctrWrite
  try dsimp only
  repeat' first
    | with_reducible assumption | with_reducible refine State.ceSetLine_keeps ?_ _ _
    | with_reducible refine State.ctrRead_keeps ?_ _ | with_reducible refine State.reread_keeps ?_ _ _ _
    | with_reducible refine Keeps.ite (fun _ => ?_) (fun _ => ?_) | with_reducible refine Keeps.iteP (fun _ => ?_) (fun _ => ?_)
    | split | dsimp only | intro _

theorem ceClear_keeps (h : Keeps F s t) (a1) (a2) (p_mb : F .mb := by assumption) : Keeps F s (ceClear a1 a2 t).1 := by
  unfold ceClear
  try dsimp only
  repeat' first
    | with_reducible assumption | with_reducible refine State.direct_keeps ?_ _ _ _ _ _
    | with_reducible refine State.startBg_keeps ?_ _ _ _ _ _ _ | with_reducible refine Keeps.ite (fun _ => ?_) (fun _ => ?_)
    | with_reducible refine Keeps.iteP (fun _ => ?_) (fun _ => ?_) | split | dsimp only | intro _

theorem State.ceClearLine_keeps (h : Keeps F s t) (set) (level) (first) (count) (i) (p_out : F .out := by assumption)
    (p_dram : F .dram := by assumption) (p_hp : F .hp := by assumption) (p_rg : F .rg := by assumption)
    (p_tr : F .tr := by assumption) (p_cd : F .cd := by assumption) (p_lp : F .lp := by assumption)
    (p_sx : F .sx := by assumption) (p_mc : F .mc := by assumption) (p_bw : F .bw := by assumption)
    (p_ce : F .ce := by assumption) (p_fc : F .fc := by assumption) (p_pm : F .pm := by assumption)
    : Keeps F s (State.ceClearLine t set level first count i).1 := by
  unfold State.ceClearLine
  try dsimp only
  repeat' first
    | with_reducible assumption | with_reducible refine State.allReady_keeps ?_ _
    | with_reducible refine State.pairSet_keeps ?_ _ _ _ _ _ | with_reducible refine State.stGet_keeps ?_ _ _ _
    | with_reducible refine State.stSet_keeps ?_ _ _ _ _ | with_reducible refine State.reread_keeps ?_ _ _ _
    | with_reducible refine Keeps.foldl (fun _ _ _ => ?_) _ ?_ | with_reducible refine Keeps.foldlP (fun _ _ _ => ?_) _ ?_
    | with_reducible refine Keeps.ite (fun _ => ?_) (fun _ => ?_) | with_reducible refine Keeps.iteP (fun _ => ?_) (fun _ => ?_)
    | split | dsimp only | intro _

theorem ceQuery_keeps (h : Keeps F s t) (a1) (a2) (p_mb : F .mb := by assumption) : Keeps F s (ceQuery a1 a2 t).1 := by
  unfold ceQuery
  try dsimp only
  repeat' first
    | with_reducible assumption | with_reducible refine query_keeps ?_ _ _ _ _ _ _
    | with_reducible refine Keeps.ite (fun _ => ?_) (fun _ => ?_) | with_reducible refine Keeps.iteP (fun _ => ?_) (fun _ => ?_)
    | simp only [keeps_upd, p_mb, or_true, true_or, length_lmod, length_lset, List.length_map] | split | dsimp only | intro _

theorem ceCtl_keeps (h : Keeps F s t) (a1) (a2) (p_ce : F .ce := by assumption) : Keeps F s (ceCtl a1 a2 t).1 := by
  unfold ceCtl
  try dsimp only
  repeat' first
    | with_reducible assumption | with_reducible refine Keeps.ite (fun _ => ?_) (fun _ => ?_)
    | with_reducible refine Keeps.iteP (fun _ => ?_) (fun _ => ?_)
    | simp only [keeps_upd, p_ce, or_true, true_or, length_lmod, length_lset, List.length_map] | split | dsimp only | intro _

theorem State.memRead_keeps (h : Keeps F s t) (l) (w) (p_out : F .out := by assumption) (p_fresh : F .fresh := by assumption)
    (p_dram : F .dram := by assumption) (p_hp : F .hp := by assumption) (p_rr : F .rr := by assumption)
    (p_rg : F .rg := by assumption) (p_ns : F .ns := by assumption) (p_tr : F .tr := by assumption)
    (p_cd : F .cd := by assumption) (p_lp : F .lp := by assumption) (p_sx : F .sx := by assumption)
    (p_mc : F .mc := by assumption) (p_bw : F .bw := by assumption) (p_ce : F .ce := by assumption)
    (p_fc : F .fc := by assumption) (p_pm : F .pm := by assumption) : Keeps F s (State.memRead t l w).1 := by
  unfold State.memRead
  try dsimp only
  repeat' first
    | with_reducible assumption | with_reducible refine State.ctrRead_keeps ?_ _
    | with_reducible refine State.orderedRead_keeps ?_ _ _ | split | dsimp only | intro _

end Sys2Proof.Machine
end

