-- ==== Sys2Proof/Laws/KeepsPath.lean ====
section
/-! SUPPORT. What each operation of Machine/Path.lean keeps: the request path. -/

set_option Elab.async false

set_option linter.all false

namespace Sys2Proof.Machine
open Sys2Proof

variable {F : Part → Prop} {s t : State}

theorem State.waitFor_keeps (h : Keeps F s t) (l) (x) (p_rr : F .rr := by assumption) : Keeps F s (State.waitFor t l x) := by
  unfold State.waitFor
  try dsimp only
  repeat' first
    | with_reducible assumption | with_reducible refine Keeps.ite (fun _ => ?_) (fun _ => ?_)
    | with_reducible refine Keeps.iteP (fun _ => ?_) (fun _ => ?_)
    | simp only [keeps_upd, p_rr, or_true, true_or, length_lmod, length_lset, List.length_map] | split | dsimp only | intro _

theorem State.issueFetch_keeps (h : Keeps F s t) (n) (kind) (off) (l) (q) (dpa) (p_out : F .out := by assumption)
    (p_fresh : F .fresh := by assumption) (p_dram : F .dram := by assumption) (p_hp : F .hp := by assumption)
    (p_rr : F .rr := by assumption) (p_rg : F .rg := by assumption) (p_ns : F .ns := by assumption)
    (p_tr : F .tr := by assumption) (p_cd : F .cd := by assumption) (p_lp : F .lp := by assumption)
    (p_sx : F .sx := by assumption) (p_mc : F .mc := by assumption) (p_bw : F .bw := by assumption)
    (p_fc : F .fc := by assumption) (p_pm : F .pm := by assumption) : Keeps F s (State.issueFetch t n kind off l q dpa) := by
  unfold State.issueFetch
  try dsimp only
  repeat' first
    | with_reducible assumption | with_reducible refine State.arrive_keeps ?_ _ _ _
    | with_reducible refine State.queueRead_keeps ?_ _ _ _ _ | with_reducible refine State.settle_keeps ?_ _ _
    | with_reducible refine Keeps.ite (fun _ => ?_) (fun _ => ?_) | with_reducible refine Keeps.iteP (fun _ => ?_) (fun _ => ?_)
    | simp only [keeps_upd, p_out, p_fresh, p_dram, p_hp, p_rr, p_rg, p_ns, p_tr, p_cd, p_lp, p_sx, p_mc, p_bw, p_fc, p_pm, or_true, true_or, length_lmod, length_lset, List.length_map]
    | split | dsimp only | intro _

theorem State.fetchFor_keeps (h : Keeps F s t) (l) (q) (dpa) (p_out : F .out := by assumption)
    (p_fresh : F .fresh := by assumption) (p_dram : F .dram := by assumption) (p_hp : F .hp := by assumption)
    (p_rr : F .rr := by assumption) (p_rg : F .rg := by assumption) (p_ns : F .ns := by assumption)
    (p_tr : F .tr := by assumption) (p_cd : F .cd := by assumption) (p_lp : F .lp := by assumption)
    (p_sx : F .sx := by assumption) (p_mc : F .mc := by assumption) (p_bw : F .bw := by assumption)
    (p_fc : F .fc := by assumption) (p_pm : F .pm := by assumption) : Keeps F s (State.fetchFor t l q dpa) := by
  unfold State.fetchFor
  try dsimp only
  repeat' first
    | with_reducible assumption | with_reducible refine State.answerRead_keeps ?_ _ _ _
    | with_reducible refine State.count_keeps ?_ _ _ _ | with_reducible refine State.readYard_keeps ?_ _ _ _ _
    | with_reducible refine State.arrive_keeps ?_ _ _ _ | with_reducible refine Com.tier_keeps ?_ _ _
    | with_reducible refine State.issueFetch_keeps ?_ _ _ _ _ _ _ | with_reducible refine State.heat_keeps ?_ _ _ _
    | with_reducible refine Keeps.ite (fun _ => ?_) (fun _ => ?_) | with_reducible refine Keeps.iteP (fun _ => ?_) (fun _ => ?_)
    | simp only [keeps_upd, p_out, p_fresh, p_dram, p_hp, p_rr, p_rg, p_ns, p_tr, p_cd, p_lp, p_sx, p_mc, p_bw, p_fc, p_pm, or_true, true_or, length_lmod, length_lset, List.length_map]
    | split | dsimp only | intro _

theorem State.ctrHold_keeps (h : Keeps F s t) (x) (p_ce : F .ce := by assumption) : Keeps F s (State.ctrHold t x) := by
  unfold State.ctrHold
  try dsimp only
  repeat' first
    | with_reducible assumption | simp only [keeps_upd, p_ce, or_true, true_or, length_lmod, length_lset, List.length_map] | intro _

theorem State.serveRead_keeps (h : Keeps F s t) (q) (dpa) (noCopy) (p_out : F .out := by assumption)
    (p_fresh : F .fresh := by assumption) (p_dram : F .dram := by assumption) (p_hp : F .hp := by assumption)
    (p_rr : F .rr := by assumption) (p_rg : F .rg := by assumption) (p_ns : F .ns := by assumption)
    (p_tr : F .tr := by assumption) (p_cd : F .cd := by assumption) (p_lp : F .lp := by assumption)
    (p_sx : F .sx := by assumption) (p_mc : F .mc := by assumption) (p_bw : F .bw := by assumption)
    (p_ce : F .ce := by assumption) (p_fc : F .fc := by assumption) (p_pm : F .pm := by assumption)
    : Keeps F s (State.serveRead t q dpa noCopy) := by
  unfold State.serveRead
  try dsimp only
  repeat' first
    | with_reducible assumption | with_reducible refine State.ctrReady_keeps ?_ _ _ _ _ _
    | with_reducible refine State.ctrRead_keeps ?_ _ | with_reducible refine State.filterRead_keeps ?_ _
    | with_reducible refine State.answerRead_keeps ?_ _ _ _ | with_reducible refine State.ctrHold_keeps ?_ _
    | with_reducible refine State.waitFor_keeps ?_ _ _ | with_reducible refine State.nsServe_keeps ?_ _
    | with_reducible refine State.fetchFor_keeps ?_ _ _ _ | with_reducible refine Keeps.ite (fun _ => ?_) (fun _ => ?_)
    | with_reducible refine Keeps.iteP (fun _ => ?_) (fun _ => ?_) | split | dsimp only | intro _

theorem State.touchFor_keeps (h : Keeps F s t) (l) (w) (p_out : F .out := by assumption) (p_dram : F .dram := by assumption)
    (p_rg : F .rg := by assumption) (p_tr : F .tr := by assumption) (p_cd : F .cd := by assumption)
    (p_lp : F .lp := by assumption) (p_sx : F .sx := by assumption) (p_mc : F .mc := by assumption)
    (p_bw : F .bw := by assumption) (p_fc : F .fc := by assumption) (p_pm : F .pm := by assumption)
    : Keeps F s (State.touchFor t l w) := by
  unfold State.touchFor
  try dsimp only
  repeat' first
    | with_reducible assumption | with_reducible refine Com.tier_keeps ?_ _ _
    | with_reducible refine State.touchBlock_keeps ?_ _ _ _ | with_reducible refine State.pageGet_keeps ?_ _ _ _
    | with_reducible refine Keeps.ite (fun _ => ?_) (fun _ => ?_) | with_reducible refine Keeps.iteP (fun _ => ?_) (fun _ => ?_)
    | split | dsimp only | intro _

theorem State.serveWrite_keeps (h : Keeps F s t) (q) (dpa) (d) (en) (poison) (p_out : F .out := by assumption)
    (p_fresh : F .fresh := by assumption) (p_dram : F .dram := by assumption) (p_hp : F .hp := by assumption)
    (p_rr : F .rr := by assumption) (p_rg : F .rg := by assumption) (p_ns : F .ns := by assumption)
    (p_tr : F .tr := by assumption) (p_cd : F .cd := by assumption) (p_lp : F .lp := by assumption)
    (p_sx : F .sx := by assumption) (p_mc : F .mc := by assumption) (p_bw : F .bw := by assumption)
    (p_ce : F .ce := by assumption) (p_mb : F .mb := by assumption) (p_fc : F .fc := by assumption)
    (p_pm : F .pm := by assumption) : Keeps F s (State.serveWrite t q dpa d en poison) := by
  unfold State.serveWrite
  try dsimp only
  repeat' first
    | with_reducible assumption | with_reducible refine State.respond_keeps ?_ _ _
    | with_reducible refine State.ceMalf_keeps ?_ _ _ _ _ | with_reducible refine State.ctrReady_keeps ?_ _ _ _ _ _
    | with_reducible refine State.ctrWrite_keeps ?_ _ _ _ _ | with_reducible refine State.ctrHold_keeps ?_ _
    | with_reducible refine State.waitFor_keeps ?_ _ _ | with_reducible refine State.nsWrite_keeps ?_ _ _ _ _ _
    | with_reducible refine State.captureBroken_keeps ?_ _ | with_reducible refine State.fetchFor_keeps ?_ _ _ _
    | with_reducible refine Keeps.ite (fun _ => ?_) (fun _ => ?_) | with_reducible refine Keeps.iteP (fun _ => ?_) (fun _ => ?_)
    | simp only [keeps_upd, p_out, p_fresh, p_dram, p_hp, p_rr, p_rg, p_ns, p_tr, p_cd, p_lp, p_sx, p_mc, p_bw, p_ce, p_mb, p_fc, p_pm, or_true, true_or, length_lmod, length_lset, List.length_map]
    | split | dsimp only | intro _

theorem State.ctrResume_keeps (h : Keeps F s t) (p_out : F .out := by assumption) (p_fresh : F .fresh := by assumption)
    (p_dram : F .dram := by assumption) (p_hp : F .hp := by assumption) (p_rr : F .rr := by assumption)
    (p_rg : F .rg := by assumption) (p_ns : F .ns := by assumption) (p_tr : F .tr := by assumption)
    (p_cd : F .cd := by assumption) (p_lp : F .lp := by assumption) (p_sx : F .sx := by assumption)
    (p_mc : F .mc := by assumption) (p_bw : F .bw := by assumption) (p_ce : F .ce := by assumption)
    (p_mb : F .mb := by assumption) (p_fc : F .fc := by assumption) (p_pm : F .pm := by assumption)
    : Keeps F s (State.ctrResume t) := by
  unfold State.ctrResume
  try dsimp only
  repeat' first
    | with_reducible assumption | with_reducible refine State.serveRead_keeps ?_ _ _ _
    | with_reducible refine State.serveWrite_keeps ?_ _ _ _ _ _ | with_reducible refine Keeps.foldl (fun _ _ _ => ?_) _ ?_
    | with_reducible refine Keeps.foldlP (fun _ _ _ => ?_) _ ?_
    | simp only [keeps_upd, p_out, p_fresh, p_dram, p_hp, p_rr, p_rg, p_ns, p_tr, p_cd, p_lp, p_sx, p_mc, p_bw, p_ce, p_mb, p_fc, p_pm, or_true, true_or, length_lmod, length_lset, List.length_map]
    | split | dsimp only | intro _

theorem State.hostOne_keeps (h : Keeps F s t) (touch) (q) (p_out : F .out := by assumption)
    (p_fresh : F .fresh := by assumption) (p_dram : F .dram := by assumption) (p_hp : F .hp := by assumption)
    (p_rr : F .rr := by assumption) (p_rg : F .rg := by assumption) (p_ns : F .ns := by assumption)
    (p_tr : F .tr := by assumption) (p_cd : F .cd := by assumption) (p_lp : F .lp := by assumption)
    (p_sx : F .sx := by assumption) (p_mc : F .mc := by assumption) (p_bw : F .bw := by assumption)
    (p_ce : F .ce := by assumption) (p_mb : F .mb := by assumption) (p_fc : F .fc := by assumption)
    (p_pw : F .pw := by assumption) (p_pm : F .pm := by assumption) : Keeps F s (State.hostOne t touch q) := by
  unfold State.hostOne
  try dsimp only
  repeat' first
    | with_reducible assumption | with_reducible refine State.answerRead_keeps ?_ _ _ _
    | with_reducible refine State.emit_keeps ?_ _ | with_reducible refine State.modFn_keeps ?_ _ _
    | with_reducible refine State.beginWake_keeps ?_ _ | with_reducible refine State.count_keeps ?_ _ _ _
    | with_reducible refine State.report_keeps ?_ _ _ _ | with_reducible refine State.serveRead_keeps ?_ _ _ _
    | with_reducible refine State.touchFor_keeps ?_ _ _ | with_reducible refine State.serveWrite_keeps ?_ _ _ _ _ _
    | with_reducible refine State.freeze_keeps ?_ _ _ | with_reducible refine Keeps.ite (fun _ => ?_) (fun _ => ?_)
    | with_reducible refine Keeps.iteP (fun _ => ?_) (fun _ => ?_) | split | dsimp only | intro _

theorem State.hostEnter_keeps (h : Keeps F s t) (touch) (q) (p_out : F .out := by assumption)
    (p_fresh : F .fresh := by assumption) (p_dram : F .dram := by assumption) (p_hp : F .hp := by assumption)
    (p_rr : F .rr := by assumption) (p_rg : F .rg := by assumption) (p_ns : F .ns := by assumption)
    (p_tr : F .tr := by assumption) (p_cd : F .cd := by assumption) (p_lp : F .lp := by assumption)
    (p_sx : F .sx := by assumption) (p_mc : F .mc := by assumption) (p_bw : F .bw := by assumption)
    (p_ce : F .ce := by assumption) (p_mb : F .mb := by assumption) (p_fc : F .fc := by assumption)
    (p_pw : F .pw := by assumption) (p_pm : F .pm := by assumption) : Keeps F s (State.hostEnter t touch q) := by
  unfold State.hostEnter
  try dsimp only
  repeat' first
    | with_reducible assumption | with_reducible refine State.modFn_keeps ?_ _ _ | with_reducible refine State.hostOne_keeps ?_ _ _
    | with_reducible refine Keeps.ite (fun _ => ?_) (fun _ => ?_) | with_reducible refine Keeps.iteP (fun _ => ?_) (fun _ => ?_)
    | split | dsimp only | intro _

theorem State.admit_keeps (h : Keeps F s t) (p_out : F .out := by assumption) (p_fresh : F .fresh := by assumption)
    (p_dram : F .dram := by assumption) (p_hp : F .hp := by assumption) (p_rr : F .rr := by assumption)
    (p_rg : F .rg := by assumption) (p_ns : F .ns := by assumption) (p_tr : F .tr := by assumption)
    (p_cd : F .cd := by assumption) (p_lp : F .lp := by assumption) (p_sx : F .sx := by assumption)
    (p_mc : F .mc := by assumption) (p_bw : F .bw := by assumption) (p_ce : F .ce := by assumption)
    (p_mb : F .mb := by assumption) (p_fc : F .fc := by assumption) (p_pw : F .pw := by assumption)
    (p_pm : F .pm := by assumption) : Keeps F s (State.enterKept t) := by
  unfold State.enterKept
  try dsimp only
  repeat' first
    | with_reducible assumption | with_reducible refine State.hostEnter_keeps ?_ _ _
    | with_reducible refine State.modFn_keeps ?_ _ _ | with_reducible refine Keeps.foldl (fun _ _ _ => ?_) _ ?_
    | with_reducible refine Keeps.foldlP (fun _ _ _ => ?_) _ ?_ | with_reducible refine Keeps.ite (fun _ => ?_) (fun _ => ?_)
    | with_reducible refine Keeps.iteP (fun _ => ?_) (fun _ => ?_) | split | dsimp only | intro _

theorem State.tied_keeps (h : Keeps F s t) (group) (p_rr : F .rr := by assumption) (p_pm : F .pm := by assumption)
    : Keeps F s (State.tied t group).1 := by
  unfold State.tied
  try dsimp only
  repeat' first
    | with_reducible assumption | with_reducible refine State.count_keeps ?_ _ _ _
    | with_reducible refine Keeps.ite (fun _ => ?_) (fun _ => ?_) | with_reducible refine Keeps.iteP (fun _ => ?_) (fun _ => ?_)
    | simp only [keeps_upd, p_rr, p_pm, or_true, true_or, length_lmod, length_lset, List.length_map] | split | dsimp only | intro _

theorem State.inOrder_keeps (h : Keeps F s t) (touch) (group) (p_out : F .out := by assumption)
    (p_fresh : F .fresh := by assumption) (p_dram : F .dram := by assumption) (p_hp : F .hp := by assumption)
    (p_rr : F .rr := by assumption) (p_rg : F .rg := by assumption) (p_ns : F .ns := by assumption)
    (p_tr : F .tr := by assumption) (p_cd : F .cd := by assumption) (p_lp : F .lp := by assumption)
    (p_sx : F .sx := by assumption) (p_mc : F .mc := by assumption) (p_bw : F .bw := by assumption)
    (p_ce : F .ce := by assumption) (p_mb : F .mb := by assumption) (p_fc : F .fc := by assumption)
    (p_pw : F .pw := by assumption) (p_pm : F .pm := by assumption) : Keeps F s (State.inOrder t touch group) := by
  unfold State.inOrder
  try dsimp only
  repeat' first
    | with_reducible assumption | with_reducible refine State.hostEnter_keeps ?_ _ _ | with_reducible refine State.tied_keeps ?_ _
    | with_reducible refine Keeps.foldl (fun _ _ _ => ?_) _ ?_ | with_reducible refine Keeps.foldlP (fun _ _ _ => ?_) _ ?_
    | with_reducible refine Keeps.ite (fun _ => ?_) (fun _ => ?_) | with_reducible refine Keeps.iteP (fun _ => ?_) (fun _ => ?_)
    | simp only [keeps_upd, p_out, p_fresh, p_dram, p_hp, p_rr, p_rg, p_ns, p_tr, p_cd, p_lp, p_sx, p_mc, p_bw, p_ce, p_mb, p_fc, p_pw, p_pm, or_true, true_or, length_lmod, length_lset, List.length_map]
    | split | dsimp only | intro _

theorem State.afterEngine_keeps (h : Keeps F s t) (who) (p_out : F .out := by assumption) (p_fresh : F .fresh := by assumption)
    (p_dram : F .dram := by assumption) (p_hp : F .hp := by assumption) (p_rr : F .rr := by assumption)
    (p_rg : F .rg := by assumption) (p_ns : F .ns := by assumption) (p_tr : F .tr := by assumption)
    (p_cd : F .cd := by assumption) (p_lp : F .lp := by assumption) (p_sx : F .sx := by assumption)
    (p_mc : F .mc := by assumption) (p_bw : F .bw := by assumption) (p_ce : F .ce := by assumption)
    (p_mb : F .mb := by assumption) (p_fc : F .fc := by assumption) (p_pw : F .pw := by assumption)
    (p_pm : F .pm := by assumption) : Keeps F s (State.afterEngine t who) := by
  unfold State.afterEngine
  try dsimp only
  repeat' first
    | with_reducible assumption | with_reducible refine State.tied_keeps ?_ _ | with_reducible refine State.hostEnter_keeps ?_ _ _
    | with_reducible refine Keeps.foldl (fun _ _ _ => ?_) _ ?_ | with_reducible refine Keeps.foldlP (fun _ _ _ => ?_) _ ?_
    | simp only [keeps_upd, p_out, p_fresh, p_dram, p_hp, p_rr, p_rg, p_ns, p_tr, p_cd, p_lp, p_sx, p_mc, p_bw, p_ce, p_mb, p_fc, p_pw, p_pm, or_true, true_or, length_lmod, length_lset, List.length_map]
    | dsimp only | intro _

theorem State.hostAccess_keeps (h : Keeps F s t) (touch) (q) (tie) (p_out : F .out := by assumption)
    (p_fresh : F .fresh := by assumption) (p_dram : F .dram := by assumption) (p_hp : F .hp := by assumption)
    (p_rr : F .rr := by assumption) (p_rg : F .rg := by assumption) (p_ns : F .ns := by assumption)
    (p_tr : F .tr := by assumption) (p_cd : F .cd := by assumption) (p_lp : F .lp := by assumption)
    (p_sx : F .sx := by assumption) (p_mc : F .mc := by assumption) (p_bw : F .bw := by assumption)
    (p_ce : F .ce := by assumption) (p_mb : F .mb := by assumption) (p_fc : F .fc := by assumption)
    (p_pw : F .pw := by assumption) (p_pm : F .pm := by assumption) : Keeps F s (State.hostAccess t touch q tie) := by
  unfold State.hostAccess
  try dsimp only
  repeat' first
    | with_reducible assumption | with_reducible refine State.admit_keeps ?_ | with_reducible refine State.tied_keeps ?_ _
    | with_reducible refine State.hostEnter_keeps ?_ _ _ | with_reducible refine State.inOrder_keeps ?_ _ _
    | with_reducible refine Keeps.foldl (fun _ _ _ => ?_) _ ?_ | with_reducible refine Keeps.foldlP (fun _ _ _ => ?_) _ ?_ | split
    | dsimp only | intro _

theorem State.releaseHeld_keeps (h : Keeps F s t) (f) (p_out : F .out := by assumption) (p_fresh : F .fresh := by assumption)
    (p_dram : F .dram := by assumption) (p_hp : F .hp := by assumption) (p_rr : F .rr := by assumption)
    (p_rg : F .rg := by assumption) (p_ns : F .ns := by assumption) (p_tr : F .tr := by assumption)
    (p_cd : F .cd := by assumption) (p_lp : F .lp := by assumption) (p_sx : F .sx := by assumption)
    (p_mc : F .mc := by assumption) (p_bw : F .bw := by assumption) (p_ce : F .ce := by assumption)
    (p_mb : F .mb := by assumption) (p_fc : F .fc := by assumption) (p_pw : F .pw := by assumption)
    (p_pm : F .pm := by assumption) : Keeps F s (State.releaseHeld t f) := by
  unfold State.releaseHeld
  try dsimp only
  repeat' first
    | with_reducible assumption | with_reducible refine State.hostOne_keeps ?_ _ _ | with_reducible refine State.modFn_keeps ?_ _ _
    | with_reducible refine Keeps.foldl (fun _ _ _ => ?_) _ ?_ | with_reducible refine Keeps.foldlP (fun _ _ _ => ?_) _ ?_
    | dsimp only | intro _

theorem State.fetchLoc_keeps (h : Keeps F s t) (l) (w) (p_out : F .out := by assumption) (p_dram : F .dram := by assumption)
    (p_rg : F .rg := by assumption) (p_tr : F .tr := by assumption) (p_cd : F .cd := by assumption)
    (p_lp : F .lp := by assumption) (p_sx : F .sx := by assumption) (p_mc : F .mc := by assumption)
    (p_bw : F .bw := by assumption) (p_fc : F .fc := by assumption) (p_pm : F .pm := by assumption)
    : Keeps F s (State.fetchLoc t l w).1 := by
  unfold State.fetchLoc
  try dsimp only
  repeat' first
    | with_reducible assumption | with_reducible refine Com.tier_keeps ?_ _ _ | with_reducible refine State.pageGet_keeps ?_ _ _ _
    | with_reducible refine Keeps.ite (fun _ => ?_) (fun _ => ?_) | with_reducible refine Keeps.iteP (fun _ => ?_) (fun _ => ?_)
    | split | dsimp only | intro _

theorem State.fetchJudge_keeps (h : Keeps F s t) (f) (r) (l) (x) (p_out : F .out := by assumption)
    (p_fresh : F .fresh := by assumption) (p_dram : F .dram := by assumption) (p_hp : F .hp := by assumption)
    (p_rr : F .rr := by assumption) (p_rg : F .rg := by assumption) (p_ns : F .ns := by assumption)
    (p_tr : F .tr := by assumption) (p_cd : F .cd := by assumption) (p_lp : F .lp := by assumption)
    (p_sx : F .sx := by assumption) (p_mc : F .mc := by assumption) (p_bw : F .bw := by assumption)
    (p_fc : F .fc := by assumption) (p_pm : F .pm := by assumption) : Keeps F s (State.fetchJudge t f r l x) := by
  unfold State.fetchJudge
  try dsimp only
  repeat' first
    | with_reducible assumption | with_reducible refine State.count_keeps ?_ _ _ _
    | with_reducible refine State.setStage_keeps ?_ _ _ | with_reducible refine State.arrive_keeps ?_ _ _ _
    | with_reducible refine State.repair_keeps ?_ _ _ _ _ _ _ | with_reducible refine Keeps.ite (fun _ => ?_) (fun _ => ?_)
    | with_reducible refine Keeps.iteP (fun _ => ?_) (fun _ => ?_) | split | intro _

theorem dramReadReturn_keeps (h : Keeps F s t) (line) (env) (p_out : F .out := by assumption)
    (p_fresh : F .fresh := by assumption) (p_dram : F .dram := by assumption) (p_hp : F .hp := by assumption)
    (p_rr : F .rr := by assumption) (p_rg : F .rg := by assumption) (p_ns : F .ns := by assumption)
    (p_tr : F .tr := by assumption) (p_cd : F .cd := by assumption) (p_lp : F .lp := by assumption)
    (p_sx : F .sx := by assumption) (p_mc : F .mc := by assumption) (p_bw : F .bw := by assumption)
    (p_fc : F .fc := by assumption) (p_pm : F .pm := by assumption) : Keeps F s (dramReadReturn line env t) := by
  unfold dramReadReturn
  try dsimp only
  repeat' first
    | with_reducible assumption | with_reducible refine State.stage_keeps ?_ _ _ _ _ _ _ _ _
    | with_reducible refine State.upset_keeps ?_ _ | with_reducible refine State.fetchLoc_keeps ?_ _ _
    | with_reducible refine State.settle_keeps ?_ _ _ | with_reducible refine State.noteRead_keeps ?_ _ _ _ _ _ _
    | with_reducible refine State.setStage_keeps ?_ _ _ | with_reducible refine State.reread_keeps ?_ _ _ _
    | with_reducible refine State.fetchJudge_keeps ?_ _ _ _ _ | with_reducible refine State.readLine_keeps ?_ _ _ _ _
    | with_reducible refine State.arrive_keeps ?_ _ _ _ | with_reducible refine Keeps.ite (fun _ => ?_) (fun _ => ?_)
    | with_reducible refine Keeps.iteP (fun _ => ?_) (fun _ => ?_) | split | dsimp only | intro _

theorem addressErrorReread_keeps (h : Keeps F s t) (line) (env) (p_out : F .out := by assumption)
    (p_fresh : F .fresh := by assumption) (p_dram : F .dram := by assumption) (p_hp : F .hp := by assumption)
    (p_rr : F .rr := by assumption) (p_rg : F .rg := by assumption) (p_ns : F .ns := by assumption)
    (p_tr : F .tr := by assumption) (p_cd : F .cd := by assumption) (p_lp : F .lp := by assumption)
    (p_sx : F .sx := by assumption) (p_mc : F .mc := by assumption) (p_bw : F .bw := by assumption)
    (p_fc : F .fc := by assumption) (p_pm : F .pm := by assumption) : Keeps F s (addressErrorReread line env t) := by
  unfold addressErrorReread
  try dsimp only
  repeat' first
    | with_reducible assumption | with_reducible refine State.stage_keeps ?_ _ _ _ _ _ _ _ _
    | with_reducible refine State.reread_keeps ?_ _ _ _ | with_reducible refine State.upset_keeps ?_ _
    | with_reducible refine State.fetchLoc_keeps ?_ _ _ | with_reducible refine State.settle_keeps ?_ _ _
    | with_reducible refine State.noteRead_keeps ?_ _ _ _ _ _ _ | with_reducible refine State.report_keeps ?_ _ _ _
    | with_reducible refine State.fetchJudge_keeps ?_ _ _ _ _ | with_reducible refine State.setStage_keeps ?_ _ _
    | with_reducible refine State.repair_keeps ?_ _ _ _ _ _ _ | with_reducible refine Keeps.ite (fun _ => ?_) (fun _ => ?_)
    | with_reducible refine Keeps.iteP (fun _ => ?_) (fun _ => ?_) | split | dsimp only | intro _

theorem lineRepair_keeps (h : Keeps F s t) (line) (env) (p_out : F .out := by assumption) (p_fresh : F .fresh := by assumption)
    (p_dram : F .dram := by assumption) (p_hp : F .hp := by assumption) (p_rr : F .rr := by assumption)
    (p_rg : F .rg := by assumption) (p_ns : F .ns := by assumption) (p_tr : F .tr := by assumption)
    (p_cd : F .cd := by assumption) (p_lp : F .lp := by assumption) (p_sx : F .sx := by assumption)
    (p_mc : F .mc := by assumption) (p_bw : F .bw := by assumption) (p_fc : F .fc := by assumption)
    (p_pm : F .pm := by assumption) : Keeps F s (lineRepair line env t) := by
  unfold lineRepair
  try dsimp only
  repeat' first
    | with_reducible assumption | with_reducible refine State.stage_keeps ?_ _ _ _ _ _ _ _ _
    | with_reducible refine State.repair_keeps ?_ _ _ _ _ _ _ | with_reducible refine State.upset_keeps ?_ _
    | with_reducible refine State.fetchLoc_keeps ?_ _ _ | with_reducible refine State.settle_keeps ?_ _ _
    | with_reducible refine State.arrive_keeps ?_ _ _ _ | split | dsimp only | intro _

theorem State.lateAlarm_keeps (h : Keeps F s t) (f) (x_c) (l) (p_out : F .out := by assumption) (p_hp : F .hp := by assumption)
    (p_sx : F .sx := by assumption) (p_fc : F .fc := by assumption) : Keeps F s (State.lateAlarm t f x_c l) := by
  unfold State.lateAlarm
  try dsimp only
  repeat' first
    | with_reducible assumption | with_reducible refine State.noteTag_keeps ?_ _ _ _ _ _
    | with_reducible refine State.report_keeps ?_ _ _ _ | with_reducible refine State.goViral_keeps ?_ _
    | simp only [keeps_upd, p_out, p_hp, p_sx, p_fc, or_true, true_or, length_lmod, length_lset, List.length_map] | dsimp only
    | intro _

theorem State.noteSpec_keeps (h : Keeps F s t) (p_sx : F .sx := by assumption) : Keeps F s t.noteSpec := by
  unfold State.noteSpec
  repeat' first | with_reducible assumption | simp only [keeps_upd, p_sx, or_true, true_or, length_lmod, length_lset, List.length_map]

theorem State.firstServed_keeps (h : Keeps F s t) (line) (p_rr : F .rr := by assumption) : Keeps F s (State.firstServed t line) := by
  unfold State.firstServed
  try dsimp only
  repeat' first
    | with_reducible assumption | with_reducible refine Keeps.ite (fun _ => ?_) (fun _ => ?_)
    | with_reducible refine Keeps.iteP (fun _ => ?_) (fun _ => ?_)
    | simp only [keeps_upd, p_rr, or_true, true_or, length_lmod, length_lset, List.length_map] | split | dsimp only | intro _

theorem specVerifyResult_keeps (h : Keeps F s t) (line) (committed) (p_out : F .out := by assumption)
    (p_fresh : F .fresh := by assumption) (p_dram : F .dram := by assumption) (p_hp : F .hp := by assumption)
    (p_rr : F .rr := by assumption) (p_rg : F .rg := by assumption) (p_ns : F .ns := by assumption)
    (p_tr : F .tr := by assumption) (p_cd : F .cd := by assumption) (p_lp : F .lp := by assumption)
    (p_sx : F .sx := by assumption) (p_mc : F .mc := by assumption) (p_bw : F .bw := by assumption)
    (p_fc : F .fc := by assumption) (p_pm : F .pm := by assumption) : Keeps F s (specVerifyResult line committed t) := by
  unfold specVerifyResult
  try dsimp only
  repeat' first
    | with_reducible assumption | with_reducible refine State.stage_keeps ?_ _ _ _ _ _ _ _ _
    | with_reducible refine State.arrive_keeps ?_ _ _ _ | with_reducible refine State.fetchLoc_keeps ?_ _ _
    | with_reducible refine State.settle_keeps ?_ _ _ | with_reducible refine State.repair_keeps ?_ _ _ _ _ _ _
    | with_reducible refine State.noteSpec_keeps ?_ | with_reducible refine State.answerRead_keeps ?_ _ _ _
    | with_reducible refine State.firstServed_keeps ?_ _ | with_reducible refine State.redundant_keeps ?_ _ _ _ _ _
    | with_reducible refine State.mendCopy_keeps ?_ _ _ _ _ _ _ | with_reducible refine State.count_keeps ?_ _ _ _
    | with_reducible refine State.report_keeps ?_ _ _ _ | with_reducible refine State.noteTag_keeps ?_ _ _ _ _ _
    | with_reducible refine State.lateAlarm_keeps ?_ _ _ _ | with_reducible refine Keeps.ite (fun _ => ?_) (fun _ => ?_)
    | with_reducible refine Keeps.iteP (fun _ => ?_) (fun _ => ?_) | split | dsimp only | intro _

end Sys2Proof.Machine
end

