-- ==== Sys2Proof/Laws/KeepsScrub.lean ====
section
/-! SUPPORT. What each operation of Machine/Scrub.lean keeps: scrubbing and repair. -/

set_option Elab.async false

set_option linter.all false

namespace Sys2Proof.Machine
open Sys2Proof

variable {F : Part → Prop} {s t : State}

theorem State.rowWritten_keeps (h : Keeps F s t) (row) (p_lp : F .lp := by assumption) : Keeps F s (State.rowWritten t row) := by
  unfold State.rowWritten
  try dsimp only
  repeat' first
    | with_reducible assumption | with_reducible refine Keeps.ite (fun _ => ?_) (fun _ => ?_)
    | with_reducible refine Keeps.iteP (fun _ => ?_) (fun _ => ?_)
    | simp only [keeps_upd, p_lp, or_true, true_or, length_lmod, length_lset, List.length_map] | split | dsimp only | intro _

theorem State.scrubQueue_keeps (h : Keeps F s t) (x_c) (cla) (write) (p_mc : F .mc := by assumption)
    (p_bw : F .bw := by assumption) : Keeps F s (State.scrubQueue t x_c cla write) := by
  unfold State.scrubQueue
  try dsimp only
  repeat' first
    | with_reducible assumption | with_reducible refine State.enterQueue_keeps ?_ _ _ _ _ _ _
    | with_reducible refine Com.bind_keeps ?_ _ | dsimp only | intro _

theorem State.scrubFix_keeps (h : Keeps F s t) (env) (q) (x_c) (cla) (p_dram : F .dram := by assumption)
    (p_lp : F .lp := by assumption) (p_sx : F .sx := by assumption) (p_mc : F .mc := by assumption)
    (p_bw : F .bw := by assumption) (p_fc : F .fc := by assumption) (p_pm : F .pm := by assumption)
    : Keeps F s (State.scrubFix t env q x_c cla).1 := by
  unfold State.scrubFix
  try dsimp only
  repeat' first
    | with_reducible assumption | with_reducible refine State.scrubQueue_keeps ?_ _ _ _
    | with_reducible refine State.readDecoded_keeps ?_ _ _ _ _ _ | with_reducible refine State.putCopy_keeps ?_ _ _ _
    | with_reducible refine State.repair_keeps ?_ _ _ _ _ _ _ | with_reducible refine State.rebuild_keeps ?_ _ _ _ _ _ _
    | with_reducible refine State.report_keeps ?_ _ _ _ | with_reducible refine State.mendCopy_keeps ?_ _ _ _ _ _ _
    | with_reducible refine State.refreshParity_keeps ?_ _ _ | with_reducible refine Keeps.ite (fun _ => ?_) (fun _ => ?_)
    | with_reducible refine Keeps.iteP (fun _ => ?_) (fun _ => ?_) | split | dsimp only | intro _

theorem State.scrubLine_keeps (h : Keeps F s t) (env) (q) (x_c) (cla) (p_dram : F .dram := by assumption)
    (p_lp : F .lp := by assumption) (p_sx : F .sx := by assumption) (p_mc : F .mc := by assumption)
    (p_bw : F .bw := by assumption) (p_fc : F .fc := by assumption) (p_pm : F .pm := by assumption)
    : Keeps F s (State.scrubLine t env q x_c cla) := by
  unfold State.scrubLine
  try dsimp only
  repeat' first
    | with_reducible assumption | with_reducible refine State.scrubFix_keeps ?_ _ _ _ _
    | with_reducible refine State.rowWritten_keeps ?_ _ | with_reducible refine Keeps.ite (fun _ => ?_) (fun _ => ?_)
    | with_reducible refine Keeps.iteP (fun _ => ?_) (fun _ => ?_) | split | dsimp only | intro _

theorem State.patrolAdvance_keeps (h : Keeps F s t) (x_c) (p_lp : F .lp := by assumption)
    : Keeps F s (State.patrolAdvance t x_c) := by
  unfold State.patrolAdvance
  try dsimp only
  repeat' first
    | with_reducible assumption | with_reducible refine patrolLate_keeps ?_ _
    | with_reducible refine Keeps.ite (fun _ => ?_) (fun _ => ?_) | with_reducible refine Keeps.iteP (fun _ => ?_) (fun _ => ?_)
    | simp only [keeps_upd, p_lp, or_true, true_or, length_lmod, length_lset, List.length_map] | split | dsimp only | intro _

theorem patrolRead_keeps (h : Keeps F s t) (x_c) (env) (halt) (p_dram : F .dram := by assumption)
    (p_lp : F .lp := by assumption) (p_sx : F .sx := by assumption) (p_mc : F .mc := by assumption)
    (p_bw : F .bw := by assumption) (p_fc : F .fc := by assumption) (p_pm : F .pm := by assumption)
    : Keeps F s (patrolRead x_c env halt t) := by
  unfold patrolRead
  try dsimp only
  repeat' first
    | with_reducible assumption | with_reducible refine State.report_keeps ?_ _ _ _
    | with_reducible refine State.patrolAdvance_keeps ?_ _ | with_reducible refine State.upset_keeps ?_ _
    | with_reducible refine State.count_keeps ?_ _ _ _ | with_reducible refine State.scrubLine_keeps ?_ _ _ _ _
    | with_reducible refine Keeps.ite (fun _ => ?_) (fun _ => ?_) | with_reducible refine Keeps.iteP (fun _ => ?_) (fun _ => ?_)
    | simp only [keeps_upd, p_dram, p_lp, p_sx, p_mc, p_bw, p_fc, p_pm, or_true, true_or, length_lmod, length_lset, List.length_map]
    | split | dsimp only | intro _

theorem demandScrub_keeps (h : Keeps F s t) (env) (halt) (p_dram : F .dram := by assumption) (p_lp : F .lp := by assumption)
    (p_sx : F .sx := by assumption) (p_mc : F .mc := by assumption) (p_bw : F .bw := by assumption)
    (p_fc : F .fc := by assumption) (p_pm : F .pm := by assumption) : Keeps F s (demandScrub env halt t) := by
  unfold demandScrub
  try dsimp only
  repeat' first
    | with_reducible assumption | with_reducible refine State.report_keeps ?_ _ _ _ | with_reducible refine State.upset_keeps ?_ _
    | with_reducible refine State.count_keeps ?_ _ _ _ | with_reducible refine State.scrubLine_keeps ?_ _ _ _ _
    | with_reducible refine Keeps.ite (fun _ => ?_) (fun _ => ?_) | with_reducible refine Keeps.iteP (fun _ => ?_) (fun _ => ?_)
    | simp only [keeps_upd, p_dram, p_lp, p_sx, p_mc, p_bw, p_fc, p_pm, or_true, true_or, length_lmod, length_lset, List.length_map]
    | split | dsimp only | intro _

theorem patrolLate_keeps (h : Keeps F s t) (x_c) (p_now : F .now := by assumption) (p_lp : F .lp := by assumption)
    (p_tu : F .tu := by assumption) (p_fc : F .fc := by assumption) : Keeps F s (patrolLate x_c t) := by
  unfold patrolLate
  try dsimp only
  repeat' first
    | with_reducible assumption | with_reducible refine State.advance_keeps ?_ _ | with_reducible refine State.report_keeps ?_ _ _ _
    | with_reducible refine Keeps.ite (fun _ => ?_) (fun _ => ?_) | with_reducible refine Keeps.iteP (fun _ => ?_) (fun _ => ?_)
    | simp only [keeps_upd, p_now, p_lp, p_tu, p_fc, or_true, true_or, length_lmod, length_lset, List.length_map] | split
    | dsimp only | intro _

theorem rowWindowEnd_keeps (h : Keeps F s t) (row) (p_now : F .now := by assumption) (p_lp : F .lp := by assumption)
    (p_tu : F .tu := by assumption) (p_fc : F .fc := by assumption) : Keeps F s (rowWindowEnd row t) := by
  unfold rowWindowEnd
  try dsimp only
  repeat' first
    | with_reducible assumption | with_reducible refine State.advance_keeps ?_ _ | with_reducible refine State.hardenRows_keeps ?_
    | simp only [keeps_upd, p_now, p_lp, p_tu, p_fc, or_true, true_or, length_lmod, length_lset, List.length_map] | split
    | dsimp only | intro _

theorem softPpr_keeps (h : Keeps F s t) (row) (p_dram : F .dram := by assumption) (p_lp : F .lp := by assumption)
    (p_sx : F .sx := by assumption) (p_mc : F .mc := by assumption) (p_bw : F .bw := by assumption)
    (p_fc : F .fc := by assumption) (p_pm : F .pm := by assumption) : Keeps F s (softPpr row t) := by
  unfold softPpr
  try dsimp only
  repeat' first
    | with_reducible assumption | with_reducible refine State.scrubFix_keeps ?_ _ _ _ _
    | with_reducible refine State.report_keeps ?_ _ _ _ | with_reducible refine Keeps.foldl (fun _ _ _ => ?_) _ ?_
    | with_reducible refine Keeps.foldlP (fun _ _ _ => ?_) _ ?_ | with_reducible refine Keeps.ite (fun _ => ?_) (fun _ => ?_)
    | with_reducible refine Keeps.iteP (fun _ => ?_) (fun _ => ?_)
    | simp only [keeps_upd, p_dram, p_lp, p_sx, p_mc, p_bw, p_fc, p_pm, or_true, true_or, length_lmod, length_lset, List.length_map]
    | split | dsimp only | intro _

theorem State.retire_keeps (h : Keeps F s t) (x_c) (page) (p_dram : F .dram := by assumption) (p_lp : F .lp := by assumption)
    (p_sx : F .sx := by assumption) (p_mc : F .mc := by assumption) (p_bw : F .bw := by assumption)
    (p_fc : F .fc := by assumption) (p_pm : F .pm := by assumption) : Keeps F s (State.retire t x_c page) := by
  unfold State.retire
  try dsimp only
  repeat' first
    | with_reducible assumption | with_reducible refine State.report_keeps ?_ _ _ _
    | with_reducible refine State.scrubFix_keeps ?_ _ _ _ _ | with_reducible refine State.putStored_keeps ?_ _ _ _
    | with_reducible refine Keeps.foldl (fun _ _ _ => ?_) _ ?_ | with_reducible refine Keeps.foldlP (fun _ _ _ => ?_) _ ?_
    | with_reducible refine Keeps.ite (fun _ => ?_) (fun _ => ?_) | with_reducible refine Keeps.iteP (fun _ => ?_) (fun _ => ?_)
    | simp only [keeps_upd, p_dram, p_lp, p_sx, p_mc, p_bw, p_fc, p_pm, or_true, true_or, length_lmod, length_lset, List.length_map]
    | split | with_reducible refine Keeps.updCells ?_ (mem_filter_wf _) | dsimp only | intro _

theorem pageRetirement_keeps (h : Keeps F s t) (x_c) (page) (p_dram : F .dram := by assumption) (p_lp : F .lp := by assumption)
    (p_sx : F .sx := by assumption) (p_mc : F .mc := by assumption) (p_bw : F .bw := by assumption)
    (p_fc : F .fc := by assumption) (p_pm : F .pm := by assumption) : Keeps F s (pageRetirement x_c page t) := by
  unfold pageRetirement
  try dsimp only
  repeat' first
    | with_reducible assumption | with_reducible refine State.retire_keeps ?_ _ _
    | with_reducible refine Keeps.ite (fun _ => ?_) (fun _ => ?_) | with_reducible refine Keeps.iteP (fun _ => ?_) (fun _ => ?_)
    | split | dsimp only | intro _

theorem pprCtl_keeps (h : Keeps F s t) (a1) (a2) (p_dram : F .dram := by assumption) (p_lp : F .lp := by assumption)
    (p_sx : F .sx := by assumption) (p_mc : F .mc := by assumption) (p_bw : F .bw := by assumption)
    (p_mb : F .mb := by assumption) (p_fc : F .fc := by assumption) (p_pm : F .pm := by assumption)
    : Keeps F s (pprCtl a1 a2 t).1 := by
  unfold pprCtl
  try dsimp only
  repeat' first
    | with_reducible assumption | with_reducible refine State.direct_keeps ?_ _ _ _ _ _
    | with_reducible refine State.retire_keeps ?_ _ _ | with_reducible refine State.startBg_keeps ?_ _ _ _ _ _ _
    | with_reducible refine Keeps.foldl (fun _ _ _ => ?_) _ ?_ | with_reducible refine Keeps.foldlP (fun _ _ _ => ?_) _ ?_
    | with_reducible refine Keeps.ite (fun _ => ?_) (fun _ => ?_) | with_reducible refine Keeps.iteP (fun _ => ?_) (fun _ => ?_)
    | simp only [keeps_upd, p_dram, p_lp, p_sx, p_mc, p_bw, p_mb, p_fc, p_pm, or_true, true_or, length_lmod, length_lset, List.length_map]
    | split | dsimp only | intro _

theorem hardPprDone_keeps (h : Keeps F s t) (x_c) (p_lp : F .lp := by assumption) : Keeps F s (hardPprDone x_c t) := by
  unfold hardPprDone
  try dsimp only
  repeat' first
    | with_reducible assumption | with_reducible refine Keeps.foldl (fun _ _ _ => ?_) _ ?_
    | with_reducible refine Keeps.foldlP (fun _ _ _ => ?_) _ ?_
    | simp only [keeps_upd, p_lp, or_true, true_or, length_lmod, length_lset, List.length_map] | split | dsimp only | intro _

theorem State.pprNext_keeps (h : Keeps F s t) (x_c) (x_u) (r) (p_out : F .out := by assumption) (p_hp : F .hp := by assumption)
    (p_lp : F .lp := by assumption) (p_mb : F .mb := by assumption) (p_pm : F .pm := by assumption)
    : Keeps F s (State.pprNext t x_c x_u r) := by
  unfold State.pprNext
  try dsimp only
  repeat' first
    | with_reducible assumption | with_reducible refine State.modOp_keeps ?_ _ _ | with_reducible refine State.endOp_keeps ?_ _ _ _
    | simp only [keeps_upd, p_out, p_hp, p_lp, p_mb, p_pm, or_true, true_or, length_lmod, length_lset, List.length_map] | split
    | dsimp only | intro _

theorem State.resilverOne_keeps (h : Keeps F s t) (x_c) (cla) (p_dram : F .dram := by assumption)
    (p_lp : F .lp := by assumption) (p_mc : F .mc := by assumption) (p_bw : F .bw := by assumption)
    (p_fc : F .fc := by assumption) (p_pm : F .pm := by assumption) : Keeps F s (State.resilverOne t x_c cla) := by
  unfold State.resilverOne
  try dsimp only
  repeat' first
    | with_reducible assumption | with_reducible refine State.putCopy_keeps ?_ _ _ _
    | with_reducible refine State.scrubQueue_keeps ?_ _ _ _ | with_reducible refine State.redundant_keeps ?_ _ _ _ _ _
    | with_reducible refine State.rebuild_keeps ?_ _ _ _ _ _ _ | with_reducible refine Keeps.foldl (fun _ _ _ => ?_) _ ?_
    | with_reducible refine Keeps.foldlP (fun _ _ _ => ?_) _ ?_ | with_reducible refine Keeps.ite (fun _ => ?_) (fun _ => ?_)
    | with_reducible refine Keeps.iteP (fun _ => ?_) (fun _ => ?_) | split | dsimp only | intro _

theorem resilverLine_keeps (h : Keeps F s t) (x_c) (halt) (p_out : F .out := by assumption) (p_dram : F .dram := by assumption)
    (p_hp : F .hp := by assumption) (p_lp : F .lp := by assumption) (p_mc : F .mc := by assumption)
    (p_bw : F .bw := by assumption) (p_mb : F .mb := by assumption) (p_fc : F .fc := by assumption)
    (p_pm : F .pm := by assumption) : Keeps F s (resilverLine x_c halt t) := by
  unfold resilverLine
  try dsimp only
  repeat' first
    | with_reducible assumption | with_reducible refine State.report_keeps ?_ _ _ _
    | with_reducible refine State.resilverOne_keeps ?_ _ _ | with_reducible refine State.pprNext_keeps ?_ _ _ _
    | with_reducible refine Keeps.ite (fun _ => ?_) (fun _ => ?_) | with_reducible refine Keeps.iteP (fun _ => ?_) (fun _ => ?_)
    | simp only [keeps_upd, p_out, p_dram, p_hp, p_lp, p_mc, p_bw, p_mb, p_fc, p_pm, or_true, true_or, length_lmod, length_lset, List.length_map]
    | split | dsimp only | intro _

theorem State.restartScrub_keeps (h : Keeps F s t) (p_lp : F .lp := by assumption) : Keeps F s t.restartScrub := by
  unfold State.restartScrub
  repeat' first | with_reducible assumption | simp only [keeps_upd, p_lp, or_true, true_or, length_lmod, length_lset, List.length_map]

theorem State.restartFill_keeps (h : Keeps F s t) (p_lp : F .lp := by assumption) : Keeps F s t.restartFill := by
  unfold State.restartFill
  repeat' first | with_reducible assumption | simp only [keeps_upd, p_lp, or_true, true_or, length_lmod, length_lset, List.length_map]

theorem scrubCtl_keeps (h : Keeps F s t) (a1) (a2) (p_lp : F .lp := by assumption) (p_mb : F .mb := by assumption)
    (p_fc : F .fc := by assumption) : Keeps F s (scrubCtl a1 a2 t).1 := by
  unfold scrubCtl
  try dsimp only
  repeat' first
    | with_reducible assumption | with_reducible refine State.hardenRows_keeps ?_
    | with_reducible refine State.restartScrub_keeps ?_ | with_reducible refine State.restartFill_keeps ?_
    | with_reducible refine State.direct_keeps ?_ _ _ _ _ _ | with_reducible refine Keeps.ite (fun _ => ?_) (fun _ => ?_)
    | with_reducible refine Keeps.iteP (fun _ => ?_) (fun _ => ?_)
    | simp only [keeps_upd, p_lp, p_mb, p_fc, or_true, true_or, length_lmod, length_lset, List.length_map] | split | dsimp only
    | intro _

theorem fuseBurn_keeps (h : Keeps F s t) (a1) (a2) (p_fu : F .fu := by assumption) (p_mb : F .mb := by assumption)
    : Keeps F s (fuseBurn a1 a2 t).1 := by
  unfold fuseBurn
  try dsimp only
  repeat' first
    | with_reducible assumption | with_reducible refine State.direct_keeps ?_ _ _ _ _ _
    | with_reducible refine State.startBg_keeps ?_ _ _ _ _ _ _ | with_reducible refine Keeps.ite (fun _ => ?_) (fun _ => ?_)
    | with_reducible refine Keeps.iteP (fun _ => ?_) (fun _ => ?_)
    | simp only [keeps_upd, p_fu, p_mb, or_true, true_or, length_lmod, length_lset, List.length_map] | split
    | with_reducible refine Keeps.updFu ?_ (by first | exact le_refl _ | exact Nat.sub_le _ _) (by first | exact le_refl _ | exact le_max_left _ _) (by first | exact List.prefix_refl _ | exact List.prefix_append _ _)
    | dsimp only | intro _

theorem State.burnOne_keeps (h : Keeps F s t) (p_fu : F .fu := by assumption) : Keeps F s t.burnOne := by
  unfold State.burnOne
  repeat' first
    | with_reducible assumption | simp only [keeps_upd, p_fu, or_true, true_or, length_lmod, length_lset, List.length_map]
    | with_reducible refine Keeps.updFu ?_ (by first | exact le_refl _ | exact Nat.sub_le _ _) (by first | exact le_refl _ | exact le_max_left _ _) (by first | exact List.prefix_refl _ | exact List.prefix_append _ _)

end Sys2Proof.Machine
end

