-- ==== Sys2Proof/Laws/KeepsRekey.lean ====
section
/-! SUPPORT. What each operation of Machine/Rekey.lean keeps: re-keying. -/

set_option Elab.async false

set_option linter.all false

namespace Sys2Proof.Machine
open Sys2Proof

variable {F : Part → Prop} {s t : State}

theorem State.drawKey_keeps (h : Keeps F s t) (a1) (p_fresh : F .fresh := by assumption) : Keeps F s (t.drawKey a1).1 := by
  induction a1 generalizing t  with
  | zero => unfold State.drawKey; with_reducible exact h
  | succ _ ih =>
    unfold State.drawKey
    repeat' first
      | with_reducible assumption | with_reducible refine ih ?_ | intro _ | with_reducible refine State.drawn_keeps ?_
      | with_reducible refine Keeps.ite (fun _ => ?_) (fun _ => ?_) | with_reducible refine Keeps.iteP (fun _ => ?_) (fun _ => ?_)

theorem rekeyStart_keeps (h : Keeps F s t) (a1) (a2) (p_fresh : F .fresh := by assumption) (p_sx : F .sx := by assumption)
    (p_mb : F .mb := by assumption) (p_ck : F .ck := by assumption) (p_pm : F .pm := by assumption)
    : Keeps F s (rekeyStart a1 a2 t).1 := by
  unfold rekeyStart
  try dsimp only
  repeat' first
    | with_reducible assumption | with_reducible refine State.direct_keeps ?_ _ _ _ _ _
    | with_reducible refine State.startBg_keeps ?_ _ _ _ _ _ _ | with_reducible refine State.setDomain_keeps ?_ _ _
    | with_reducible refine State.drawKey_keeps ?_ _ | with_reducible refine Keeps.ite (fun _ => ?_) (fun _ => ?_)
    | with_reducible refine Keeps.iteP (fun _ => ?_) (fun _ => ?_)
    | simp only [keeps_upd, p_fresh, p_sx, p_mb, p_ck, p_pm, or_true, true_or, length_lmod, length_lset, List.length_map] | split
    | dsimp only | intro _

theorem State.rekeyRead_keeps (h : Keeps F s t) (l) (scr) (x_c) (p_dram : F .dram := by assumption)
    (p_lp : F .lp := by assumption) (p_sx : F .sx := by assumption) (p_mc : F .mc := by assumption)
    (p_fc : F .fc := by assumption) (p_pm : F .pm := by assumption) : Keeps F s (State.rekeyRead t l scr x_c).1 := by
  unfold State.rekeyRead
  try dsimp only
  repeat' first
    | with_reducible assumption | with_reducible refine State.readCopy_keeps ?_ _ _ _ _ _
    | with_reducible refine State.repair_keeps ?_ _ _ _ _ _ _ | with_reducible refine State.redundant_keeps ?_ _ _ _ _ _
    | with_reducible refine Keeps.ite (fun _ => ?_) (fun _ => ?_) | with_reducible refine Keeps.iteP (fun _ => ?_) (fun _ => ?_)
    | split | dsimp only | intro _

theorem State.rekeyQueue_keeps (h : Keeps F s t) (x_c) (cla) (p_mc : F .mc := by assumption) (p_bw : F .bw := by assumption)
    : Keeps F s (State.rekeyQueue t x_c cla) := by
  unfold State.rekeyQueue
  try dsimp only
  repeat' first
    | with_reducible assumption | with_reducible refine Com.bind_keeps ?_ _
    | with_reducible refine State.enterQueue_keeps ?_ _ _ _ _ _ _ | with_reducible refine Keeps.foldl (fun _ _ _ => ?_) _ ?_
    | with_reducible refine Keeps.foldlP (fun _ _ _ => ?_) _ ?_ | with_reducible refine Keeps.ite (fun _ => ?_) (fun _ => ?_)
    | with_reducible refine Keeps.iteP (fun _ => ?_) (fun _ => ?_) | split | dsimp only | intro _

theorem State.rekeyAt_keeps (h : Keeps F s t) (x_c) (cla) (p_dram : F .dram := by assumption) (p_lp : F .lp := by assumption)
    (p_sx : F .sx := by assumption) (p_mc : F .mc := by assumption) (p_fc : F .fc := by assumption)
    (p_pm : F .pm := by assumption) : Keeps F s (State.rekeyAt t x_c cla).1 := by
  unfold State.rekeyAt
  try dsimp only
  repeat' first
    | with_reducible assumption | with_reducible refine State.rekeyRead_keeps ?_ _ _ _
    | with_reducible refine Keeps.foldl (fun _ _ _ => ?_) _ ?_ | with_reducible refine Keeps.foldlP (fun _ _ _ => ?_) _ ?_
    | with_reducible refine Keeps.ite (fun _ => ?_) (fun _ => ?_) | with_reducible refine Keeps.iteP (fun _ => ?_) (fun _ => ?_)
    | split | dsimp only | intro _

theorem State.rekeyWrite_keeps (h : Keeps F s t) (xs) (parity) (p_dram : F .dram := by assumption)
    (p_lp : F .lp := by assumption) (p_mc : F .mc := by assumption) : Keeps F s (State.rekeyWrite t xs parity) := by
  unfold State.rekeyWrite
  try dsimp only
  repeat' first
    | with_reducible assumption | with_reducible refine State.putCopy_keeps ?_ _ _ _
    | with_reducible refine Keeps.foldl (fun _ _ _ => ?_) _ ?_ | with_reducible refine Keeps.foldlP (fun _ _ _ => ?_) _ ?_ | split
    | dsimp only | intro _

theorem State.rekeyEnd_keeps (h : Keeps F s t) (p_out : F .out := by assumption) (p_hp : F .hp := by assumption) (p_sx : F .sx := by assumption) (p_mb : F .mb := by assumption) (p_fc : F .fc := by assumption) (p_ck : F .ck := by assumption) (p_pm : F .pm := by assumption) : Keeps F s t.rekeyEnd := by
  unfold State.rekeyEnd
  try dsimp only
  repeat' first
    | with_reducible assumption | intro _ | with_reducible refine State.report_keeps ?_ _ _ _
    | with_reducible refine State.setDomain_keeps ?_ _ _ | with_reducible refine State.endOp_keeps ?_ _ _ _
    | with_reducible refine Keeps.foldl (fun _ _ _ => ?_) _ ?_
    | simp only [keeps_upd, p_out, p_hp, p_sx, p_mb, p_fc, p_ck, p_pm, or_true, true_or, length_lmod, length_lset, List.length_map]

theorem State.rekeyProgress_keeps (h : Keeps F s t) (p_mb : F .mb := by assumption) : Keeps F s t.rekeyProgress := by
  unfold State.rekeyProgress
  repeat' first
    | with_reducible assumption | intro _ | with_reducible refine Keeps.ite (fun _ => ?_) (fun _ => ?_)
    | simp only [keeps_upd, p_mb, or_true, true_or, length_lmod, length_lset, List.length_map]

theorem State.rekeyLines_keeps (h : Keeps F s t) (p_dram : F .dram := by assumption) (p_lp : F .lp := by assumption)
    (p_sx : F .sx := by assumption) (p_mc : F .mc := by assumption) (p_bw : F .bw := by assumption)
    (p_mb : F .mb := by assumption) (p_fc : F .fc := by assumption) (p_pm : F .pm := by assumption)
    : Keeps F s (State.rekeyLines t) := by
  unfold State.rekeyLines
  try dsimp only
  repeat' first
    | with_reducible assumption | with_reducible refine State.rekeyQueue_keeps ?_ _ _
    | with_reducible refine State.rekeyAt_keeps ?_ _ _ | with_reducible refine State.rekeyWrite_keeps ?_ _ _
    | with_reducible refine State.count_keeps ?_ _ _ _ | with_reducible refine State.rekeyProgress_keeps ?_
    | with_reducible refine Keeps.foldl (fun _ _ _ => ?_) _ ?_ | with_reducible refine Keeps.foldlP (fun _ _ _ => ?_) _ ?_
    | simp only [keeps_upd, p_dram, p_lp, p_sx, p_mc, p_bw, p_mb, p_fc, p_pm, or_true, true_or, length_lmod, length_lset, List.length_map]
    | dsimp only | intro _

theorem rekeyStep_keeps (h : Keeps F s t) (halt) (p_out : F .out := by assumption) (p_dram : F .dram := by assumption)
    (p_hp : F .hp := by assumption) (p_lp : F .lp := by assumption) (p_sx : F .sx := by assumption)
    (p_mc : F .mc := by assumption) (p_bw : F .bw := by assumption) (p_mb : F .mb := by assumption)
    (p_fc : F .fc := by assumption) (p_ck : F .ck := by assumption) (p_pm : F .pm := by assumption)
    : Keeps F s (rekeyStep halt t) := by
  unfold rekeyStep
  try dsimp only
  repeat' first
    | with_reducible assumption | with_reducible refine State.rekeyLines_keeps ?_ | with_reducible refine State.rekeyEnd_keeps ?_
    | with_reducible refine State.report_keeps ?_ _ _ _ | with_reducible refine Keeps.ite (fun _ => ?_) (fun _ => ?_)
    | with_reducible refine Keeps.iteP (fun _ => ?_) (fun _ => ?_)
    | simp only [keeps_upd, p_out, p_dram, p_hp, p_lp, p_sx, p_mc, p_bw, p_mb, p_fc, p_ck, p_pm, or_true, true_or, length_lmod, length_lset, List.length_map]
    | split | dsimp only | intro _

end Sys2Proof.Machine
end

