-- ==== Sys2Proof/Laws/KeepsMaint.lean ====
section
/-! SUPPORT. What each operation of Machine/Maint.lean keeps: maintenance ranges and way groups. -/

set_option Elab.async false

set_option linter.all false

namespace Sys2Proof.Machine
open Sys2Proof

variable {F : Part → Prop} {s t : State}

theorem State.wholeGranule_keeps (h : Keeps F s t) (n) (r) (dpa) (stop) (p_out : F .out := by assumption)
    (p_dram : F .dram := by assumption) (p_rg : F .rg := by assumption) (p_tr : F .tr := by assumption)
    (p_cd : F .cd := by assumption) (p_lp : F .lp := by assumption) (p_sx : F .sx := by assumption)
    (p_mc : F .mc := by assumption) (p_bw : F .bw := by assumption) (p_fc : F .fc := by assumption)
    (p_pm : F .pm := by assumption) : Keeps F s (State.wholeGranule t n r dpa stop).1 := by
  unfold State.wholeGranule
  try dsimp only
  repeat' first
    | with_reducible assumption | with_reducible refine Com.tier_keeps ?_ _ _ | with_reducible refine State.pageGet_keeps ?_ _ _ _
    | with_reducible refine Keeps.ite (fun _ => ?_) (fun _ => ?_) | with_reducible refine Keeps.iteP (fun _ => ?_) (fun _ => ?_)
    | split | dsimp only | intro _

theorem State.lineSettled_keeps (h : Keeps F s t) (op) (l) (p_out : F .out := by assumption)
    (p_fresh : F .fresh := by assumption) (p_dram : F .dram := by assumption) (p_hp : F .hp := by assumption)
    (p_rr : F .rr := by assumption) (p_rg : F .rg := by assumption) (p_ns : F .ns := by assumption)
    (p_tr : F .tr := by assumption) (p_cd : F .cd := by assumption) (p_lp : F .lp := by assumption)
    (p_sx : F .sx := by assumption) (p_mc : F .mc := by assumption) (p_bw : F .bw := by assumption)
    (p_fc : F .fc := by assumption) (p_pm : F .pm := by assumption) : Keeps F s (State.lineSettled t op l) := by
  unfold State.lineSettled
  try dsimp only
  repeat' first
    | with_reducible assumption | with_reducible refine State.settle_keeps ?_ _ _
    | with_reducible refine State.drainVictims_keeps ?_ _ _ | intro _

theorem State.zeroGranule_keeps (h : Keeps F s t) (n) (r) (dpa) (p_out : F .out := by assumption)
    (p_fresh : F .fresh := by assumption) (p_dram : F .dram := by assumption) (p_hp : F .hp := by assumption)
    (p_rr : F .rr := by assumption) (p_rg : F .rg := by assumption) (p_ns : F .ns := by assumption)
    (p_tr : F .tr := by assumption) (p_cd : F .cd := by assumption) (p_lp : F .lp := by assumption)
    (p_sx : F .sx := by assumption) (p_mc : F .mc := by assumption) (p_bw : F .bw := by assumption)
    (p_fc : F .fc := by assumption) (p_pm : F .pm := by assumption) : Keeps F s (State.zeroGranule t n r dpa) := by
  unfold State.zeroGranule
  try dsimp only
  repeat' first
    | with_reducible assumption | with_reducible refine State.lineSettled_keeps ?_ _ _
    | with_reducible refine State.moveBroken_keeps ?_ _ | with_reducible refine State.nsDiscard_keeps ?_ _
    | with_reducible refine State.getGran_keeps ?_ _ _ _ | with_reducible refine State.descSet_keeps ?_ _ _ _ _
    | with_reducible refine State.freeGran_keeps ?_ _ _ _ _ | with_reducible refine State.checkLow_keeps ?_ _
    | with_reducible refine Keeps.foldl (fun _ _ _ => ?_) _ ?_ | with_reducible refine Keeps.foldlP (fun _ _ _ => ?_) _ ?_
    | with_reducible refine Keeps.ite (fun _ => ?_) (fun _ => ?_) | with_reducible refine Keeps.iteP (fun _ => ?_) (fun _ => ?_)
    | split | dsimp only | intro _

theorem State.lineOp_keeps (h : Keeps F s t) (op) (l) (p_out : F .out := by assumption) (p_fresh : F .fresh := by assumption)
    (p_dram : F .dram := by assumption) (p_hp : F .hp := by assumption) (p_rr : F .rr := by assumption)
    (p_rg : F .rg := by assumption) (p_ns : F .ns := by assumption) (p_tr : F .tr := by assumption)
    (p_cd : F .cd := by assumption) (p_lp : F .lp := by assumption) (p_sx : F .sx := by assumption)
    (p_mc : F .mc := by assumption) (p_bw : F .bw := by assumption) (p_ce : F .ce := by assumption)
    (p_fc : F .fc := by assumption) (p_pm : F .pm := by assumption) : Keeps F s (State.lineOp t op l) := by
  unfold State.lineOp
  try dsimp only
  repeat' first
    | with_reducible assumption | with_reducible refine State.ctrWrite_keeps ?_ _ _ _ _
    | with_reducible refine State.zeroLine_keeps ?_ _ | with_reducible refine State.maintain_keeps ?_ _ _
    | with_reducible refine Keeps.ite (fun _ => ?_) (fun _ => ?_) | with_reducible refine Keeps.iteP (fun _ => ?_) (fun _ => ?_)
    | split | intro _

theorem State.zeroAlready_keeps (h : Keeps F s t) (n) (r) (dpa) (whole) (p_out : F .out := by assumption)
    (p_dram : F .dram := by assumption) (p_rg : F .rg := by assumption) (p_cd : F .cd := by assumption)
    (p_lp : F .lp := by assumption) (p_sx : F .sx := by assumption) (p_mc : F .mc := by assumption)
    (p_bw : F .bw := by assumption) (p_fc : F .fc := by assumption) (p_pm : F .pm := by assumption)
    : Keeps F s (State.zeroAlready t n r dpa whole).1 := by
  unfold State.zeroAlready
  try dsimp only
  repeat' first
    | with_reducible assumption | with_reducible refine State.getGran_keeps ?_ _ _ _
    | with_reducible refine Keeps.ite (fun _ => ?_) (fun _ => ?_) | with_reducible refine Keeps.iteP (fun _ => ?_) (fun _ => ?_)
    | split | dsimp only | intro _

theorem State.cleanRow_keeps (h : Keeps F s t) (op) (n) (r) (ls) (p_out : F .out := by assumption)
    (p_dram : F .dram := by assumption) (p_rg : F .rg := by assumption) (p_ns : F .ns := by assumption)
    (p_tr : F .tr := by assumption) (p_cd : F .cd := by assumption) (p_lp : F .lp := by assumption)
    (p_sx : F .sx := by assumption) (p_mc : F .mc := by assumption) (p_bw : F .bw := by assumption)
    (p_fc : F .fc := by assumption) (p_pm : F .pm := by assumption) : Keeps F s (State.cleanRow t op n r ls) := by
  unfold State.cleanRow
  try dsimp only
  repeat' first
    | with_reducible assumption | with_reducible refine State.drainVictims_keeps ?_ _ _
    | with_reducible refine State.extWrite_keeps ?_ _ _ _ _ _ _ _ | with_reducible refine State.nsSetAt_keeps ?_ _ _
    | with_reducible refine State.count_keeps ?_ _ _ _ | with_reducible refine Keeps.foldl (fun _ _ _ => ?_) _ ?_
    | with_reducible refine Keeps.foldlP (fun _ _ _ => ?_) _ ?_ | with_reducible refine Keeps.ite (fun _ => ?_) (fun _ => ?_)
    | with_reducible refine Keeps.iteP (fun _ => ?_) (fun _ => ?_) | split | dsimp only | intro _

theorem State.rangeLine_keeps (h : Keeps F s t) (x) (r) (dpa) (p_out : F .out := by assumption)
    (p_fresh : F .fresh := by assumption) (p_dram : F .dram := by assumption) (p_hp : F .hp := by assumption)
    (p_rr : F .rr := by assumption) (p_rg : F .rg := by assumption) (p_ns : F .ns := by assumption)
    (p_tr : F .tr := by assumption) (p_cd : F .cd := by assumption) (p_lp : F .lp := by assumption)
    (p_sx : F .sx := by assumption) (p_mc : F .mc := by assumption) (p_bw : F .bw := by assumption)
    (p_ce : F .ce := by assumption) (p_fc : F .fc := by assumption) (p_pm : F .pm := by assumption)
    : Keeps F s (State.rangeLine t x r dpa).1 := by
  unfold State.rangeLine
  try dsimp only
  repeat' first
    | with_reducible assumption | with_reducible refine Com.tier_keeps ?_ _ _ | with_reducible refine State.lineSettled_keeps ?_ _ _
    | with_reducible refine State.wholeGranule_keeps ?_ _ _ _ _ | with_reducible refine State.zeroAlready_keeps ?_ _ _ _ _
    | with_reducible refine State.sendSnoops_keeps ?_ _ _ | with_reducible refine State.cleanRow_keeps ?_ _ _ _ _
    | with_reducible refine State.zeroGranule_keeps ?_ _ _ _ | with_reducible refine State.lineOp_keeps ?_ _ _
    | with_reducible refine Keeps.foldl (fun _ _ _ => ?_) _ ?_ | with_reducible refine Keeps.foldlP (fun _ _ _ => ?_) _ ?_
    | with_reducible refine Keeps.ite (fun _ => ?_) (fun _ => ?_) | with_reducible refine Keeps.iteP (fun _ => ?_) (fun _ => ?_)
    | split | dsimp only | intro _

theorem State.scanBegin_keeps (h : Keeps F s t) (x) (p_out : F .out := by assumption) (p_fresh : F .fresh := by assumption)
    (p_dram : F .dram := by assumption) (p_hp : F .hp := by assumption) (p_rr : F .rr := by assumption)
    (p_rg : F .rg := by assumption) (p_ns : F .ns := by assumption) (p_tr : F .tr := by assumption)
    (p_cd : F .cd := by assumption) (p_lp : F .lp := by assumption) (p_sx : F .sx := by assumption)
    (p_mc : F .mc := by assumption) (p_bw : F .bw := by assumption) (p_fc : F .fc := by assumption)
    (p_pm : F .pm := by assumption) : Keeps F s (State.scanBegin t x) := by
  unfold State.scanBegin
  try dsimp only
  repeat' first
    | with_reducible assumption | with_reducible refine State.lineSettled_keeps ?_ _ _
    | with_reducible refine Keeps.foldl (fun _ _ _ => ?_) _ ?_ | with_reducible refine Keeps.foldlP (fun _ _ _ => ?_) _ ?_
    | with_reducible refine Keeps.ite (fun _ => ?_) (fun _ => ?_) | with_reducible refine Keeps.iteP (fun _ => ?_) (fun _ => ?_)
    | split | dsimp only | intro _

theorem State.rangeNext_keeps (h : Keeps F s t) (x) (stop) (p_out : F .out := by assumption)
    (p_fresh : F .fresh := by assumption) (p_dram : F .dram := by assumption) (p_hp : F .hp := by assumption)
    (p_rr : F .rr := by assumption) (p_rg : F .rg := by assumption) (p_ns : F .ns := by assumption)
    (p_tr : F .tr := by assumption) (p_cd : F .cd := by assumption) (p_lp : F .lp := by assumption)
    (p_sx : F .sx := by assumption) (p_mc : F .mc := by assumption) (p_bw : F .bw := by assumption)
    (p_ce : F .ce := by assumption) (p_fc : F .fc := by assumption) (p_pm : F .pm := by assumption)
    : Keeps F s (State.rangeNext t x stop).1 := by
  unfold State.rangeNext
  try dsimp only
  repeat' first
    | with_reducible assumption | with_reducible refine State.scanBegin_keeps ?_ _
    | with_reducible refine State.rangeLine_keeps ?_ _ _ _ | with_reducible refine Keeps.ite (fun _ => ?_) (fun _ => ?_)
    | with_reducible refine Keeps.iteP (fun _ => ?_) (fun _ => ?_) | split | dsimp only | intro _

theorem State.rangeTo_keeps (h : Keeps F s t) (x) (stop) (b0) (p_out : F .out := by assumption)
    (p_fresh : F .fresh := by assumption) (p_dram : F .dram := by assumption) (p_hp : F .hp := by assumption)
    (p_rr : F .rr := by assumption) (p_rg : F .rg := by assumption) (p_ns : F .ns := by assumption)
    (p_tr : F .tr := by assumption) (p_cd : F .cd := by assumption) (p_lp : F .lp := by assumption)
    (p_sx : F .sx := by assumption) (p_mc : F .mc := by assumption) (p_bw : F .bw := by assumption)
    (p_ce : F .ce := by assumption) (p_fc : F .fc := by assumption) (p_pm : F .pm := by assumption)
    : Keeps F s (State.rangeTo t x stop b0).1 := by
  induction b0 generalizing t x stop with
  | zero => unfold State.rangeTo; with_reducible exact h
  | succ _ ih =>
    unfold State.rangeTo
    try dsimp only
    repeat' first
      | with_reducible assumption | with_reducible refine ih ?_ _ _ | with_reducible refine State.rangeNext_keeps ?_ _ _
      | with_reducible refine Keeps.ite (fun _ => ?_) (fun _ => ?_) | with_reducible refine Keeps.iteP (fun _ => ?_) (fun _ => ?_)
      | split | dsimp only | intro _

theorem State.endS_keeps (h : Keeps F s t) (x) (st) (p_out : F .out := by assumption) (p_hp : F .hp := by assumption)
    (p_mb : F .mb := by assumption) (p_pm : F .pm := by assumption) : Keeps F s (State.endS t x st) := by
  unfold State.endS
  try dsimp only
  repeat' first
    | with_reducible assumption | with_reducible refine State.countAnswer_keeps ?_ _ _
    | with_reducible refine State.complete_keeps ?_ _ _ _ | with_reducible refine Keeps.foldl (fun _ _ _ => ?_) _ ?_
    | with_reducible refine Keeps.foldlP (fun _ _ _ => ?_) _ ?_ | with_reducible refine Keeps.ite (fun _ => ?_) (fun _ => ?_)
    | with_reducible refine Keeps.iteP (fun _ => ?_) (fun _ => ?_)
    | simp only [keeps_upd, p_out, p_hp, p_mb, p_pm, or_true, true_or, length_lmod, length_lset, List.length_map] | split
    | dsimp only | intro _

theorem rangeCmd_keeps (h : Keeps F s t) (opcode) (a1) (a2) (p_out : F .out := by assumption)
    (p_fresh : F .fresh := by assumption) (p_dram : F .dram := by assumption) (p_hp : F .hp := by assumption)
    (p_rr : F .rr := by assumption) (p_rg : F .rg := by assumption) (p_ns : F .ns := by assumption)
    (p_tr : F .tr := by assumption) (p_cd : F .cd := by assumption) (p_lp : F .lp := by assumption)
    (p_sx : F .sx := by assumption) (p_mc : F .mc := by assumption) (p_bw : F .bw := by assumption)
    (p_ce : F .ce := by assumption) (p_mb : F .mb := by assumption) (p_fc : F .fc := by assumption)
    (p_pm : F .pm := by assumption) : Keeps F s (rangeCmd opcode a1 a2 t).1 := by
  unfold rangeCmd
  try dsimp only
  repeat' first
    | with_reducible assumption | with_reducible refine State.direct_keeps ?_ _ _ _ _ _
    | with_reducible refine State.rangeTo_keeps ?_ _ _ _ | with_reducible refine State.startBg_keeps ?_ _ _ _ _ _ _
    | with_reducible refine Keeps.ite (fun _ => ?_) (fun _ => ?_) | with_reducible refine Keeps.iteP (fun _ => ?_) (fun _ => ?_)
    | simp only [keeps_upd, p_out, p_fresh, p_dram, p_hp, p_rr, p_rg, p_ns, p_tr, p_cd, p_lp, p_sx, p_mc, p_bw, p_ce, p_mb, p_fc, p_pm, or_true, true_or, length_lmod, length_lset, List.length_map]
    | split | dsimp only | intro _

theorem State.resumeRanges_keeps (h : Keeps F s t) (p_out : F .out := by assumption) (p_fresh : F .fresh := by assumption) (p_dram : F .dram := by assumption) (p_hp : F .hp := by assumption) (p_rr : F .rr := by assumption) (p_rg : F .rg := by assumption) (p_ns : F .ns := by assumption) (p_tr : F .tr := by assumption) (p_cd : F .cd := by assumption) (p_lp : F .lp := by assumption) (p_sx : F .sx := by assumption) (p_mc : F .mc := by assumption) (p_bw : F .bw := by assumption) (p_ce : F .ce := by assumption) (p_mb : F .mb := by assumption) (p_fc : F .fc := by assumption) (p_pm : F .pm := by assumption) :
    Keeps F s t.resumeRanges := by
  unfold State.resumeRanges
  try dsimp only
  repeat' first
    | with_reducible assumption | intro _ | with_reducible refine State.rangeTo_keeps ?_ _ _ _
    | with_reducible refine State.endS_keeps ?_ _ _ | with_reducible refine Keeps.foldl (fun _ _ _ => ?_) _ ?_
    | with_reducible refine Keeps.foldlP (fun _ _ _ => ?_) _ ?_ | with_reducible refine Keeps.ite (fun _ => ?_) (fun _ => ?_)
    | with_reducible refine Keeps.iteP (fun _ => ?_) (fun _ => ?_)
    | simp only [keeps_upd, p_out, p_fresh, p_dram, p_hp, p_rr, p_rg, p_ns, p_tr, p_cd, p_lp, p_sx, p_mc, p_bw, p_ce, p_mb, p_fc, p_pm, or_true, true_or, length_lmod, length_lset, List.length_map]
    | split

theorem backInvalidateResponse_keeps (h : Keeps F s t) (f) (line) (p_out : F .out := by assumption)
    (p_fresh : F .fresh := by assumption) (p_dram : F .dram := by assumption) (p_hp : F .hp := by assumption)
    (p_rr : F .rr := by assumption) (p_rg : F .rg := by assumption) (p_ns : F .ns := by assumption)
    (p_tr : F .tr := by assumption) (p_cd : F .cd := by assumption) (p_lp : F .lp := by assumption)
    (p_sx : F .sx := by assumption) (p_mc : F .mc := by assumption) (p_bw : F .bw := by assumption)
    (p_ce : F .ce := by assumption) (p_mb : F .mb := by assumption) (p_fc : F .fc := by assumption)
    (p_pm : F .pm := by assumption) : Keeps F s (backInvalidateResponse f line t) := by
  unfold backInvalidateResponse
  try dsimp only
  repeat' first
    | with_reducible assumption | with_reducible refine State.modPort_keeps ?_ _ _ | with_reducible refine State.ceResume_keeps ?_
    | with_reducible refine State.ctrResume_keeps ?_ | with_reducible refine State.resumeRanges_keeps ?_
    | with_reducible refine Keeps.ite (fun _ => ?_) (fun _ => ?_) | with_reducible refine Keeps.iteP (fun _ => ?_) (fun _ => ?_)
    | split | dsimp only | intro _

theorem State.snoopsGone_keeps (h : Keeps F s t) (f) (p_out : F .out := by assumption) (p_fresh : F .fresh := by assumption)
    (p_dram : F .dram := by assumption) (p_hp : F .hp := by assumption) (p_rr : F .rr := by assumption)
    (p_rg : F .rg := by assumption) (p_ns : F .ns := by assumption) (p_tr : F .tr := by assumption)
    (p_cd : F .cd := by assumption) (p_lp : F .lp := by assumption) (p_sx : F .sx := by assumption)
    (p_mc : F .mc := by assumption) (p_bw : F .bw := by assumption) (p_ce : F .ce := by assumption)
    (p_mb : F .mb := by assumption) (p_fc : F .fc := by assumption) (p_pm : F .pm := by assumption)
    : Keeps F s (State.snoopsGone t f) := by
  unfold State.snoopsGone
  try dsimp only
  repeat' first
    | with_reducible assumption | with_reducible refine State.modPort_keeps ?_ _ _ | with_reducible refine State.ceResume_keeps ?_
    | with_reducible refine State.ctrResume_keeps ?_ | with_reducible refine State.resumeRanges_keeps ?_ | dsimp only | intro _

theorem State.setWays_keeps (h : Keeps F s t) (gs) (w) (p_ns : F .ns := by assumption) : Keeps F s (State.setWays t gs w) := by
  unfold State.setWays
  try dsimp only
  repeat' first
    | with_reducible assumption | with_reducible refine Keeps.foldl (fun _ _ _ => ?_) _ ?_
    | with_reducible refine Keeps.foldlP (fun _ _ _ => ?_) _ ?_
    | simp only [keeps_upd, p_ns, or_true, true_or, length_lmod, length_lset, List.length_map] | dsimp only | intro _

theorem nsWays_keeps (h : Keeps F s t) (a1) (a2) (p_ns : F .ns := by assumption) (p_mb : F .mb := by assumption)
    : Keeps F s (nsWays a1 a2 t).1 := by
  unfold nsWays
  try dsimp only
  repeat' first
    | with_reducible assumption | with_reducible refine State.direct_keeps ?_ _ _ _ _ _
    | with_reducible refine State.startBg_keeps ?_ _ _ _ _ _ _ | with_reducible refine State.setWays_keeps ?_ _ _
    | with_reducible refine Keeps.ite (fun _ => ?_) (fun _ => ?_) | with_reducible refine Keeps.iteP (fun _ => ?_) (fun _ => ?_)
    | split | dsimp only | intro _

theorem State.drainEntry_keeps (h : Keeps F s t) (g) (i) (p_out : F .out := by assumption) (p_dram : F .dram := by assumption)
    (p_rg : F .rg := by assumption) (p_ns : F .ns := by assumption) (p_tr : F .tr := by assumption)
    (p_cd : F .cd := by assumption) (p_lp : F .lp := by assumption) (p_sx : F .sx := by assumption)
    (p_mc : F .mc := by assumption) (p_bw : F .bw := by assumption) (p_fc : F .fc := by assumption)
    (p_pm : F .pm := by assumption) : Keeps F s (State.drainEntry t g i) := by
  unfold State.drainEntry
  try dsimp only
  repeat' first
    | with_reducible assumption | with_reducible refine State.nsSetAt_keeps ?_ _ _
    | with_reducible refine State.drainVictims_keeps ?_ _ _ | with_reducible refine State.nsBack_keeps ?_ _ _
    | with_reducible refine Keeps.ite (fun _ => ?_) (fun _ => ?_) | with_reducible refine Keeps.iteP (fun _ => ?_) (fun _ => ?_)
    | split | dsimp only | intro _

theorem State.gateGroup_keeps (h : Keeps F s t) (g) (p_out : F .out := by assumption) (p_dram : F .dram := by assumption)
    (p_rg : F .rg := by assumption) (p_ns : F .ns := by assumption) (p_tr : F .tr := by assumption)
    (p_cd : F .cd := by assumption) (p_lp : F .lp := by assumption) (p_sx : F .sx := by assumption)
    (p_mc : F .mc := by assumption) (p_bw : F .bw := by assumption) (p_fc : F .fc := by assumption)
    (p_pm : F .pm := by assumption) : Keeps F s (State.gateGroup t g) := by
  unfold State.gateGroup
  try dsimp only
  repeat' first
    | with_reducible assumption | with_reducible refine State.drainEntry_keeps ?_ _ _
    | with_reducible refine State.setWays_keeps ?_ _ _ | with_reducible refine Keeps.foldl (fun _ _ _ => ?_) _ ?_
    | with_reducible refine Keeps.foldlP (fun _ _ _ => ?_) _ ?_
    | simp only [keeps_upd, p_out, p_dram, p_rg, p_ns, p_tr, p_cd, p_lp, p_sx, p_mc, p_bw, p_fc, p_pm, or_true, true_or, length_lmod, length_lset, List.length_map]
    | dsimp only | intro _

theorem State.wakeGroup_keeps (h : Keeps F s t) (g) (p_ns : F .ns := by assumption) (p_fu : F .fu := by assumption)
    : Keeps F s (State.wakeGroup t g) := by
  unfold State.wakeGroup
  try dsimp only
  repeat' first
    | with_reducible assumption | with_reducible refine State.setWays_keeps ?_ _ _
    | with_reducible refine State.applySoft_keeps ?_ _ _
    | simp only [keeps_upd, p_ns, p_fu, or_true, true_or, length_lmod, length_lset, List.length_map] | split | dsimp only | intro _

theorem State.waysEnd_keeps (h : Keeps F s t) (p_out : F .out := by assumption) (p_hp : F .hp := by assumption) (p_mb : F .mb := by assumption) (p_pm : F .pm := by assumption) : Keeps F s t.waysEnd := by
  unfold State.waysEnd
  repeat' first
    | with_reducible assumption | intro _ | with_reducible refine State.endOp_keeps ?_ _ _ _
    | with_reducible refine State.modOp_keeps ?_ _ _ | with_reducible refine Keeps.ite (fun _ => ?_) (fun _ => ?_)
    | simp only [keeps_upd, p_out, p_hp, p_mb, p_pm, or_true, true_or, length_lmod, length_lset, List.length_map] | split

theorem nsWaysDrainDone_keeps (h : Keeps F s t) (p_out : F .out := by assumption) (p_dram : F .dram := by assumption)
    (p_hp : F .hp := by assumption) (p_rg : F .rg := by assumption) (p_ns : F .ns := by assumption)
    (p_tr : F .tr := by assumption) (p_cd : F .cd := by assumption) (p_lp : F .lp := by assumption)
    (p_sx : F .sx := by assumption) (p_mc : F .mc := by assumption) (p_bw : F .bw := by assumption)
    (p_mb : F .mb := by assumption) (p_fc : F .fc := by assumption) (p_pm : F .pm := by assumption)
    : Keeps F s (nsWaysDrainDone t) := by
  unfold nsWaysDrainDone
  try dsimp only
  repeat' first
    | with_reducible assumption | with_reducible refine State.gateGroup_keeps ?_ _ | with_reducible refine State.waysEnd_keeps ?_
    | split | intro _

theorem nsWaysEnableDone_keeps (h : Keeps F s t) (p_out : F .out := by assumption) (p_hp : F .hp := by assumption)
    (p_ns : F .ns := by assumption) (p_fu : F .fu := by assumption) (p_mb : F .mb := by assumption)
    (p_pm : F .pm := by assumption) : Keeps F s (nsWaysEnableDone t) := by
  unfold nsWaysEnableDone
  try dsimp only
  repeat' first
    | with_reducible assumption | with_reducible refine State.wakeGroup_keeps ?_ _ | with_reducible refine State.waysEnd_keeps ?_
    | with_reducible refine Keeps.foldl (fun _ _ _ => ?_) _ ?_ | with_reducible refine Keeps.foldlP (fun _ _ _ => ?_) _ ?_ | split
    | dsimp only | intro _

theorem State.waysAbort_keeps (h : Keeps F s t) (off) (p_ns : F .ns := by assumption) : Keeps F s (State.waysAbort t off).1 := by
  unfold State.waysAbort
  try dsimp only
  repeat' first
    | with_reducible assumption | with_reducible refine State.setWays_keeps ?_ _ _
    | with_reducible refine Keeps.ite (fun _ => ?_) (fun _ => ?_) | with_reducible refine Keeps.iteP (fun _ => ?_) (fun _ => ?_)
    | split | dsimp only | intro _

theorem State.muckPick_keeps (h : Keeps F s t) (p_cd : F .cd := by assumption) : Keeps F s t.muckPick := by
  unfold State.muckPick
  repeat' first
    | with_reducible assumption | simp only [keeps_upd, p_cd, or_true, true_or, length_lmod, length_lset, List.length_map] | split

theorem State.muckReset_keeps (h : Keeps F s t) (n) (k) (g) (p_out : F .out := by assumption)
    (p_dram : F .dram := by assumption) (p_rg : F .rg := by assumption) (p_cd : F .cd := by assumption)
    (p_lp : F .lp := by assumption) (p_sx : F .sx := by assumption) (p_mc : F .mc := by assumption)
    (p_bw : F .bw := by assumption) (p_fc : F .fc := by assumption) (p_pm : F .pm := by assumption)
    : Keeps F s (State.muckReset t n k g) := by
  unfold State.muckReset
  try dsimp only
  repeat' first
    | with_reducible assumption | with_reducible refine State.descSet_keeps ?_ _ _ _ _
    | with_reducible refine State.modRegion_keeps ?_ _ _ | with_reducible refine Keeps.ite (fun _ => ?_) (fun _ => ?_)
    | with_reducible refine Keeps.iteP (fun _ => ?_) (fun _ => ?_) | split | dsimp only | intro _

theorem State.muckChain_keeps (h : Keeps F s t) (n) (k) (g) (r) (p_out : F .out := by assumption)
    (p_dram : F .dram := by assumption) (p_rg : F .rg := by assumption) (p_cd : F .cd := by assumption)
    (p_lp : F .lp := by assumption) (p_sx : F .sx := by assumption) (p_mc : F .mc := by assumption)
    (p_bw : F .bw := by assumption) (p_fc : F .fc := by assumption) (p_pm : F .pm := by assumption)
    : Keeps F s (State.muckChain t n k g r) := by
  unfold State.muckChain
  try dsimp only
  repeat' first
    | with_reducible assumption | with_reducible refine State.storeGran_keeps ?_ _ _ _ _ _ _ _ _ _
    | with_reducible refine State.freeGran_keeps ?_ _ _ _ _ | with_reducible refine State.checkLow_keeps ?_ _
    | with_reducible refine State.count_keeps ?_ _ _ _ | with_reducible refine State.muckReset_keeps ?_ _ _ _
    | with_reducible refine Keeps.ite (fun _ => ?_) (fun _ => ?_) | with_reducible refine Keeps.iteP (fun _ => ?_) (fun _ => ?_)
    | simp only [keeps_upd, p_out, p_dram, p_rg, p_cd, p_lp, p_sx, p_mc, p_bw, p_fc, p_pm, or_true, true_or, length_lmod, length_lset, List.length_map]
    | split | dsimp only | intro _

theorem State.muckGran_keeps (h : Keeps F s t) (n) (k) (p_out : F .out := by assumption) (p_dram : F .dram := by assumption)
    (p_rg : F .rg := by assumption) (p_cd : F .cd := by assumption) (p_lp : F .lp := by assumption)
    (p_sx : F .sx := by assumption) (p_mc : F .mc := by assumption) (p_bw : F .bw := by assumption)
    (p_fc : F .fc := by assumption) (p_pm : F .pm := by assumption) : Keeps F s (State.muckGran t n k) := by
  unfold State.muckGran
  try dsimp only
  repeat' first
    | with_reducible assumption | with_reducible refine State.getGran_keeps ?_ _ _ _
    | with_reducible refine State.muckChain_keeps ?_ _ _ _ _ | with_reducible refine State.storeGran_keeps ?_ _ _ _ _ _ _ _ _ _
    | with_reducible refine State.count_keeps ?_ _ _ _ | with_reducible refine State.muckReset_keeps ?_ _ _ _
    | with_reducible refine State.descSet_keeps ?_ _ _ _ _ | with_reducible refine Keeps.ite (fun _ => ?_) (fun _ => ?_)
    | with_reducible refine Keeps.iteP (fun _ => ?_) (fun _ => ?_) | split | dsimp only | intro _

theorem muckVisit_keeps (h : Keeps F s t) (halt) (p_out : F .out := by assumption) (p_dram : F .dram := by assumption)
    (p_rg : F .rg := by assumption) (p_tr : F .tr := by assumption) (p_cd : F .cd := by assumption)
    (p_lp : F .lp := by assumption) (p_sx : F .sx := by assumption) (p_mc : F .mc := by assumption)
    (p_bw : F .bw := by assumption) (p_fc : F .fc := by assumption) (p_pm : F .pm := by assumption)
    : Keeps F s (muckVisit halt t) := by
  unfold muckVisit
  try dsimp only
  repeat' first
    | with_reducible assumption | with_reducible refine State.report_keeps ?_ _ _ _ | with_reducible refine State.muckPick_keeps ?_
    | with_reducible refine Com.tier_keeps ?_ _ _ | with_reducible refine State.pageGet_keeps ?_ _ _ _
    | with_reducible refine State.muckGran_keeps ?_ _ _ | with_reducible refine Keeps.ite (fun _ => ?_) (fun _ => ?_)
    | with_reducible refine Keeps.iteP (fun _ => ?_) (fun _ => ?_)
    | simp only [keeps_upd, p_out, p_dram, p_rg, p_tr, p_cd, p_lp, p_sx, p_mc, p_bw, p_fc, p_pm, or_true, true_or, length_lmod, length_lset, List.length_map]
    | split | dsimp only | intro _

theorem State.fillQueue_keeps (h : Keeps F s t) (protect) (grain) (mask) (row) (x) (b) (p_mc : F .mc := by assumption)
    (p_bw : F .bw := by assumption) : Keeps F s (State.fillQueue t protect grain mask row x b) := by
  unfold State.fillQueue
  try dsimp only
  repeat' first
    | with_reducible assumption | with_reducible refine State.queueWrite_keeps ?_ _ _ _ _
    | with_reducible refine Keeps.foldl (fun _ _ _ => ?_) _ ?_ | with_reducible refine Keeps.foldlP (fun _ _ _ => ?_) _ ?_
    | with_reducible refine Keeps.ite (fun _ => ?_) (fun _ => ?_) | with_reducible refine Keeps.iteP (fun _ => ?_) (fun _ => ?_)
    | split | dsimp only | intro _

theorem State.setReserved_keeps (h : Keeps F s t) (i) (x) (p_rg : F .rg := by assumption) : Keeps F s (State.setReserved t i x) := by
  unfold State.setReserved
  try dsimp only
  repeat' first
    | with_reducible assumption | with_reducible refine Keeps.ite (fun _ => ?_) (fun _ => ?_)
    | with_reducible refine Keeps.iteP (fun _ => ?_) (fun _ => ?_)
    | simp only [keeps_upd, p_rg, or_true, true_or, length_lmod, length_lset, List.length_map] | split | dsimp only | intro _

theorem State.fillFree_keeps (h : Keeps F s t) (p_rg : F .rg := by assumption) (p_mc : F .mc := by assumption)
    (p_bw : F .bw := by assumption) : Keeps F s (State.fillFree t) := by
  unfold State.fillFree
  try dsimp only
  repeat' first
    | with_reducible assumption | with_reducible refine State.enterQueue_keeps ?_ _ _ _ _ _ _
    | with_reducible refine Keeps.foldl (fun _ _ _ => ?_) _ ?_ | with_reducible refine Keeps.foldlP (fun _ _ _ => ?_) _ ?_
    | with_reducible refine Keeps.ite (fun _ => ?_) (fun _ => ?_) | with_reducible refine Keeps.iteP (fun _ => ?_) (fun _ => ?_)
    | simp only [keeps_upd, p_rg, p_mc, p_bw, or_true, true_or, length_lmod, length_lset, List.length_map] | split | dsimp only
    | intro _

theorem fillBlock_keeps (h : Keeps F s t) (halt) (p_dram : F .dram := by assumption) (p_rg : F .rg := by assumption)
    (p_lp : F .lp := by assumption) (p_mc : F .mc := by assumption) (p_bw : F .bw := by assumption)
    (p_fc : F .fc := by assumption) (p_pm : F .pm := by assumption) : Keeps F s (fillBlock halt t) := by
  unfold fillBlock
  try dsimp only
  repeat' first
    | with_reducible assumption | with_reducible refine State.report_keeps ?_ _ _ _
    | with_reducible refine State.fillQueue_keeps ?_ _ _ _ _ _ _ | with_reducible refine State.setReserved_keeps ?_ _ _
    | with_reducible refine State.fillUpsets_keeps ?_ _ _ _ _ _ | with_reducible refine Com.regions_keeps ?_ _
    | with_reducible refine State.modRegion_keeps ?_ _ _ | with_reducible refine State.writeFree_keeps ?_ _
    | with_reducible refine State.fillFree_keeps ?_ | with_reducible refine Keeps.ite (fun _ => ?_) (fun _ => ?_)
    | with_reducible refine Keeps.iteP (fun _ => ?_) (fun _ => ?_)
    | simp only [keeps_upd, p_dram, p_rg, p_lp, p_mc, p_bw, p_fc, p_pm, or_true, true_or, length_lmod, length_lset, List.length_map]
    | split | dsimp only | intro _

theorem tierCtl_keeps (h : Keeps F s t) (a1) (a2) (p_tr : F .tr := by assumption) (p_mb : F .mb := by assumption)
    : Keeps F s (tierCtl a1 a2 t).1 := by
  unfold tierCtl
  try dsimp only
  repeat' first
    | with_reducible assumption | with_reducible refine State.restartMig_keeps ?_
    | with_reducible refine State.direct_keeps ?_ _ _ _ _ _ | with_reducible refine Keeps.ite (fun _ => ?_) (fun _ => ?_)
    | with_reducible refine Keeps.iteP (fun _ => ?_) (fun _ => ?_)
    | simp only [keeps_upd, p_tr, p_mb, or_true, true_or, length_lmod, length_lset, List.length_map] | split | dsimp only | intro _

theorem cdCtl_keeps (h : Keeps F s t) (a1) (a2) (p_rg : F .rg := by assumption) (p_cd : F .cd := by assumption)
    (p_mb : F .mb := by assumption) (p_fc : F .fc := by assumption) : Keeps F s (cdCtl a1 a2 t).1 := by
  unfold cdCtl
  try dsimp only
  repeat' first
    | with_reducible assumption | with_reducible refine Com.tier_keeps ?_ _ _ | with_reducible refine State.modRegion_keeps ?_ _ _
    | with_reducible refine State.checkLow_keeps ?_ _ | with_reducible refine State.direct_keeps ?_ _ _ _ _ _
    | with_reducible refine Keeps.ite (fun _ => ?_) (fun _ => ?_) | with_reducible refine Keeps.iteP (fun _ => ?_) (fun _ => ?_)
    | simp only [keeps_upd, p_rg, p_cd, p_mb, p_fc, or_true, true_or, length_lmod, length_lset, List.length_map] | split
    | dsimp only | intro _

theorem cdYardQuery_keeps (h : Keeps F s t) (a1) (a2) (p_mb : F .mb := by assumption) : Keeps F s (cdYardQuery a1 a2 t).1 := by
  unfold cdYardQuery
  try dsimp only
  repeat' first
    | with_reducible assumption | with_reducible refine query_keeps ?_ _ _ _ _ _ _ | dsimp only | intro _

theorem cdGranuleRead_keeps (h : Keeps F s t) (a1) (a2) (p_out : F .out := by assumption) (p_dram : F .dram := by assumption)
    (p_rg : F .rg := by assumption) (p_tr : F .tr := by assumption) (p_cd : F .cd := by assumption)
    (p_lp : F .lp := by assumption) (p_sx : F .sx := by assumption) (p_mc : F .mc := by assumption)
    (p_bw : F .bw := by assumption) (p_mb : F .mb := by assumption) (p_fc : F .fc := by assumption)
    (p_pm : F .pm := by assumption) : Keeps F s (cdGranuleRead a1 a2 t).1 := by
  unfold cdGranuleRead
  try dsimp only
  repeat' first
    | with_reducible assumption | with_reducible refine Com.tier_keeps ?_ _ _ | with_reducible refine State.pageGet_keeps ?_ _ _ _
    | with_reducible refine State.descGet_keeps ?_ _ _ _ _ | with_reducible refine State.lostDescs_keeps ?_ _ _ _
    | with_reducible refine State.direct_keeps ?_ _ _ _ _ _ | with_reducible refine State.readGranAt_keeps ?_ _ _ _ _ _ _
    | with_reducible refine Keeps.ite (fun _ => ?_) (fun _ => ?_) | with_reducible refine Keeps.iteP (fun _ => ?_) (fun _ => ?_)
    | split | dsimp only | intro _

end Sys2Proof.Machine
end

