-- ==== Sys2Proof/Laws/KeepsQueue.lean ====
section
/-! SUPPORT. What each operation of Machine/Queue.lean keeps: queues and buffers. -/

set_option Elab.async false

set_option linter.all false

namespace Sys2Proof.Machine
open Sys2Proof

variable {F : Part → Prop} {s t : State}

theorem State.setCells_keeps (h : Keeps F s t) (first) (n) (st) (p_qe : F .qe := by assumption)
    : Keeps F s (State.setCells t first n st) := by
  unfold State.setCells
  try dsimp only
  repeat' first
    | with_reducible assumption | with_reducible refine Keeps.foldl (fun _ _ _ => ?_) _ ?_
    | with_reducible refine Keeps.foldlP (fun _ _ _ => ?_) _ ?_ | with_reducible refine Keeps.ite (fun _ => ?_) (fun _ => ?_)
    | with_reducible refine Keeps.iteP (fun _ => ?_) (fun _ => ?_)
    | simp only [keeps_upd, p_qe, or_true, true_or, length_lmod, length_lset, List.length_map] | split | dsimp only | intro _

theorem State.setLink_keeps (h : Keeps F s t) (ptr) (v) (p_qe : F .qe := by assumption) : Keeps F s (State.setLink t ptr v) := by
  unfold State.setLink
  try dsimp only
  repeat' first
    | with_reducible assumption | simp only [keeps_upd, p_qe, or_true, true_or, length_lmod, length_lset, List.length_map] | intro _

theorem State.poolCheck_keeps (h : Keeps F s t) (p_qe : F .qe := by assumption) (p_fc : F .fc := by assumption) :
    Keeps F s t.poolCheck := by
  unfold State.poolCheck
  try dsimp only
  repeat' first
    | with_reducible assumption | intro _ | with_reducible refine State.report_keeps ?_ _ _ _
    | with_reducible refine Keeps.foldl (fun _ _ _ => ?_) _ ?_ | with_reducible refine Keeps.foldlP (fun _ _ _ => ?_) _ ?_
    | with_reducible refine Keeps.ite (fun _ => ?_) (fun _ => ?_) | with_reducible refine Keeps.iteP (fun _ => ?_) (fun _ => ?_)
    | simp only [keeps_upd, p_qe, p_fc, or_true, true_or, length_lmod, length_lset, List.length_map]

theorem State.freeCells_keeps (h : Keeps F s t) (first) (n) (p_qe : F .qe := by assumption) (p_fc : F .fc := by assumption)
    : Keeps F s (State.freeCells t first n) := by
  unfold State.freeCells
  try dsimp only
  repeat' first
    | with_reducible assumption | with_reducible refine State.setCells_keeps ?_ _ _ _
    | with_reducible refine State.poolCheck_keeps ?_ | intro _

theorem State.modFree_keeps (h : Keeps F s t) (f) (m) (g) (p_hp : F .hp := by assumption) : Keeps F s (State.modFree t f m g) := by
  unfold State.modFree
  try dsimp only
  repeat' first
    | with_reducible assumption | with_reducible refine State.modFn_keeps ?_ _ _ | dsimp only | intro _

theorem State.takeRuns_keeps (h : Keeps F s t) (f) (m) (q) (r) (a5) (a6) {u} (hu : t.takeRuns f m q r a5 a6 = some u)
    (p_qe : F .qe := by assumption) : Keeps F s u.1 := by
  induction a5 generalizing t a6 with
  | zero =>
    unfold State.takeRuns at hu
    obtain rfl := Option.some.inj hu
    exact h
  | succ _ ih =>
    unfold State.takeRuns at hu
    split at hu
    · cases hu
    · exact ih (State.setLink_keeps (State.setCells_keeps h _ _ _) _ _) _ hu

theorem State.ringVector_keeps (h : Keeps F s t) (f) (v) (send) (p_out : F .out := by assumption)
    (p_hp : F .hp := by assumption) : Keeps F s (State.ringVector t f v send) := by
  unfold State.ringVector
  try dsimp only
  repeat' first
    | with_reducible assumption | with_reducible refine State.vector_keeps ?_ _ _
    | with_reducible refine Keeps.ite (fun _ => ?_) (fun _ => ?_) | with_reducible refine Keeps.iteP (fun _ => ?_) (fun _ => ?_)
    | split | intro _

theorem State.writeBatch_keeps (h : Keeps F s t) (f) (m) (q) (runs) (p_out : F .out := by assumption)
    (p_hp : F .hp := by assumption) (p_qe : F .qe := by assumption) (p_fc : F .fc := by assumption)
    (p_pm : F .pm := by assumption) : Keeps F s (State.writeBatch t f m q runs) := by
  unfold State.writeBatch
  try dsimp only
  repeat' first
    | with_reducible assumption | with_reducible refine State.sendWrite_keeps ?_ _ _ _ _
    | with_reducible refine State.modFree_keeps ?_ _ _ _ | with_reducible refine State.cause_keeps ?_ _ _
    | with_reducible refine State.ringVector_keeps ?_ _ _ _ | with_reducible refine State.count_keeps ?_ _ _ _
    | with_reducible refine State.poolCheck_keeps ?_ | dsimp only | intro _

theorem State.qeHalt_keeps (h : Keeps F s t) (ctx) (p_qe : F .qe := by assumption) (p_fc : F .fc := by assumption)
    : Keeps F s (State.qeHalt t ctx) := by
  unfold State.qeHalt
  try dsimp only
  repeat' first
    | with_reducible assumption | with_reducible refine State.report_keeps ?_ _ _ _
    | simp only [keeps_upd, p_qe, p_fc, or_true, true_or, length_lmod, length_lset, List.length_map] | split | intro _

theorem State.refillRing_keeps {u : State} (h : Keeps F s t) (halt) (key) (hu : t.refillRing halt key = some u)
    (p_out : F .out := by assumption) (p_hp : F .hp := by assumption) (p_qe : F .qe := by assumption) (p_fc : F .fc := by assumption) (p_pm : F .pm := by assumption) : Keeps F s u := by
  unfold State.refillRing at hu
  dsimp only at hu
  split at hu
  · cases hu
  · split at hu
    · cases hu
    · split at hu
      · cases hu
      · rename_i hr
        split at hu
        · obtain rfl := Option.some.inj hu
          exact State.qeHalt_keeps h _
        · obtain rfl := Option.some.inj hu
          obtain ⟨b, _, hb⟩ := Option.bind_eq_some_iff.1 hr
          exact State.writeBatch_keeps (State.takeRuns_keeps h _ _ _ _ _ _ hb) _ _ _ _

theorem freeRingRefill.go_keeps (h : Keeps F s t) (halt) (a2) (p_out : F .out := by assumption) (p_hp : F .hp := by assumption) (p_qe : F .qe := by assumption) (p_fc : F .fc := by assumption) (p_pm : F .pm := by assumption) :
    Keeps F s (freeRingRefill.go halt a2 t) := by
  induction a2 generalizing t with
  | nil => exact h
  | cons _ _ ih =>
    unfold freeRingRefill.go
    split
    · rename_i hr
      exact Keeps.upd (State.refillRing_keeps h _ _ hr)
    · exact ih (Keeps.ite (fun _ => State.modFree_keeps h _ _ _) (fun _ => h))

theorem freeRingRefill_keeps (h : Keeps F s t) (halt) (p_out : F .out := by assumption) (p_hp : F .hp := by assumption) (p_qe : F .qe := by assumption) (p_fc : F .fc := by assumption) (p_pm : F .pm := by assumption) :
    Keeps F s (freeRingRefill halt t) := by
  unfold freeRingRefill
  exact Keeps.ite (fun _ => h) (fun _ => freeRingRefill.go_keeps h _ _)

theorem State.dropFreeRing_keeps (h : Keeps F s t) (f) (m) (give) (p_hp : F .hp := by assumption)
    (p_qe : F .qe := by assumption) (p_fc : F .fc := by assumption) : Keeps F s (State.dropFreeRing t f m give) := by
  unfold State.dropFreeRing
  try dsimp only
  repeat' first
    | with_reducible assumption | with_reducible refine State.modFn_keeps ?_ _ _
    | with_reducible refine State.setCells_keeps ?_ _ _ _ | with_reducible refine State.poolCheck_keeps ?_
    | with_reducible refine Keeps.foldl (fun _ _ _ => ?_) _ ?_ | with_reducible refine Keeps.foldlP (fun _ _ _ => ?_) _ ?_
    | with_reducible refine Keeps.ite (fun _ => ?_) (fun _ => ?_) | with_reducible refine Keeps.iteP (fun _ => ?_) (fun _ => ?_)
    | split | dsimp only | intro _

theorem State.modQueue_keeps (h : Keeps F s t) (q) (g) (p_qe : F .qe := by assumption) : Keeps F s (State.modQueue t q g) := by
  unfold State.modQueue
  try dsimp only
  repeat' first
    | with_reducible assumption | simp only [keeps_upd, p_qe, or_true, true_or, length_lmod, length_lset, List.length_map] | intro _

theorem State.linkTail_keeps (h : Keeps F s t) (q) (first) (cells) (len) (p_qe : F .qe := by assumption)
    : Keeps F s (State.linkTail t q first cells len) := by
  unfold State.linkTail
  try dsimp only
  repeat' first
    | with_reducible assumption | with_reducible refine State.setLink_keeps ?_ _ _
    | with_reducible refine State.setCells_keeps ?_ _ _ _ | with_reducible refine State.modQueue_keeps ?_ _ _
    | simp only [keeps_upd, p_qe, or_true, true_or, length_lmod, length_lset, List.length_map] | split | dsimp only | intro _

theorem State.popHead_keeps (h : Keeps F s t) (q) {u} (hu : t.popHead q = some u) (p_qe : F .qe := by assumption) : Keeps F s u.1 := by
  unfold State.popHead at hu
  dsimp only at hu
  split at hu
  · cases hu
  · obtain rfl := Option.some.inj hu
    exact Keeps.upd (State.modQueue_keeps h _ _)

theorem State.freePkt_keeps (h : Keeps F s t) (first) (cells) (p_qe : F .qe := by assumption) (p_fc : F .fc := by assumption)
    : Keeps F s (State.freePkt t first cells) := by
  unfold State.freePkt
  try dsimp only
  repeat' first
    | with_reducible assumption | with_reducible refine State.freeCells_keeps ?_ _ _
    | simp only [keeps_upd, p_qe, p_fc, or_true, true_or, length_lmod, length_lset, List.length_map] | intro _

theorem State.qEvent_keeps (h : Keeps F s t) (code) (q) (packets) (bytes) (p_qe : F .qe := by assumption)
    (p_ce : F .ce := by assumption) (p_fc : F .fc := by assumption) (p_pm : F .pm := by assumption)
    : Keeps F s (State.qEvent t code q packets bytes) := by
  unfold State.qEvent
  try dsimp only
  repeat' first
    | with_reducible assumption | with_reducible refine State.reportAgg_keeps ?_ _ _ _ _ _
    | with_reducible refine State.count_keeps ?_ _ _ _ | with_reducible refine Keeps.ite (fun _ => ?_) (fun _ => ?_)
    | with_reducible refine Keeps.iteP (fun _ => ?_) (fun _ => ?_)
    | simp only [keeps_upd, p_qe, p_ce, p_fc, p_pm, or_true, true_or, length_lmod, length_lset, List.length_map] | split
    | dsimp only | intro _

theorem State.policerTouch_keeps (h : Keeps F s t) (n) (p_mc : F .mc := by assumption) (p_bw : F .bw := by assumption)
    (p_qe : F .qe := by assumption) : Keeps F s (State.policerTouch t n) := by
  unfold State.policerTouch
  try dsimp only
  repeat' first
    | with_reducible assumption | with_reducible refine State.queueRead_keeps ?_ _ _ _ _
    | with_reducible refine State.queueWrite_keeps ?_ _ _ _ _ | with_reducible refine Keeps.ite (fun _ => ?_) (fun _ => ?_)
    | with_reducible refine Keeps.iteP (fun _ => ?_) (fun _ => ?_)
    | simp only [keeps_upd, p_mc, p_bw, p_qe, or_true, true_or, length_lmod, length_lset, List.length_map] | split | dsimp only
    | intro _

theorem State.qeMalf_keeps (h : Keeps F s t) (f) (window) (reason) (counts) (p_out : F .out := by assumption)
    (p_hp : F .hp := by assumption) (p_qe : F .qe := by assumption) (p_mb : F .mb := by assumption)
    (p_fc : F .fc := by assumption) : Keeps F s (State.qeMalf t f window reason counts) := by
  unfold State.qeMalf
  try dsimp only
  repeat' first
    | with_reducible assumption | with_reducible refine State.malformed_keeps ?_ _
    | with_reducible refine State.reportAgg_keeps ?_ _ _ _ _ _ | with_reducible refine Keeps.ite (fun _ => ?_) (fun _ => ?_)
    | with_reducible refine Keeps.iteP (fun _ => ?_) (fun _ => ?_)
    | simp only [keeps_upd, p_out, p_hp, p_qe, p_mb, p_fc, or_true, true_or, length_lmod, length_lset, List.length_map] | split
    | dsimp only | intro _

theorem State.enqueueAt_keeps (h : Keeps F s t) (d) (n) (p_qe : F .qe := by assumption) (p_ce : F .ce := by assumption)
    (p_fc : F .fc := by assumption) (p_pm : F .pm := by assumption) : Keeps F s (State.enqueueAt t d n) := by
  unfold State.enqueueAt
  try dsimp only
  repeat' first
    | with_reducible assumption | with_reducible refine State.freeCells_keeps ?_ _ _
    | with_reducible refine State.qEvent_keeps ?_ _ _ _ _ | with_reducible refine State.linkTail_keeps ?_ _ _ _ _
    | with_reducible refine State.poolCheck_keeps ?_ | with_reducible refine Keeps.ite (fun _ => ?_) (fun _ => ?_)
    | with_reducible refine Keeps.iteP (fun _ => ?_) (fun _ => ?_) | split | dsimp only | intro _

theorem State.policeAt_keeps (h : Keeps F s t) (f) (window) (d) (n) (p_out : F .out := by assumption)
    (p_hp : F .hp := by assumption) (p_mc : F .mc := by assumption) (p_bw : F .bw := by assumption)
    (p_qe : F .qe := by assumption) (p_ce : F .ce := by assumption) (p_mb : F .mb := by assumption)
    (p_fc : F .fc := by assumption) (p_pm : F .pm := by assumption) : Keeps F s (State.policeAt t f window d n) := by
  unfold State.policeAt
  try dsimp only
  repeat' first
    | with_reducible assumption | with_reducible refine State.enqueueAt_keeps ?_ _ _
    | with_reducible refine State.policerTouch_keeps ?_ _ | with_reducible refine State.freeCells_keeps ?_ _ _
    | with_reducible refine State.qeMalf_keeps ?_ _ _ _ _ | with_reducible refine State.count_keeps ?_ _ _ _
    | with_reducible refine State.qEvent_keeps ?_ _ _ _ _ | with_reducible refine Keeps.ite (fun _ => ?_) (fun _ => ?_)
    | with_reducible refine Keeps.iteP (fun _ => ?_) (fun _ => ?_)
    | simp only [keeps_upd, p_out, p_hp, p_mc, p_bw, p_qe, p_ce, p_mb, p_fc, p_pm, or_true, true_or, length_lmod, length_lset, List.length_map]
    | split | dsimp only | intro _

theorem State.enqueueDesc_keeps (h : Keeps F s t) (f) (window) (d) (p_out : F .out := by assumption)
    (p_hp : F .hp := by assumption) (p_mc : F .mc := by assumption) (p_bw : F .bw := by assumption)
    (p_qe : F .qe := by assumption) (p_ce : F .ce := by assumption) (p_mb : F .mb := by assumption)
    (p_fc : F .fc := by assumption) (p_pm : F .pm := by assumption) : Keeps F s (State.enqueueDesc t f window d) := by
  unfold State.enqueueDesc
  try dsimp only
  repeat' first
    | with_reducible assumption | with_reducible refine State.freeCells_keeps ?_ _ _
    | with_reducible refine State.qeMalf_keeps ?_ _ _ _ _ | with_reducible refine State.qEvent_keeps ?_ _ _ _ _
    | with_reducible refine State.report_keeps ?_ _ _ _ | with_reducible refine State.freeze_keeps ?_ _ _
    | with_reducible refine State.policeAt_keeps ?_ _ _ _ _ | with_reducible refine Keeps.ite (fun _ => ?_) (fun _ => ?_)
    | with_reducible refine Keeps.iteP (fun _ => ?_) (fun _ => ?_) | split | dsimp only | intro _

theorem enqueueDescriptor_keeps (h : Keeps F s t) (f) (halt) (p_out : F .out := by assumption) (p_hp : F .hp := by assumption)
    (p_mc : F .mc := by assumption) (p_bw : F .bw := by assumption) (p_qe : F .qe := by assumption)
    (p_ce : F .ce := by assumption) (p_mb : F .mb := by assumption) (p_fc : F .fc := by assumption)
    (p_pm : F .pm := by assumption) : Keeps F s (enqueueDescriptor f halt t) := by
  unfold enqueueDescriptor
  try dsimp only
  repeat' first
    | with_reducible assumption | with_reducible exact State.takeRecord_keeps (by assumption) _ _ (by assumption)
    | with_reducible refine State.emit_keeps ?_ _ | with_reducible refine State.qeHalt_keeps ?_ _
    | with_reducible refine State.qeMalf_keeps ?_ _ _ _ _ | with_reducible refine State.enqueueDesc_keeps ?_ _ _ _
    | with_reducible refine Keeps.ite (fun _ => ?_) (fun _ => ?_) | with_reducible refine Keeps.iteP (fun _ => ?_) (fun _ => ?_)
    | split | intro _

theorem State.modEgress_keeps (h : Keeps F s t) (f) (n) (g) (p_hp : F .hp := by assumption)
    : Keeps F s (State.modEgress t f n g) := by
  unfold State.modEgress
  try dsimp only
  repeat' first
    | with_reducible assumption | with_reducible refine State.modFn_keeps ?_ _ _ | dsimp only | intro _

end Sys2Proof.Machine
end

