-- ==== Sys2Proof/Laws/KeepsSched.lean ====
section
/-! SUPPORT. What each operation of Machine/Sched.lean keeps: the scheduler. -/

set_option Elab.async false

set_option linter.all false

namespace Sys2Proof.Machine
open Sys2Proof

variable {F : Part → Prop} {s t : State}

theorem State.modNode_keeps (h : Keeps F s t) (k) (g) (p_sc : F .sc := by assumption) : Keeps F s (State.modNode t k g) := by
  unfold State.modNode
  try dsimp only
  repeat' first
    | with_reducible assumption | simp only [keeps_upd, p_sc, or_true, true_or, length_lmod, length_lset, List.length_map] | intro _

theorem State.modScPort_keeps (h : Keeps F s t) (p) (g) (p_sc : F .sc := by assumption) : Keeps F s (State.modScPort t p g) := by
  unfold State.modScPort
  try dsimp only
  repeat' first
    | with_reducible assumption | simp only [keeps_upd, p_sc, or_true, true_or, length_lmod, length_lset, List.length_map] | intro _

theorem State.offWheel_keeps (h : Keeps F s t) (k) (p_sc : F .sc := by assumption) : Keeps F s (State.offWheel t k) := by
  unfold State.offWheel
  try dsimp only
  repeat' first
    | with_reducible assumption | simp only [keeps_upd, p_sc, or_true, true_or, length_lmod, length_lset, List.length_map]
    | dsimp only | intro _

theorem State.placeNode_keeps (h : Keeps F s t) (k) (p_sc : F .sc := by assumption) (p_pm : F .pm := by assumption)
    : Keeps F s (State.placeNode t k) := by
  unfold State.placeNode
  try dsimp only
  repeat' first
    | with_reducible assumption | with_reducible refine State.offWheel_keeps ?_ _ | with_reducible refine State.count_keeps ?_ _ _ _
    | with_reducible refine Keeps.ite (fun _ => ?_) (fun _ => ?_) | with_reducible refine Keeps.iteP (fun _ => ?_) (fun _ => ?_)
    | simp only [keeps_upd, p_sc, p_pm, or_true, true_or, length_lmod, length_lset, List.length_map] | split | dsimp only | intro _

theorem State.chargeNode_keeps (h : Keeps F s t) (k) (charge) (p_sc : F .sc := by assumption) (p_pm : F .pm := by assumption)
    : Keeps F s (State.chargeNode t k charge).1 := by
  unfold State.chargeNode
  try dsimp only
  repeat' first
    | with_reducible assumption | with_reducible refine State.modNode_keeps ?_ _ _
    | with_reducible refine State.placeNode_keeps ?_ _ | with_reducible refine Keeps.ite (fun _ => ?_) (fun _ => ?_)
    | with_reducible refine Keeps.iteP (fun _ => ?_) (fun _ => ?_)
    | simp only [keeps_upd, p_sc, p_pm, or_true, true_or, length_lmod, length_lset, List.length_map] | split | dsimp only | intro _

theorem State.refund_keeps (h : Keeps F s t) (paid) (p_sc : F .sc := by assumption) (p_pm : F .pm := by assumption)
    : Keeps F s (State.refund t paid) := by
  unfold State.refund
  try dsimp only
  repeat' first
    | with_reducible assumption | with_reducible refine State.modNode_keeps ?_ _ _
    | with_reducible refine State.placeNode_keeps ?_ _ | with_reducible refine Keeps.foldl (fun _ _ _ => ?_) _ ?_
    | with_reducible refine Keeps.foldlP (fun _ _ _ => ?_) _ ?_ | with_reducible refine Keeps.ite (fun _ => ?_) (fun _ => ?_)
    | with_reducible refine Keeps.iteP (fun _ => ?_) (fun _ => ?_)
    | simp only [keeps_upd, p_sc, p_pm, or_true, true_or, length_lmod, length_lset, List.length_map] | split | dsimp only | intro _

theorem State.leaveList_keeps (h : Keeps F s t) (k) (has) (p_sc : F .sc := by assumption) : Keeps F s (State.leaveList t k has) := by
  unfold State.leaveList
  try dsimp only
  repeat' first
    | with_reducible assumption | with_reducible refine State.modNode_keeps ?_ _ _
    | with_reducible refine Keeps.ite (fun _ => ?_) (fun _ => ?_) | with_reducible refine Keeps.iteP (fun _ => ?_) (fun _ => ?_)
    | split | dsimp only | intro _

theorem State.schedSync_keeps (h : Keeps F s t) (p_sc : F .sc := by assumption) (p_pm : F .pm := by assumption) :
    Keeps F s t.schedSync := by
  unfold State.schedSync
  try dsimp only
  repeat' first
    | with_reducible assumption | intro _ | with_reducible refine State.leaveList_keeps ?_ _ _
    | with_reducible refine State.count_keeps ?_ _ _ _ | with_reducible refine State.modScPort_keeps ?_ _ _
    | with_reducible refine Keeps.foldl (fun _ _ _ => ?_) _ ?_ | with_reducible refine Keeps.foldlP (fun _ _ _ => ?_) _ ?_
    | with_reducible refine Keeps.ite (fun _ => ?_) (fun _ => ?_) | with_reducible refine Keeps.iteP (fun _ => ?_) (fun _ => ?_)
    | simp only [keeps_upd, p_sc, p_pm, or_true, true_or, length_lmod, length_lset, List.length_map] | split

theorem State.advanceNet_keeps (h : Keeps F s t) (x_t) (p_now : F .now := by assumption) (p_tu : F .tu := by assumption)
    : Keeps F s (State.advanceNet t x_t) := by
  unfold State.advanceNet
  try dsimp only
  repeat' first
    | with_reducible assumption | with_reducible refine State.advance_keeps ?_ _
    | with_reducible refine Keeps.foldl (fun _ _ _ => ?_) _ ?_ | with_reducible refine Keeps.foldlP (fun _ _ _ => ?_) _ ?_
    | with_reducible refine Keeps.ite (fun _ => ?_) (fun _ => ?_) | with_reducible refine Keeps.iteP (fun _ => ?_) (fun _ => ?_)
    | split | dsimp only | intro _

theorem State.gateDrop_keeps (h : Keeps F s t) (q) (p_qe : F .qe := by assumption) (p_sc : F .sc := by assumption)
    (p_ce : F .ce := by assumption) (p_fc : F .fc := by assumption) (p_pm : F .pm := by assumption)
    : Keeps F s (State.gateDrop t q) := by
  unfold State.gateDrop
  try dsimp only
  repeat' first
    | with_reducible assumption | with_reducible exact State.popHead_keeps (by assumption) _ (by assumption)
    | with_reducible refine State.freePkt_keeps ?_ _ _ | with_reducible refine State.qEvent_keeps ?_ _ _ _ _
    | with_reducible refine State.reportAgg_keeps ?_ _ _ _ _ _ | with_reducible refine Keeps.ite (fun _ => ?_) (fun _ => ?_)
    | with_reducible refine Keeps.iteP (fun _ => ?_) (fun _ => ?_)
    | simp only [keeps_upd, p_qe, p_sc, p_ce, p_fc, p_pm, or_true, true_or, length_lmod, length_lset, List.length_map] | split
    | dsimp only | intro _

theorem State.gateDrops_keeps (h : Keeps F s t) (p) (p_qe : F .qe := by assumption) (p_sc : F .sc := by assumption)
    (p_ce : F .ce := by assumption) (p_fc : F .fc := by assumption) (p_pm : F .pm := by assumption)
    : Keeps F s (State.gateDrops t p) := by
  unfold State.gateDrops
  try dsimp only
  repeat' first
    | with_reducible assumption | with_reducible refine State.gateDrop_keeps ?_ _
    | with_reducible refine Keeps.foldl (fun _ _ _ => ?_) _ ?_ | with_reducible refine Keeps.foldlP (fun _ _ _ => ?_) _ ?_
    | with_reducible refine Keeps.ite (fun _ => ?_) (fun _ => ?_) | with_reducible refine Keeps.iteP (fun _ => ?_) (fun _ => ?_)
    | split | dsimp only | intro _

theorem State.swapGate_keeps (h : Keeps F s t) (p) (p_qe : F .qe := by assumption) (p_sc : F .sc := by assumption)
    (p_ce : F .ce := by assumption) (p_fc : F .fc := by assumption) (p_pm : F .pm := by assumption)
    : Keeps F s (State.swapGate t p) := by
  unfold State.swapGate
  try dsimp only
  repeat' first
    | with_reducible assumption | with_reducible refine State.modScPort_keeps ?_ _ _
    | with_reducible refine State.report_keeps ?_ _ _ _ | with_reducible refine State.gateDrops_keeps ?_ _ | split | dsimp only
    | intro _

theorem gateSwap_keeps (h : Keeps F s t) (p) (p_now : F .now := by assumption) (p_qe : F .qe := by assumption)
    (p_sc : F .sc := by assumption) (p_tu : F .tu := by assumption) (p_ce : F .ce := by assumption)
    (p_fc : F .fc := by assumption) (p_pm : F .pm := by assumption) : Keeps F s (gateSwap p t) := by
  unfold gateSwap
  try dsimp only
  repeat' first
    | with_reducible assumption | with_reducible refine State.advanceNet_keeps ?_ _
    | with_reducible refine State.swapGate_keeps ?_ _ | with_reducible refine State.schedSync_keeps ?_ | split | dsimp only
    | intro _

theorem gateEntryChange_keeps (h : Keeps F s t) (p) (p_now : F .now := by assumption) (p_sc : F .sc := by assumption)
    (p_tu : F .tu := by assumption) (p_pm : F .pm := by assumption) : Keeps F s (gateEntryChange p t) := by
  unfold gateEntryChange
  try dsimp only
  repeat' first
    | with_reducible assumption | with_reducible refine State.advanceNet_keeps ?_ _ | with_reducible refine State.schedSync_keeps ?_
    | with_reducible refine Keeps.ite (fun _ => ?_) (fun _ => ?_) | with_reducible refine Keeps.iteP (fun _ => ?_) (fun _ => ?_)
    | split | intro _

theorem State.gateStep_keeps (h : Keeps F s t) (p) (p_sc : F .sc := by assumption) : Keeps F s (State.gateStep t p) := by
  unfold State.gateStep
  try dsimp only
  repeat' first
    | with_reducible assumption | with_reducible refine State.modScPort_keeps ?_ _ _
    | with_reducible refine Keeps.ite (fun _ => ?_) (fun _ => ?_) | with_reducible refine Keeps.iteP (fun _ => ?_) (fun _ => ?_)
    | split | dsimp only | intro _

theorem State.gatesStepped_keeps (h : Keeps F s t) (p_sc : F .sc := by assumption) (p_pm : F .pm := by assumption) :
    Keeps F s t.gatesStepped := by
  unfold State.gatesStepped
  repeat' first
    | with_reducible assumption | intro _ | with_reducible refine State.schedSync_keeps ?_
    | with_reducible refine State.gateStep_keeps ?_ _ | with_reducible refine Keeps.foldl (fun _ _ _ => ?_) _ ?_
    | with_reducible refine Keeps.foldlP (fun _ _ _ => ?_) _ ?_ | with_reducible refine Keeps.ite (fun _ => ?_) (fun _ => ?_)
    | with_reducible refine Keeps.iteP (fun _ => ?_) (fun _ => ?_)

theorem wheelSlotRelease_keeps (h : Keeps F s t) (p_now : F .now := by assumption) (p_sc : F .sc := by assumption)
    (p_tu : F .tu := by assumption) (p_fc : F .fc := by assumption) (p_pm : F .pm := by assumption)
    : Keeps F s (wheelSlotRelease t) := by
  unfold wheelSlotRelease
  try dsimp only
  repeat' first
    | with_reducible assumption | with_reducible refine State.advance_keeps ?_ _ | with_reducible refine State.count_keeps ?_ _ _ _
    | with_reducible refine State.reportAgg_keeps ?_ _ _ _ _ _ | with_reducible refine State.schedSync_keeps ?_
    | with_reducible refine Keeps.ite (fun _ => ?_) (fun _ => ?_) | with_reducible refine Keeps.iteP (fun _ => ?_) (fun _ => ?_)
    | simp only [keeps_upd, p_now, p_sc, p_tu, p_fc, p_pm, or_true, true_or, length_lmod, length_lset, List.length_map] | split
    | dsimp only | intro _

theorem wheelCascade_keeps (h : Keeps F s t) (p_now : F .now := by assumption) (p_sc : F .sc := by assumption)
    (p_tu : F .tu := by assumption) : Keeps F s (wheelCascade t) := by
  unfold wheelCascade
  try dsimp only
  repeat' first
    | with_reducible assumption | with_reducible refine State.advance_keeps ?_ _
    | with_reducible refine Keeps.ite (fun _ => ?_) (fun _ => ?_) | with_reducible refine Keeps.iteP (fun _ => ?_) (fun _ => ?_)
    | simp only [keeps_upd, p_now, p_sc, p_tu, or_true, true_or, length_lmod, length_lset, List.length_map] | split | dsimp only
    | intro _

theorem State.applyNode_keeps (h : Keeps F s t) (lvl) (n) (b) (p_sc : F .sc := by assumption) (p_pm : F .pm := by assumption)
    : Keeps F s (State.applyNode t lvl n b) := by
  unfold State.applyNode
  try dsimp only
  repeat' first
    | with_reducible assumption | with_reducible refine State.modNode_keeps ?_ _ _
    | with_reducible refine State.placeNode_keeps ?_ _ | with_reducible refine Keeps.ite (fun _ => ?_) (fun _ => ?_)
    | with_reducible refine Keeps.iteP (fun _ => ?_) (fun _ => ?_)
    | simp only [keeps_upd, p_sc, p_pm, or_true, true_or, length_lmod, length_lset, List.length_map] | split | dsimp only | intro _

theorem State.applyPort_keeps (h : Keeps F s t) (p) (b) (p_qe : F .qe := by assumption) (p_sc : F .sc := by assumption)
    (p_ce : F .ce := by assumption) (p_fc : F .fc := by assumption) (p_pm : F .pm := by assumption)
    : Keeps F s (State.applyPort t p b) := by
  unfold State.applyPort
  try dsimp only
  repeat' first
    | with_reducible assumption | with_reducible refine State.modScPort_keeps ?_ _ _
    | with_reducible refine State.swapGate_keeps ?_ _ | with_reducible refine State.gateDrops_keeps ?_ _
    | with_reducible refine Keeps.ite (fun _ => ?_) (fun _ => ?_) | with_reducible refine Keeps.iteP (fun _ => ?_) (fun _ => ?_)
    | split | dsimp only | intro _

theorem State.applyGateList_keeps (h : Keeps F s t) (p) (b) (p_qe : F .qe := by assumption) (p_sc : F .sc := by assumption)
    (p_ce : F .ce := by assumption) (p_fc : F .fc := by assumption) (p_pm : F .pm := by assumption)
    : Keeps F s (State.applyGateList t p b) := by
  unfold State.applyGateList
  try dsimp only
  repeat' first
    | with_reducible assumption | with_reducible refine State.swapGate_keeps ?_ _
    | with_reducible refine State.modScPort_keeps ?_ _ _ | with_reducible refine Keeps.ite (fun _ => ?_) (fun _ => ?_)
    | with_reducible refine Keeps.iteP (fun _ => ?_) (fun _ => ?_) | split | dsimp only | intro _

theorem scQuery_keeps (h : Keeps F s t) (a1) (a2) (p_mb : F .mb := by assumption) : Keeps F s (scQuery a1 a2 t).1 := by
  unfold scQuery
  try dsimp only
  repeat' first
    | with_reducible assumption | with_reducible refine State.direct_keeps ?_ _ _ _ _ _
    | with_reducible refine Keeps.foldl (fun _ _ _ => ?_) _ ?_ | with_reducible refine Keeps.foldlP (fun _ _ _ => ?_) _ ?_
    | with_reducible refine Keeps.ite (fun _ => ?_) (fun _ => ?_) | with_reducible refine Keeps.iteP (fun _ => ?_) (fun _ => ?_)
    | split | dsimp only | intro _

end Sys2Proof.Machine
end

