-- ==== Sys2Proof/Laws/KeepsDeq.lean ====
section
/-! SUPPORT. What each operation of Machine/Deq.lean keeps: dequeueing. -/

set_option Elab.async false

set_option linter.all false

namespace Sys2Proof.Machine
open Sys2Proof

variable {F : Part → Prop} {s t : State}

theorem headLineReturn_keeps (h : Keeps F s t) (q) (p_out : F .out := by assumption) (p_fresh : F .fresh := by assumption)
    (p_dram : F .dram := by assumption) (p_hp : F .hp := by assumption) (p_rr : F .rr := by assumption)
    (p_rg : F .rg := by assumption) (p_ns : F .ns := by assumption) (p_tr : F .tr := by assumption)
    (p_cd : F .cd := by assumption) (p_lp : F .lp := by assumption) (p_sx : F .sx := by assumption)
    (p_mc : F .mc := by assumption) (p_bw : F .bw := by assumption) (p_qe : F .qe := by assumption)
    (p_sc : F .sc := by assumption) (p_ce : F .ce := by assumption) (p_fc : F .fc := by assumption)
    (p_pm : F .pm := by assumption) : Keeps F s (headLineReturn q t) := by
  unfold headLineReturn
  try dsimp only
  repeat' first
    | with_reducible assumption | with_reducible refine State.count_keeps ?_ _ _ _
    | with_reducible refine State.memRead_keeps ?_ _ _ | with_reducible refine State.modQueue_keeps ?_ _ _
    | with_reducible refine State.gateDrop_keeps ?_ _ | with_reducible refine State.schedSync_keeps ?_
    | with_reducible refine Keeps.ite (fun _ => ?_) (fun _ => ?_) | with_reducible refine Keeps.iteP (fun _ => ?_) (fun _ => ?_)
    | simp only [keeps_upd, p_out, p_fresh, p_dram, p_hp, p_rr, p_rg, p_ns, p_tr, p_cd, p_lp, p_sx, p_mc, p_bw, p_qe, p_sc, p_ce, p_fc, p_pm, or_true, true_or, length_lmod, length_lset, List.length_map]
    | split | dsimp only | intro _

theorem State.setActive_keeps (h : Keeps F s t) (lk) (l) (p_sc : F .sc := by assumption) : Keeps F s (State.setActive t lk l) := by
  unfold State.setActive
  try dsimp only
  repeat' first
    | with_reducible assumption | simp only [keeps_upd, p_sc, or_true, true_or, length_lmod, length_lset, List.length_map] | intro _

theorem State.dwrr_keeps (h : Keeps F s t) (lk) (a2) {u} (hu : t.dwrr lk a2 = some u) (p_sc : F .sc := by assumption) (p_pm : F .pm := by assumption) : Keeps F s u.1 := by
  induction a2 generalizing t with
  | zero => unfold State.dwrr at hu; cases hu
  | succ _ ih =>
    unfold State.dwrr at hu
    split at hu
    · cases hu
    · split at hu
      · exact ih (State.count_keeps (State.setActive_keeps (State.modNode_keeps h _ _) _ _) _ _ _) hu
      · obtain rfl := Option.some.inj hu
        exact h

theorem State.pickChild_keeps (h : Keeps F s t) (k) {u} (hu : t.pickChild k = some u) (p_sc : F .sc := by assumption) (p_pm : F .pm := by assumption) : Keeps F s u.1 := by
  unfold State.pickChild at hu
  split at hu
  · cases hu
  · obtain ⟨r, hr, rfl⟩ := Option.map_eq_some_iff.1 hu
    exact State.dwrr_keeps h _ _ hr

theorem State.chargeDeficit_keeps (h : Keeps F s t) (lk) (x_c) (charge) (p_sc : F .sc := by assumption)
    : Keeps F s (State.chargeDeficit t lk x_c charge) := by
  unfold State.chargeDeficit
  try dsimp only
  repeat' first
    | with_reducible assumption | with_reducible refine State.modNode_keeps ?_ _ _
    | with_reducible refine State.setActive_keeps ?_ _ _ | with_reducible refine Keeps.ite (fun _ => ?_) (fun _ => ?_)
    | with_reducible refine Keeps.iteP (fun _ => ?_) (fun _ => ?_) | split | dsimp only | intro _

theorem schedulerDecision_keeps (h : Keeps F s t) (p_qe : F .qe := by assumption) (p_sc : F .sc := by assumption) (p_pm : F .pm := by assumption) : Keeps F s (schedulerDecision t) := by
  unfold schedulerDecision
  have h0 := State.schedSync_keeps h
  refine Keeps.ite (fun _ => h) (fun _ => ?_)
  dsimp only
  split
  · exact h0
  · refine Keeps.ite (fun _ => h0) (fun _ => ?_)
    split
    · exact h0
    · rename_i r2
      have h2 := State.pickChild_keeps h0 _ r2
      dsimp only at h2
      split
      · exact h0
      · rename_i r3
        have h3 := State.pickChild_keeps h2 _ r3
        dsimp only at h3
        split
        · exact h0
        · rename_i r4
          have h4 := State.pickChild_keeps h3 _ r4
          dsimp only at h4
          split
          · exact h0
          · rename_i r5
            refine State.schedSync_keeps (State.count_keeps ?_ _ _ _)
            simp only [keeps_upd, p_qe, p_sc, or_true, true_or]
            refine State.popHead_keeps ?_ _ r5
            exact State.modScPort_keeps (State.chargeNode_keeps (State.chargeNode_keeps (State.chargeNode_keeps
              (State.chargeDeficit_keeps (State.chargeDeficit_keeps (State.chargeDeficit_keeps h4 _ _ _) _ _ _) _ _ _) _ _) _ _) _ _) _ _

theorem State.modDeq_keeps (h : Keeps F s t) (first) (g) (p_qe : F .qe := by assumption) : Keeps F s (State.modDeq t first g) := by
  unfold State.modDeq
  try dsimp only
  repeat' first
    | with_reducible assumption | with_reducible refine Keeps.ite (fun _ => ?_) (fun _ => ?_)
    | with_reducible refine Keeps.iteP (fun _ => ?_) (fun _ => ?_)
    | simp only [keeps_upd, p_qe, or_true, true_or, length_lmod, length_lset, List.length_map] | split | dsimp only | intro _

theorem State.dropDeq_keeps (h : Keeps F s t) (d) (p_qe : F .qe := by assumption) : Keeps F s (State.dropDeq t d) := by
  unfold State.dropDeq
  try dsimp only
  repeat' first
    | with_reducible assumption | simp only [keeps_upd, p_qe, or_true, true_or, length_lmod, length_lset, List.length_map]
    | dsimp only | intro _

theorem State.deqDrop_keeps (h : Keeps F s t) (d) (code) (len) (p_qe : F .qe := by assumption) (p_sc : F .sc := by assumption)
    (p_ce : F .ce := by assumption) (p_fc : F .fc := by assumption) (p_pm : F .pm := by assumption)
    : Keeps F s (State.deqDrop t d code len) := by
  unfold State.deqDrop
  try dsimp only
  repeat' first
    | with_reducible assumption | with_reducible refine State.dropDeq_keeps ?_ _ | with_reducible refine State.freePkt_keeps ?_ _ _
    | with_reducible refine State.qEvent_keeps ?_ _ _ _ _ | with_reducible refine State.refund_keeps ?_ _
    | with_reducible refine State.schedSync_keeps ?_ | intro _

theorem State.readPacket_keeps (h : Keeps F s t) (d) (p_out : F .out := by assumption) (p_fresh : F .fresh := by assumption)
    (p_dram : F .dram := by assumption) (p_hp : F .hp := by assumption) (p_rr : F .rr := by assumption)
    (p_rg : F .rg := by assumption) (p_ns : F .ns := by assumption) (p_tr : F .tr := by assumption)
    (p_cd : F .cd := by assumption) (p_lp : F .lp := by assumption) (p_sx : F .sx := by assumption)
    (p_mc : F .mc := by assumption) (p_bw : F .bw := by assumption) (p_ce : F .ce := by assumption)
    (p_fc : F .fc := by assumption) (p_pm : F .pm := by assumption) : Keeps F s (State.readPacket t d).1 := by
  unfold State.readPacket
  try dsimp only
  repeat' first
    | with_reducible assumption | with_reducible refine State.memRead_keeps ?_ _ _
    | with_reducible refine Keeps.foldl (fun _ _ _ => ?_) _ ?_ | with_reducible refine Keeps.foldlP (fun _ _ _ => ?_) _ ?_
    | with_reducible refine Keeps.ite (fun _ => ?_) (fun _ => ?_) | with_reducible refine Keeps.iteP (fun _ => ?_) (fun _ => ?_)
    | split | dsimp only | intro _

theorem State.startOn_keeps (h : Keeps F s t) (d) (x_t) (alt) (p_qe : F .qe := by assumption) (p_sc : F .sc := by assumption)
    (p_ce : F .ce := by assumption) (p_fc : F .fc := by assumption) (p_pm : F .pm := by assumption)
    : Keeps F s (State.startOn t d x_t alt) := by
  unfold State.startOn
  try dsimp only
  repeat' first
    | with_reducible assumption | with_reducible refine State.deqDrop_keeps ?_ _ _ _
    | with_reducible refine State.modDeq_keeps ?_ _ _ | with_reducible refine Keeps.ite (fun _ => ?_) (fun _ => ?_)
    | with_reducible refine Keeps.iteP (fun _ => ?_) (fun _ => ?_) | split | dsimp only | intro _

theorem State.tryStart_keeps (h : Keeps F s t) (d) (p_qe : F .qe := by assumption) (p_sc : F .sc := by assumption)
    (p_ce : F .ce := by assumption) (p_fc : F .fc := by assumption) (p_pm : F .pm := by assumption)
    : Keeps F s (State.tryStart t d) := by
  unfold State.tryStart
  try dsimp only
  repeat' first
    | with_reducible assumption | with_reducible refine State.startOn_keeps ?_ _ _ _
    | with_reducible refine Keeps.ite (fun _ => ?_) (fun _ => ?_) | with_reducible refine Keeps.iteP (fun _ => ?_) (fun _ => ?_)
    | split | intro _

theorem State.grantEntries_keeps (h : Keeps F s t) (p_qe : F .qe := by assumption) : Keeps F s (State.grantEntries t) := by
  unfold State.grantEntries
  try dsimp only
  repeat' first
    | with_reducible assumption | with_reducible refine State.modDeq_keeps ?_ _ _
    | with_reducible refine Keeps.foldl (fun _ _ _ => ?_) _ ?_ | with_reducible refine Keeps.foldlP (fun _ _ _ => ?_) _ ?_
    | dsimp only | intro _

theorem dequeuePacketRead_keeps (h : Keeps F s t) (q) (halt) (p_out : F .out := by assumption)
    (p_fresh : F .fresh := by assumption) (p_dram : F .dram := by assumption) (p_hp : F .hp := by assumption)
    (p_rr : F .rr := by assumption) (p_rg : F .rg := by assumption) (p_ns : F .ns := by assumption)
    (p_tr : F .tr := by assumption) (p_cd : F .cd := by assumption) (p_lp : F .lp := by assumption)
    (p_sx : F .sx := by assumption) (p_mc : F .mc := by assumption) (p_bw : F .bw := by assumption)
    (p_qe : F .qe := by assumption) (p_sc : F .sc := by assumption) (p_ce : F .ce := by assumption)
    (p_fc : F .fc := by assumption) (p_pm : F .pm := by assumption) : Keeps F s (dequeuePacketRead q halt t) := by
  unfold dequeuePacketRead
  try dsimp only
  repeat' first
    | with_reducible assumption | with_reducible refine State.grantEntries_keeps ?_ | with_reducible refine State.qeHalt_keeps ?_ _
    | with_reducible refine State.deqDrop_keeps ?_ _ _ _ | with_reducible refine State.readPacket_keeps ?_ _
    | with_reducible refine State.report_keeps ?_ _ _ _ | with_reducible refine State.modDeq_keeps ?_ _ _
    | with_reducible refine Com.bind_keeps ?_ _ | with_reducible refine State.tryStart_keeps ?_ _
    | with_reducible refine Keeps.ite (fun _ => ?_) (fun _ => ?_) | with_reducible refine Keeps.iteP (fun _ => ?_) (fun _ => ?_)
    | split | dsimp only | intro _

theorem State.pushOn_keeps (h : Keeps F s t) (d) (x_t) (p_out : F .out := by assumption) (p_hp : F .hp := by assumption)
    (p_qe : F .qe := by assumption) (p_sc : F .sc := by assumption) (p_ce : F .ce := by assumption)
    (p_fc : F .fc := by assumption) (p_pm : F .pm := by assumption) : Keeps F s (State.pushOn t d x_t) := by
  unfold State.pushOn
  try dsimp only
  repeat' first
    | with_reducible assumption | with_reducible refine State.hostWrite_keeps ?_ _ _ _ _
    | with_reducible refine State.modEgress_keeps ?_ _ _ _ | with_reducible refine State.cause_keeps ?_ _ _
    | with_reducible refine State.ringVector_keeps ?_ _ _ _ | with_reducible refine State.count_keeps ?_ _ _ _
    | with_reducible refine State.dropDeq_keeps ?_ _ | with_reducible refine State.freePkt_keeps ?_ _ _
    | with_reducible refine State.qEvent_keeps ?_ _ _ _ _ | with_reducible refine State.schedSync_keeps ?_
    | with_reducible refine Keeps.ite (fun _ => ?_) (fun _ => ?_) | with_reducible refine Keeps.iteP (fun _ => ?_) (fun _ => ?_)
    | split | dsimp only | intro _

theorem packetPush_keeps (h : Keeps F s t) (q) (p_out : F .out := by assumption) (p_hp : F .hp := by assumption)
    (p_qe : F .qe := by assumption) (p_sc : F .sc := by assumption) (p_ce : F .ce := by assumption)
    (p_fc : F .fc := by assumption) (p_pm : F .pm := by assumption) : Keeps F s (packetPush q t) := by
  unfold packetPush
  try dsimp only
  repeat' first
    | with_reducible assumption | with_reducible refine State.tryStart_keeps ?_ _ | with_reducible refine State.pushOn_keeps ?_ _ _
    | with_reducible refine Keeps.ite (fun _ => ?_) (fun _ => ?_) | with_reducible refine Keeps.iteP (fun _ => ?_) (fun _ => ?_)
    | split | dsimp only | intro _

theorem State.pushDiscard_keeps (h : Keeps F s t) (d) (p_qe : F .qe := by assumption) (p_sc : F .sc := by assumption)
    (p_ce : F .ce := by assumption) (p_fc : F .fc := by assumption) (p_pm : F .pm := by assumption)
    : Keeps F s (State.pushDiscard t d) := by
  unfold State.pushDiscard
  try dsimp only
  repeat' first
    | with_reducible assumption | with_reducible refine State.dropDeq_keeps ?_ _ | with_reducible refine State.freePkt_keeps ?_ _ _
    | with_reducible refine State.qEvent_keeps ?_ _ _ _ _ | with_reducible refine State.schedSync_keeps ?_ | intro _

theorem State.discardPushes_keeps (h : Keeps F s t) (f) (p_qe : F .qe := by assumption) (p_sc : F .sc := by assumption)
    (p_ce : F .ce := by assumption) (p_fc : F .fc := by assumption) (p_pm : F .pm := by assumption)
    : Keeps F s (State.discardPushes t f) := by
  unfold State.discardPushes
  try dsimp only
  repeat' first
    | with_reducible assumption | with_reducible refine State.pushDiscard_keeps ?_ _
    | with_reducible refine Keeps.foldl (fun _ _ _ => ?_) _ ?_ | with_reducible refine Keeps.foldlP (fun _ _ _ => ?_) _ ?_
    | dsimp only | intro _

theorem State.failPushes_keeps (h : Keeps F s t) (f) (p_hp : F .hp := by assumption) (p_qe : F .qe := by assumption)
    (p_sc : F .sc := by assumption) (p_ce : F .ce := by assumption) (p_fc : F .fc := by assumption)
    (p_pm : F .pm := by assumption) : Keeps F s (State.failPushes t f) := by
  unfold State.failPushes
  try dsimp only
  repeat' first
    | with_reducible assumption | with_reducible refine Com.bind_keeps ?_ _ | with_reducible refine State.modFn_keeps ?_ _ _
    | with_reducible refine State.modDeq_keeps ?_ _ _ | with_reducible refine State.startOn_keeps ?_ _ _ _
    | with_reducible refine State.pushDiscard_keeps ?_ _ | with_reducible refine Keeps.foldl (fun _ _ _ => ?_) _ ?_
    | with_reducible refine Keeps.foldlP (fun _ _ _ => ?_) _ ?_ | with_reducible refine Keeps.ite (fun _ => ?_) (fun _ => ?_)
    | with_reducible refine Keeps.iteP (fun _ => ?_) (fun _ => ?_) | split | dsimp only | intro _

theorem State.stallPushes_keeps (h : Keeps F s t) (f) (p_qe : F .qe := by assumption) : Keeps F s (State.stallPushes t f) := by
  unfold State.stallPushes
  try dsimp only
  repeat' first
    | with_reducible assumption | with_reducible refine State.modDeq_keeps ?_ _ _
    | with_reducible refine Keeps.foldl (fun _ _ _ => ?_) _ ?_ | with_reducible refine Keeps.foldlP (fun _ _ _ => ?_) _ ?_
    | dsimp only | intro _

theorem ringModerationTimer_keeps (h : Keeps F s t) (f) (ring) (p_out : F .out := by assumption)
    (p_now : F .now := by assumption) (p_hp : F .hp := by assumption) (p_tu : F .tu := by assumption)
    : Keeps F s (ringModerationTimer f ring t) := by
  unfold ringModerationTimer
  try dsimp only
  repeat' first
    | with_reducible assumption | with_reducible refine State.advance_keeps ?_ _ | with_reducible refine State.modFn_keeps ?_ _ _
    | with_reducible refine State.vector_keeps ?_ _ _ | with_reducible refine State.modFree_keeps ?_ _ _ _
    | with_reducible refine State.modEgress_keeps ?_ _ _ _ | with_reducible refine Keeps.ite (fun _ => ?_) (fun _ => ?_)
    | with_reducible refine Keeps.iteP (fun _ => ?_) (fun _ => ?_) | split | dsimp only | intro _

theorem qeBufRegister_keeps (h : Keeps F s t) (a1) (a2) (p_rg : F .rg := by assumption) (p_qe : F .qe := by assumption)
    : Keeps F s (qeBufRegister a1 a2 t).1 := by
  unfold qeBufRegister
  try dsimp only
  repeat' first
    | with_reducible assumption | with_reducible refine Keeps.ite (fun _ => ?_) (fun _ => ?_)
    | with_reducible refine Keeps.iteP (fun _ => ?_) (fun _ => ?_)
    | simp only [keeps_upd, p_rg, p_qe, or_true, true_or, length_lmod, length_lset, List.length_map] | split | dsimp only | intro _

theorem qeBufDeregister_keeps (h : Keeps F s t) (a1) (a2) (p_hp : F .hp := by assumption) (p_rg : F .rg := by assumption)
    (p_qe : F .qe := by assumption) (p_fc : F .fc := by assumption) : Keeps F s (qeBufDeregister a1 a2 t).1 := by
  unfold qeBufDeregister
  try dsimp only
  repeat' first
    | with_reducible assumption | with_reducible refine State.dropFreeRing_keeps ?_ _ _ _
    | with_reducible refine Keeps.foldl (fun _ _ _ => ?_) _ ?_ | with_reducible refine Keeps.foldlP (fun _ _ _ => ?_) _ ?_
    | with_reducible refine Keeps.ite (fun _ => ?_) (fun _ => ?_) | with_reducible refine Keeps.iteP (fun _ => ?_) (fun _ => ?_)
    | simp only [keeps_upd, p_hp, p_rg, p_qe, p_fc, or_true, true_or, length_lmod, length_lset, List.length_map] | split
    | dsimp only | intro _

theorem qeFreeRing_keeps (h : Keeps F s t) (a1) (a2) (p_hp : F .hp := by assumption) (p_mb : F .mb := by assumption)
    : Keeps F s (qeFreeRing a1 a2 t).1 := by
  unfold qeFreeRing
  try dsimp only
  repeat' first
    | with_reducible assumption | with_reducible refine State.modFn_keeps ?_ _ _
    | with_reducible refine State.direct_keeps ?_ _ _ _ _ _ | with_reducible refine Keeps.ite (fun _ => ?_) (fun _ => ?_)
    | with_reducible refine Keeps.iteP (fun _ => ?_) (fun _ => ?_) | split | dsimp only | intro _

theorem qeFreeRingDereg_keeps (h : Keeps F s t) (a1) (a2) (p_hp : F .hp := by assumption) (p_qe : F .qe := by assumption)
    (p_fc : F .fc := by assumption) : Keeps F s (qeFreeRingDereg a1 a2 t).1 := by
  unfold qeFreeRingDereg
  try dsimp only
  repeat' first
    | with_reducible assumption | with_reducible refine State.dropFreeRing_keeps ?_ _ _ _
    | with_reducible refine Keeps.ite (fun _ => ?_) (fun _ => ?_) | with_reducible refine Keeps.iteP (fun _ => ?_) (fun _ => ?_)
    | split | dsimp only | intro _

theorem qeEgressRing_keeps (h : Keeps F s t) (a1) (a2) (p_hp : F .hp := by assumption) (p_sc : F .sc := by assumption)
    (p_mb : F .mb := by assumption) (p_pm : F .pm := by assumption) : Keeps F s (qeEgressRing a1 a2 t).1 := by
  unfold qeEgressRing
  try dsimp only
  repeat' first
    | with_reducible assumption | with_reducible refine State.modEgress_keeps ?_ _ _ _
    | with_reducible refine State.direct_keeps ?_ _ _ _ _ _ | with_reducible refine State.schedSync_keeps ?_
    | with_reducible refine State.modFn_keeps ?_ _ _ | with_reducible refine Keeps.ite (fun _ => ?_) (fun _ => ?_)
    | with_reducible refine Keeps.iteP (fun _ => ?_) (fun _ => ?_) | split | dsimp only | intro _

theorem State.dropEgress_keeps (h : Keeps F s t) (f) (n) (p_hp : F .hp := by assumption) (p_qe : F .qe := by assumption)
    : Keeps F s (State.dropEgress t f n) := by
  unfold State.dropEgress
  try dsimp only
  repeat' first
    | with_reducible assumption | with_reducible refine State.modFn_keeps ?_ _ _
    | with_reducible refine Keeps.ite (fun _ => ?_) (fun _ => ?_) | with_reducible refine Keeps.iteP (fun _ => ?_) (fun _ => ?_)
    | simp only [keeps_upd, p_hp, p_qe, or_true, true_or, length_lmod, length_lset, List.length_map] | split | dsimp only | intro _

theorem qeEgressDereg_keeps (h : Keeps F s t) (a1) (a2) (p_hp : F .hp := by assumption) (p_qe : F .qe := by assumption)
    (p_sc : F .sc := by assumption) (p_pm : F .pm := by assumption) : Keeps F s (qeEgressDereg a1 a2 t).1 := by
  unfold qeEgressDereg
  try dsimp only
  repeat' first
    | with_reducible assumption | with_reducible refine State.dropEgress_keeps ?_ _ _
    | with_reducible refine State.schedSync_keeps ?_ | with_reducible refine Keeps.ite (fun _ => ?_) (fun _ => ?_)
    | with_reducible refine Keeps.iteP (fun _ => ?_) (fun _ => ?_) | split | dsimp only | intro _

theorem qeCtl_keeps (h : Keeps F s t) (a1) (a2) (p_qe : F .qe := by assumption) : Keeps F s (qeCtl a1 a2 t).1 := by
  unfold qeCtl
  try dsimp only
  repeat' first
    | with_reducible assumption | with_reducible refine Keeps.ite (fun _ => ?_) (fun _ => ?_)
    | with_reducible refine Keeps.iteP (fun _ => ?_) (fun _ => ?_)
    | simp only [keeps_upd, p_qe, or_true, true_or, length_lmod, length_lset, List.length_map] | split | dsimp only | intro _

theorem State.reclaim_keeps (h : Keeps F s t) (f) (lo) (hi) (p_qe : F .qe := by assumption) (p_fc : F .fc := by assumption)
    : Keeps F s (State.reclaim t f lo hi) := by
  unfold State.reclaim
  try dsimp only
  repeat' first
    | with_reducible assumption | with_reducible refine State.setCells_keeps ?_ _ _ _
    | with_reducible refine State.poolCheck_keeps ?_ | with_reducible refine Keeps.foldl (fun _ _ _ => ?_) _ ?_
    | with_reducible refine Keeps.foldlP (fun _ _ _ => ?_) _ ?_ | with_reducible refine Keeps.ite (fun _ => ?_) (fun _ => ?_)
    | with_reducible refine Keeps.iteP (fun _ => ?_) (fun _ => ?_) | split | dsimp only | intro _

theorem qeReclaim_keeps (h : Keeps F s t) (a1) (a2) (p_mb : F .mb := by assumption) : Keeps F s (qeReclaim a1 a2 t).1 := by
  unfold qeReclaim
  try dsimp only
  repeat' first
    | with_reducible assumption | with_reducible refine State.direct_keeps ?_ _ _ _ _ _
    | with_reducible refine State.startBg_keeps ?_ _ _ _ _ _ _ | with_reducible refine State.reclaim_keeps ?_ _ _ _
    | with_reducible refine Keeps.ite (fun _ => ?_) (fun _ => ?_) | with_reducible refine Keeps.iteP (fun _ => ?_) (fun _ => ?_)
    | split | dsimp only | intro _

theorem State.flushOne_keeps (h : Keeps F s t) (q) (p_qe : F .qe := by assumption) (p_ce : F .ce := by assumption)
    (p_fc : F .fc := by assumption) (p_pm : F .pm := by assumption) : Keeps F s (State.flushOne t q).1 := by
  unfold State.flushOne
  try dsimp only
  repeat' first
    | with_reducible assumption | with_reducible exact State.popHead_keeps (by assumption) _ (by assumption)
    | with_reducible refine State.freePkt_keeps ?_ _ _ | with_reducible refine State.qEvent_keeps ?_ _ _ _ _
    | with_reducible refine Keeps.ite (fun _ => ?_) (fun _ => ?_) | with_reducible refine Keeps.iteP (fun _ => ?_) (fun _ => ?_)
    | split | intro _

theorem State.flushMany_keeps (h : Keeps F s t) (q) (a2) (a3) (p_qe : F .qe := by assumption) (p_ce : F .ce := by assumption) (p_fc : F .fc := by assumption) (p_pm : F .pm := by assumption) : Keeps F s (t.flushMany q a2 a3).1 := by
  induction a2 generalizing t q a3 with
  | zero => unfold State.flushMany; with_reducible exact h
  | succ _ ih =>
    unfold State.flushMany
    try dsimp only
    repeat' first
      | with_reducible assumption | with_reducible refine ih ?_ _ _ | intro _ | with_reducible refine State.flushOne_keeps ?_ _
      | with_reducible refine Keeps.ite (fun _ => ?_) (fun _ => ?_) | with_reducible refine Keeps.iteP (fun _ => ?_) (fun _ => ?_)

theorem qeFlush_keeps (h : Keeps F s t) (a1) (a2) (p_qe : F .qe := by assumption) (p_sc : F .sc := by assumption)
    (p_ce : F .ce := by assumption) (p_mb : F .mb := by assumption) (p_fc : F .fc := by assumption)
    (p_pm : F .pm := by assumption) : Keeps F s (qeFlush a1 a2 t).1 := by
  unfold qeFlush
  try dsimp only
  repeat' first
    | with_reducible assumption | with_reducible refine State.modQueue_keeps ?_ _ _
    | with_reducible refine State.flushMany_keeps ?_ _ _ _ | with_reducible refine State.schedSync_keeps ?_
    | with_reducible refine State.startBg_keeps ?_ _ _ _ _ _ _ | with_reducible refine Keeps.ite (fun _ => ?_) (fun _ => ?_)
    | with_reducible refine Keeps.iteP (fun _ => ?_) (fun _ => ?_) | split | dsimp only | intro _

theorem qeQuery_keeps (h : Keeps F s t) (a1) (a2) (p_mb : F .mb := by assumption) : Keeps F s (qeQuery a1 a2 t).1 := by
  unfold qeQuery
  try dsimp only
  repeat' first
    | with_reducible assumption | with_reducible refine query_keeps ?_ _ _ _ _ _ _
    | with_reducible refine Keeps.ite (fun _ => ?_) (fun _ => ?_) | with_reducible refine Keeps.iteP (fun _ => ?_) (fun _ => ?_)
    | simp only [keeps_upd, p_mb, or_true, true_or, length_lmod, length_lset, List.length_map] | split | dsimp only | intro _

theorem State.qeMediaLost_keeps (h : Keeps F s t) (p_hp : F .hp := by assumption) (p_qe : F .qe := by assumption) (p_sc : F .sc := by assumption) (p_ce : F .ce := by assumption) (p_fc : F .fc := by assumption) (p_pm : F .pm := by assumption) :
    Keeps F s t.qeMediaLost := by
  unfold State.qeMediaLost
  try dsimp only
  repeat' first
    | with_reducible assumption | intro _ | with_reducible refine State.qEvent_keeps ?_ _ _ _ _
    | with_reducible refine State.modQueue_keeps ?_ _ _ | with_reducible refine State.dropFreeRing_keeps ?_ _ _ _
    | with_reducible refine State.schedSync_keeps ?_ | with_reducible refine State.report_keeps ?_ _ _ _
    | with_reducible refine State.poolCheck_keeps ?_ | with_reducible refine Keeps.foldl (fun _ _ _ => ?_) _ ?_
    | with_reducible refine Keeps.foldlP (fun _ _ _ => ?_) _ ?_ | with_reducible refine Keeps.ite (fun _ => ?_) (fun _ => ?_)
    | with_reducible refine Keeps.iteP (fun _ => ?_) (fun _ => ?_)
    | simp only [keeps_upd, p_hp, p_qe, p_sc, p_ce, p_fc, p_pm, or_true, true_or, length_lmod, length_lset, List.length_map]

theorem State.applyQueue_keeps (h : Keeps F s t) (q) (b) (p_qe : F .qe := by assumption) : Keeps F s (State.applyQueue t q b) := by
  unfold State.applyQueue
  try dsimp only
  repeat' first
    | with_reducible assumption | with_reducible refine State.modQueue_keeps ?_ _ _ | dsimp only | intro _

theorem State.applyPolicer_keeps (h : Keeps F s t) (n) (b) (p_qe : F .qe := by assumption)
    : Keeps F s (State.applyPolicer t n b) := by
  unfold State.applyPolicer
  try dsimp only
  repeat' first
    | with_reducible assumption | with_reducible refine Keeps.ite (fun _ => ?_) (fun _ => ?_)
    | with_reducible refine Keeps.iteP (fun _ => ?_) (fun _ => ?_)
    | simp only [keeps_upd, p_qe, or_true, true_or, length_lmod, length_lset, List.length_map] | split | dsimp only | intro _

end Sys2Proof.Machine
end

