-- ==== Sys2Proof/Laws/KeepsTime.lean ====
section
/-! SUPPORT. What each operation of Machine/Time.lean keeps: time. -/

set_option Elab.async false

set_option linter.all false

namespace Sys2Proof.Machine
open Sys2Proof

variable {F : Part → Prop} {s t : State}

theorem State.stepTime_keeps (h : Keeps F s t) (t40) (p_sc : F .sc := by assumption) (p_tu : F .tu := by assumption)
    (p_fc : F .fc := by assumption) (p_pm : F .pm := by assumption) : Keeps F s (State.stepTime t t40) := by
  unfold State.stepTime
  try dsimp only
  repeat' first
    | with_reducible assumption | with_reducible refine State.report_keeps ?_ _ _ _
    | with_reducible refine State.count_keeps ?_ _ _ _ | with_reducible refine State.gatesStepped_keeps ?_
    | simp only [keeps_upd, p_sc, p_tu, p_fc, p_pm, or_true, true_or, length_lmod, length_lset, List.length_map] | dsimp only
    | intro _

theorem State.useSample_keeps (h : Keeps F s t) (sample40) (p_sc : F .sc := by assumption) (p_tu : F .tu := by assumption)
    (p_fc : F .fc := by assumption) (p_pm : F .pm := by assumption) : Keeps F s (State.useSample t sample40) := by
  unfold State.useSample
  try dsimp only
  repeat' first
    | with_reducible assumption | with_reducible refine State.stepTime_keeps ?_ _
    | with_reducible refine Keeps.ite (fun _ => ?_) (fun _ => ?_) | with_reducible refine Keeps.iteP (fun _ => ?_) (fun _ => ?_)
    | simp only [keeps_upd, p_sc, p_tu, p_fc, p_pm, or_true, true_or, length_lmod, length_lset, List.length_map] | split
    | dsimp only | intro _

theorem State.sample_keeps (h : Keeps F s t) (source) (sample40) (p_sc : F .sc := by assumption) (p_tu : F .tu := by assumption)
    (p_fc : F .fc := by assumption) (p_pm : F .pm := by assumption) : Keeps F s (State.sample t source sample40) := by
  unfold State.sample
  try dsimp only
  repeat' first
    | with_reducible assumption | with_reducible refine State.count_keeps ?_ _ _ _
    | with_reducible refine State.useSample_keeps ?_ _ | with_reducible refine Keeps.ite (fun _ => ?_) (fun _ => ?_)
    | with_reducible refine Keeps.iteP (fun _ => ?_) (fun _ => ?_)
    | simp only [keeps_upd, p_sc, p_tu, p_fc, p_pm, or_true, true_or, length_lmod, length_lset, List.length_map] | split
    | dsimp only | intro _

theorem State.badSample_keeps (h : Keeps F s t) (source) (p_tu : F .tu := by assumption) (p_pm : F .pm := by assumption)
    : Keeps F s (State.badSample t source) := by
  unfold State.badSample
  try dsimp only
  repeat' first
    | with_reducible assumption | with_reducible refine State.count_keeps ?_ _ _ _
    | with_reducible refine Keeps.ite (fun _ => ?_) (fun _ => ?_) | with_reducible refine Keeps.iteP (fun _ => ?_) (fun _ => ?_)
    | simp only [keeps_upd, p_tu, p_pm, or_true, true_or, length_lmod, length_lset, List.length_map] | split | dsimp only | intro _

theorem ptmDialogue_keeps (h : Keeps F s t) (p_out : F .out := by assumption) (p_now : F .now := by assumption)
    (p_tu : F .tu := by assumption) (p_pm : F .pm := by assumption) : Keeps F s (ptmDialogue t) := by
  unfold ptmDialogue
  try dsimp only
  repeat' first
    | with_reducible assumption | with_reducible refine State.advance_keeps ?_ _ | with_reducible refine State.emit_keeps ?_ _
    | with_reducible refine State.badSample_keeps ?_ _ | with_reducible refine Keeps.foldl (fun _ _ _ => ?_) _ ?_
    | with_reducible refine Keeps.foldlP (fun _ _ _ => ?_) _ ?_ | with_reducible refine Keeps.ite (fun _ => ?_) (fun _ => ?_)
    | with_reducible refine Keeps.iteP (fun _ => ?_) (fun _ => ?_)
    | simp only [keeps_upd, p_out, p_now, p_tu, p_pm, or_true, true_or, length_lmod, length_lset, List.length_map] | split
    | dsimp only | intro _

theorem ptmSample_keeps (h : Keeps F s t) (source) (valid) (sec) (ns) (p_sc : F .sc := by assumption)
    (p_tu : F .tu := by assumption) (p_fc : F .fc := by assumption) (p_pm : F .pm := by assumption)
    : Keeps F s (ptmSample source valid sec ns t) := by
  unfold ptmSample
  try dsimp only
  repeat' first
    | with_reducible assumption | with_reducible refine State.badSample_keeps ?_ _ | with_reducible refine State.sample_keeps ?_ _ _
    | with_reducible refine Keeps.ite (fun _ => ?_) (fun _ => ?_) | with_reducible refine Keeps.iteP (fun _ => ?_) (fun _ => ?_)
    | split | intro _

theorem ppsInEdge_keeps (h : Keeps F s t) (p_sc : F .sc := by assumption) (p_tu : F .tu := by assumption)
    (p_fc : F .fc := by assumption) (p_pm : F .pm := by assumption) : Keeps F s (ppsInEdge t) := by
  unfold ppsInEdge
  try dsimp only
  repeat' first
    | with_reducible assumption | with_reducible refine State.sample_keeps ?_ _ _
    | with_reducible refine Keeps.ite (fun _ => ?_) (fun _ => ?_) | with_reducible refine Keeps.iteP (fun _ => ?_) (fun _ => ?_)
    | split | dsimp only | intro _

theorem timeSourceTimeout_keeps (h : Keeps F s t) (p_now : F .now := by assumption) (p_tu : F .tu := by assumption)
    (p_fc : F .fc := by assumption) : Keeps F s (timeSourceTimeout t) := by
  unfold timeSourceTimeout
  try dsimp only
  repeat' first
    | with_reducible assumption | with_reducible refine State.report_keeps ?_ _ _ _ | with_reducible refine State.advance_keeps ?_ _
    | with_reducible refine Keeps.ite (fun _ => ?_) (fun _ => ?_) | with_reducible refine Keeps.iteP (fun _ => ?_) (fun _ => ?_)
    | simp only [keeps_upd, p_now, p_tu, p_fc, or_true, true_or, length_lmod, length_lset, List.length_map] | split | dsimp only
    | intro _

theorem tuCtl_keeps (h : Keeps F s t) (a1) (a2) (p_tu : F .tu := by assumption) (p_mb : F .mb := by assumption)
    : Keeps F s (tuCtl a1 a2 t).1 := by
  unfold tuCtl
  try dsimp only
  repeat' first
    | with_reducible assumption | with_reducible refine State.direct_keeps ?_ _ _ _ _ _
    | with_reducible refine Keeps.ite (fun _ => ?_) (fun _ => ?_) | with_reducible refine Keeps.iteP (fun _ => ?_) (fun _ => ?_)
    | simp only [keeps_upd, p_tu, p_mb, or_true, true_or, length_lmod, length_lset, List.length_map] | split | dsimp only | intro _

theorem tuSet_keeps (h : Keeps F s t) (a1) (a2) (p_sc : F .sc := by assumption) (p_tu : F .tu := by assumption)
    (p_mb : F .mb := by assumption) (p_fc : F .fc := by assumption) (p_pm : F .pm := by assumption)
    : Keeps F s (tuSet a1 a2 t).1 := by
  unfold tuSet
  try dsimp only
  repeat' first
    | with_reducible assumption | with_reducible refine State.stepTime_keeps ?_ _
    | with_reducible refine State.direct_keeps ?_ _ _ _ _ _ | with_reducible refine Keeps.ite (fun _ => ?_) (fun _ => ?_)
    | with_reducible refine Keeps.iteP (fun _ => ?_) (fun _ => ?_) | split | dsimp only | intro _

theorem tuQuery_keeps (h : Keeps F s t) (a1) (a2)  : Keeps F s (tuQuery a1 a2 t).1 := by
  unfold tuQuery
  try dsimp only
  repeat' first
    | with_reducible assumption | with_reducible refine Keeps.ite (fun _ => ?_) (fun _ => ?_)
    | with_reducible refine Keeps.iteP (fun _ => ?_) (fun _ => ?_) | split | dsimp only | intro _

theorem State.latchTime_keeps (h : Keeps F s t) (p_tu : F .tu := by assumption) : Keeps F s t.latchTime := by
  unfold State.latchTime
  repeat' first | with_reducible assumption | simp only [keeps_upd, p_tu, or_true, true_or, length_lmod, length_lset, List.length_map]

theorem State.schedWake_keeps (h : Keeps F s t) (late) (early) (p_qe : F .qe := by assumption) (p_sc : F .sc := by assumption)
    (p_ce : F .ce := by assumption) (p_fc : F .fc := by assumption) (p_pm : F .pm := by assumption)
    : Keeps F s (State.schedWake t late early) := by
  unfold State.schedWake
  try dsimp only
  repeat' first
    | with_reducible assumption | with_reducible refine State.placeNode_keeps ?_ _ | with_reducible refine State.swapGate_keeps ?_ _
    | with_reducible refine State.schedSync_keeps ?_ | with_reducible refine Keeps.foldl (fun _ _ _ => ?_) _ ?_
    | with_reducible refine Keeps.foldlP (fun _ _ _ => ?_) _ ?_ | with_reducible refine Keeps.ite (fun _ => ?_) (fun _ => ?_)
    | with_reducible refine Keeps.iteP (fun _ => ?_) (fun _ => ?_)
    | simp only [keeps_upd, p_qe, p_sc, p_ce, p_fc, p_pm, or_true, true_or, length_lmod, length_lset, List.length_map] | split
    | dsimp only | intro _

end Sys2Proof.Machine
end

