-- ==== Sys2Proof/Laws/KeepsChannel.lean ====
section
/-! SUPPORT. What each operation of Machine/Channel.lean keeps: the channels. -/

set_option Elab.async false

set_option linter.all false

namespace Sys2Proof.Machine
open Sys2Proof

variable {F : Part → Prop} {s t : State}

theorem State.setChan_keeps (h : Keeps F s t) (x_c) (x) (p_mc : F .mc := by assumption) : Keeps F s (State.setChan t x_c x) := by
  unfold State.setChan
  try dsimp only
  repeat' first
    | with_reducible assumption | with_reducible refine State.modChan_keeps ?_ _ _ | dsimp only | intro _

theorem State.settleRef_keeps (h : Keeps F s t) (x_c) (x_u) (p_mc : F .mc := by assumption)
    : Keeps F s (State.settleRef t x_c x_u) := by
  unfold State.settleRef
  try dsimp only
  repeat' first
    | with_reducible assumption | with_reducible refine State.modSub_keeps ?_ _ _ _
    | with_reducible refine Keeps.foldl (fun _ _ _ => ?_) _ ?_ | with_reducible refine Keeps.foldlP (fun _ _ _ => ?_) _ ?_
    | dsimp only | intro _

theorem State.refreshed_keeps (h : Keeps F s t) (x_c) (x_u) (rank) (bank) (p_mc : F .mc := by assumption)
    (p_pm : F .pm := by assumption) : Keeps F s (State.refreshed t x_c x_u rank bank) := by
  unfold State.refreshed
  try dsimp only
  repeat' first
    | with_reducible assumption | with_reducible refine State.settleRef_keeps ?_ _ _
    | with_reducible refine State.modSub_keeps ?_ _ _ _ | with_reducible refine State.count_keeps ?_ _ _ _
    | with_reducible refine Keeps.foldl (fun _ _ _ => ?_) _ ?_ | with_reducible refine Keeps.foldlP (fun _ _ _ => ?_) _ ?_
    | dsimp only | intro _

theorem refreshIssue_keeps (h : Keeps F s t) (x_c) (x_u) (rank) (bank) (p_mc : F .mc := by assumption)
    (p_pm : F .pm := by assumption) : Keeps F s (refreshIssue x_c x_u rank bank t) := by
  unfold refreshIssue
  try dsimp only
  repeat' first
    | with_reducible assumption | with_reducible refine State.refreshed_keeps ?_ _ _ _ _
    | with_reducible refine Keeps.ite (fun _ => ?_) (fun _ => ?_) | with_reducible refine Keeps.iteP (fun _ => ?_) (fun _ => ?_)
    | split | dsimp only | intro _

theorem refreshForced_keeps (h : Keeps F s t) (x_c) (x_u) (rank) (bank) (p_now : F .now := by assumption)
    (p_mc : F .mc := by assumption) (p_tu : F .tu := by assumption) (p_fc : F .fc := by assumption)
    (p_pm : F .pm := by assumption) : Keeps F s (refreshForced x_c x_u rank bank t) := by
  unfold refreshForced
  try dsimp only
  repeat' first
    | with_reducible assumption | with_reducible refine State.advance_keeps ?_ _
    | with_reducible refine State.refreshed_keeps ?_ _ _ _ _ | with_reducible refine State.modChan_keeps ?_ _ _
    | with_reducible refine State.reportAgg_keeps ?_ _ _ _ _ _ | with_reducible refine Keeps.ite (fun _ => ?_) (fun _ => ?_)
    | with_reducible refine Keeps.iteP (fun _ => ?_) (fun _ => ?_) | split | dsimp only | intro _

theorem rfmIssue_keeps (h : Keeps F s t) (x_c) (x_u) (rank) (group) (bank) (p_mc : F .mc := by assumption)
    (p_pm : F .pm := by assumption) : Keeps F s (rfmIssue x_c x_u rank group bank t) := by
  unfold rfmIssue
  try dsimp only
  repeat' first
    | with_reducible assumption | with_reducible refine State.modSub_keeps ?_ _ _ _
    | with_reducible refine State.modChan_keeps ?_ _ _ | with_reducible refine State.count_keeps ?_ _ _ _
    | with_reducible refine Keeps.ite (fun _ => ?_) (fun _ => ?_) | with_reducible refine Keeps.iteP (fun _ => ?_) (fun _ => ?_)
    | split | dsimp only | intro _

theorem subchannelIssue_keeps (h : Keeps F s t) (x_c) (x_u) (ready) (p_mc : F .mc := by assumption)
    (p_bw : F .bw := by assumption) (p_pm : F .pm := by assumption) : Keeps F s (subchannelIssue x_c x_u ready t) := by
  unfold subchannelIssue
  try dsimp only
  repeat' first
    | with_reducible assumption | with_reducible refine State.startFrame_keeps ?_ _ _
    | with_reducible refine State.letIn_keeps ?_ _ _ | with_reducible refine State.modSub_keeps ?_ _ _ _
    | with_reducible refine State.served_keeps ?_ _ _ _ | with_reducible refine State.count_keeps ?_ _ _ _
    | with_reducible refine Keeps.ite (fun _ => ?_) (fun _ => ?_) | with_reducible refine Keeps.iteP (fun _ => ?_) (fun _ => ?_)
    | split | dsimp only | intro _

theorem agePromotion_keeps (h : Keeps F s t) (x_c) (x_u) (id) (p_now : F .now := by assumption) (p_mc : F .mc := by assumption)
    (p_tu : F .tu := by assumption) (p_pm : F .pm := by assumption) : Keeps F s (agePromotion x_c x_u id t) := by
  unfold agePromotion
  try dsimp only
  repeat' first
    | with_reducible assumption | with_reducible refine State.advance_keeps ?_ _ | with_reducible refine State.modSub_keeps ?_ _ _ _
    | with_reducible refine State.count_keeps ?_ _ _ _ | with_reducible refine Keeps.ite (fun _ => ?_) (fun _ => ?_)
    | with_reducible refine Keeps.iteP (fun _ => ?_) (fun _ => ?_) | split | dsimp only | intro _

theorem alertN_keeps (h : Keeps F s t) (x_c) (x_u) (writeCrc) (p_mc : F .mc := by assumption) (p_fc : F .fc := by assumption)
    (p_pm : F .pm := by assumption) : Keeps F s (alertN x_c x_u writeCrc t) := by
  unfold alertN
  try dsimp only
  repeat' first
    | with_reducible assumption | with_reducible refine State.modSub_keeps ?_ _ _ _ | with_reducible refine State.trigger_keeps ?_ _
    | with_reducible refine State.modChan_keeps ?_ _ _ | with_reducible refine State.reportAgg_keeps ?_ _ _ _ _ _
    | with_reducible refine State.count_keeps ?_ _ _ _ | with_reducible refine Keeps.ite (fun _ => ?_) (fun _ => ?_)
    | with_reducible refine Keeps.iteP (fun _ => ?_) (fun _ => ?_) | split | dsimp only | intro _

theorem alertEpisodeEnd_keeps (h : Keeps F s t) (x_c) (x_u) (p_mc : F .mc := by assumption)
    : Keeps F s (alertEpisodeEnd x_c x_u t) := by
  unfold alertEpisodeEnd
  try dsimp only
  repeat' first
    | with_reducible assumption | with_reducible refine State.modSub_keeps ?_ _ _ _
    | with_reducible refine Keeps.ite (fun _ => ?_) (fun _ => ?_) | with_reducible refine Keeps.iteP (fun _ => ?_) (fun _ => ?_)
    | split | dsimp only | intro _

theorem State.failQueues_keeps (h : Keeps F s t) (x_c) (qs) (p_out : F .out := by assumption)
    (p_fresh : F .fresh := by assumption) (p_dram : F .dram := by assumption) (p_hp : F .hp := by assumption)
    (p_rr : F .rr := by assumption) (p_rg : F .rg := by assumption) (p_ns : F .ns := by assumption)
    (p_tr : F .tr := by assumption) (p_cd : F .cd := by assumption) (p_lp : F .lp := by assumption)
    (p_sx : F .sx := by assumption) (p_mc : F .mc := by assumption) (p_bw : F .bw := by assumption)
    (p_fc : F .fc := by assumption) (p_pm : F .pm := by assumption) : Keeps F s (State.failQueues t x_c qs) := by
  unfold State.failQueues
  try dsimp only
  repeat' first
    | with_reducible assumption | with_reducible refine State.report_keeps ?_ _ _ _
    | with_reducible refine State.finishFetch_keeps ?_ _ _ _ _ | with_reducible refine Keeps.foldl (fun _ _ _ => ?_) _ ?_
    | with_reducible refine Keeps.foldlP (fun _ _ _ => ?_) _ ?_ | with_reducible refine Keeps.ite (fun _ => ?_) (fun _ => ?_)
    | with_reducible refine Keeps.iteP (fun _ => ?_) (fun _ => ?_) | split | dsimp only | intro _

theorem State.abortPlain_keeps (h : Keeps F s t) (x_c) (p_out : F .out := by assumption) (p_dram : F .dram := by assumption)
    (p_rg : F .rg := by assumption) (p_tr : F .tr := by assumption) (p_cd : F .cd := by assumption)
    (p_lp : F .lp := by assumption) (p_sx : F .sx := by assumption) (p_mc : F .mc := by assumption)
    (p_bw : F .bw := by assumption) (p_fc : F .fc := by assumption) (p_pm : F .pm := by assumption)
    : Keeps F s (State.abortPlain t x_c) := by
  unfold State.abortPlain
  try dsimp only
  repeat' first
    | with_reducible assumption | with_reducible refine State.abortMove_keeps ?_ _ _ _
    | with_reducible refine Keeps.foldl (fun _ _ _ => ?_) _ ?_ | with_reducible refine Keeps.foldlP (fun _ _ _ => ?_) _ ?_
    | dsimp only | intro _

theorem State.fence_keeps (h : Keeps F s t) (x_c) (cause) (p_out : F .out := by assumption)
    (p_fresh : F .fresh := by assumption) (p_dram : F .dram := by assumption) (p_hp : F .hp := by assumption)
    (p_rr : F .rr := by assumption) (p_rg : F .rg := by assumption) (p_ns : F .ns := by assumption)
    (p_tr : F .tr := by assumption) (p_cd : F .cd := by assumption) (p_lp : F .lp := by assumption)
    (p_sx : F .sx := by assumption) (p_mc : F .mc := by assumption) (p_bw : F .bw := by assumption)
    (p_fc : F .fc := by assumption) (p_ck : F .ck := by assumption) (p_pm : F .pm := by assumption)
    : Keeps F s (State.fence t x_c cause) := by
  unfold State.fence
  try dsimp only
  repeat' first
    | with_reducible assumption | with_reducible refine State.closeShadow_keeps ?_ _ _
    | with_reducible refine State.flashShadow_keeps ?_ _ _ | with_reducible refine State.modChan_keeps ?_ _ _
    | with_reducible refine State.failQueues_keeps ?_ _ _ | with_reducible refine State.settle_keeps ?_ _ _
    | with_reducible refine State.abortPlain_keeps ?_ _ | with_reducible refine State.setDomain_keeps ?_ _ _
    | with_reducible refine State.rescale_keeps ?_ | with_reducible refine State.report_keeps ?_ _ _ _
    | with_reducible refine Keeps.foldl (fun _ _ _ => ?_) _ ?_ | with_reducible refine Keeps.foldlP (fun _ _ _ => ?_) _ ?_
    | with_reducible refine Keeps.ite (fun _ => ?_) (fun _ => ?_) | with_reducible refine Keeps.iteP (fun _ => ?_) (fun _ => ?_)
    | simp only [keeps_upd, p_out, p_fresh, p_dram, p_hp, p_rr, p_rg, p_ns, p_tr, p_cd, p_lp, p_sx, p_mc, p_bw, p_fc, p_ck, p_pm, or_true, true_or, length_lmod, length_lset, List.length_map]
    | split | with_reducible refine Keeps.updCells ?_ (mem_filter_wf _) | dsimp only | intro _

theorem State.answerRetrain_keeps (h : Keeps F s t) (x_c) (st) (p_out : F .out := by assumption) (p_hp : F .hp := by assumption)
    (p_mb : F .mb := by assumption) (p_pm : F .pm := by assumption) : Keeps F s (State.answerRetrain t x_c st) := by
  unfold State.answerRetrain
  try dsimp only
  repeat' first
    | with_reducible assumption | with_reducible refine State.endS_keeps ?_ _ _ | split | intro _

theorem State.shiftReads_keeps (h : Keeps F s t) (x_c) (p_out : F .out := by assumption) (p_fresh : F .fresh := by assumption)
    (p_dram : F .dram := by assumption) (p_hp : F .hp := by assumption) (p_rr : F .rr := by assumption)
    (p_rg : F .rg := by assumption) (p_ns : F .ns := by assumption) (p_tr : F .tr := by assumption)
    (p_cd : F .cd := by assumption) (p_lp : F .lp := by assumption) (p_sx : F .sx := by assumption)
    (p_mc : F .mc := by assumption) (p_bw : F .bw := by assumption) (p_fc : F .fc := by assumption)
    (p_pm : F .pm := by assumption) : Keeps F s (State.shiftReads t x_c) := by
  unfold State.shiftReads
  try dsimp only
  repeat' first
    | with_reducible assumption | with_reducible refine State.modChan_keeps ?_ _ _ | with_reducible refine State.settle_keeps ?_ _ _
    | with_reducible refine Keeps.foldl (fun _ _ _ => ?_) _ ?_ | with_reducible refine Keeps.foldlP (fun _ _ _ => ?_) _ ?_ | split
    | dsimp only | intro _

theorem State.speedStep_keeps (h : Keeps F s t) (x_c) (p_out : F .out := by assumption) (p_fresh : F .fresh := by assumption)
    (p_dram : F .dram := by assumption) (p_hp : F .hp := by assumption) (p_rr : F .rr := by assumption)
    (p_rg : F .rg := by assumption) (p_ns : F .ns := by assumption) (p_tr : F .tr := by assumption)
    (p_cd : F .cd := by assumption) (p_lp : F .lp := by assumption) (p_sx : F .sx := by assumption)
    (p_mc : F .mc := by assumption) (p_bw : F .bw := by assumption) (p_fc : F .fc := by assumption)
    (p_pm : F .pm := by assumption) : Keeps F s (State.speedStep t x_c) := by
  unfold State.speedStep
  try dsimp only
  repeat' first
    | with_reducible assumption | with_reducible refine State.setChan_keeps ?_ _ _
    | with_reducible refine State.modChan_keeps ?_ _ _ | with_reducible refine State.shiftReads_keeps ?_ _ | dsimp only | intro _

theorem State.speedGo_keeps (h : Keeps F s t) (p_out : F .out := by assumption) (p_fresh : F .fresh := by assumption)
    (p_dram : F .dram := by assumption) (p_hp : F .hp := by assumption) (p_rr : F .rr := by assumption)
    (p_rg : F .rg := by assumption) (p_ns : F .ns := by assumption) (p_tr : F .tr := by assumption)
    (p_cd : F .cd := by assumption) (p_lp : F .lp := by assumption) (p_sx : F .sx := by assumption)
    (p_mc : F .mc := by assumption) (p_bw : F .bw := by assumption) (p_mb : F .mb := by assumption)
    (p_fc : F .fc := by assumption) (p_pm : F .pm := by assumption) : Keeps F s (State.speedGo t) := by
  unfold State.speedGo
  try dsimp only
  repeat' first
    | with_reducible assumption | with_reducible refine State.endOp_keeps ?_ _ _ _
    | with_reducible refine State.speedStep_keeps ?_ _ | with_reducible refine Keeps.ite (fun _ => ?_) (fun _ => ?_)
    | with_reducible refine Keeps.iteP (fun _ => ?_) (fun _ => ?_)
    | simp only [keeps_upd, p_out, p_fresh, p_dram, p_hp, p_rr, p_rg, p_ns, p_tr, p_cd, p_lp, p_sx, p_mc, p_bw, p_mb, p_fc, p_pm, or_true, true_or, length_lmod, length_lset, List.length_map]
    | split | dsimp only | intro _

theorem retrainingStart_keeps (h : Keeps F s t) (p_out : F .out := by assumption) (p_fresh : F .fresh := by assumption)
    (p_dram : F .dram := by assumption) (p_hp : F .hp := by assumption) (p_rr : F .rr := by assumption)
    (p_rg : F .rg := by assumption) (p_ns : F .ns := by assumption) (p_tr : F .tr := by assumption)
    (p_cd : F .cd := by assumption) (p_lp : F .lp := by assumption) (p_sx : F .sx := by assumption)
    (p_mc : F .mc := by assumption) (p_bw : F .bw := by assumption) (p_fc : F .fc := by assumption)
    (p_pm : F .pm := by assumption) : Keeps F s (retrainingStart t) := by
  unfold retrainingStart
  try dsimp only
  repeat' first
    | with_reducible assumption | with_reducible refine State.modChan_keeps ?_ _ _
    | with_reducible refine State.openShadow_keeps ?_ _ _ _ _ | with_reducible refine State.shiftReads_keeps ?_ _
    | with_reducible refine Keeps.ite (fun _ => ?_) (fun _ => ?_) | with_reducible refine Keeps.iteP (fun _ => ?_) (fun _ => ?_)
    | simp only [keeps_upd, p_out, p_fresh, p_dram, p_hp, p_rr, p_rg, p_ns, p_tr, p_cd, p_lp, p_sx, p_mc, p_bw, p_fc, p_pm, or_true, true_or, length_lmod, length_lset, List.length_map]
    | split | dsimp only | intro _

theorem retrainingDone_keeps (h : Keeps F s t) (ok) (p_out : F .out := by assumption) (p_fresh : F .fresh := by assumption)
    (p_dram : F .dram := by assumption) (p_hp : F .hp := by assumption) (p_rr : F .rr := by assumption)
    (p_rg : F .rg := by assumption) (p_ns : F .ns := by assumption) (p_tr : F .tr := by assumption)
    (p_cd : F .cd := by assumption) (p_lp : F .lp := by assumption) (p_sx : F .sx := by assumption)
    (p_mc : F .mc := by assumption) (p_bw : F .bw := by assumption) (p_mb : F .mb := by assumption)
    (p_fc : F .fc := by assumption) (p_ck : F .ck := by assumption) (p_pm : F .pm := by assumption)
    : Keeps F s (retrainingDone ok t) := by
  unfold retrainingDone
  try dsimp only
  repeat' first
    | with_reducible assumption | with_reducible refine State.modChan_keeps ?_ _ _
    | with_reducible refine State.actionEnds_keeps ?_ _ | with_reducible refine State.setChan_keeps ?_ _ _
    | with_reducible refine State.closeShadow_keeps ?_ _ _ | with_reducible refine State.report_keeps ?_ _ _ _
    | with_reducible refine State.answerRetrain_keeps ?_ _ _ | with_reducible refine State.fence_keeps ?_ _ _
    | with_reducible refine State.speedGo_keeps ?_ | with_reducible refine Keeps.ite (fun _ => ?_) (fun _ => ?_)
    | with_reducible refine Keeps.iteP (fun _ => ?_) (fun _ => ?_)
    | simp only [keeps_upd, p_out, p_fresh, p_dram, p_hp, p_rr, p_rg, p_ns, p_tr, p_cd, p_lp, p_sx, p_mc, p_bw, p_mb, p_fc, p_ck, p_pm, or_true, true_or, length_lmod, length_lset, List.length_map]
    | split | dsimp only | intro _

theorem State.fullTrained_keeps (h : Keeps F s t) (o) (x_c) (trained) (p_out : F .out := by assumption)
    (p_fresh : F .fresh := by assumption) (p_dram : F .dram := by assumption) (p_hp : F .hp := by assumption)
    (p_rr : F .rr := by assumption) (p_rg : F .rg := by assumption) (p_ns : F .ns := by assumption)
    (p_tr : F .tr := by assumption) (p_cd : F .cd := by assumption) (p_lp : F .lp := by assumption)
    (p_sx : F .sx := by assumption) (p_mc : F .mc := by assumption) (p_bw : F .bw := by assumption)
    (p_mb : F .mb := by assumption) (p_fc : F .fc := by assumption) (p_ck : F .ck := by assumption)
    (p_pm : F .pm := by assumption) : Keeps F s (State.fullTrained t o x_c trained) := by
  unfold State.fullTrained
  try dsimp only
  repeat' first
    | with_reducible assumption | with_reducible refine State.modOp_keeps ?_ _ _ | with_reducible refine State.modChan_keeps ?_ _ _
    | with_reducible refine State.setDomain_keeps ?_ _ _ | with_reducible refine State.rescale_keeps ?_
    | with_reducible refine State.endOp_keeps ?_ _ _ _ | with_reducible refine State.speedGo_keeps ?_
    | with_reducible refine State.setChan_keeps ?_ _ _ | with_reducible refine Keeps.ite (fun _ => ?_) (fun _ => ?_)
    | with_reducible refine Keeps.iteP (fun _ => ?_) (fun _ => ?_)
    | simp only [keeps_upd, p_out, p_fresh, p_dram, p_hp, p_rr, p_rg, p_ns, p_tr, p_cd, p_lp, p_sx, p_mc, p_bw, p_mb, p_fc, p_ck, p_pm, or_true, true_or, length_lmod, length_lset, List.length_map]
    | split | dsimp only | intro _

theorem fencedRetrainDone_keeps (h : Keeps F s t) (x_c) (ok) (p_out : F .out := by assumption)
    (p_fresh : F .fresh := by assumption) (p_dram : F .dram := by assumption) (p_hp : F .hp := by assumption)
    (p_rr : F .rr := by assumption) (p_rg : F .rg := by assumption) (p_ns : F .ns := by assumption)
    (p_tr : F .tr := by assumption) (p_cd : F .cd := by assumption) (p_lp : F .lp := by assumption)
    (p_sx : F .sx := by assumption) (p_mc : F .mc := by assumption) (p_bw : F .bw := by assumption)
    (p_mb : F .mb := by assumption) (p_fc : F .fc := by assumption) (p_ck : F .ck := by assumption)
    (p_pm : F .pm := by assumption) : Keeps F s (fencedRetrainDone x_c ok t) := by
  unfold fencedRetrainDone
  try dsimp only
  repeat' first
    | with_reducible assumption | with_reducible refine State.fullTrained_keeps ?_ _ _ _ | split | intro _

theorem speedStepDone_keeps (h : Keeps F s t) (p_out : F .out := by assumption) (p_fresh : F .fresh := by assumption)
    (p_dram : F .dram := by assumption) (p_hp : F .hp := by assumption) (p_rr : F .rr := by assumption)
    (p_rg : F .rg := by assumption) (p_ns : F .ns := by assumption) (p_tr : F .tr := by assumption)
    (p_cd : F .cd := by assumption) (p_lp : F .lp := by assumption) (p_sx : F .sx := by assumption)
    (p_mc : F .mc := by assumption) (p_bw : F .bw := by assumption) (p_mb : F .mb := by assumption)
    (p_fc : F .fc := by assumption) (p_pm : F .pm := by assumption) : Keeps F s (speedStepDone t) := by
  unfold speedStepDone
  try dsimp only
  repeat' first
    | with_reducible assumption | with_reducible refine State.modChan_keeps ?_ _ _ | with_reducible refine State.modOp_keeps ?_ _ _
    | with_reducible refine State.rescale_keeps ?_ | with_reducible refine State.speedGo_keeps ?_
    | with_reducible refine Keeps.ite (fun _ => ?_) (fun _ => ?_) | with_reducible refine Keeps.iteP (fun _ => ?_) (fun _ => ?_)
    | simp only [keeps_upd, p_out, p_fresh, p_dram, p_hp, p_rr, p_rg, p_ns, p_tr, p_cd, p_lp, p_sx, p_mc, p_bw, p_mb, p_fc, p_pm, or_true, true_or, length_lmod, length_lset, List.length_map]
    | split | dsimp only | intro _

theorem speedTimeout_at (h : Keeps F s t) (d : Nat) (g : BgWork → Bool)
    (p_out : F .out := by assumption) (p_now : F .now := by assumption) (p_hp : F .hp := by assumption) (p_mc : F .mc := by assumption) (p_tu : F .tu := by assumption) (p_mb : F .mb := by assumption) (p_pm : F .pm := by assumption) : Keeps F s (
    let s1 := State.advance t d
    let s2 : State := { s1 with mc := { s1.mc with speed := none } }
    match s2.bgOf g with
    | some o => s2.endOp o.handle stBusyTraining
    | none => s2) := by
  have hd := State.advance_keeps h d
  generalize State.advance t d = u at hd ⊢
  dsimp only
  have h2 : Keeps F s { u with mc := { u.mc with speed := none } } := hd.upd
  split
  · exact State.endOp_keeps h2 _ _ _
  · exact h2

theorem speedTimeout_keeps (h : Keeps F s t)
    (p_out : F .out := by assumption) (p_now : F .now := by assumption) (p_hp : F .hp := by assumption) (p_mc : F .mc := by assumption) (p_tu : F .tu := by assumption) (p_mb : F .mb := by assumption) (p_pm : F .pm := by assumption) : Keeps F s (speedTimeout t) := by
  unfold speedTimeout
  split
  · exact h
  · split
    · exact h
    · exact speedTimeout_at h _ _

theorem dqsTracking_keeps (h : Keeps F s t) (x_c) (x_rank) (drift) (p_mc : F .mc := by assumption)
    : Keeps F s (dqsTracking x_c x_rank drift t) := by
  unfold dqsTracking
  try dsimp only
  repeat' first
    | with_reducible assumption | with_reducible refine State.trigger_keeps ?_ _
    | with_reducible refine Keeps.ite (fun _ => ?_) (fun _ => ?_) | with_reducible refine Keeps.iteP (fun _ => ?_) (fun _ => ?_)
    | split | intro _

theorem zqCalibration_keeps (h : Keeps F s t) (x_c) (x_rank)  : Keeps F s (zqCalibration x_c x_rank t) := by
  unfold zqCalibration
  try dsimp only
  repeat' first
    | with_reducible assumption | intro _

theorem dimmTempRead_keeps (h : Keeps F s t) (x_c) (temps) (p_mc : F .mc := by assumption) (p_bw : F .bw := by assumption)
    (p_fc : F .fc := by assumption) : Keeps F s (dimmTempRead x_c temps t) := by
  unfold dimmTempRead
  try dsimp only
  repeat' first
    | with_reducible assumption | with_reducible refine State.hot_keeps ?_ _ _ _ _
    | with_reducible refine State.settleRef_keeps ?_ _ _ | with_reducible refine State.modChan_keeps ?_ _ _
    | with_reducible refine State.report_keeps ?_ _ _ _ | with_reducible refine State.rescale_keeps ?_
    | with_reducible refine Keeps.foldl (fun _ _ _ => ?_) _ ?_ | with_reducible refine Keeps.foldlP (fun _ _ _ => ?_) _ ?_
    | with_reducible refine Keeps.ite (fun _ => ?_) (fun _ => ?_) | with_reducible refine Keeps.iteP (fun _ => ?_) (fun _ => ?_)
    | split | dsimp only | intro _

theorem State.trained_keeps (h : Keeps F s t) (failed) (p_out : F .out := by assumption) (p_fresh : F .fresh := by assumption)
    (p_dram : F .dram := by assumption) (p_hp : F .hp := by assumption) (p_rr : F .rr := by assumption)
    (p_rg : F .rg := by assumption) (p_ns : F .ns := by assumption) (p_tr : F .tr := by assumption)
    (p_cd : F .cd := by assumption) (p_lp : F .lp := by assumption) (p_sx : F .sx := by assumption)
    (p_mc : F .mc := by assumption) (p_bw : F .bw := by assumption) (p_fc : F .fc := by assumption)
    (p_ck : F .ck := by assumption) (p_pm : F .pm := by assumption) : Keeps F s (State.trained t failed) := by
  unfold State.trained
  try dsimp only
  repeat' first
    | with_reducible assumption | with_reducible refine State.fence_keeps ?_ _ _ | with_reducible refine State.report_keeps ?_ _ _ _
    | with_reducible refine State.modChan_keeps ?_ _ _ | with_reducible refine Keeps.foldl (fun _ _ _ => ?_) _ ?_
    | with_reducible refine Keeps.foldlP (fun _ _ _ => ?_) _ ?_ | with_reducible refine Keeps.ite (fun _ => ?_) (fun _ => ?_)
    | with_reducible refine Keeps.iteP (fun _ => ?_) (fun _ => ?_) | split | dsimp only | intro _

theorem mcCtl_keeps (h : Keeps F s t) (a1) (a2) (p_out : F .out := by assumption) (p_fresh : F .fresh := by assumption)
    (p_dram : F .dram := by assumption) (p_hp : F .hp := by assumption) (p_rr : F .rr := by assumption)
    (p_rg : F .rg := by assumption) (p_ns : F .ns := by assumption) (p_tr : F .tr := by assumption)
    (p_cd : F .cd := by assumption) (p_lp : F .lp := by assumption) (p_sx : F .sx := by assumption)
    (p_mc : F .mc := by assumption) (p_bw : F .bw := by assumption) (p_mb : F .mb := by assumption)
    (p_fc : F .fc := by assumption) (p_ck : F .ck := by assumption) (p_pm : F .pm := by assumption)
    : Keeps F s (mcCtl a1 a2 t).1 := by
  unfold mcCtl
  try dsimp only
  repeat' first
    | with_reducible assumption | with_reducible refine State.direct_keeps ?_ _ _ _ _ _
    | with_reducible refine State.modChan_keeps ?_ _ _ | with_reducible refine State.fence_keeps ?_ _ _
    | with_reducible refine State.answerRetrain_keeps ?_ _ _ | with_reducible refine State.speedGo_keeps ?_
    | with_reducible refine State.startBg_keeps ?_ _ _ _ _ _ _ | with_reducible refine State.trigger_keeps ?_ _
    | with_reducible refine Keeps.ite (fun _ => ?_) (fun _ => ?_) | with_reducible refine Keeps.iteP (fun _ => ?_) (fun _ => ?_)
    | simp only [keeps_upd, p_out, p_fresh, p_dram, p_hp, p_rr, p_rg, p_ns, p_tr, p_cd, p_lp, p_sx, p_mc, p_bw, p_mb, p_fc, p_ck, p_pm, or_true, true_or, length_lmod, length_lset, List.length_map]
    | split | dsimp only | intro _

theorem mcSpeed_keeps (h : Keeps F s t) (a1) (a2) (p_out : F .out := by assumption) (p_fresh : F .fresh := by assumption)
    (p_dram : F .dram := by assumption) (p_hp : F .hp := by assumption) (p_rr : F .rr := by assumption)
    (p_rg : F .rg := by assumption) (p_ns : F .ns := by assumption) (p_tr : F .tr := by assumption)
    (p_cd : F .cd := by assumption) (p_lp : F .lp := by assumption) (p_sx : F .sx := by assumption)
    (p_mc : F .mc := by assumption) (p_bw : F .bw := by assumption) (p_mb : F .mb := by assumption)
    (p_fc : F .fc := by assumption) (p_pm : F .pm := by assumption) : Keeps F s (mcSpeed a1 a2 t).1 := by
  unfold mcSpeed
  try dsimp only
  repeat' first
    | with_reducible assumption | with_reducible refine State.direct_keeps ?_ _ _ _ _ _
    | with_reducible refine State.startBg_keeps ?_ _ _ _ _ _ _ | with_reducible refine State.speedGo_keeps ?_
    | with_reducible refine Keeps.ite (fun _ => ?_) (fun _ => ?_) | with_reducible refine Keeps.iteP (fun _ => ?_) (fun _ => ?_)
    | simp only [keeps_upd, p_out, p_fresh, p_dram, p_hp, p_rr, p_rg, p_ns, p_tr, p_cd, p_lp, p_sx, p_mc, p_bw, p_mb, p_fc, p_pm, or_true, true_or, length_lmod, length_lset, List.length_map]
    | split | dsimp only | intro _

theorem State.selfRefresh_keeps (h : Keeps F s t) (p_mc : F .mc := by assumption) : Keeps F s t.selfRefresh := by
  unfold State.selfRefresh
  repeat' first
    | with_reducible assumption | intro _ | with_reducible refine State.modChan_keeps ?_ _ _
    | with_reducible refine Keeps.foldl (fun _ _ _ => ?_) _ ?_ | with_reducible refine Keeps.ite (fun _ => ?_) (fun _ => ?_)
    | simp only [keeps_upd, p_mc, or_true, true_or, length_lmod, length_lset, List.length_map]

theorem State.leaveSelfRefresh_keeps (h : Keeps F s t) (p_mc : F .mc := by assumption) : Keeps F s t.leaveSelfRefresh := by
  unfold State.leaveSelfRefresh
  repeat' first
    | with_reducible assumption | intro _ | with_reducible refine State.modChan_keeps ?_ _ _
    | with_reducible refine Keeps.foldl (fun _ _ _ => ?_) _ ?_ | with_reducible refine Keeps.ite (fun _ => ?_) (fun _ => ?_)
    | simp only [keeps_upd, p_mc, or_true, true_or, length_lmod, length_lset, List.length_map]

end Sys2Proof.Machine
end

