-- ==== Sys2Proof/Laws/KeepsMediaLoss.lean ====
section
/-! SUPPORT. What each operation of Machine/MediaLoss.lean keeps: media loss. -/

set_option Elab.async false

set_option linter.all false

namespace Sys2Proof.Machine
open Sys2Proof

variable {F : Part → Prop} {s t : State}

theorem State.zeroFetches_keeps (h : Keeps F s t) (p_out : F .out := by assumption) (p_fresh : F .fresh := by assumption) (p_dram : F .dram := by assumption) (p_hp : F .hp := by assumption) (p_rr : F .rr := by assumption) (p_rg : F .rg := by assumption) (p_ns : F .ns := by assumption) (p_tr : F .tr := by assumption) (p_cd : F .cd := by assumption) (p_lp : F .lp := by assumption) (p_sx : F .sx := by assumption) (p_mc : F .mc := by assumption) (p_bw : F .bw := by assumption) (p_fc : F .fc := by assumption) (p_pm : F .pm := by assumption) : Keeps F s t.zeroFetches := by
  unfold State.zeroFetches
  repeat' first
    | with_reducible assumption | intro _ | with_reducible refine State.finishFetch_keeps ?_ _ _ _ _
    | with_reducible refine Keeps.foldl (fun _ _ _ => ?_) _ ?_

theorem State.ceMediaLost_keeps (h : Keeps F s t) (p_ce : F .ce := by assumption) (p_fc : F .fc := by assumption) :
    Keeps F s t.ceMediaLost := by
  unfold State.ceMediaLost
  repeat' first
    | with_reducible assumption | with_reducible refine State.report_keeps ?_ _ _ _
    | simp only [keeps_upd, p_ce, p_fc, or_true, true_or, length_lmod, length_lset, List.length_map]

theorem State.mediaLost_keeps (h : Keeps F s t) (p_out : F .out := by assumption) (p_fresh : F .fresh := by assumption) (p_dram : F .dram := by assumption) (p_hp : F .hp := by assumption) (p_rr : F .rr := by assumption) (p_rg : F .rg := by assumption) (p_ns : F .ns := by assumption) (p_tr : F .tr := by assumption) (p_cd : F .cd := by assumption) (p_lp : F .lp := by assumption) (p_sx : F .sx := by assumption) (p_mc : F .mc := by assumption) (p_bw : F .bw := by assumption) (p_qe : F .qe := by assumption) (p_sc : F .sc := by assumption) (p_ce : F .ce := by assumption) (p_fc : F .fc := by assumption) (p_pm : F .pm := by assumption) : Keeps F s t.mediaLost := by
  unfold State.mediaLost
  try dsimp only
  repeat' first
    | with_reducible assumption | with_reducible refine State.zeroFetches_keeps ?_ | with_reducible refine State.ceMediaLost_keeps ?_
    | with_reducible refine State.qeMediaLost_keeps ?_
    | simp only [keeps_upd, p_out, p_fresh, p_dram, p_hp, p_rr, p_rg, p_ns, p_tr, p_cd, p_lp, p_sx, p_mc, p_bw, p_qe, p_sc, p_ce, p_fc, p_pm, or_true, true_or, length_lmod, length_lset, List.length_map]
    | with_reducible refine Keeps.updCells ?_ (fun _ => rfl)

theorem State.sweepLost_keeps (h : Keeps F s t) (p_out : F .out := by assumption) (p_hp : F .hp := by assumption) (p_sx : F .sx := by assumption) (p_mb : F .mb := by assumption) (p_ck : F .ck := by assumption) (p_pm : F .pm := by assumption) :
    Keeps F s t.sweepLost := by
  unfold State.sweepLost
  repeat' first
    | with_reducible assumption | intro _ | with_reducible refine State.endOp_keeps ?_ _ _ _
    | with_reducible refine State.setDomain_keeps ?_ _ _ | with_reducible refine Keeps.foldl (fun _ _ _ => ?_) _ ?_
    | simp only [keeps_upd, p_out, p_hp, p_sx, p_mb, p_ck, p_pm, or_true, true_or, length_lmod, length_lset, List.length_map]

theorem State.keyLost_keeps (h : Keeps F s t) (p_out : F .out := by assumption) (p_fresh : F .fresh := by assumption) (p_dram : F .dram := by assumption) (p_hp : F .hp := by assumption) (p_rr : F .rr := by assumption) (p_rg : F .rg := by assumption) (p_ns : F .ns := by assumption) (p_tr : F .tr := by assumption) (p_cd : F .cd := by assumption) (p_lp : F .lp := by assumption) (p_sx : F .sx := by assumption) (p_mc : F .mc := by assumption) (p_bw : F .bw := by assumption) (p_qe : F .qe := by assumption) (p_sc : F .sc := by assumption) (p_ce : F .ce := by assumption) (p_mb : F .mb := by assumption) (p_fc : F .fc := by assumption) (p_ck : F .ck := by assumption) (p_pm : F .pm := by assumption) : Keeps F s t.keyLost := by
  unfold State.keyLost
  try dsimp only
  repeat' first
    | with_reducible assumption | intro _ | with_reducible refine State.drawKey_keeps ?_ _
    | with_reducible refine State.report_keeps ?_ _ _ _ | with_reducible refine State.mediaLost_keeps ?_
    | with_reducible refine State.sweepLost_keeps ?_ | with_reducible refine Keeps.ite (fun _ => ?_) (fun _ => ?_)
    | with_reducible refine Keeps.iteP (fun _ => ?_) (fun _ => ?_)
    | simp only [keeps_upd, p_out, p_fresh, p_dram, p_hp, p_rr, p_rg, p_ns, p_tr, p_cd, p_lp, p_sx, p_mc, p_bw, p_qe, p_sc, p_ce, p_mb, p_fc, p_ck, p_pm, or_true, true_or, length_lmod, length_lset, List.length_map]

theorem State.checkKey_keeps (h : Keeps F s t) (bad) (p_out : F .out := by assumption) (p_fresh : F .fresh := by assumption)
    (p_dram : F .dram := by assumption) (p_hp : F .hp := by assumption) (p_rr : F .rr := by assumption)
    (p_rg : F .rg := by assumption) (p_ns : F .ns := by assumption) (p_tr : F .tr := by assumption)
    (p_cd : F .cd := by assumption) (p_lp : F .lp := by assumption) (p_sx : F .sx := by assumption)
    (p_mc : F .mc := by assumption) (p_bw : F .bw := by assumption) (p_qe : F .qe := by assumption)
    (p_sc : F .sc := by assumption) (p_ce : F .ce := by assumption) (p_mb : F .mb := by assumption)
    (p_fc : F .fc := by assumption) (p_ck : F .ck := by assumption) (p_pm : F .pm := by assumption)
    : Keeps F s (State.checkKey t bad).1 := by
  unfold State.checkKey
  try dsimp only
  repeat' first
    | with_reducible assumption | with_reducible refine State.report_keeps ?_ _ _ _ | with_reducible refine State.keyLost_keeps ?_
    | with_reducible refine Keeps.ite (fun _ => ?_) (fun _ => ?_) | with_reducible refine Keeps.iteP (fun _ => ?_) (fun _ => ?_)
    | simp only [keeps_upd, p_out, p_fresh, p_dram, p_hp, p_rr, p_rg, p_ns, p_tr, p_cd, p_lp, p_sx, p_mc, p_bw, p_qe, p_sc, p_ce, p_mb, p_fc, p_ck, p_pm, or_true, true_or, length_lmod, length_lset, List.length_map]
    | split | dsimp only | intro _

theorem keyCheck_keeps (h : Keeps F s t) (bad) (p_out : F .out := by assumption) (p_fresh : F .fresh := by assumption)
    (p_dram : F .dram := by assumption) (p_hp : F .hp := by assumption) (p_rr : F .rr := by assumption)
    (p_rg : F .rg := by assumption) (p_ns : F .ns := by assumption) (p_tr : F .tr := by assumption)
    (p_cd : F .cd := by assumption) (p_lp : F .lp := by assumption) (p_sx : F .sx := by assumption)
    (p_mc : F .mc := by assumption) (p_bw : F .bw := by assumption) (p_qe : F .qe := by assumption)
    (p_sc : F .sc := by assumption) (p_ce : F .ce := by assumption) (p_mb : F .mb := by assumption)
    (p_fc : F .fc := by assumption) (p_pw : F .pw := by assumption) (p_ck : F .ck := by assumption)
    (p_pm : F .pm := by assumption) : Keeps F s (keyCheck bad t) := by
  unfold keyCheck
  try dsimp only
  repeat' first
    | with_reducible assumption | with_reducible refine State.checkKey_keeps ?_ _
    | with_reducible refine Keeps.ite (fun _ => ?_) (fun _ => ?_) | with_reducible refine Keeps.iteP (fun _ => ?_) (fun _ => ?_)
    | simp only [keeps_upd, p_out, p_fresh, p_dram, p_hp, p_rr, p_rg, p_ns, p_tr, p_cd, p_lp, p_sx, p_mc, p_bw, p_qe, p_sc, p_ce, p_mb, p_fc, p_pw, p_ck, p_pm, or_true, true_or, length_lmod, length_lset, List.length_map]
    | split | dsimp only | intro _

end Sys2Proof.Machine
end

