-- ==== Sys2Proof/Laws/KeepsPort.lean ====
section
/-! SUPPORT. What each operation of Machine/Port.lean keeps: the host ports. -/

set_option Elab.async false

set_option linter.all false

namespace Sys2Proof.Machine
open Sys2Proof

variable {F : Part → Prop} {s t : State}

theorem State.ioAccess_keeps (h : Keeps F s t) (f : Nat) (g : State → State) (hg : ∀ u, Keeps F s u → Keeps F s (g u))
    (p_pw : F .pw := by assumption) :
    Keeps F s (State.ioAccess t f g) :=
  Keeps.ite (fun _ => hg _ (State.beginWake_keeps h _)) (fun _ => h)

theorem State.badAccess_keeps (h : Keeps F s t) (f) (off) (v) (p_fc : F .fc := by assumption)
    : Keeps F s (State.badAccess t f off v) := by
  unfold State.badAccess
  try dsimp only
  repeat' first
    | with_reducible assumption | with_reducible refine State.report_keeps ?_ _ _ _ | intro _

theorem fcrDoorbell_keeps (h : Keeps F s t) (f) (value) (p_out : F .out := by assumption) (p_hp : F .hp := by assumption)
    (p_fc : F .fc := by assumption) (p_pw : F .pw := by assumption) (p_ck : F .ck := by assumption)
    (p_pm : F .pm := by assumption) : Keeps F s (fcrDoorbell f value t) := by
  unfold fcrDoorbell
  try dsimp only
  repeat' first
    | with_reducible assumption | with_reducible refine State.badAccess_keeps ?_ _ _ _
    | with_reducible refine State.leaveIdle_keeps ?_ | with_reducible refine State.modFn_keeps ?_ _ _
    | with_reducible refine State.fetchRing_keeps ?_ _ | with_reducible refine Keeps.ite (fun _ => ?_) (fun _ => ?_)
    | with_reducible refine Keeps.iteP (fun _ => ?_) (fun _ => ?_) | split | dsimp only | intro _

theorem freeCons_keeps (h : Keeps F s t) (f) (m) (value) (p_hp : F .hp := by assumption) (p_fc : F .fc := by assumption)
    : Keeps F s (freeCons f m value t) := by
  unfold freeCons
  try dsimp only
  repeat' first
    | with_reducible assumption | with_reducible refine State.badAccess_keeps ?_ _ _ _
    | with_reducible refine State.modFree_keeps ?_ _ _ _ | with_reducible refine Keeps.ite (fun _ => ?_) (fun _ => ?_)
    | with_reducible refine Keeps.iteP (fun _ => ?_) (fun _ => ?_) | split | dsimp only | intro _

theorem egressCons_keeps (h : Keeps F s t) (f) (n) (value) (p_hp : F .hp := by assumption) (p_sc : F .sc := by assumption)
    (p_fc : F .fc := by assumption) (p_pm : F .pm := by assumption) : Keeps F s (egressCons f n value t) := by
  unfold egressCons
  try dsimp only
  repeat' first
    | with_reducible assumption | with_reducible refine State.badAccess_keeps ?_ _ _ _
    | with_reducible refine State.modEgress_keeps ?_ _ _ _ | with_reducible refine State.schedSync_keeps ?_
    | with_reducible refine Keeps.ite (fun _ => ?_) (fun _ => ?_) | with_reducible refine Keeps.iteP (fun _ => ?_) (fun _ => ?_)
    | split | dsimp only | intro _

theorem fcrFetchError_keeps (h : Keeps F s t) (f) (p_hp : F .hp := by assumption) (p_fc : F .fc := by assumption)
    : Keeps F s (fcrFetchError f t) := by
  unfold fcrFetchError
  try dsimp only
  repeat' first
    | with_reducible assumption | with_reducible refine State.modFn_keeps ?_ _ _ | with_reducible refine State.report_keeps ?_ _ _ _
    | with_reducible refine Keeps.ite (fun _ => ?_) (fun _ => ?_) | with_reducible refine Keeps.iteP (fun _ => ?_) (fun _ => ?_)
    | split | dsimp only | intro _

theorem intCauseWrite_keeps (h : Keeps F s t) (f) (value) (p_hp : F .hp := by assumption) : Keeps F s (intCauseWrite f value t) := by
  unfold intCauseWrite
  try dsimp only
  repeat' first
    | with_reducible assumption | with_reducible refine State.modFn_keeps ?_ _ _ | dsimp only | intro _

theorem intEnableWrite_keeps (h : Keeps F s t) (f) (value) (p_hp : F .hp := by assumption)
    : Keeps F s (intEnableWrite f value t) := by
  unfold intEnableWrite
  try dsimp only
  repeat' first
    | with_reducible assumption | with_reducible refine State.modFn_keeps ?_ _ _ | dsimp only | intro _

theorem msixUnmask_keeps (h : Keeps F s t) (f) (vector) (p_out : F .out := by assumption) (p_hp : F .hp := by assumption)
    : Keeps F s (msixUnmask f vector t) := by
  unfold msixUnmask
  try dsimp only
  repeat' first
    | with_reducible assumption | with_reducible refine State.modFn_keeps ?_ _ _
    | with_reducible refine State.flushVectors_keeps ?_ _ | split | dsimp only | intro _

theorem State.resumeFn_keeps (h : Keeps F s t) (f) (p_out : F .out := by assumption) (p_hp : F .hp := by assumption)
    (p_sc : F .sc := by assumption) (p_pm : F .pm := by assumption) : Keeps F s (State.resumeFn t f) := by
  unfold State.resumeFn
  try dsimp only
  repeat' first
    | with_reducible assumption | with_reducible refine State.flushVectors_keeps ?_ _
    | with_reducible refine State.flushWrites_keeps ?_ _ | with_reducible refine State.fetchRing_keeps ?_ _
    | with_reducible refine State.schedSync_keeps ?_ | intro _

theorem bmeSet_keeps (h : Keeps F s t) (f) (p_out : F .out := by assumption) (p_hp : F .hp := by assumption)
    (p_sc : F .sc := by assumption) (p_pm : F .pm := by assumption) : Keeps F s (bmeSet f t) := by
  unfold bmeSet
  try dsimp only
  repeat' first
    | with_reducible assumption | with_reducible refine State.modFn_keeps ?_ _ _ | with_reducible refine State.resumeFn_keeps ?_ _
    | dsimp only | intro _

theorem bmeClear_keeps (h : Keeps F s t) (f) (p_hp : F .hp := by assumption) (p_qe : F .qe := by assumption)
    (p_sc : F .sc := by assumption) (p_pm : F .pm := by assumption) : Keeps F s (bmeClear f t) := by
  unfold bmeClear
  try dsimp only
  repeat' first
    | with_reducible assumption | with_reducible refine State.modFn_keeps ?_ _ _
    | with_reducible refine State.stallPushes_keeps ?_ _ | with_reducible refine State.schedSync_keeps ?_ | dsimp only | intro _

theorem decoderCommit_keeps (h : Keeps F s t) (f) (index) (d) (p_hp : F .hp := by assumption) (p_fc : F .fc := by assumption)
    : Keeps F s (decoderCommit f index d t) := by
  unfold decoderCommit
  try dsimp only
  repeat' first
    | with_reducible assumption | with_reducible refine State.modFn_keeps ?_ _ _ | with_reducible refine State.report_keeps ?_ _ _ _
    | with_reducible refine Keeps.ite (fun _ => ?_) (fun _ => ?_) | with_reducible refine Keeps.iteP (fun _ => ?_) (fun _ => ?_)
    | split | dsimp only | intro _

theorem decoderUncommit_keeps (h : Keeps F s t) (f) (index) (p_hp : F .hp := by assumption)
    : Keeps F s (decoderUncommit f index t) := by
  unfold decoderUncommit
  try dsimp only
  repeat' first
    | with_reducible assumption | with_reducible refine State.modFn_keeps ?_ _ _
    | with_reducible refine Keeps.ite (fun _ => ?_) (fun _ => ?_) | with_reducible refine Keeps.iteP (fun _ => ?_) (fun _ => ?_)
    | split | dsimp only | intro _

theorem State.windowIn_keeps (h : Keeps F s t) (x) (p_out : F .out := by assumption) (p_hp : F .hp := by assumption)
    (p_qe : F .qe := by assumption) (p_ce : F .ce := by assumption) (p_mb : F .mb := by assumption)
    (p_fc : F .fc := by assumption) (p_pm : F .pm := by assumption) : Keeps F s (State.windowIn t x) := by
  unfold State.windowIn
  try dsimp only
  repeat' first
    | with_reducible assumption | with_reducible refine State.count_keeps ?_ _ _ _
    | with_reducible refine State.qeMalf_keeps ?_ _ _ _ _ | with_reducible refine State.ceMalf_keeps ?_ _ _ _ _
    | with_reducible refine State.emit_keeps ?_ _ | with_reducible refine State.modPort_keeps ?_ _ _
    | with_reducible refine Keeps.ite (fun _ => ?_) (fun _ => ?_) | with_reducible refine Keeps.iteP (fun _ => ?_) (fun _ => ?_)
    | split | dsimp only | intro _

theorem State.windowEnter_keeps (h : Keeps F s t) (x) (p_out : F .out := by assumption) (p_hp : F .hp := by assumption)
    (p_qe : F .qe := by assumption) (p_ce : F .ce := by assumption) (p_mb : F .mb := by assumption)
    (p_fc : F .fc := by assumption) (p_pm : F .pm := by assumption) : Keeps F s (State.windowEnter t x) := by
  unfold State.windowEnter
  try dsimp only
  repeat' first
    | with_reducible assumption | with_reducible refine State.modPort_keeps ?_ _ _ | with_reducible refine State.windowIn_keeps ?_ _
    | with_reducible refine Keeps.ite (fun _ => ?_) (fun _ => ?_) | with_reducible refine Keeps.iteP (fun _ => ?_) (fun _ => ?_)
    | split | dsimp only | intro _

theorem State.takeStalled_keeps (h : Keeps F s t) (port) (p_out : F .out := by assumption) (p_hp : F .hp := by assumption)
    (p_qe : F .qe := by assumption) (p_ce : F .ce := by assumption) (p_mb : F .mb := by assumption)
    (p_fc : F .fc := by assumption) (p_pm : F .pm := by assumption) : Keeps F s (State.takeStalled t port) := by
  unfold State.takeStalled
  try dsimp only
  repeat' first
    | with_reducible assumption | with_reducible refine State.windowEnter_keeps ?_ _
    | with_reducible refine State.modPort_keeps ?_ _ _ | with_reducible refine Keeps.foldl (fun _ _ _ => ?_) _ ?_
    | with_reducible refine Keeps.foldlP (fun _ _ _ => ?_) _ ?_ | with_reducible refine Keeps.ite (fun _ => ?_) (fun _ => ?_)
    | with_reducible refine Keeps.iteP (fun _ => ?_) (fun _ => ?_) | split | dsimp only | intro _

theorem windowWrite_keeps (h : Keeps F s t) (x) (p_out : F .out := by assumption) (p_hp : F .hp := by assumption)
    (p_qe : F .qe := by assumption) (p_ce : F .ce := by assumption) (p_mb : F .mb := by assumption)
    (p_fc : F .fc := by assumption) (p_pm : F .pm := by assumption) : Keeps F s (windowWrite x t) := by
  unfold windowWrite
  try dsimp only
  repeat' first
    | with_reducible assumption | with_reducible refine State.takeStalled_keeps ?_ _
    | with_reducible refine State.windowEnter_keeps ?_ _ | intro _

theorem State.peerPath_keeps (h : Keeps F s t) (f) (p_out : F .out := by assumption) (p_hp : F .hp := by assumption)
    : Keeps F s (State.peerPath t f) := by
  unfold State.peerPath
  try dsimp only
  repeat' first
    | with_reducible assumption | with_reducible refine State.cause_keeps ?_ _ _
    | with_reducible refine Keeps.foldl (fun _ _ _ => ?_) _ ?_ | with_reducible refine Keeps.foldlP (fun _ _ _ => ?_) _ ?_
    | dsimp only | intro _

theorem State.dropReads_keeps (h : Keeps F s t) (f) (p_rr : F .rr := by assumption) : Keeps F s (State.dropReads t f) := by
  unfold State.dropReads
  try dsimp only
  repeat' first
    | with_reducible assumption | simp only [keeps_upd, p_rr, or_true, true_or, length_lmod, length_lset, List.length_map]
    | dsimp only | intro _

theorem State.dropHeld_keeps (h : Keeps F s t) (f) (p_hp : F .hp := by assumption) (p_rr : F .rr := by assumption)
    : Keeps F s (State.dropHeld t f) := by
  unfold State.dropHeld
  try dsimp only
  repeat' first
    | with_reducible assumption | with_reducible refine State.modFn_keeps ?_ _ _ | with_reducible refine State.tied_keeps ?_ _
    | with_reducible refine State.dropReads_keeps ?_ _
    | simp only [keeps_upd, p_hp, p_rr, or_true, true_or, length_lmod, length_lset, List.length_map] | dsimp only | intro _

theorem State.clearRings_keeps (h : Keeps F s t) (f) (keep) (p_hp : F .hp := by assumption) (p_qe : F .qe := by assumption)
    (p_sc : F .sc := by assumption) (p_ce : F .ce := by assumption) (p_fc : F .fc := by assumption)
    (p_pm : F .pm := by assumption) : Keeps F s (State.clearRings t f keep) := by
  unfold State.clearRings
  try dsimp only
  repeat' first
    | with_reducible assumption | with_reducible refine State.discardPushes_keeps ?_ _
    | with_reducible refine State.dropFreeRing_keeps ?_ _ _ _ | with_reducible refine State.dropEgress_keeps ?_ _ _
    | with_reducible refine State.modFn_keeps ?_ _ _ | with_reducible refine Keeps.foldl (fun _ _ _ => ?_) _ ?_
    | with_reducible refine Keeps.foldlP (fun _ _ _ => ?_) _ ?_ | with_reducible refine Keeps.ite (fun _ => ?_) (fun _ => ?_)
    | with_reducible refine Keeps.iteP (fun _ => ?_) (fun _ => ?_) | split | dsimp only | intro _

theorem State.linkReset_keeps (h : Keeps F s t) (f) (x) (p_out : F .out := by assumption) (p_fresh : F .fresh := by assumption)
    (p_dram : F .dram := by assumption) (p_hp : F .hp := by assumption) (p_rr : F .rr := by assumption)
    (p_rg : F .rg := by assumption) (p_ns : F .ns := by assumption) (p_tr : F .tr := by assumption)
    (p_cd : F .cd := by assumption) (p_lp : F .lp := by assumption) (p_sx : F .sx := by assumption)
    (p_mc : F .mc := by assumption) (p_bw : F .bw := by assumption) (p_qe : F .qe := by assumption)
    (p_sc : F .sc := by assumption) (p_ce : F .ce := by assumption) (p_mb : F .mb := by assumption)
    (p_fc : F .fc := by assumption) (p_pm : F .pm := by assumption) : Keeps F s (State.linkReset t f x) := by
  unfold State.linkReset
  try dsimp only
  repeat' first
    | with_reducible assumption | with_reducible refine State.clearRings_keeps ?_ _ _
    | with_reducible refine State.modFn_keeps ?_ _ _ | with_reducible refine State.dropHeld_keeps ?_ _
    | with_reducible refine State.endSessionsOf_keeps ?_ _ | with_reducible refine State.snoopsGone_keeps ?_ _
    | with_reducible refine State.schedSync_keeps ?_ | with_reducible refine Keeps.ite (fun _ => ?_) (fun _ => ?_)
    | with_reducible refine Keeps.iteP (fun _ => ?_) (fun _ => ?_) | split | dsimp only | intro _

theorem State.linkGoes_keeps (h : Keeps F s t) (f) (x) (p_out : F .out := by assumption) (p_fresh : F .fresh := by assumption)
    (p_dram : F .dram := by assumption) (p_hp : F .hp := by assumption) (p_rr : F .rr := by assumption)
    (p_rg : F .rg := by assumption) (p_ns : F .ns := by assumption) (p_tr : F .tr := by assumption)
    (p_cd : F .cd := by assumption) (p_lp : F .lp := by assumption) (p_sx : F .sx := by assumption)
    (p_mc : F .mc := by assumption) (p_bw : F .bw := by assumption) (p_qe : F .qe := by assumption)
    (p_sc : F .sc := by assumption) (p_ce : F .ce := by assumption) (p_mb : F .mb := by assumption)
    (p_fc : F .fc := by assumption) (p_pm : F .pm := by assumption) : Keeps F s (State.linkGoes t f x) := by
  unfold State.linkGoes
  try dsimp only
  repeat' first
    | with_reducible assumption | with_reducible refine State.linkReset_keeps ?_ _ _
    | with_reducible refine State.flashShadow_keeps ?_ _ _ | with_reducible refine State.report_keeps ?_ _ _ _
    | with_reducible refine State.peerPath_keeps ?_ _ | with_reducible refine Keeps.ite (fun _ => ?_) (fun _ => ?_)
    | with_reducible refine Keeps.iteP (fun _ => ?_) (fun _ => ?_) | split | dsimp only | intro _

theorem perstAssert_keeps (h : Keeps F s t) (port) (p_out : F .out := by assumption) (p_fresh : F .fresh := by assumption)
    (p_dram : F .dram := by assumption) (p_hp : F .hp := by assumption) (p_rr : F .rr := by assumption)
    (p_rg : F .rg := by assumption) (p_ns : F .ns := by assumption) (p_tr : F .tr := by assumption)
    (p_cd : F .cd := by assumption) (p_lp : F .lp := by assumption) (p_sx : F .sx := by assumption)
    (p_mc : F .mc := by assumption) (p_bw : F .bw := by assumption) (p_qe : F .qe := by assumption)
    (p_sc : F .sc := by assumption) (p_ce : F .ce := by assumption) (p_mb : F .mb := by assumption)
    (p_fc : F .fc := by assumption) (p_pm : F .pm := by assumption) : Keeps F s (perstAssert port t) := by
  unfold perstAssert
  try dsimp only
  repeat' first
    | with_reducible assumption | with_reducible refine State.linkGoes_keeps ?_ _ _
    | with_reducible refine State.modPort_keeps ?_ _ _ | with_reducible refine Keeps.foldl (fun _ _ _ => ?_) _ ?_
    | with_reducible refine Keeps.foldlP (fun _ _ _ => ?_) _ ?_ | with_reducible refine Keeps.ite (fun _ => ?_) (fun _ => ?_)
    | with_reducible refine Keeps.iteP (fun _ => ?_) (fun _ => ?_) | split | dsimp only | intro _

theorem perstRelease_keeps (h : Keeps F s t) (port) (p_hp : F .hp := by assumption) (p_pw : F .pw := by assumption)
    (p_ck : F .ck := by assumption) : Keeps F s (perstRelease port t) := by
  unfold perstRelease
  try dsimp only
  repeat' first
    | with_reducible assumption | with_reducible refine State.modPort_keeps ?_ _ _
    | with_reducible refine State.beginWake_keeps ?_ _ | with_reducible refine Keeps.ite (fun _ => ?_) (fun _ => ?_)
    | with_reducible refine Keeps.iteP (fun _ => ?_) (fun _ => ?_)
    | simp only [keeps_upd, p_hp, p_pw, p_ck, or_true, true_or, length_lmod, length_lset, List.length_map] | split | dsimp only
    | intro _

theorem linkResetBy_keeps (h : Keeps F s t) (f) (x) (p_out : F .out := by assumption) (p_fresh : F .fresh := by assumption)
    (p_dram : F .dram := by assumption) (p_hp : F .hp := by assumption) (p_rr : F .rr := by assumption)
    (p_rg : F .rg := by assumption) (p_ns : F .ns := by assumption) (p_tr : F .tr := by assumption)
    (p_cd : F .cd := by assumption) (p_lp : F .lp := by assumption) (p_sx : F .sx := by assumption)
    (p_mc : F .mc := by assumption) (p_bw : F .bw := by assumption) (p_qe : F .qe := by assumption)
    (p_sc : F .sc := by assumption) (p_ce : F .ce := by assumption) (p_mb : F .mb := by assumption)
    (p_fc : F .fc := by assumption) (p_pm : F .pm := by assumption) : Keeps F s (linkResetBy f x t) := by
  unfold linkResetBy
  try dsimp only
  repeat' first
    | with_reducible assumption | with_reducible refine State.linkGoes_keeps ?_ _ _
    | with_reducible refine Keeps.ite (fun _ => ?_) (fun _ => ?_) | with_reducible refine Keeps.iteP (fun _ => ?_) (fun _ => ?_)
    | split | intro _

theorem surpriseDown_keeps (h : Keeps F s t) (f) (p_out : F .out := by assumption) (p_fresh : F .fresh := by assumption)
    (p_dram : F .dram := by assumption) (p_hp : F .hp := by assumption) (p_rr : F .rr := by assumption)
    (p_rg : F .rg := by assumption) (p_ns : F .ns := by assumption) (p_tr : F .tr := by assumption)
    (p_cd : F .cd := by assumption) (p_lp : F .lp := by assumption) (p_sx : F .sx := by assumption)
    (p_mc : F .mc := by assumption) (p_bw : F .bw := by assumption) (p_qe : F .qe := by assumption)
    (p_sc : F .sc := by assumption) (p_ce : F .ce := by assumption) (p_mb : F .mb := by assumption)
    (p_fc : F .fc := by assumption) (p_pm : F .pm := by assumption) : Keeps F s (surpriseDown f t) := by
  unfold surpriseDown
  try dsimp only
  repeat' first
    | with_reducible assumption | with_reducible refine State.modFn_keeps ?_ _ _ | with_reducible refine State.failPushes_keeps ?_ _
    | with_reducible refine State.dropHeld_keeps ?_ _ | with_reducible refine State.snoopsGone_keeps ?_ _
    | with_reducible refine State.schedSync_keeps ?_ | with_reducible refine State.flashShadow_keeps ?_ _ _
    | with_reducible refine State.report_keeps ?_ _ _ _ | with_reducible refine State.peerPath_keeps ?_ _
    | with_reducible refine Keeps.ite (fun _ => ?_) (fun _ => ?_) | with_reducible refine Keeps.iteP (fun _ => ?_) (fun _ => ?_)
    | split | dsimp only | intro _

theorem linkUp_keeps (h : Keeps F s t) (f) (x_c) (p_out : F .out := by assumption) (p_hp : F .hp := by assumption)
    (p_sc : F .sc := by assumption) (p_fc : F .fc := by assumption) (p_pm : F .pm := by assumption) : Keeps F s (linkUp f x_c t) := by
  unfold linkUp
  try dsimp only
  repeat' first
    | with_reducible assumption | with_reducible refine State.modFn_keeps ?_ _ _ | with_reducible refine State.report_keeps ?_ _ _ _
    | with_reducible refine State.peerPath_keeps ?_ _ | with_reducible refine State.resumeFn_keeps ?_ _
    | with_reducible refine Keeps.ite (fun _ => ?_) (fun _ => ?_) | with_reducible refine Keeps.iteP (fun _ => ?_) (fun _ => ?_)
    | split | dsimp only | intro _

theorem recoveryEntry_keeps (h : Keeps F s t) (f) (p_hp : F .hp := by assumption) : Keeps F s (recoveryEntry f t) := by
  unfold recoveryEntry
  try dsimp only
  repeat' first
    | with_reducible assumption | with_reducible refine State.modFn_keeps ?_ _ _
    | with_reducible refine Keeps.ite (fun _ => ?_) (fun _ => ?_) | with_reducible refine Keeps.iteP (fun _ => ?_) (fun _ => ?_)
    | split | dsimp only | intro _

theorem State.backToL0_keeps (h : Keeps F s t) (f) (p_out : F .out := by assumption) (p_fresh : F .fresh := by assumption)
    (p_dram : F .dram := by assumption) (p_hp : F .hp := by assumption) (p_rr : F .rr := by assumption)
    (p_rg : F .rg := by assumption) (p_ns : F .ns := by assumption) (p_tr : F .tr := by assumption)
    (p_cd : F .cd := by assumption) (p_lp : F .lp := by assumption) (p_sx : F .sx := by assumption)
    (p_mc : F .mc := by assumption) (p_bw : F .bw := by assumption) (p_sc : F .sc := by assumption)
    (p_ce : F .ce := by assumption) (p_mb : F .mb := by assumption) (p_fc : F .fc := by assumption)
    (p_pw : F .pw := by assumption) (p_pm : F .pm := by assumption) : Keeps F s (State.backToL0 t f) := by
  unfold State.backToL0
  try dsimp only
  repeat' first
    | with_reducible assumption | with_reducible refine State.modFn_keeps ?_ _ _
    | with_reducible refine State.flushAnswers_keeps ?_ _ | with_reducible refine State.resumeFn_keeps ?_ _
    | with_reducible refine State.releaseHeld_keeps ?_ _ | with_reducible refine State.admit_keeps ?_ | dsimp only | intro _

theorem recoveryExit_keeps (h : Keeps F s t) (f) (p_out : F .out := by assumption) (p_fresh : F .fresh := by assumption)
    (p_dram : F .dram := by assumption) (p_hp : F .hp := by assumption) (p_rr : F .rr := by assumption)
    (p_rg : F .rg := by assumption) (p_ns : F .ns := by assumption) (p_tr : F .tr := by assumption)
    (p_cd : F .cd := by assumption) (p_lp : F .lp := by assumption) (p_sx : F .sx := by assumption)
    (p_mc : F .mc := by assumption) (p_bw : F .bw := by assumption) (p_sc : F .sc := by assumption)
    (p_ce : F .ce := by assumption) (p_mb : F .mb := by assumption) (p_fc : F .fc := by assumption)
    (p_pw : F .pw := by assumption) (p_pm : F .pm := by assumption) : Keeps F s (recoveryExit f t) := by
  unfold recoveryExit
  try dsimp only
  repeat' first
    | with_reducible assumption | with_reducible refine State.backToL0_keeps ?_ _
    | with_reducible refine Keeps.ite (fun _ => ?_) (fun _ => ?_) | with_reducible refine Keeps.iteP (fun _ => ?_) (fun _ => ?_)
    | split | intro _

theorem functionReset_keeps (h : Keeps F s t) (f) (p_hp : F .hp := by assumption) (p_qe : F .qe := by assumption)
    (p_sc : F .sc := by assumption) (p_ce : F .ce := by assumption) (p_fc : F .fc := by assumption)
    (p_pm : F .pm := by assumption) : Keeps F s (functionReset f t) := by
  unfold functionReset
  try dsimp only
  repeat' first
    | with_reducible assumption | with_reducible refine State.clearRings_keeps ?_ _ _
    | with_reducible refine State.modFn_keeps ?_ _ _ | with_reducible refine State.schedSync_keeps ?_ | dsimp only | intro _

theorem cxlReset_keeps (h : Keeps F s t) (f) (p_out : F .out := by assumption) (p_fresh : F .fresh := by assumption)
    (p_dram : F .dram := by assumption) (p_hp : F .hp := by assumption) (p_rr : F .rr := by assumption)
    (p_rg : F .rg := by assumption) (p_ns : F .ns := by assumption) (p_tr : F .tr := by assumption)
    (p_cd : F .cd := by assumption) (p_lp : F .lp := by assumption) (p_sx : F .sx := by assumption)
    (p_mc : F .mc := by assumption) (p_bw : F .bw := by assumption) (p_sc : F .sc := by assumption)
    (p_ce : F .ce := by assumption) (p_mb : F .mb := by assumption) (p_fc : F .fc := by assumption)
    (p_pm : F .pm := by assumption) : Keeps F s (cxlReset f t) := by
  unfold cxlReset
  try dsimp only
  repeat' first
    | with_reducible assumption | with_reducible refine State.modFn_keeps ?_ _ _ | with_reducible refine State.snoopsGone_keeps ?_ _
    | with_reducible refine State.flushVectors_keeps ?_ _ | with_reducible refine State.flushWrites_keeps ?_ _
    | with_reducible refine State.schedSync_keeps ?_ | dsimp only | intro _

theorem hostViral_keeps (h : Keeps F s t) (f) (p_out : F .out := by assumption) (p_hp : F .hp := by assumption)
    (p_sc : F .sc := by assumption) (p_fc : F .fc := by assumption) (p_pm : F .pm := by assumption) : Keeps F s (hostViral f t) := by
  unfold hostViral
  try dsimp only
  repeat' first
    | with_reducible assumption | with_reducible refine State.goViral_keeps ?_ _ | with_reducible refine State.schedSync_keeps ?_
    | with_reducible refine Keeps.ite (fun _ => ?_) (fun _ => ?_) | with_reducible refine Keeps.iteP (fun _ => ?_) (fun _ => ?_)
    | split | intro _

theorem ideMacFailure_keeps (h : Keeps F s t) (f) (p_out : F .out := by assumption) (p_hp : F .hp := by assumption)
    (p_sc : F .sc := by assumption) (p_fc : F .fc := by assumption) (p_pm : F .pm := by assumption)
    : Keeps F s (ideMacFailure f t) := by
  unfold ideMacFailure
  try dsimp only
  repeat' first
    | with_reducible assumption | with_reducible refine State.modFn_keeps ?_ _ _ | with_reducible refine State.report_keeps ?_ _ _ _
    | with_reducible refine State.goViral_keeps ?_ _ | with_reducible refine State.schedSync_keeps ?_
    | with_reducible refine Keeps.ite (fun _ => ?_) (fun _ => ?_) | with_reducible refine Keeps.iteP (fun _ => ?_) (fun _ => ?_)
    | split | dsimp only | intro _

theorem spdm_keeps (h : Keeps F s t) (f) (m) (p_out : F .out := by assumption) (p_hp : F .hp := by assumption)
    : Keeps F s (spdm f m t) := by
  unfold spdm
  try dsimp only
  repeat' first
    | with_reducible assumption | with_reducible refine State.emit_keeps ?_ _ | with_reducible refine State.modFn_keeps ?_ _ _
    | with_reducible refine Keeps.ite (fun _ => ?_) (fun _ => ?_) | with_reducible refine Keeps.iteP (fun _ => ?_) (fun _ => ?_)
    | split | dsimp only | intro _

theorem flitError_keeps (h : Keeps F s t) (f) (p_out : F .out := by assumption) (p_hp : F .hp := by assumption)
    (p_fc : F .fc := by assumption) (p_pm : F .pm := by assumption) : Keeps F s (flitError f t) := by
  unfold flitError
  try dsimp only
  repeat' first
    | with_reducible assumption | with_reducible refine State.modFn_keeps ?_ _ _ | with_reducible refine State.emit_keeps ?_ _
    | with_reducible refine State.count_keeps ?_ _ _ _ | with_reducible refine State.report_keeps ?_ _ _ _
    | with_reducible refine Keeps.ite (fun _ => ?_) (fun _ => ?_) | with_reducible refine Keeps.iteP (fun _ => ?_) (fun _ => ?_)
    | split | dsimp only | intro _

end Sys2Proof.Machine
end

