-- ==== Sys2Proof/Laws/KeepsFaults.lean ====
section
/-! SUPPORT. What each operation of Machine/Faults.lean keeps: fault handling. -/

set_option Elab.async false

set_option linter.all false

namespace Sys2Proof.Machine
open Sys2Proof

variable {F : Part → Prop} {s t : State}

theorem State.modSrc_keeps (h : Keeps F s t) (k) (g) (p_fc : F .fc := by assumption) : Keeps F s (State.modSrc t k g) := by
  unfold State.modSrc
  try dsimp only
  repeat' first
    | with_reducible assumption | simp only [keeps_upd, p_fc, or_true, true_or, length_lmod, length_lset, List.length_map] | intro _

theorem State.pinSync_keeps (h : Keeps F s t) (p_fc : F .fc := by assumption) : Keeps F s t.pinSync := by
  unfold State.pinSync
  try dsimp only
  repeat' first
    | with_reducible assumption | simp only [keeps_upd, p_fc, or_true, true_or, length_lmod, length_lset, List.length_map] | split

theorem State.modEntry_keeps (h : Keeps F s t) (seq) (g) (p_fc : F .fc := by assumption) : Keeps F s (State.modEntry t seq g) := by
  unfold State.modEntry
  try dsimp only
  repeat' first
    | with_reducible assumption | with_reducible refine Keeps.ite (fun _ => ?_) (fun _ => ?_)
    | with_reducible refine Keeps.iteP (fun _ => ?_) (fun _ => ?_)
    | simp only [keeps_upd, p_fc, or_true, true_or, length_lmod, length_lset, List.length_map] | split | dsimp only | intro _

theorem State.parentRaised_keeps (h : Keeps F s t) (src) (x_t) (seq) (p_fc : F .fc := by assumption)
    : Keeps F s (State.parentRaised t src x_t seq) := by
  unfold State.parentRaised
  try dsimp only
  repeat' first
    | with_reducible assumption | with_reducible refine State.modEntry_keeps ?_ _ _
    | with_reducible refine Keeps.foldl (fun _ _ _ => ?_) _ ?_ | with_reducible refine Keeps.foldlP (fun _ _ _ => ?_) _ ?_
    | with_reducible refine Keeps.ite (fun _ => ?_) (fun _ => ?_) | with_reducible refine Keeps.iteP (fun _ => ?_) (fun _ => ?_)
    | simp only [keeps_upd, p_fc, or_true, true_or, length_lmod, length_lset, List.length_map] | split | dsimp only | intro _

theorem State.dropWaiting_keeps (h : Keeps F s t) (p_hp : F .hp := by assumption) (p_rr : F .rr := by assumption)
    (p_ce : F .ce := by assumption) : Keeps F s (State.dropWaiting t) := by
  unfold State.dropWaiting
  try dsimp only
  repeat' first
    | with_reducible assumption | with_reducible refine State.modFn_keeps ?_ _ _ | with_reducible refine State.modPort_keeps ?_ _ _
    | with_reducible refine Keeps.foldl (fun _ _ _ => ?_) _ ?_ | with_reducible refine Keeps.foldlP (fun _ _ _ => ?_) _ ?_
    | simp only [keeps_upd, p_hp, p_rr, p_ce, or_true, true_or, length_lmod, length_lset, List.length_map] | dsimp only | intro _

theorem State.endAll_keeps (h : Keeps F s t) (p_out : F .out := by assumption) (p_hp : F .hp := by assumption) (p_mb : F .mb := by assumption) (p_pm : F .pm := by assumption) : Keeps F s t.endAll := by
  unfold State.endAll
  try dsimp only
  repeat' first
    | with_reducible assumption | intro _ | with_reducible refine State.endS_keeps ?_ _ _
    | with_reducible refine State.endOp_keeps ?_ _ _ _ | with_reducible refine Keeps.foldl (fun _ _ _ => ?_) _ ?_

theorem State.enterSafe_keeps (h : Keeps F s t) (src) (p_out : F .out := by assumption) (p_fresh : F .fresh := by assumption)
    (p_dram : F .dram := by assumption) (p_hp : F .hp := by assumption) (p_rr : F .rr := by assumption)
    (p_rg : F .rg := by assumption) (p_ns : F .ns := by assumption) (p_tr : F .tr := by assumption)
    (p_cd : F .cd := by assumption) (p_lp : F .lp := by assumption) (p_sx : F .sx := by assumption)
    (p_mc : F .mc := by assumption) (p_bw : F .bw := by assumption) (p_ce : F .ce := by assumption)
    (p_mb : F .mb := by assumption) (p_fc : F .fc := by assumption) (p_pw : F .pw := by assumption)
    (p_pm : F .pm := by assumption) : Keeps F s (State.enterSafe t src) := by
  unfold State.enterSafe
  try dsimp only
  repeat' first
    | with_reducible assumption | with_reducible refine State.settle_keeps ?_ _ _ | with_reducible refine State.dropWaiting_keeps ?_
    | with_reducible refine State.goViral_keeps ?_ _ | with_reducible refine State.endAll_keeps ?_
    | with_reducible refine State.selfRefresh_keeps ?_ | with_reducible refine State.pinSync_keeps ?_
    | with_reducible refine Keeps.foldl (fun _ _ _ => ?_) _ ?_ | with_reducible refine Keeps.foldlP (fun _ _ _ => ?_) _ ?_
    | with_reducible refine Keeps.ite (fun _ => ?_) (fun _ => ?_) | with_reducible refine Keeps.iteP (fun _ => ?_) (fun _ => ?_)
    | simp only [keeps_upd, p_out, p_fresh, p_dram, p_hp, p_rr, p_rg, p_ns, p_tr, p_cd, p_lp, p_sx, p_mc, p_bw, p_ce, p_mb, p_fc, p_pw, p_pm, or_true, true_or, length_lmod, length_lset, List.length_map]
    | split | dsimp only | intro _

theorem State.logRung_keeps (h : Keeps F s t) (src) (seq) (p_out : F .out := by assumption) (p_hp : F .hp := by assumption)
    (p_mb : F .mb := by assumption) : Keeps F s (State.logRung t src seq) := by
  unfold State.logRung
  try dsimp only
  repeat' first
    | with_reducible assumption | with_reducible refine State.vector_keeps ?_ _ _
    | with_reducible refine Keeps.foldl (fun _ _ _ => ?_) _ ?_ | with_reducible refine Keeps.foldlP (fun _ _ _ => ?_) _ ?_
    | with_reducible refine Keeps.ite (fun _ => ?_) (fun _ => ?_) | with_reducible refine Keeps.iteP (fun _ => ?_) (fun _ => ?_)
    | simp only [keeps_upd, p_out, p_hp, p_mb, or_true, true_or, length_lmod, length_lset, List.length_map] | split | dsimp only
    | intro _

theorem State.notifyRung_keeps (h : Keeps F s t) (src) (mask) (p_out : F .out := by assumption) (p_hp : F .hp := by assumption)
    : Keeps F s (State.notifyRung t src mask) := by
  unfold State.notifyRung
  try dsimp only
  repeat' first
    | with_reducible assumption | with_reducible refine State.cause_keeps ?_ _ _ | with_reducible refine State.emit_keeps ?_ _
    | with_reducible refine Keeps.foldl (fun _ _ _ => ?_) _ ?_ | with_reducible refine Keeps.foldlP (fun _ _ _ => ?_) _ ?_
    | dsimp only | intro _

theorem State.portAction_keeps (h : Keeps F s t) (port) (x) (p_out : F .out := by assumption)
    (p_fresh : F .fresh := by assumption) (p_dram : F .dram := by assumption) (p_hp : F .hp := by assumption)
    (p_rr : F .rr := by assumption) (p_rg : F .rg := by assumption) (p_ns : F .ns := by assumption)
    (p_tr : F .tr := by assumption) (p_cd : F .cd := by assumption) (p_lp : F .lp := by assumption)
    (p_sx : F .sx := by assumption) (p_mc : F .mc := by assumption) (p_bw : F .bw := by assumption)
    (p_qe : F .qe := by assumption) (p_sc : F .sc := by assumption) (p_ce : F .ce := by assumption)
    (p_mb : F .mb := by assumption) (p_fc : F .fc := by assumption) (p_pm : F .pm := by assumption)
    : Keeps F s (State.portAction t port x) := by
  unfold State.portAction
  try dsimp only
  repeat' first
    | with_reducible assumption | with_reducible refine State.linkReset_keeps ?_ _ _
    | with_reducible refine State.report_keeps ?_ _ _ _ | with_reducible refine State.peerPath_keeps ?_ _
    | with_reducible refine Keeps.foldl (fun _ _ _ => ?_) _ ?_ | with_reducible refine Keeps.foldlP (fun _ _ _ => ?_) _ ?_
    | with_reducible refine Keeps.ite (fun _ => ?_) (fun _ => ?_) | with_reducible refine Keeps.iteP (fun _ => ?_) (fun _ => ?_)
    | split | dsimp only | intro _

theorem State.isolate_keeps (h : Keeps F s t) (src) (p_out : F .out := by assumption) (p_hp : F .hp := by assumption)
    (p_tr : F .tr := by assumption) (p_cd : F .cd := by assumption) (p_lp : F .lp := by assumption)
    (p_sx : F .sx := by assumption) (p_sc : F .sc := by assumption) (p_fc : F .fc := by assumption)
    (p_pw : F .pw := by assumption) (p_pm : F .pm := by assumption) : Keeps F s (State.isolate t src) := by
  unfold State.isolate
  try dsimp only
  repeat' first
    | with_reducible assumption | with_reducible refine State.goViral_keeps ?_ _ | with_reducible refine State.schedSync_keeps ?_
    | with_reducible refine Keeps.foldl (fun _ _ _ => ?_) _ ?_ | with_reducible refine Keeps.foldlP (fun _ _ _ => ?_) _ ?_
    | with_reducible refine Keeps.ite (fun _ => ?_) (fun _ => ?_) | with_reducible refine Keeps.iteP (fun _ => ?_) (fun _ => ?_)
    | simp only [keeps_upd, p_out, p_hp, p_tr, p_cd, p_lp, p_sx, p_sc, p_fc, p_pw, p_pm, or_true, true_or, length_lmod, length_lset, List.length_map]
    | split | dsimp only | intro _

theorem State.resetUnit_keeps (h : Keeps F s t) (node) (p_out : F .out := by assumption) (p_fresh : F .fresh := by assumption)
    (p_dram : F .dram := by assumption) (p_hp : F .hp := by assumption) (p_rr : F .rr := by assumption)
    (p_rg : F .rg := by assumption) (p_ns : F .ns := by assumption) (p_tr : F .tr := by assumption)
    (p_cd : F .cd := by assumption) (p_lp : F .lp := by assumption) (p_fu : F .fu := by assumption)
    (p_sx : F .sx := by assumption) (p_mc : F .mc := by assumption) (p_bw : F .bw := by assumption)
    (p_qe : F .qe := by assumption) (p_sc : F .sc := by assumption) (p_tu : F .tu := by assumption)
    (p_ce : F .ce := by assumption) (p_mb : F .mb := by assumption) (p_fc : F .fc := by assumption)
    (p_pw : F .pw := by assumption) (p_pm : F .pm := by assumption) : Keeps F s (State.resetUnit t node) := by
  unfold State.resetUnit
  try dsimp only
  repeat' first
    | with_reducible assumption | with_reducible refine State.applySoft_keeps ?_ _ _
    | with_reducible refine State.portAction_keeps ?_ _ _ | with_reducible refine State.restartMig_keeps ?_
    | with_reducible refine State.restartScrub_keeps ?_ | with_reducible refine State.trigger_keeps ?_ _
    | with_reducible refine Keeps.ite (fun _ => ?_) (fun _ => ?_) | with_reducible refine Keeps.iteP (fun _ => ?_) (fun _ => ?_)
    | simp only [keeps_upd, p_out, p_fresh, p_dram, p_hp, p_rr, p_rg, p_ns, p_tr, p_cd, p_lp, p_fu, p_sx, p_mc, p_bw, p_qe, p_sc, p_tu, p_ce, p_mb, p_fc, p_pw, p_pm, or_true, true_or, length_lmod, length_lset, List.length_map]
    | split | dsimp only | intro _

theorem State.fenceUnit_keeps (h : Keeps F s t) (src) (p_out : F .out := by assumption) (p_fresh : F .fresh := by assumption)
    (p_dram : F .dram := by assumption) (p_hp : F .hp := by assumption) (p_rr : F .rr := by assumption)
    (p_rg : F .rg := by assumption) (p_ns : F .ns := by assumption) (p_tr : F .tr := by assumption)
    (p_cd : F .cd := by assumption) (p_lp : F .lp := by assumption) (p_sx : F .sx := by assumption)
    (p_mc : F .mc := by assumption) (p_bw : F .bw := by assumption) (p_qe : F .qe := by assumption)
    (p_sc : F .sc := by assumption) (p_ce : F .ce := by assumption) (p_mb : F .mb := by assumption)
    (p_fc : F .fc := by assumption) (p_pw : F .pw := by assumption) (p_ck : F .ck := by assumption)
    (p_pm : F .pm := by assumption) : Keeps F s (State.fenceUnit t src) := by
  unfold State.fenceUnit
  try dsimp only
  repeat' first
    | with_reducible assumption | with_reducible refine State.modPort_keeps ?_ _ _
    | with_reducible refine State.portAction_keeps ?_ _ _ | with_reducible refine State.fence_keeps ?_ _ _
    | with_reducible refine State.answerRetrain_keeps ?_ _ _ | with_reducible refine State.speedGo_keeps ?_
    | with_reducible refine Keeps.ite (fun _ => ?_) (fun _ => ?_) | with_reducible refine Keeps.iteP (fun _ => ?_) (fun _ => ?_)
    | simp only [keeps_upd, p_out, p_fresh, p_dram, p_hp, p_rr, p_rg, p_ns, p_tr, p_cd, p_lp, p_sx, p_mc, p_bw, p_qe, p_sc, p_ce, p_mb, p_fc, p_pw, p_ck, p_pm, or_true, true_or, length_lmod, length_lset, List.length_map]
    | split | dsimp only | intro _

theorem State.startAction_keeps (h : Keeps F s t) (src) (rung) (code) (p_out : F .out := by assumption)
    (p_fresh : F .fresh := by assumption) (p_dram : F .dram := by assumption) (p_hp : F .hp := by assumption)
    (p_rr : F .rr := by assumption) (p_rg : F .rg := by assumption) (p_ns : F .ns := by assumption)
    (p_tr : F .tr := by assumption) (p_cd : F .cd := by assumption) (p_lp : F .lp := by assumption)
    (p_fu : F .fu := by assumption) (p_sx : F .sx := by assumption) (p_mc : F .mc := by assumption)
    (p_bw : F .bw := by assumption) (p_qe : F .qe := by assumption) (p_sc : F .sc := by assumption)
    (p_tu : F .tu := by assumption) (p_ce : F .ce := by assumption) (p_mb : F .mb := by assumption)
    (p_fc : F .fc := by assumption) (p_pw : F .pw := by assumption) (p_ck : F .ck := by assumption)
    (p_pm : F .pm := by assumption) : Keeps F s (State.startAction t src rung code) := by
  unfold State.startAction
  try dsimp only
  repeat' first
    | with_reducible assumption | with_reducible refine State.isolate_keeps ?_ _ | with_reducible refine State.resetUnit_keeps ?_ _
    | with_reducible refine State.fenceUnit_keeps ?_ _ | with_reducible refine State.openShadow_keeps ?_ _ _ _ _
    | with_reducible refine State.modSrc_keeps ?_ _ _ | with_reducible refine Keeps.ite (fun _ => ?_) (fun _ => ?_)
    | with_reducible refine Keeps.iteP (fun _ => ?_) (fun _ => ?_) | split | dsimp only | intro _

theorem State.setRung_keeps (h : Keeps F s t) (src) (rung) (p_fc : F .fc := by assumption)
    : Keeps F s (State.setRung t src rung) := by
  unfold State.setRung
  try dsimp only
  repeat' first
    | with_reducible assumption | with_reducible refine State.modSrc_keeps ?_ _ _
    | with_reducible refine State.modEntry_keeps ?_ _ _ | dsimp only | intro _

theorem State.endWalk_keeps (h : Keeps F s t) (src) (p_out : F .out := by assumption) (p_fresh : F .fresh := by assumption)
    (p_dram : F .dram := by assumption) (p_hp : F .hp := by assumption) (p_rr : F .rr := by assumption)
    (p_rg : F .rg := by assumption) (p_ns : F .ns := by assumption) (p_tr : F .tr := by assumption)
    (p_cd : F .cd := by assumption) (p_lp : F .lp := by assumption) (p_sx : F .sx := by assumption)
    (p_mc : F .mc := by assumption) (p_bw : F .bw := by assumption) (p_ce : F .ce := by assumption)
    (p_mb : F .mb := by assumption) (p_fc : F .fc := by assumption) (p_pw : F .pw := by assumption)
    (p_pm : F .pm := by assumption) : Keeps F s (State.endWalk t src) := by
  unfold State.endWalk
  try dsimp only
  repeat' first
    | with_reducible assumption | with_reducible refine State.modSrc_keeps ?_ _ _ | with_reducible refine State.enterSafe_keeps ?_ _
    | with_reducible refine State.pinSync_keeps ?_ | with_reducible refine Keeps.ite (fun _ => ?_) (fun _ => ?_)
    | with_reducible refine Keeps.iteP (fun _ => ?_) (fun _ => ?_)
    | simp only [keeps_upd, p_out, p_fresh, p_dram, p_hp, p_rr, p_rg, p_ns, p_tr, p_cd, p_lp, p_sx, p_mc, p_bw, p_ce, p_mb, p_fc, p_pw, p_pm, or_true, true_or, length_lmod, length_lset, List.length_map]
    | split | dsimp only | intro _

theorem State.runWalk_keeps (h : Keeps F s t) (src) (a2) (a3) (p_out : F .out := by assumption) (p_fresh : F .fresh := by assumption) (p_dram : F .dram := by assumption) (p_hp : F .hp := by assumption) (p_rr : F .rr := by assumption) (p_rg : F .rg := by assumption) (p_ns : F .ns := by assumption) (p_tr : F .tr := by assumption) (p_cd : F .cd := by assumption) (p_lp : F .lp := by assumption) (p_fu : F .fu := by assumption) (p_sx : F .sx := by assumption) (p_mc : F .mc := by assumption) (p_bw : F .bw := by assumption) (p_qe : F .qe := by assumption) (p_sc : F .sc := by assumption) (p_tu : F .tu := by assumption) (p_ce : F .ce := by assumption) (p_mb : F .mb := by assumption) (p_fc : F .fc := by assumption) (p_pw : F .pw := by assumption) (p_ck : F .ck := by assumption) (p_pm : F .pm := by assumption) : Keeps F s (t.runWalk src a2 a3) := by
  induction a2 generalizing t src a3 with
  | zero => unfold State.runWalk; exact State.endWalk_keeps h _
  | succ _ ih =>
    unfold State.runWalk
    try dsimp only
    repeat' first
      | with_reducible assumption | with_reducible refine ih ?_ _ _ | intro _ | with_reducible refine State.count_keeps ?_ _ _ _
      | with_reducible refine State.leaveIdle_keeps ?_ | with_reducible refine State.modSrc_keeps ?_ _ _
      | with_reducible refine State.enterSafe_keeps ?_ _ | with_reducible refine State.logRung_keeps ?_ _ _
      | with_reducible refine State.notifyRung_keeps ?_ _ _ | with_reducible refine State.startAction_keeps ?_ _ _ _
      | with_reducible refine State.setRung_keeps ?_ _ _ | with_reducible refine State.endWalk_keeps ?_ _
      | with_reducible refine Keeps.ite (fun _ => ?_) (fun _ => ?_)
      | simp only [keeps_upd, p_out, p_fresh, p_dram, p_hp, p_rr, p_rg, p_ns, p_tr, p_cd, p_lp, p_sx, p_mc, p_bw, p_qe, p_sc, p_tu, p_ce, p_mb, p_fc, p_pw, p_ck, p_pm, or_true, true_or, length_lmod, length_lset, List.length_map]
      | split

theorem State.quickRungs_keeps (h : Keeps F s t) (src) (seq) (p_out : F .out := by assumption) (p_hp : F .hp := by assumption)
    (p_mb : F .mb := by assumption) (p_fc : F .fc := by assumption) : Keeps F s (State.quickRungs t src seq) := by
  unfold State.quickRungs
  try dsimp only
  repeat' first
    | with_reducible assumption | with_reducible refine State.modEntry_keeps ?_ _ _
    | with_reducible refine State.logRung_keeps ?_ _ _ | with_reducible refine State.notifyRung_keeps ?_ _ _
    | with_reducible refine Keeps.foldl (fun _ _ _ => ?_) _ ?_ | with_reducible refine Keeps.foldlP (fun _ _ _ => ?_) _ ?_
    | with_reducible refine Keeps.ite (fun _ => ?_) (fun _ => ?_) | with_reducible refine Keeps.iteP (fun _ => ?_) (fun _ => ?_)
    | split | dsimp only | intro _

theorem State.notePoison_keeps (h : Keeps F s t) (src) (detail) (p_mb : F .mb := by assumption)
    : Keeps F s (State.notePoison t src detail) := by
  unfold State.notePoison
  try dsimp only
  repeat' first
    | with_reducible assumption | with_reducible refine Keeps.ite (fun _ => ?_) (fun _ => ?_)
    | with_reducible refine Keeps.iteP (fun _ => ?_) (fun _ => ?_)
    | simp only [keeps_upd, p_mb, or_true, true_or, length_lmod, length_lset, List.length_map] | split | intro _

theorem State.raise_keeps (h : Keeps F s t) (m) (p_out : F .out := by assumption) (p_fresh : F .fresh := by assumption)
    (p_dram : F .dram := by assumption) (p_hp : F .hp := by assumption) (p_rr : F .rr := by assumption)
    (p_rg : F .rg := by assumption) (p_ns : F .ns := by assumption) (p_tr : F .tr := by assumption)
    (p_cd : F .cd := by assumption) (p_lp : F .lp := by assumption) (p_fu : F .fu := by assumption)
    (p_sx : F .sx := by assumption) (p_mc : F .mc := by assumption) (p_bw : F .bw := by assumption)
    (p_qe : F .qe := by assumption) (p_sc : F .sc := by assumption) (p_tu : F .tu := by assumption)
    (p_ce : F .ce := by assumption) (p_mb : F .mb := by assumption) (p_fc : F .fc := by assumption)
    (p_pw : F .pw := by assumption) (p_ck : F .ck := by assumption) (p_pm : F .pm := by assumption)
    : Keeps F s (State.raise t m) := by
  unfold State.raise
  try dsimp only
  repeat' first
    | with_reducible assumption | with_reducible refine Com.bind_keeps ?_ _ | with_reducible refine State.modEntry_keeps ?_ _ _
    | with_reducible refine State.modSrc_keeps ?_ _ _ | with_reducible refine State.parentRaised_keeps ?_ _ _ _
    | with_reducible refine State.notePoison_keeps ?_ _ _ | with_reducible refine State.count_keeps ?_ _ _ _
    | with_reducible refine State.quickRungs_keeps ?_ _ _ | with_reducible refine State.pinSync_keeps ?_
    | with_reducible refine State.endWalk_keeps ?_ _ | with_reducible refine State.runWalk_keeps ?_ _ _ _
    | with_reducible refine Keeps.ite (fun _ => ?_) (fun _ => ?_) | with_reducible refine Keeps.iteP (fun _ => ?_) (fun _ => ?_)
    | simp only [keeps_upd, p_out, p_fresh, p_dram, p_hp, p_rr, p_rg, p_ns, p_tr, p_cd, p_lp, p_fu, p_sx, p_mc, p_bw, p_qe, p_sc, p_tu, p_ce, p_mb, p_fc, p_pw, p_ck, p_pm, or_true, true_or, length_lmod, length_lset, List.length_map]
    | split | dsimp only | intro _

theorem State.sramCorrected_keeps (h : Keeps F s t) (bank) (word) (p_lp : F .lp := by assumption)
    (p_fu : F .fu := by assumption) : Keeps F s (State.sramCorrected t bank word) := by
  unfold State.sramCorrected
  try dsimp only
  repeat' first
    | with_reducible assumption | with_reducible refine Keeps.ite (fun _ => ?_) (fun _ => ?_)
    | with_reducible refine Keeps.iteP (fun _ => ?_) (fun _ => ?_)
    | simp only [keeps_upd, p_lp, p_fu, or_true, true_or, length_lmod, length_lset, List.length_map] | split | dsimp only | intro _

theorem State.migHalt_keeps (h : Keeps F s t) (p_out : F .out := by assumption) (p_dram : F .dram := by assumption) (p_rg : F .rg := by assumption) (p_tr : F .tr := by assumption) (p_cd : F .cd := by assumption) (p_lp : F .lp := by assumption) (p_sx : F .sx := by assumption) (p_mc : F .mc := by assumption) (p_bw : F .bw := by assumption) (p_fc : F .fc := by assumption) (p_pm : F .pm := by assumption) :
    Keeps F s t.migHalt := by
  unfold State.migHalt
  try dsimp only
  repeat' first
    | with_reducible assumption | with_reducible refine State.abortMove_keeps ?_ _ _ _
    | simp only [keeps_upd, p_dram, p_rg, p_tr, p_cd, p_lp, p_sx, p_mc, p_bw, p_fc, p_pm, or_true, true_or, length_lmod, length_lset, List.length_map]
    | split

theorem State.metaError_keeps (h : Keeps F s t) (d) (w) (p_out : F .out := by assumption) (p_dram : F .dram := by assumption)
    (p_rg : F .rg := by assumption) (p_tr : F .tr := by assumption) (p_cd : F .cd := by assumption)
    (p_lp : F .lp := by assumption) (p_sx : F .sx := by assumption) (p_mc : F .mc := by assumption)
    (p_bw : F .bw := by assumption) (p_fc : F .fc := by assumption) (p_pm : F .pm := by assumption)
    : Keeps F s (State.metaError t d w) := by
  unfold State.metaError
  try dsimp only
  repeat' first
    | with_reducible assumption | with_reducible refine State.metaLine_keeps ?_ _ _ _
    | with_reducible refine State.lostMap_keeps ?_ _ _ _ _ | with_reducible refine State.descsPoison_keeps ?_ _ _ _
    | with_reducible refine Keeps.ite (fun _ => ?_) (fun _ => ?_) | with_reducible refine Keeps.iteP (fun _ => ?_) (fun _ => ?_)
    | simp only [keeps_upd, p_out, p_dram, p_rg, p_tr, p_cd, p_lp, p_sx, p_mc, p_bw, p_fc, p_pm, or_true, true_or, length_lmod, length_lset, List.length_map]
    | split | dsimp only | intro _

theorem State.extEffect_keeps (h : Keeps F s t) (e) (p_out : F .out := by assumption) (p_dram : F .dram := by assumption)
    (p_hp : F .hp := by assumption) (p_rg : F .rg := by assumption) (p_ns : F .ns := by assumption)
    (p_tr : F .tr := by assumption) (p_cd : F .cd := by assumption) (p_lp : F .lp := by assumption)
    (p_fu : F .fu := by assumption) (p_sx : F .sx := by assumption) (p_mc : F .mc := by assumption)
    (p_bw : F .bw := by assumption) (p_sc : F .sc := by assumption) (p_ce : F .ce := by assumption)
    (p_fc : F .fc := by assumption) (p_pm : F .pm := by assumption) : Keeps F s (State.extEffect t e) := by
  unfold State.extEffect
  try dsimp only
  repeat' first
    | with_reducible assumption | with_reducible refine State.sramCorrected_keeps ?_ _ _
    | with_reducible refine State.count_keeps ?_ _ _ _ | with_reducible refine State.modNode_keeps ?_ _ _
    | with_reducible refine State.placeNode_keeps ?_ _ | with_reducible refine State.schedSync_keeps ?_
    | with_reducible refine State.migHalt_keeps ?_ | with_reducible refine State.metaError_keeps ?_ _ _
    | with_reducible refine State.ceBad_keeps ?_ _ | with_reducible refine State.nsDataError_keeps ?_ _ _ _ _
    | with_reducible refine State.tagLost_keeps ?_ _ _ _ | with_reducible refine State.nsErrAt_keeps ?_ _ _ _ _
    | with_reducible refine Keeps.ite (fun _ => ?_) (fun _ => ?_) | with_reducible refine Keeps.iteP (fun _ => ?_) (fun _ => ?_)
    | simp only [keeps_upd, p_out, p_dram, p_hp, p_rg, p_ns, p_tr, p_cd, p_lp, p_fu, p_sx, p_mc, p_bw, p_sc, p_ce, p_fc, p_pm, or_true, true_or, length_lmod, length_lset, List.length_map]
    | split | dsimp only | intro _

theorem faultReport_keeps (h : Keeps F s t) (ext) (p_out : F .out := by assumption) (p_fresh : F .fresh := by assumption)
    (p_dram : F .dram := by assumption) (p_hp : F .hp := by assumption) (p_rr : F .rr := by assumption)
    (p_rg : F .rg := by assumption) (p_ns : F .ns := by assumption) (p_tr : F .tr := by assumption)
    (p_cd : F .cd := by assumption) (p_lp : F .lp := by assumption) (p_fu : F .fu := by assumption)
    (p_sx : F .sx := by assumption) (p_mc : F .mc := by assumption) (p_bw : F .bw := by assumption)
    (p_qe : F .qe := by assumption) (p_sc : F .sc := by assumption) (p_tu : F .tu := by assumption)
    (p_ce : F .ce := by assumption) (p_mb : F .mb := by assumption) (p_fc : F .fc := by assumption)
    (p_pw : F .pw := by assumption) (p_ck : F .ck := by assumption) (p_pm : F .pm := by assumption)
    : Keeps F s (faultReport ext t) := by
  unfold faultReport
  try dsimp only
  repeat' first
    | with_reducible assumption | with_reducible refine State.extEffect_keeps ?_ _ | with_reducible refine State.raise_keeps ?_ _
    | with_reducible refine Keeps.ite (fun _ => ?_) (fun _ => ?_) | with_reducible refine Keeps.iteP (fun _ => ?_) (fun _ => ?_)
    | simp only [keeps_upd, p_out, p_fresh, p_dram, p_hp, p_rr, p_rg, p_ns, p_tr, p_cd, p_lp, p_fu, p_sx, p_mc, p_bw, p_qe, p_sc, p_tu, p_ce, p_mb, p_fc, p_pw, p_ck, p_pm, or_true, true_or, length_lmod, length_lset, List.length_map]
    | split | dsimp only | intro _

theorem actionRungDone_keeps (h : Keeps F s t) (src) (p_out : F .out := by assumption) (p_fresh : F .fresh := by assumption)
    (p_now : F .now := by assumption) (p_dram : F .dram := by assumption) (p_hp : F .hp := by assumption)
    (p_rr : F .rr := by assumption) (p_rg : F .rg := by assumption) (p_ns : F .ns := by assumption)
    (p_tr : F .tr := by assumption) (p_cd : F .cd := by assumption) (p_lp : F .lp := by assumption)
    (p_fu : F .fu := by assumption) (p_sx : F .sx := by assumption) (p_mc : F .mc := by assumption)
    (p_bw : F .bw := by assumption) (p_qe : F .qe := by assumption) (p_sc : F .sc := by assumption)
    (p_tu : F .tu := by assumption) (p_ce : F .ce := by assumption) (p_mb : F .mb := by assumption)
    (p_fc : F .fc := by assumption) (p_pw : F .pw := by assumption) (p_ck : F .ck := by assumption)
    (p_pm : F .pm := by assumption) : Keeps F s (actionRungDone src t) := by
  unfold actionRungDone
  try dsimp only
  repeat' first
    | with_reducible assumption | with_reducible refine State.advance_keeps ?_ _
    | with_reducible refine State.runWalk_keeps ?_ _ _ _ | with_reducible refine State.endWalk_keeps ?_ _
    | with_reducible refine Keeps.ite (fun _ => ?_) (fun _ => ?_) | with_reducible refine Keeps.iteP (fun _ => ?_) (fun _ => ?_)
    | split | dsimp only | intro _

theorem windowExpiry_keeps (h : Keeps F s t) (src) (p_out : F .out := by assumption) (p_fresh : F .fresh := by assumption)
    (p_now : F .now := by assumption) (p_dram : F .dram := by assumption) (p_hp : F .hp := by assumption)
    (p_rr : F .rr := by assumption) (p_rg : F .rg := by assumption) (p_ns : F .ns := by assumption)
    (p_tr : F .tr := by assumption) (p_cd : F .cd := by assumption) (p_lp : F .lp := by assumption)
    (p_fu : F .fu := by assumption) (p_sx : F .sx := by assumption) (p_mc : F .mc := by assumption)
    (p_bw : F .bw := by assumption) (p_qe : F .qe := by assumption) (p_sc : F .sc := by assumption)
    (p_tu : F .tu := by assumption) (p_ce : F .ce := by assumption) (p_mb : F .mb := by assumption)
    (p_fc : F .fc := by assumption) (p_pw : F .pw := by assumption) (p_ck : F .ck := by assumption)
    (p_pm : F .pm := by assumption) : Keeps F s (windowExpiry src t) := by
  unfold windowExpiry
  try dsimp only
  repeat' first
    | with_reducible assumption | with_reducible refine State.advance_keeps ?_ _ | with_reducible refine State.count_keeps ?_ _ _ _
    | with_reducible refine State.runWalk_keeps ?_ _ _ _ | with_reducible refine Keeps.ite (fun _ => ?_) (fun _ => ?_)
    | with_reducible refine Keeps.iteP (fun _ => ?_) (fun _ => ?_) | split | intro _

theorem conditionClear_keeps (h : Keeps F s t) (src) (p_out : F .out := by assumption) (p_fresh : F .fresh := by assumption)
    (p_dram : F .dram := by assumption) (p_hp : F .hp := by assumption) (p_rr : F .rr := by assumption)
    (p_rg : F .rg := by assumption) (p_ns : F .ns := by assumption) (p_tr : F .tr := by assumption)
    (p_cd : F .cd := by assumption) (p_lp : F .lp := by assumption) (p_sx : F .sx := by assumption)
    (p_mc : F .mc := by assumption) (p_bw : F .bw := by assumption) (p_ce : F .ce := by assumption)
    (p_mb : F .mb := by assumption) (p_fc : F .fc := by assumption) (p_pw : F .pw := by assumption)
    (p_pm : F .pm := by assumption) : Keeps F s (conditionClear src t) := by
  unfold conditionClear
  try dsimp only
  repeat' first
    | with_reducible assumption | with_reducible refine State.modSrc_keeps ?_ _ _ | with_reducible refine State.endWalk_keeps ?_ _
    | with_reducible refine State.pinSync_keeps ?_ | with_reducible refine Keeps.ite (fun _ => ?_) (fun _ => ?_)
    | with_reducible refine Keeps.iteP (fun _ => ?_) (fun _ => ?_) | split | dsimp only | intro _

theorem State.liftIso_keeps (h : Keeps F s t) (src) (p_tr : F .tr := by assumption) (p_cd : F .cd := by assumption)
    (p_lp : F .lp := by assumption) (p_sx : F .sx := by assumption) (p_fc : F .fc := by assumption)
    : Keeps F s (State.liftIso t src) := by
  unfold State.liftIso
  try dsimp only
  repeat' first
    | with_reducible assumption | with_reducible refine Keeps.ite (fun _ => ?_) (fun _ => ?_)
    | with_reducible refine Keeps.iteP (fun _ => ?_) (fun _ => ?_)
    | simp only [keeps_upd, p_tr, p_cd, p_lp, p_sx, p_fc, or_true, true_or, length_lmod, length_lset, List.length_map] | split
    | dsimp only | intro _

theorem quietExpiry_keeps (h : Keeps F s t) (p_now : F .now := by assumption) (p_tr : F .tr := by assumption)
    (p_cd : F .cd := by assumption) (p_lp : F .lp := by assumption) (p_sx : F .sx := by assumption)
    (p_tu : F .tu := by assumption) (p_fc : F .fc := by assumption) : Keeps F s (quietExpiry t) := by
  unfold quietExpiry
  try dsimp only
  repeat' first
    | with_reducible assumption | with_reducible refine State.advance_keeps ?_ _ | with_reducible refine State.modSrc_keeps ?_ _ _
    | with_reducible refine State.liftIso_keeps ?_ _ | with_reducible refine State.pinSync_keeps ?_
    | with_reducible refine Keeps.foldl (fun _ _ _ => ?_) _ ?_ | with_reducible refine Keeps.foldlP (fun _ _ _ => ?_) _ ?_
    | with_reducible refine Keeps.ite (fun _ => ?_) (fun _ => ?_) | with_reducible refine Keeps.iteP (fun _ => ?_) (fun _ => ?_)
    | simp only [keeps_upd, p_now, p_tr, p_cd, p_lp, p_sx, p_tu, p_fc, or_true, true_or, length_lmod, length_lset, List.length_map]
    | split | dsimp only | intro _

theorem shadowEnd_keeps (h : Keeps F s t) (p_now : F .now := by assumption) (p_tu : F .tu := by assumption)
    (p_fc : F .fc := by assumption) : Keeps F s (shadowEnd t) := by
  unfold shadowEnd
  try dsimp only
  repeat' first
    | with_reducible assumption | with_reducible refine State.advance_keeps ?_ _
    | with_reducible refine Keeps.ite (fun _ => ?_) (fun _ => ?_) | with_reducible refine Keeps.iteP (fun _ => ?_) (fun _ => ?_)
    | simp only [keeps_upd, p_now, p_tu, p_fc, or_true, true_or, length_lmod, length_lset, List.length_map] | split | dsimp only
    | intro _

theorem flashCopy_keeps (h : Keeps F s t) (p_out : F .out := by assumption) (p_fc : F .fc := by assumption)
    : Keeps F s (flashCopy t) := by
  unfold flashCopy
  try dsimp only
  repeat' first
    | with_reducible assumption | with_reducible refine State.emit_keeps ?_ _
    | with_reducible refine Keeps.ite (fun _ => ?_) (fun _ => ?_) | with_reducible refine Keeps.iteP (fun _ => ?_) (fun _ => ?_)
    | simp only [keeps_upd, p_out, p_fc, or_true, true_or, length_lmod, length_lset, List.length_map] | split | intro _

theorem throttleLift_keeps (h : Keeps F s t) (p_now : F .now := by assumption) (p_tu : F .tu := by assumption)
    (p_pw : F .pw := by assumption) : Keeps F s (throttleLift t) := by
  unfold throttleLift
  try dsimp only
  repeat' first
    | with_reducible assumption | with_reducible refine State.advance_keeps ?_ _
    | with_reducible refine Keeps.ite (fun _ => ?_) (fun _ => ?_) | with_reducible refine Keeps.iteP (fun _ => ?_) (fun _ => ?_)
    | simp only [keeps_upd, p_now, p_tu, p_pw, or_true, true_or, length_lmod, length_lset, List.length_map] | split | dsimp only
    | intro _

theorem faultCfg_keeps (h : Keeps F s t) (a1) (a2) (p_out : F .out := by assumption) (p_fresh : F .fresh := by assumption)
    (p_dram : F .dram := by assumption) (p_hp : F .hp := by assumption) (p_rr : F .rr := by assumption)
    (p_rg : F .rg := by assumption) (p_ns : F .ns := by assumption) (p_tr : F .tr := by assumption)
    (p_cd : F .cd := by assumption) (p_lp : F .lp := by assumption) (p_sx : F .sx := by assumption)
    (p_mc : F .mc := by assumption) (p_bw : F .bw := by assumption) (p_ce : F .ce := by assumption)
    (p_mb : F .mb := by assumption) (p_fc : F .fc := by assumption) (p_pw : F .pw := by assumption)
    (p_pm : F .pm := by assumption) : Keeps F s (faultCfg a1 a2 t).1 := by
  unfold faultCfg
  try dsimp only
  repeat' first
    | with_reducible assumption | with_reducible refine State.endWalk_keeps ?_ _
    | with_reducible refine State.direct_keeps ?_ _ _ _ _ _ | with_reducible refine Keeps.ite (fun _ => ?_) (fun _ => ?_)
    | with_reducible refine Keeps.iteP (fun _ => ?_) (fun _ => ?_)
    | simp only [keeps_upd, p_out, p_fresh, p_dram, p_hp, p_rr, p_rg, p_ns, p_tr, p_cd, p_lp, p_sx, p_mc, p_bw, p_ce, p_mb, p_fc, p_pw, p_pm, or_true, true_or, length_lmod, length_lset, List.length_map]
    | split | dsimp only | intro _

theorem faultCtl_keeps (h : Keeps F s t) (a1) (a2) (p_mb : F .mb := by assumption) (p_fc : F .fc := by assumption)
    : Keeps F s (faultCtl a1 a2 t).1 := by
  unfold faultCtl
  try dsimp only
  repeat' first
    | with_reducible assumption | with_reducible refine State.pinSync_keeps ?_
    | with_reducible refine State.direct_keeps ?_ _ _ _ _ _ | with_reducible refine Keeps.ite (fun _ => ?_) (fun _ => ?_)
    | with_reducible refine Keeps.iteP (fun _ => ?_) (fun _ => ?_)
    | simp only [keeps_upd, p_mb, p_fc, or_true, true_or, length_lmod, length_lset, List.length_map] | split | dsimp only | intro _

theorem faultLogGet_keeps (h : Keeps F s t) (a1) (a2)  : Keeps F s (faultLogGet a1 a2 t).1 := by
  unfold faultLogGet
  try dsimp only
  repeat' first
    | with_reducible assumption | with_reducible refine Keeps.ite (fun _ => ?_) (fun _ => ?_)
    | with_reducible refine Keeps.iteP (fun _ => ?_) (fun _ => ?_) | split | dsimp only | intro _

theorem faultClear_keeps (h : Keeps F s t) (a1) (a2) (p_mb : F .mb := by assumption) (p_fc : F .fc := by assumption)
    : Keeps F s (faultClear a1 a2 t).1 := by
  unfold faultClear
  try dsimp only
  repeat' first
    | with_reducible assumption | with_reducible refine State.direct_keeps ?_ _ _ _ _ _
    | with_reducible refine Keeps.ite (fun _ => ?_) (fun _ => ?_) | with_reducible refine Keeps.iteP (fun _ => ?_) (fun _ => ?_)
    | simp only [keeps_upd, p_mb, p_fc, or_true, true_or, length_lmod, length_lset, List.length_map] | split | dsimp only | intro _

theorem faultQuery_keeps (h : Keeps F s t) (a1) (a2) (p_mb : F .mb := by assumption) : Keeps F s (faultQuery a1 a2 t).1 := by
  unfold faultQuery
  try dsimp only
  repeat' first
    | with_reducible assumption | with_reducible refine query_keeps ?_ _ _ _ _ _ _
    | with_reducible refine Keeps.ite (fun _ => ?_) (fun _ => ?_) | with_reducible refine Keeps.iteP (fun _ => ?_) (fun _ => ?_)
    | split | dsimp only | intro _

end Sys2Proof.Machine
end

