-- ==== Sys2Proof/Laws/KeepsPower.lean ====
section
/-! SUPPORT. What each operation of Machine/Power.lean keeps: power and start. -/

set_option Elab.async false

set_option linter.all false

namespace Sys2Proof.Machine
open Sys2Proof

variable {F : Part → Prop} {s t : State}

theorem State.withDomains_keeps (h : Keeps F s t) (m) (p_ck : F .ck := by assumption) : Keeps F s (State.withDomains t m) := by
  unfold State.withDomains
  try dsimp only
  repeat' first
    | with_reducible assumption | simp only [keeps_upd, p_ck, or_true, true_or, length_lmod, length_lset, List.length_map] | intro _

theorem State.discardQueues_keeps (h : Keeps F s t) (p_qe : F .qe := by assumption) (p_sc : F .sc := by assumption) (p_ce : F .ce := by assumption) (p_fc : F .fc := by assumption) (p_pm : F .pm := by assumption) : Keeps F s t.discardQueues := by
  unfold State.discardQueues
  try dsimp only
  repeat' first
    | with_reducible assumption | intro _ | with_reducible refine State.schedSync_keeps ?_
    | with_reducible refine State.modQueue_keeps ?_ _ _ | with_reducible refine State.flushMany_keeps ?_ _ _ _
    | with_reducible refine Keeps.foldl (fun _ _ _ => ?_) _ ?_ | with_reducible refine Keeps.foldlP (fun _ _ _ => ?_) _ ?_
    | simp only [keeps_upd, p_qe, p_sc, p_ce, p_fc, p_pm, or_true, true_or, length_lmod, length_lset, List.length_map]

theorem pwEnter_keeps (h : Keeps F s t) (a1) (a2) (p_out : F .out := by assumption) (p_dram : F .dram := by assumption)
    (p_rg : F .rg := by assumption) (p_tr : F .tr := by assumption) (p_cd : F .cd := by assumption)
    (p_lp : F .lp := by assumption) (p_sx : F .sx := by assumption) (p_mc : F .mc := by assumption)
    (p_bw : F .bw := by assumption) (p_qe : F .qe := by assumption) (p_sc : F .sc := by assumption)
    (p_ce : F .ce := by assumption) (p_mb : F .mb := by assumption) (p_fc : F .fc := by assumption)
    (p_pw : F .pw := by assumption) (p_pm : F .pm := by assumption) : Keeps F s (pwEnter a1 a2 t).1 := by
  unfold pwEnter
  try dsimp only
  repeat' first
    | with_reducible assumption | with_reducible refine State.direct_keeps ?_ _ _ _ _ _
    | with_reducible refine State.startBg_keeps ?_ _ _ _ _ _ _ | with_reducible refine State.count_keeps ?_ _ _ _
    | with_reducible refine State.abortMoves_keeps ?_ | with_reducible refine State.discardQueues_keeps ?_
    | with_reducible refine Keeps.ite (fun _ => ?_) (fun _ => ?_) | with_reducible refine Keeps.iteP (fun _ => ?_) (fun _ => ?_)
    | simp only [keeps_upd, p_out, p_dram, p_rg, p_tr, p_cd, p_lp, p_sx, p_mc, p_bw, p_qe, p_sc, p_ce, p_mb, p_fc, p_pw, p_pm, or_true, true_or, length_lmod, length_lset, List.length_map]
    | split | dsimp only | intro _

theorem drainLimit_keeps (h : Keeps F s t) (p_now : F .now := by assumption) (p_qe : F .qe := by assumption)
    (p_sc : F .sc := by assumption) (p_tu : F .tu := by assumption) (p_ce : F .ce := by assumption)
    (p_fc : F .fc := by assumption) (p_pw : F .pw := by assumption) (p_pm : F .pm := by assumption) : Keeps F s (drainLimit t) := by
  unfold drainLimit
  try dsimp only
  repeat' first
    | with_reducible assumption | with_reducible refine State.advance_keeps ?_ _
    | with_reducible refine State.discardQueues_keeps ?_ | with_reducible refine Keeps.ite (fun _ => ?_) (fun _ => ?_)
    | with_reducible refine Keeps.iteP (fun _ => ?_) (fun _ => ?_)
    | simp only [keeps_upd, p_now, p_qe, p_sc, p_tu, p_ce, p_fc, p_pw, p_pm, or_true, true_or, length_lmod, length_lset, List.length_map]
    | split | dsimp only | intro _

theorem State.settleFetches_keeps (h : Keeps F s t) (p_out : F .out := by assumption) (p_fresh : F .fresh := by assumption) (p_dram : F .dram := by assumption) (p_hp : F .hp := by assumption) (p_rr : F .rr := by assumption) (p_rg : F .rg := by assumption) (p_ns : F .ns := by assumption) (p_tr : F .tr := by assumption) (p_cd : F .cd := by assumption) (p_lp : F .lp := by assumption) (p_sx : F .sx := by assumption) (p_mc : F .mc := by assumption) (p_bw : F .bw := by assumption) (p_fc : F .fc := by assumption) (p_pm : F .pm := by assumption) : Keeps F s t.settleFetches := by
  unfold State.settleFetches
  repeat' first
    | with_reducible assumption | intro _ | with_reducible refine State.settle_keeps ?_ _ _
    | with_reducible refine Keeps.foldl (fun _ _ _ => ?_) _ ?_

theorem State.drainPosted_keeps (h : Keeps F s t) (f) (a2) (p_out : F .out := by assumption) (p_dram : F .dram := by assumption) (p_hp : F .hp := by assumption) (p_rg : F .rg := by assumption) (p_tr : F .tr := by assumption) (p_cd : F .cd := by assumption) (p_lp : F .lp := by assumption) (p_sx : F .sx := by assumption) (p_mc : F .mc := by assumption) (p_bw : F .bw := by assumption) (p_qe : F .qe := by assumption) (p_ce : F .ce := by assumption) (p_mb : F .mb := by assumption) (p_fc : F .fc := by assumption) (p_pm : F .pm := by assumption) : Keeps F s (t.drainPosted f a2) := by
  induction a2 generalizing t f with
  | zero => unfold State.drainPosted; with_reducible exact h
  | succ _ ih =>
    unfold State.drainPosted
    repeat' first
      | with_reducible assumption | with_reducible refine ih ?_ _ | with_reducible refine updateRecord_keeps ?_ _ _
      | with_reducible refine enqueueDescriptor_keeps ?_ _ _

theorem State.drainEvents_keeps (h : Keeps F s t) (a1) (p_out : F .out := by assumption) (p_dram : F .dram := by assumption) (p_hp : F .hp := by assumption) (p_rg : F .rg := by assumption) (p_tr : F .tr := by assumption) (p_cd : F .cd := by assumption) (p_lp : F .lp := by assumption) (p_sx : F .sx := by assumption) (p_mc : F .mc := by assumption) (p_bw : F .bw := by assumption) (p_ce : F .ce := by assumption) (p_fc : F .fc := by assumption) (p_pm : F .pm := by assumption) : Keeps F s (t.drainEvents a1) := by
  induction a1 generalizing t  with
  | zero => unfold State.drainEvents; with_reducible exact h
  | succ _ ih =>
    unfold State.drainEvents
    repeat' first | with_reducible assumption | with_reducible refine ih ?_ | with_reducible refine queueEventCount_keeps ?_

theorem State.quiesce_keeps (h : Keeps F s t) (p_out : F .out := by assumption) (p_fresh : F .fresh := by assumption) (p_dram : F .dram := by assumption) (p_hp : F .hp := by assumption) (p_rr : F .rr := by assumption) (p_rg : F .rg := by assumption) (p_ns : F .ns := by assumption) (p_tr : F .tr := by assumption) (p_cd : F .cd := by assumption) (p_lp : F .lp := by assumption) (p_sx : F .sx := by assumption) (p_mc : F .mc := by assumption) (p_bw : F .bw := by assumption) (p_qe : F .qe := by assumption) (p_ce : F .ce := by assumption) (p_mb : F .mb := by assumption) (p_fc : F .fc := by assumption) (p_pm : F .pm := by assumption) : Keeps F s t.quiesce := by
  unfold State.quiesce
  try dsimp only
  repeat' first
    | with_reducible assumption | intro _ | with_reducible refine State.settleFetches_keeps ?_
    | with_reducible refine State.drainPosted_keeps ?_ _ _ | with_reducible refine State.drainEvents_keeps ?_ _
    | with_reducible refine Keeps.foldl (fun _ _ _ => ?_) _ ?_

theorem State.openGap_keeps (h : Keeps F s t) (deep) (p_ce : F .ce := by assumption) : Keeps F s (State.openGap t deep) := by
  unfold State.openGap
  try dsimp only
  repeat' first
    | with_reducible assumption | simp only [keeps_upd, p_ce, or_true, true_or, length_lmod, length_lset, List.length_map]
    | dsimp only | intro _

theorem State.flushCaches_keeps (h : Keeps F s t) (p_out : F .out := by assumption) (p_dram : F .dram := by assumption)
    (p_rg : F .rg := by assumption) (p_ns : F .ns := by assumption) (p_tr : F .tr := by assumption)
    (p_cd : F .cd := by assumption) (p_lp : F .lp := by assumption) (p_sx : F .sx := by assumption)
    (p_mc : F .mc := by assumption) (p_bw : F .bw := by assumption) (p_ce : F .ce := by assumption)
    (p_fc : F .fc := by assumption) (p_pm : F .pm := by assumption) : Keeps F s (State.flushCaches t) := by
  unfold State.flushCaches
  try dsimp only
  repeat' first
    | with_reducible assumption | with_reducible refine State.nsBack_keeps ?_ _ _ | with_reducible refine State.ceBack_keeps ?_ _
    | with_reducible refine State.metaBack_keeps ?_ _ | with_reducible refine Keeps.foldl (fun _ _ _ => ?_) _ ?_
    | with_reducible refine Keeps.foldlP (fun _ _ _ => ?_) _ ?_ | with_reducible refine Keeps.ite (fun _ => ?_) (fun _ => ?_)
    | with_reducible refine Keeps.iteP (fun _ => ?_) (fun _ => ?_)
    | simp only [keeps_upd, p_out, p_dram, p_rg, p_ns, p_tr, p_cd, p_lp, p_sx, p_mc, p_bw, p_ce, p_fc, p_pm, or_true, true_or, length_lmod, length_lset, List.length_map]
    | split | dsimp only | intro _

theorem State.dropHeads_keeps (h : Keeps F s t) (p_qe : F .qe := by assumption) : Keeps F s t.dropHeads := by
  unfold State.dropHeads
  repeat' first | with_reducible assumption | simp only [keeps_upd, p_qe, or_true, true_or, length_lmod, length_lset, List.length_map]

theorem State.pwEnterDone_keeps (h : Keeps F s t) (p_out : F .out := by assumption) (p_fresh : F .fresh := by assumption) (p_dram : F .dram := by assumption) (p_hp : F .hp := by assumption) (p_rr : F .rr := by assumption) (p_rg : F .rg := by assumption) (p_ns : F .ns := by assumption) (p_tr : F .tr := by assumption) (p_cd : F .cd := by assumption) (p_lp : F .lp := by assumption) (p_sx : F .sx := by assumption) (p_mc : F .mc := by assumption) (p_bw : F .bw := by assumption) (p_qe : F .qe := by assumption) (p_ce : F .ce := by assumption) (p_mb : F .mb := by assumption) (p_fc : F .fc := by assumption) (p_pw : F .pw := by assumption) (p_pm : F .pm := by assumption) : Keeps F s t.pwEnterDone := by
  unfold State.pwEnterDone
  try dsimp only
  repeat' first
    | with_reducible assumption | intro _ | with_reducible refine State.quiesce_keeps ?_
    | with_reducible refine State.openGap_keeps ?_ _ | with_reducible refine State.dropHeads_keeps ?_
    | with_reducible refine State.flushCaches_keeps ?_ | with_reducible refine State.endOp_keeps ?_ _ _ _
    | with_reducible refine State.modOp_keeps ?_ _ _ | with_reducible refine Keeps.ite (fun _ => ?_) (fun _ => ?_)
    | simp only [keeps_upd, p_out, p_fresh, p_dram, p_hp, p_rr, p_rg, p_ns, p_tr, p_cd, p_lp, p_sx, p_mc, p_bw, p_qe, p_ce, p_mb, p_fc, p_pw, p_pm, or_true, true_or, length_lmod, length_lset, List.length_map]
    | split

theorem State.abandonEntry_keeps (h : Keeps F s t) (p_out : F .out := by assumption) (p_hp : F .hp := by assumption) (p_qe : F .qe := by assumption) (p_sc : F .sc := by assumption) (p_mb : F .mb := by assumption) (p_pw : F .pw := by assumption) (p_pm : F .pm := by assumption) : Keeps F s t.abandonEntry.1 := by
  unfold State.abandonEntry
  try dsimp only
  repeat' first
    | with_reducible assumption | intro _ | with_reducible refine State.schedSync_keeps ?_
    | with_reducible refine State.endOp_keeps ?_ _ _ _ | with_reducible refine Keeps.ite (fun _ => ?_) (fun _ => ?_)
    | with_reducible refine Keeps.iteP (fun _ => ?_) (fun _ => ?_)
    | simp only [keeps_upd, p_out, p_hp, p_qe, p_sc, p_mb, p_pw, p_pm, or_true, true_or, length_lmod, length_lset, List.length_map]
    | split

theorem State.sleepLink_keeps (h : Keeps F s t) (f) (p_out : F .out := by assumption) (p_fresh : F .fresh := by assumption)
    (p_dram : F .dram := by assumption) (p_hp : F .hp := by assumption) (p_rr : F .rr := by assumption)
    (p_rg : F .rg := by assumption) (p_ns : F .ns := by assumption) (p_tr : F .tr := by assumption)
    (p_cd : F .cd := by assumption) (p_lp : F .lp := by assumption) (p_sx : F .sx := by assumption)
    (p_mc : F .mc := by assumption) (p_bw : F .bw := by assumption) (p_qe : F .qe := by assumption)
    (p_sc : F .sc := by assumption) (p_ce : F .ce := by assumption) (p_mb : F .mb := by assumption)
    (p_fc : F .fc := by assumption) (p_pm : F .pm := by assumption) : Keeps F s (State.sleepLink t f) := by
  unfold State.sleepLink
  try dsimp only
  repeat' first
    | with_reducible assumption | with_reducible refine State.modFn_keeps ?_ _ _ | with_reducible refine State.failPushes_keeps ?_ _
    | with_reducible refine State.dropHeld_keeps ?_ _ | with_reducible refine State.snoopsGone_keeps ?_ _
    | with_reducible refine State.peerPath_keeps ?_ _ | with_reducible refine Keeps.ite (fun _ => ?_) (fun _ => ?_)
    | with_reducible refine Keeps.iteP (fun _ => ?_) (fun _ => ?_) | split | dsimp only | intro _

theorem State.powerOff_keeps (h : Keeps F s t) (p_out : F .out := by assumption) (p_fresh : F .fresh := by assumption) (p_dram : F .dram := by assumption) (p_hp : F .hp := by assumption) (p_rr : F .rr := by assumption) (p_rg : F .rg := by assumption) (p_ns : F .ns := by assumption) (p_tr : F .tr := by assumption) (p_cd : F .cd := by assumption) (p_lp : F .lp := by assumption) (p_sx : F .sx := by assumption) (p_mc : F .mc := by assumption) (p_bw : F .bw := by assumption) (p_qe : F .qe := by assumption) (p_sc : F .sc := by assumption) (p_ce : F .ce := by assumption) (p_mb : F .mb := by assumption) (p_fc : F .fc := by assumption) (p_pw : F .pw := by assumption) (p_ck : F .ck := by assumption) (p_pm : F .pm := by assumption) :
    Keeps F s t.powerOff := by
  unfold State.powerOff
  try dsimp only
  repeat' first
    | with_reducible assumption | intro _ | with_reducible refine State.sleepLink_keeps ?_ _
    | with_reducible refine Keeps.foldl (fun _ _ _ => ?_) _ ?_
    | simp only [keeps_upd, p_out, p_fresh, p_dram, p_hp, p_rr, p_rg, p_ns, p_tr, p_cd, p_lp, p_sx, p_mc, p_bw, p_qe, p_sc, p_ce, p_mb, p_fc, p_pw, p_ck, p_pm, or_true, true_or, length_lmod, length_lset, List.length_map]
    | with_reducible refine Keeps.updCells ?_ (fun _ => rfl)

theorem powerStateReached_keeps (h : Keeps F s t) (p_out : F .out := by assumption) (p_fresh : F .fresh := by assumption)
    (p_dram : F .dram := by assumption) (p_hp : F .hp := by assumption) (p_rr : F .rr := by assumption)
    (p_rg : F .rg := by assumption) (p_ns : F .ns := by assumption) (p_tr : F .tr := by assumption)
    (p_cd : F .cd := by assumption) (p_lp : F .lp := by assumption) (p_sx : F .sx := by assumption)
    (p_mc : F .mc := by assumption) (p_bw : F .bw := by assumption) (p_qe : F .qe := by assumption)
    (p_sc : F .sc := by assumption) (p_ce : F .ce := by assumption) (p_mb : F .mb := by assumption)
    (p_fc : F .fc := by assumption) (p_pw : F .pw := by assumption) (p_ck : F .ck := by assumption)
    (p_pm : F .pm := by assumption) : Keeps F s (powerStateReached t) := by
  unfold powerStateReached
  try dsimp only
  repeat' first
    | with_reducible assumption | with_reducible refine State.powerOff_keeps ?_ | with_reducible refine State.selfRefresh_keeps ?_
    | with_reducible refine State.modFn_keeps ?_ _ _ | with_reducible refine State.withDomains_keeps ?_ _
    | with_reducible refine State.sleepLink_keeps ?_ _ | with_reducible refine State.beginWake_keeps ?_ _
    | with_reducible refine Keeps.foldl (fun _ _ _ => ?_) _ ?_ | with_reducible refine Keeps.foldlP (fun _ _ _ => ?_) _ ?_
    | with_reducible refine Keeps.ite (fun _ => ?_) (fun _ => ?_) | with_reducible refine Keeps.iteP (fun _ => ?_) (fun _ => ?_)
    | simp only [keeps_upd, p_out, p_fresh, p_dram, p_hp, p_rr, p_rg, p_ns, p_tr, p_cd, p_lp, p_sx, p_mc, p_bw, p_qe, p_sc, p_ce, p_mb, p_fc, p_pw, p_ck, p_pm, or_true, true_or, length_lmod, length_lset, List.length_map]
    | split | dsimp only | intro _

theorem State.schedGone_keeps (h : Keeps F s t) (p_sc : F .sc := by assumption) : Keeps F s t.schedGone := by
  unfold State.schedGone
  repeat' first | with_reducible assumption | simp only [keeps_upd, p_sc, or_true, true_or, length_lmod, length_lset, List.length_map]

theorem State.tablesGone_keeps (h : Keeps F s t) (p_rg : F .rg := by assumption) (p_tr : F .tr := by assumption) (p_cd : F .cd := by assumption) (p_bw : F .bw := by assumption) (p_fc : F .fc := by assumption) : Keeps F s t.tablesGone := by
  unfold State.tablesGone
  repeat' first
    | with_reducible assumption | with_reducible refine State.rescale_keeps ?_
    | simp only [keeps_upd, p_rg, p_tr, p_cd, p_bw, p_fc, or_true, true_or, length_lmod, length_lset, List.length_map]

theorem State.shadowGone_keeps (h : Keeps F s t) (p_hp : F .hp := by assumption) (p_ns : F .ns := by assumption) (p_mc : F .mc := by assumption) (p_ce : F .ce := by assumption) (p_fc : F .fc := by assumption) (p_pm : F .pm := by assumption) :
    Keeps F s t.shadowGone := by
  unfold State.shadowGone
  repeat' first
    | with_reducible assumption
    | simp only [keeps_upd, p_hp, p_ns, p_mc, p_ce, p_fc, p_pm, or_true, true_or, length_lmod, length_lset, List.length_map]

theorem State.porGroups_keeps (h : Keeps F s t) (lost) (p_hp : F .hp := by assumption) (p_rg : F .rg := by assumption)
    (p_ns : F .ns := by assumption) (p_tr : F .tr := by assumption) (p_cd : F .cd := by assumption)
    (p_mc : F .mc := by assumption) (p_bw : F .bw := by assumption) (p_sc : F .sc := by assumption)
    (p_ce : F .ce := by assumption) (p_fc : F .fc := by assumption) (p_pm : F .pm := by assumption)
    : Keeps F s (State.porGroups t lost) := by
  unfold State.porGroups
  try dsimp only
  repeat' first
    | with_reducible assumption | with_reducible refine State.schedGone_keeps ?_ | with_reducible refine State.tablesGone_keeps ?_
    | with_reducible refine State.shadowGone_keeps ?_ | with_reducible refine Keeps.ite (fun _ => ?_) (fun _ => ?_)
    | with_reducible refine Keeps.iteP (fun _ => ?_) (fun _ => ?_) | split | dsimp only | intro _

theorem State.epochsUp_keeps (h : Keeps F s t) (p_pw : F .pw := by assumption) : Keeps F s t.epochsUp := by
  unfold State.epochsUp
  repeat' first
    | with_reducible assumption | intro _ | with_reducible refine Keeps.foldl (fun _ _ _ => ?_) _ ?_
    | simp only [keeps_upd, p_pw, or_true, true_or, length_lmod, length_lset, List.length_map]

theorem State.closeGap_keeps (h : Keeps F s t) (interval) (coarse) (p_ce : F .ce := by assumption)
    : Keeps F s (State.closeGap t interval coarse) := by
  unfold State.closeGap
  try dsimp only
  repeat' first
    | with_reducible assumption | simp only [keeps_upd, p_ce, or_true, true_or, length_lmod, length_lset, List.length_map] | split
    | intro _

theorem State.applyUnretained_keeps (h : Keeps F s t) (p_fu : F .fu := by assumption) : Keeps F s (State.applyUnretained t) := by
  unfold State.applyUnretained
  try dsimp only
  repeat' first
    | with_reducible assumption | with_reducible refine State.applySoft_keeps ?_ _ _
    | with_reducible refine Keeps.foldl (fun _ _ _ => ?_) _ ?_ | with_reducible refine Keeps.foldlP (fun _ _ _ => ?_) _ ?_
    | dsimp only | intro _

theorem State.deepWake_keeps (h : Keeps F s t) (bad) (interval) (coarse) (p_out : F .out := by assumption)
    (p_fresh : F .fresh := by assumption) (p_dram : F .dram := by assumption) (p_hp : F .hp := by assumption)
    (p_rr : F .rr := by assumption) (p_rg : F .rg := by assumption) (p_ns : F .ns := by assumption)
    (p_tr : F .tr := by assumption) (p_cd : F .cd := by assumption) (p_lp : F .lp := by assumption)
    (p_fu : F .fu := by assumption) (p_sx : F .sx := by assumption) (p_mc : F .mc := by assumption)
    (p_bw : F .bw := by assumption) (p_qe : F .qe := by assumption) (p_sc : F .sc := by assumption)
    (p_tu : F .tu := by assumption) (p_ce : F .ce := by assumption) (p_mb : F .mb := by assumption)
    (p_fc : F .fc := by assumption) (p_pw : F .pw := by assumption) (p_ck : F .ck := by assumption)
    (p_pm : F .pm := by assumption) : Keeps F s (State.deepWake t bad interval coarse) := by
  unfold State.deepWake
  try dsimp only
  repeat' first
    | with_reducible assumption | with_reducible refine State.applyUnretained_keeps ?_
    | with_reducible refine State.keyLost_keeps ?_ | with_reducible refine State.report_keeps ?_ _ _ _
    | with_reducible refine State.porGroups_keeps ?_ _ | with_reducible refine State.epochsUp_keeps ?_
    | with_reducible refine Keeps.ite (fun _ => ?_) (fun _ => ?_) | with_reducible refine Keeps.iteP (fun _ => ?_) (fun _ => ?_)
    | simp only [keeps_upd, p_out, p_fresh, p_dram, p_hp, p_rr, p_rg, p_ns, p_tr, p_cd, p_lp, p_fu, p_sx, p_mc, p_bw, p_qe, p_sc, p_tu, p_ce, p_mb, p_fc, p_pw, p_ck, p_pm, or_true, true_or, length_lmod, length_lset, List.length_map]
    | split | dsimp only | intro _

theorem State.wakeUp_keeps (h : Keeps F s t) (bad) (failed) (p_out : F .out := by assumption)
    (p_fresh : F .fresh := by assumption) (p_dram : F .dram := by assumption) (p_hp : F .hp := by assumption)
    (p_rr : F .rr := by assumption) (p_rg : F .rg := by assumption) (p_ns : F .ns := by assumption)
    (p_tr : F .tr := by assumption) (p_cd : F .cd := by assumption) (p_lp : F .lp := by assumption)
    (p_fu : F .fu := by assumption) (p_sx : F .sx := by assumption) (p_mc : F .mc := by assumption)
    (p_bw : F .bw := by assumption) (p_qe : F .qe := by assumption) (p_sc : F .sc := by assumption)
    (p_tu : F .tu := by assumption) (p_ce : F .ce := by assumption) (p_mb : F .mb := by assumption)
    (p_fc : F .fc := by assumption) (p_pw : F .pw := by assumption) (p_ck : F .ck := by assumption)
    (p_pm : F .pm := by assumption) : Keeps F s (State.wakeUp t bad failed) := by
  unfold State.wakeUp
  try dsimp only
  repeat' first
    | with_reducible assumption | with_reducible refine State.drawn_keeps ?_ | with_reducible refine State.deepWake_keeps ?_ _ _ _
    | with_reducible refine State.closeGap_keeps ?_ _ _ | with_reducible refine State.leaveSelfRefresh_keeps ?_
    | with_reducible refine State.fence_keeps ?_ _ _ | with_reducible refine State.withDomains_keeps ?_ _
    | with_reducible refine State.schedWake_keeps ?_ _ _ | with_reducible refine Com.regions_keeps ?_ _
    | with_reducible refine State.backToL0_keeps ?_ _ | with_reducible refine State.releaseHeld_keeps ?_ _
    | with_reducible refine State.report_keeps ?_ _ _ _ | with_reducible refine State.count_keeps ?_ _ _ _
    | with_reducible refine pwWake_keeps ?_ _ _ | with_reducible refine State.modOp_keeps ?_ _ _
    | with_reducible refine State.endOp_keeps ?_ _ _ _ | with_reducible refine Keeps.foldl (fun _ _ _ => ?_) _ ?_
    | with_reducible refine Keeps.foldlP (fun _ _ _ => ?_) _ ?_ | with_reducible refine Keeps.ite (fun _ => ?_) (fun _ => ?_)
    | with_reducible refine Keeps.iteP (fun _ => ?_) (fun _ => ?_)
    | simp only [keeps_upd, p_out, p_fresh, p_dram, p_hp, p_rr, p_rg, p_ns, p_tr, p_cd, p_lp, p_fu, p_sx, p_mc, p_bw, p_qe, p_sc, p_tu, p_ce, p_mb, p_fc, p_pw, p_ck, p_pm, or_true, true_or, length_lmod, length_lset, List.length_map]
    | split | dsimp only | intro _

theorem pwWake_keeps (h : Keeps F s t) (a1) (a2) (p_mb : F .mb := by assumption) : Keeps F s (pwWake a1 a2 t).1 := by
  unfold pwWake
  try dsimp only
  repeat' first
    | with_reducible assumption | with_reducible refine State.startBg_keeps ?_ _ _ _ _ _ _
    | with_reducible refine Keeps.ite (fun _ => ?_) (fun _ => ?_) | with_reducible refine Keeps.iteP (fun _ => ?_) (fun _ => ?_)
    | split | dsimp only | intro _

theorem wakeN_keeps (h : Keeps F s t) (p_pw : F .pw := by assumption) : Keeps F s (wakeN t) := by
  unfold wakeN
  try dsimp only
  repeat' first
    | with_reducible assumption | with_reducible refine State.beginWake_keeps ?_ _
    | simp only [keeps_upd, p_pw, or_true, true_or, length_lmod, length_lset, List.length_map] | split | intro _

theorem hostWake_keeps (h : Keeps F s t) (f) (access) (p_hp : F .hp := by assumption) (p_pw : F .pw := by assumption)
    : Keeps F s (hostWake f access t) := by
  unfold hostWake
  try dsimp only
  repeat' first
    | with_reducible assumption | with_reducible refine State.beginWake_keeps ?_ _ | with_reducible refine State.modFn_keeps ?_ _ _
    | with_reducible refine Keeps.ite (fun _ => ?_) (fun _ => ?_) | with_reducible refine Keeps.iteP (fun _ => ?_) (fun _ => ?_)
    | split | dsimp only | intro _

theorem idleEntry_keeps (h : Keeps F s t) (p_now : F .now := by assumption) (p_tu : F .tu := by assumption)
    (p_pw : F .pw := by assumption) (p_ck : F .ck := by assumption) (p_pm : F .pm := by assumption) : Keeps F s (idleEntry t) := by
  unfold idleEntry
  try dsimp only
  repeat' first
    | with_reducible assumption | with_reducible refine State.advance_keeps ?_ _
    | with_reducible refine State.setDomain_keeps ?_ _ _ | with_reducible refine State.count_keeps ?_ _ _ _
    | with_reducible refine Keeps.ite (fun _ => ?_) (fun _ => ?_) | with_reducible refine Keeps.iteP (fun _ => ?_) (fun _ => ?_)
    | simp only [keeps_upd, p_now, p_tu, p_pw, p_ck, p_pm, or_true, true_or, length_lmod, length_lset, List.length_map] | split
    | dsimp only | intro _

theorem droopDetect_keeps (h : Keeps F s t) (present) (p_fc : F .fc := by assumption) (p_pw : F .pw := by assumption)
    : Keeps F s (droopDetect present t) := by
  unfold droopDetect
  try dsimp only
  repeat' first
    | with_reducible assumption | with_reducible refine State.report_keeps ?_ _ _ _
    | with_reducible refine Keeps.ite (fun _ => ?_) (fun _ => ?_) | with_reducible refine Keeps.iteP (fun _ => ?_) (fun _ => ?_)
    | simp only [keeps_upd, p_fc, p_pw, or_true, true_or, length_lmod, length_lset, List.length_map] | split | dsimp only | intro _

theorem pwrFailLow_keeps (h : Keeps F s t) (p_fc : F .fc := by assumption) (p_pw : F .pw := by assumption)
    : Keeps F s (pwrFailLow t) := by
  unfold pwrFailLow
  try dsimp only
  repeat' first
    | with_reducible assumption | with_reducible refine State.report_keeps ?_ _ _ _
    | with_reducible refine Keeps.ite (fun _ => ?_) (fun _ => ?_) | with_reducible refine Keeps.iteP (fun _ => ?_) (fun _ => ?_)
    | simp only [keeps_upd, p_fc, p_pw, or_true, true_or, length_lmod, length_lset, List.length_map] | split | dsimp only | intro _

theorem pwrFailHigh_keeps (h : Keeps F s t) (p_pw : F .pw := by assumption) : Keeps F s (pwrFailHigh t) := by
  unfold pwrFailHigh
  try dsimp only
  repeat' first
    | with_reducible assumption | with_reducible refine State.cause_keeps ?_ _ _
    | simp only [keeps_upd, p_pw, or_true, true_or, length_lmod, length_lset, List.length_map] | split | dsimp only | intro _

theorem thermalSample_keeps (h : Keeps F s t) (temps) (p_fc : F .fc := by assumption) (p_pw : F .pw := by assumption)
    : Keeps F s (thermalSample temps t) := by
  unfold thermalSample
  try dsimp only
  repeat' first
    | with_reducible assumption | with_reducible refine State.report_keeps ?_ _ _ _
    | with_reducible refine Keeps.foldl (fun _ _ _ => ?_) _ ?_ | with_reducible refine Keeps.foldlP (fun _ _ _ => ?_) _ ?_
    | with_reducible refine Keeps.ite (fun _ => ?_) (fun _ => ?_) | with_reducible refine Keeps.iteP (fun _ => ?_) (fun _ => ?_)
    | simp only [keeps_upd, p_fc, p_pw, or_true, true_or, length_lmod, length_lset, List.length_map] | split | dsimp only | intro _

theorem pllUnlock_keeps (h : Keeps F s t) (memory) (p_fc : F .fc := by assumption) (p_ck : F .ck := by assumption)
    : Keeps F s (pllUnlock memory t) := by
  unfold pllUnlock
  try dsimp only
  repeat' first
    | with_reducible assumption | with_reducible refine State.report_keeps ?_ _ _ _
    | with_reducible refine Keeps.ite (fun _ => ?_) (fun _ => ?_) | with_reducible refine Keeps.iteP (fun _ => ?_) (fun _ => ?_)
    | simp only [keeps_upd, p_fc, p_ck, or_true, true_or, length_lmod, length_lset, List.length_map] | split | dsimp only | intro _

theorem crystalStop_keeps (h : Keeps F s t) (p_fc : F .fc := by assumption) (p_pw : F .pw := by assumption)
    (p_ck : F .ck := by assumption) : Keeps F s (crystalStop t) := by
  unfold crystalStop
  try dsimp only
  repeat' first
    | with_reducible assumption | with_reducible refine pllUnlock_keeps ?_ _
    | with_reducible refine Keeps.ite (fun _ => ?_) (fun _ => ?_) | with_reducible refine Keeps.iteP (fun _ => ?_) (fun _ => ?_)
    | simp only [keeps_upd, p_fc, p_pw, p_ck, or_true, true_or, length_lmod, length_lset, List.length_map] | split | dsimp only
    | intro _

theorem vddqDip_keeps (h : Keeps F s t) (p_sx : F .sx := by assumption) : Keeps F s (vddqDip t) := by
  unfold vddqDip
  try dsimp only
  repeat' first
    | with_reducible assumption | with_reducible refine Keeps.ite (fun _ => ?_) (fun _ => ?_)
    | with_reducible refine Keeps.iteP (fun _ => ?_) (fun _ => ?_)
    | simp only [keeps_upd, p_sx, or_true, true_or, length_lmod, length_lset, List.length_map] | split | intro _

theorem vddSramDip_keeps (h : Keeps F s t) (groups) (p_pw : F .pw := by assumption) : Keeps F s (vddSramDip groups t) := by
  unfold vddSramDip
  try dsimp only
  repeat' first
    | with_reducible assumption | with_reducible refine Keeps.ite (fun _ => ?_) (fun _ => ?_)
    | with_reducible refine Keeps.iteP (fun _ => ?_) (fun _ => ?_)
    | simp only [keeps_upd, p_pw, or_true, true_or, length_lmod, length_lset, List.length_map] | split | intro _

theorem trstChange_keeps (h : Keeps F s t) (high) (p_pw : F .pw := by assumption) (p_ck : F .ck := by assumption)
    (p_pm : F .pm := by assumption) : Keeps F s (trstChange high t) := by
  unfold trstChange
  try dsimp only
  repeat' first
    | with_reducible assumption | with_reducible refine State.setDomain_keeps ?_ _ _
    | with_reducible refine Keeps.ite (fun _ => ?_) (fun _ => ?_) | with_reducible refine Keeps.iteP (fun _ => ?_) (fun _ => ?_)
    | simp only [keeps_upd, p_pw, p_ck, p_pm, or_true, true_or, length_lmod, length_lset, List.length_map] | split | dsimp only
    | intro _

theorem porAssert_keeps (h : Keeps F s t) (p_out : F .out := by assumption) (p_fresh : F .fresh := by assumption) (p_now : F .now := by assumption) (p_dram : F .dram := by assumption) (p_hp : F .hp := by assumption) (p_rr : F .rr := by assumption) (p_rg : F .rg := by assumption) (p_ns : F .ns := by assumption) (p_tr : F .tr := by assumption) (p_cd : F .cd := by assumption) (p_lp : F .lp := by assumption) (p_fu : F .fu := by assumption) (p_sx : F .sx := by assumption) (p_mc : F .mc := by assumption) (p_bw : F .bw := by assumption) (p_qe : F .qe := by assumption) (p_sc : F .sc := by assumption) (p_tu : F .tu := by assumption) (p_ce : F .ce := by assumption) (p_mb : F .mb := by assumption) (p_fc : F .fc := by assumption) (p_pw : F .pw := by assumption) (p_ck : F .ck := by assumption) (p_pm : F .pm := by assumption) :
    Keeps F s (porAssert t) := by
  unfold porAssert
  exact h.trans ⟨rfl, fun p x => by cases p <;> first | rfl | exact absurd (by assumption) x,
    List.prefix_refl _, le_refl _, le_refl _, le_refl _, List.prefix_refl _, fun x => ⟨rfl, rfl, rfl, rfl⟩⟩

theorem porRelease_keeps (h : Keeps F s t) (straps) (p_hp : F .hp := by assumption) (p_fc : F .fc := by assumption) (p_pw : F .pw := by assumption) : Keeps F s (porRelease straps t) := by
  unfold porRelease
  refine Keeps.ite (fun _ => h) (fun _ => ?_)
  dsimp only
  have h1 : Keeps F s ({ t with
      hp := { t.hp with straps := straps, fns := (List.range 4).map (fun f =>
        { t.fnAt f with exist := decide (f % 2 = 0) || straps.getLsbD (f / 2) }) }
      pw := { t.pw with cold := .step 0, porAt := some t.now } } : State) :=
    h.trans ⟨rfl, fun p x => by cases p <;> first | rfl | exact absurd (by assumption) x,
      List.prefix_refl _, le_refl _, le_refl _, le_refl _, List.prefix_refl _, fun x => ⟨rfl, x.ports, x.chans, x.cells⟩⟩
  exact Keeps.ite (fun _ => State.report_keeps h1 _ _ _) (fun _ => h1)

theorem State.applyNote_keeps (h : Keeps F s t) (n) (p_lp : F .lp := by assumption) (p_fu : F .fu := by assumption)
    : Keeps F s (State.applyNote t n) := by
  unfold State.applyNote
  try dsimp only
  repeat' first
    | with_reducible assumption | with_reducible refine softPpr_keeps ?_ _ | with_reducible refine State.retire_keeps ?_ _ _
    | with_reducible refine Com.bind_keeps ?_ _ | with_reducible refine State.applySoft_keeps ?_ _ _
    | with_reducible refine Keeps.ite (fun _ => ?_) (fun _ => ?_) | with_reducible refine Keeps.iteP (fun _ => ?_) (fun _ => ?_)
    | simp only [keeps_upd, p_lp, p_fu, or_true, true_or, length_lmod, length_lset, List.length_map] | split | dsimp only | intro _

theorem State.findDimms_keeps (h : Keeps F s t) (pops) (board) (p_mc : F .mc := by assumption) (p_fc : F .fc := by assumption)
    (p_ck : F .ck := by assumption) (p_pm : F .pm := by assumption) : Keeps F s (State.findDimms t pops board) := by
  unfold State.findDimms
  try dsimp only
  repeat' first
    | with_reducible assumption | with_reducible refine State.modChan_keeps ?_ _ _
    | with_reducible refine State.setDomain_keeps ?_ _ _ | with_reducible refine State.report_keeps ?_ _ _ _
    | with_reducible refine Keeps.foldl (fun _ _ _ => ?_) _ ?_ | with_reducible refine Keeps.foldlP (fun _ _ _ => ?_) _ ?_
    | with_reducible refine Keeps.ite (fun _ => ?_) (fun _ => ?_) | with_reducible refine Keeps.iteP (fun _ => ?_) (fun _ => ?_)
    | simp only [keeps_upd, p_mc, p_fc, p_ck, p_pm, or_true, true_or, length_lmod, length_lset, List.length_map] | split
    | dsimp only | intro _

theorem State.initMedia_keeps (h : Keeps F s t) (p_fresh : F .fresh := by assumption) (p_rg : F .rg := by assumption) (p_lp : F .lp := by assumption) (p_fu : F .fu := by assumption) (p_sx : F .sx := by assumption) (p_bw : F .bw := by assumption) (p_fc : F .fc := by assumption) (p_pw : F .pw := by assumption) : Keeps F s t.initMedia := by
  unfold State.initMedia
  try dsimp only
  repeat' first
    | with_reducible assumption | intro _ | with_reducible refine State.drawKey_keeps ?_ _
    | with_reducible refine State.report_keeps ?_ _ _ _ | with_reducible refine State.rescale_keeps ?_
    | with_reducible refine State.applyNote_keeps ?_ _ | with_reducible refine Keeps.foldl (fun _ _ _ => ?_) _ ?_
    | with_reducible refine Keeps.foldlP (fun _ _ _ => ?_) _ ?_ | with_reducible refine Keeps.ite (fun _ => ?_) (fun _ => ?_)
    | with_reducible refine Keeps.iteP (fun _ => ?_) (fun _ => ?_)
    | simp only [keeps_upd, p_fresh, p_rg, p_lp, p_fu, p_sx, p_bw, p_fc, p_pw, or_true, true_or, length_lmod, length_lset, List.length_map]
    | split

theorem State.startDone_keeps (h : Keeps F s t) (p_out : F .out := by assumption) (p_lp : F .lp := by assumption)
    (p_fu : F .fu := by assumption) (p_mb : F .mb := by assumption) (p_pw : F .pw := by assumption)
    (p_ck : F .ck := by assumption) (p_pm : F .pm := by assumption) : Keeps F s (State.startDone t) := by
  unfold State.startDone
  try dsimp only
  repeat' first
    | with_reducible assumption | with_reducible refine State.emit_keeps ?_ _ | with_reducible refine State.setDomain_keeps ?_ _ _
    | with_reducible refine Keeps.ite (fun _ => ?_) (fun _ => ?_) | with_reducible refine Keeps.iteP (fun _ => ?_) (fun _ => ?_)
    | simp only [keeps_upd, p_out, p_lp, p_fu, p_mb, p_pw, p_ck, p_pm, or_true, true_or, length_lmod, length_lset, List.length_map]
    | split
    | with_reducible refine Keeps.updFu ?_ (by first | exact le_refl _ | exact Nat.sub_le _ _) (by first | exact le_refl _ | exact le_max_left _ _) (by first | exact List.prefix_refl _ | exact List.prefix_append _ _)
    | dsimp only | intro _

theorem State.coldTo_keeps (h : Keeps F s t) (n) (p_pw : F .pw := by assumption) : Keeps F s (State.coldTo t n) := by
  unfold State.coldTo
  try dsimp only
  repeat' first
    | with_reducible assumption | simp only [keeps_upd, p_pw, or_true, true_or, length_lmod, length_lset, List.length_map] | intro _

theorem State.startClocks_keeps (h : Keeps F s t) (p_mb : F .mb := by assumption) (p_pw : F .pw := by assumption)
    (p_ck : F .ck := by assumption) : Keeps F s (State.startClocks t) := by
  unfold State.startClocks
  try dsimp only
  repeat' first
    | with_reducible assumption | with_reducible refine State.coldTo_keeps ?_ _ | with_reducible refine State.withDomains_keeps ?_ _
    | simp only [keeps_upd, p_mb, p_pw, p_ck, or_true, true_or, length_lmod, length_lset, List.length_map] | dsimp only | intro _

theorem coldStartStep_keeps (h : Keeps F s t) (i) (p_out : F .out := by assumption) (p_fresh : F .fresh := by assumption)
    (p_now : F .now := by assumption) (p_rg : F .rg := by assumption) (p_lp : F .lp := by assumption)
    (p_fu : F .fu := by assumption) (p_sx : F .sx := by assumption) (p_mc : F .mc := by assumption)
    (p_bw : F .bw := by assumption) (p_tu : F .tu := by assumption) (p_mb : F .mb := by assumption)
    (p_fc : F .fc := by assumption) (p_pw : F .pw := by assumption) (p_ck : F .ck := by assumption)
    (p_pm : F .pm := by assumption) : Keeps F s (coldStartStep i t) := by
  unfold coldStartStep
  try dsimp only
  repeat' first
    | with_reducible assumption | with_reducible refine State.coldTo_keeps ?_ _ | with_reducible refine State.pinSync_keeps ?_
    | with_reducible refine State.advance_keeps ?_ _ | with_reducible refine State.startClocks_keeps ?_
    | with_reducible refine State.findDimms_keeps ?_ _ _ | with_reducible refine State.initMedia_keeps ?_
    | with_reducible refine State.startDone_keeps ?_ | with_reducible refine Keeps.ite (fun _ => ?_) (fun _ => ?_)
    | with_reducible refine Keeps.iteP (fun _ => ?_) (fun _ => ?_)
    | simp only [keeps_upd, p_out, p_fresh, p_now, p_rg, p_lp, p_fu, p_sx, p_mc, p_bw, p_tu, p_mb, p_fc, p_pw, p_ck, p_pm, or_true, true_or, length_lmod, length_lset, List.length_map]
    | split | intro _

theorem pwQuery_keeps (h : Keeps F s t) (a1) (a2)  : Keeps F s (pwQuery a1 a2 t).1 := by
  unfold pwQuery
  try dsimp only
  repeat' first
    | with_reducible assumption | with_reducible refine Keeps.ite (fun _ => ?_) (fun _ => ?_)
    | with_reducible refine Keeps.iteP (fun _ => ?_) (fun _ => ?_) | split | dsimp only | intro _

end Sys2Proof.Machine
end

