-- ==== Sys2Proof/Laws/KeepsRegs.lean ====
section
/-! SUPPORT. What each operation of Machine/Regs.lean keeps: registers. -/

set_option Elab.async false

set_option linter.all false

namespace Sys2Proof.Machine
open Sys2Proof

variable {F : Part → Prop} {s t : State}

theorem State.readEffect_keeps (h : Keeps F s t) (n) (off) (p_fresh : F .fresh := by assumption) (p_sc : F .sc := by assumption)
    (p_tu : F .tu := by assumption) (p_mb : F .mb := by assumption) (p_ck : F .ck := by assumption)
    : Keeps F s (State.readEffect t n off) := by
  unfold State.readEffect
  try dsimp only
  repeat' first
    | with_reducible assumption | with_reducible refine State.drawn_keeps ?_ | with_reducible refine State.latchTime_keeps ?_
    | with_reducible refine Keeps.ite (fun _ => ?_) (fun _ => ?_) | with_reducible refine Keeps.iteP (fun _ => ?_) (fun _ => ?_)
    | simp only [keeps_upd, p_fresh, p_sc, p_tu, p_mb, p_ck, or_true, true_or, length_lmod, length_lset, List.length_map] | split
    | intro _

theorem State.readWords_keeps (h : Keeps F s t) (addr) (a2) (p_fresh : F .fresh := by assumption) (p_sc : F .sc := by assumption) (p_tu : F .tu := by assumption) (p_mb : F .mb := by assumption) (p_ck : F .ck := by assumption) :
    Keeps F s (t.readWords addr a2).1 := by
  induction a2 generalizing t addr with
  | zero => unfold State.readWords; with_reducible exact h
  | succ _ ih =>
    unfold State.readWords
    try dsimp only
    repeat' first | with_reducible assumption | with_reducible refine ih ?_ _ | with_reducible refine State.readEffect_keeps ?_ _ _

theorem State.putReg_keeps (h : Keeps F s t) (n) (off) (v) (p_ns : F .ns := by assumption) (p_tr : F .tr := by assumption)
    (p_cd : F .cd := by assumption) (p_lp : F .lp := by assumption) (p_sx : F .sx := by assumption)
    (p_mc : F .mc := by assumption) (p_qe : F .qe := by assumption) (p_tu : F .tu := by assumption)
    (p_mb : F .mb := by assumption) (p_fc : F .fc := by assumption) (p_pw : F .pw := by assumption)
    : Keeps F s (State.putReg t n off v) := by
  unfold State.putReg
  try dsimp only
  repeat' first
    | with_reducible assumption | with_reducible refine State.hardenRows_keeps ?_ | with_reducible refine State.poolCheck_keeps ?_
    | with_reducible refine State.modChan_keeps ?_ _ _ | with_reducible refine Keeps.ite (fun _ => ?_) (fun _ => ?_)
    | with_reducible refine Keeps.iteP (fun _ => ?_) (fun _ => ?_)
    | simp only [keeps_upd, p_ns, p_tr, p_cd, p_lp, p_sx, p_mc, p_qe, p_tu, p_mb, p_fc, p_pw, or_true, true_or, length_lmod, length_lset, List.length_map]
    | split | dsimp only | intro _

theorem State.writeWords_keeps (h : Keeps F s t) (addr) (d) (a3) (p_ns : F .ns := by assumption) (p_tr : F .tr := by assumption) (p_cd : F .cd := by assumption) (p_lp : F .lp := by assumption) (p_sx : F .sx := by assumption) (p_mc : F .mc := by assumption) (p_qe : F .qe := by assumption) (p_tu : F .tu := by assumption) (p_mb : F .mb := by assumption) (p_fc : F .fc := by assumption) (p_pw : F .pw := by assumption) : Keeps F s (t.writeWords addr d a3).1 := by
  induction a3 generalizing t addr d with
  | zero => unfold State.writeWords; with_reducible exact h
  | succ _ ih =>
    unfold State.writeWords
    try dsimp only
    repeat' first
      | with_reducible assumption | with_reducible refine ih ?_ _ _ | intro _ | with_reducible refine State.putReg_keeps ?_ _ _ _
      | with_reducible refine Keeps.ite (fun _ => ?_) (fun _ => ?_) | with_reducible refine Keeps.iteP (fun _ => ?_) (fun _ => ?_)
      | simp only [keeps_upd, p_ns, p_tr, p_cd, p_lp, p_sx, p_mc, p_qe, p_tu, p_mb, p_fc, p_pw, or_true, true_or, length_lmod, length_lset, List.length_map]
      | split

theorem diagCtrlRead_keeps (h : Keeps F s t) (a1) (a2) (p_fresh : F .fresh := by assumption) (p_sc : F .sc := by assumption)
    (p_tu : F .tu := by assumption) (p_mb : F .mb := by assumption) (p_ck : F .ck := by assumption)
    : Keeps F s (diagCtrlRead a1 a2 t).1 := by
  unfold diagCtrlRead
  try dsimp only
  repeat' first
    | with_reducible assumption | with_reducible refine State.readWords_keeps ?_ _ _
    | with_reducible refine State.direct_keeps ?_ _ _ _ _ _ | with_reducible refine Keeps.ite (fun _ => ?_) (fun _ => ?_)
    | with_reducible refine Keeps.iteP (fun _ => ?_) (fun _ => ?_) | split | dsimp only | intro _

theorem diagCtrlWrite_keeps (h : Keeps F s t) (a1) (a2) (p_ns : F .ns := by assumption) (p_tr : F .tr := by assumption)
    (p_cd : F .cd := by assumption) (p_lp : F .lp := by assumption) (p_sx : F .sx := by assumption)
    (p_mc : F .mc := by assumption) (p_qe : F .qe := by assumption) (p_tu : F .tu := by assumption)
    (p_mb : F .mb := by assumption) (p_fc : F .fc := by assumption) (p_pw : F .pw := by assumption)
    : Keeps F s (diagCtrlWrite a1 a2 t).1 := by
  unfold diagCtrlWrite
  try dsimp only
  repeat' first
    | with_reducible assumption | with_reducible refine State.writeWords_keeps ?_ _ _ _
    | with_reducible refine State.direct_keeps ?_ _ _ _ _ _ | with_reducible refine Keeps.ite (fun _ => ?_) (fun _ => ?_)
    | with_reducible refine Keeps.iteP (fun _ => ?_) (fun _ => ?_) | split | dsimp only | intro _

theorem doorbellWord_keeps (h : Keeps F s t) (f) (off) (v) (p_out : F .out := by assumption) (p_hp : F .hp := by assumption)
    (p_sc : F .sc := by assumption) (p_fc : F .fc := by assumption) (p_pw : F .pw := by assumption)
    (p_ck : F .ck := by assumption) (p_pm : F .pm := by assumption) : Keeps F s (doorbellWord f off v t) := by
  unfold doorbellWord
  try dsimp only
  repeat' first
    | with_reducible assumption | with_reducible refine fcrDoorbell_keeps ?_ _ _ | with_reducible refine intCauseWrite_keeps ?_ _ _
    | with_reducible refine intEnableWrite_keeps ?_ _ _ | with_reducible refine freeCons_keeps ?_ _ _ _
    | with_reducible refine egressCons_keeps ?_ _ _ _ | with_reducible refine Keeps.ite (fun _ => ?_) (fun _ => ?_)
    | with_reducible refine Keeps.iteP (fun _ => ?_) (fun _ => ?_) | split | intro _

theorem bar0Write_keeps (h : Keeps F s t) (f) (off) (size) (v) (p_out : F .out := by assumption) (p_hp : F .hp := by assumption)
    (p_qe : F .qe := by assumption) (p_sc : F .sc := by assumption) (p_ce : F .ce := by assumption)
    (p_mb : F .mb := by assumption) (p_fc : F .fc := by assumption) (p_pw : F .pw := by assumption)
    (p_ck : F .ck := by assumption) (p_pm : F .pm := by assumption) : Keeps F s (bar0Write f off size v t) := by
  unfold bar0Write
  try dsimp only
  repeat' first
    | with_reducible assumption | with_reducible refine State.badAccess_keeps ?_ _ _ _
    | with_reducible refine doorbellWord_keeps ?_ _ _ _ | with_reducible refine windowWrite_keeps ?_ _
    | with_reducible refine Keeps.ite (fun _ => ?_) (fun _ => ?_) | with_reducible refine Keeps.iteP (fun _ => ?_) (fun _ => ?_)
    | split | dsimp only | intro _

theorem cfgWrite_keeps (h : Keeps F s t) (f) (r) (v) (p_out : F .out := by assumption) (p_hp : F .hp := by assumption)
    : Keeps F s (cfgWrite f r v t) := by
  unfold cfgWrite
  try dsimp only
  repeat' first
    | with_reducible assumption | with_reducible refine State.modFn_keeps ?_ _ _ | with_reducible refine msixUnmask_keeps ?_ _ _
    | with_reducible refine decoderUncommit_keeps ?_ _ _ | with_reducible refine Keeps.ite (fun _ => ?_) (fun _ => ?_)
    | with_reducible refine Keeps.iteP (fun _ => ?_) (fun _ => ?_) | split | dsimp only | intro _

theorem registerWrite_keeps (h : Keeps F s t) (x_t) (size) (v) (p_out : F .out := by assumption) (p_hp : F .hp := by assumption)
    (p_ns : F .ns := by assumption) (p_tr : F .tr := by assumption) (p_cd : F .cd := by assumption)
    (p_lp : F .lp := by assumption) (p_sx : F .sx := by assumption) (p_mc : F .mc := by assumption)
    (p_qe : F .qe := by assumption) (p_sc : F .sc := by assumption) (p_tu : F .tu := by assumption)
    (p_ce : F .ce := by assumption) (p_mb : F .mb := by assumption) (p_fc : F .fc := by assumption)
    (p_pw : F .pw := by assumption) (p_ck : F .ck := by assumption) (p_pm : F .pm := by assumption)
    : Keeps F s (registerWrite x_t size v t) := by
  unfold registerWrite
  try dsimp only
  repeat' first
    | with_reducible assumption | with_reducible refine State.ioAccess_keeps ?_ _ _ ?_
    | with_reducible refine bar0Write_keeps ?_ _ _ _ _ | with_reducible refine cfgWrite_keeps ?_ _ _ _
    | with_reducible refine State.writeWords_keeps ?_ _ _ _ | with_reducible refine Keeps.ite (fun _ => ?_) (fun _ => ?_)
    | with_reducible refine Keeps.iteP (fun _ => ?_) (fun _ => ?_) | split | intro _

end Sys2Proof.Machine
end

