-- ==== Sys2Proof/Laws/KeepsCommit.lean ====
section
/-! SUPPORT. What each operation of Machine/Commit.lean keeps: a commit. -/

set_option Elab.async false

set_option linter.all false

namespace Sys2Proof.Machine
open Sys2Proof

variable {F : Part → Prop} {s t : State}

theorem Com.note_keeps {c : Com} (h : Keeps F s c.1) (kind) (source) (field) (obj) (given) (applied) (opcode) 
    : Keeps F s (Com.note c kind source field obj given applied opcode).1 := by
  unfold Com.note
  try dsimp only
  repeat' first
    | with_reducible assumption | intro _

theorem Com.noteIf_keeps {c : Com} (h : Keeps F s c.1) (kind) (source) (field) (obj) (given) (applied) (opcode) 
    : Keeps F s (Com.noteIf c kind source field obj given applied opcode).1 := by
  unfold Com.noteIf
  try dsimp only
  repeat' first
    | with_reducible assumption | with_reducible refine Com.note_keeps ?_ _ _ _ _ _ _ _
    | with_reducible refine Keeps.ite (fun _ => ?_) (fun _ => ?_) | with_reducible refine Keeps.iteP (fun _ => ?_) (fun _ => ?_)
    | split | intro _

theorem State.clearMedia_keeps (h : Keeps F s t) (r) (p_dram : F .dram := by assumption) (p_mc : F .mc := by assumption)
    : Keeps F s (State.clearMedia t r) := by
  unfold State.clearMedia
  try dsimp only
  repeat' first
    | with_reducible assumption | simp only [keeps_upd, p_dram, p_mc, or_true, true_or, length_lmod, length_lset, List.length_map]
    | with_reducible refine Keeps.updCells ?_ (mem_filter_wf _) | dsimp only | intro _

theorem State.removeRegion_keeps (h : Keeps F s t) (n) (p_out : F .out := by assumption) (p_fresh : F .fresh := by assumption)
    (p_dram : F .dram := by assumption) (p_hp : F .hp := by assumption) (p_rr : F .rr := by assumption)
    (p_rg : F .rg := by assumption) (p_ns : F .ns := by assumption) (p_tr : F .tr := by assumption)
    (p_cd : F .cd := by assumption) (p_lp : F .lp := by assumption) (p_sx : F .sx := by assumption)
    (p_mc : F .mc := by assumption) (p_bw : F .bw := by assumption) (p_ce : F .ce := by assumption)
    (p_fc : F .fc := by assumption) (p_pm : F .pm := by assumption) : Keeps F s (State.removeRegion t n) := by
  unfold State.removeRegion
  try dsimp only
  repeat' first
    | with_reducible assumption | with_reducible refine State.settle_keeps ?_ _ _
    | with_reducible refine State.clearMedia_keeps ?_ _ | with_reducible refine Com.regions_keeps ?_ _
    | with_reducible refine Keeps.foldl (fun _ _ _ => ?_) _ ?_ | with_reducible refine Keeps.foldlP (fun _ _ _ => ?_) _ ?_
    | simp only [keeps_upd, p_out, p_fresh, p_dram, p_hp, p_rr, p_rg, p_ns, p_tr, p_cd, p_lp, p_sx, p_mc, p_bw, p_ce, p_fc, p_pm, or_true, true_or, length_lmod, length_lset, List.length_map]
    | split | dsimp only | intro _

theorem Com.deleteRegion_keeps {c : Com} (h : Keeps F s c.1) (l) (x) (p_out : F .out := by assumption)
    (p_fresh : F .fresh := by assumption) (p_dram : F .dram := by assumption) (p_hp : F .hp := by assumption)
    (p_rr : F .rr := by assumption) (p_rg : F .rg := by assumption) (p_ns : F .ns := by assumption)
    (p_tr : F .tr := by assumption) (p_cd : F .cd := by assumption) (p_lp : F .lp := by assumption)
    (p_sx : F .sx := by assumption) (p_mc : F .mc := by assumption) (p_bw : F .bw := by assumption)
    (p_ce : F .ce := by assumption) (p_fc : F .fc := by assumption) (p_pm : F .pm := by assumption)
    : Keeps F s (Com.deleteRegion l c x).1 := by
  unfold Com.deleteRegion
  try dsimp only
  repeat' first
    | with_reducible assumption | with_reducible refine Com.note_keeps ?_ _ _ _ _ _ _ _
    | with_reducible refine State.removeRegion_keeps ?_ _ | with_reducible refine Keeps.ite (fun _ => ?_) (fun _ => ?_)
    | with_reducible refine Keeps.iteP (fun _ => ?_) (fun _ => ?_) | split | intro _

theorem Com.changeRegion_keeps {c : Com} (h : Keeps F s c.1) (x) (r) (p_rg : F .rg := by assumption)
    : Keeps F s (Com.changeRegion c x r).1 := by
  unfold Com.changeRegion
  try dsimp only
  repeat' first
    | with_reducible assumption | with_reducible refine Com.noteIf_keeps ?_ _ _ _ _ _ _ _
    | with_reducible refine State.modRegion_keeps ?_ _ _ | with_reducible refine Keeps.foldl (fun _ _ _ => ?_) _ ?_
    | with_reducible refine Keeps.foldlP (fun _ _ _ => ?_) _ ?_ | with_reducible refine Keeps.ite (fun _ => ?_) (fun _ => ?_)
    | with_reducible refine Keeps.iteP (fun _ => ?_) (fun _ => ?_) | split | dsimp only | intro _

theorem State.placeRegion_keeps {u : State} (h : Keeps F s t) (n) (r) (hu : t.placeRegion n r = some u)
    (p_rg : F .rg := by assumption) : Keeps F s u := by
  unfold State.placeRegion at hu
  have step : ∀ (l : List Nat) (a : Option State), (∀ v, a = some v → Keeps F s v) →
      ∀ v, l.foldl (fun (acc : Option State) (k : Nat) => acc.bind (fun s =>
        (s.placeExtent r.protect r.grain r.mask (r.ext k).size).map (fun x => s.modRegion n (fun r => r.setExt k x)))) a = some v →
      Keeps F s v := by
    intro l
    induction l with
    | nil => exact fun _ ha v hv => ha v hv
    | cons k l ih =>
      intro a ha v hv
      refine ih _ ?_ v hv
      intro w hw
      obtain ⟨y, hy, hw⟩ := Option.bind_eq_some_iff.1 hw
      obtain ⟨x, _, rfl⟩ := Option.map_eq_some_iff.1 hw
      exact State.modRegion_keeps (ha y hy) _ _
  obtain ⟨y, hy, hu⟩ := Option.bind_eq_some_iff.1 hu
  obtain ⟨x, _, rfl⟩ := Option.map_eq_some_iff.1 hu
  refine State.modRegion_keeps (step _ _ ?_ y hy) _ _
  intro v hv
  obtain rfl := Option.some.inj hv
  exact Keeps.upd h

theorem State.placeAll_keeps {u : State} (h : Keeps F s t) (a1) (hu : t.placeAll a1 = some u) (p_rg : F .rg := by assumption) :
    Keeps F s u := by
  induction a1 generalizing t with
  | nil => unfold State.placeAll at hu; obtain rfl := Option.some.inj hu; exact h
  | cons _ _ ih =>
    unfold State.placeAll at hu
    obtain ⟨v, hv, hu⟩ := Option.bind_eq_some_iff.1 hu
    exact ih (State.placeRegion_keeps h _ _ hv) hu

theorem State.placeFit_keeps (h : Keeps F s t) (l) (a2) (p_rg : F .rg := by assumption) : Keeps F s (t.placeFit l a2).1 := by
  induction a2 generalizing t l with
  | zero => unfold State.placeFit; with_reducible exact h
  | succ _ ih =>
    unfold State.placeFit
    repeat' first
      | with_reducible assumption | with_reducible refine ih ?_ _
      | with_reducible exact State.placeAll_keeps (by assumption) _ (by assumption)
      | simp only [keeps_upd, p_rg, or_true, true_or, length_lmod, length_lset, List.length_map] | (exact State.placeAll_keeps h _ ‹_›)
      | split

theorem Com.createRegions_keeps {c : Com} (h : Keeps F s c.1) (new) (l) (p_dram : F .dram := by assumption)
    (p_rg : F .rg := by assumption) (p_mc : F .mc := by assumption) : Keeps F s (Com.createRegions new l c).1 := by
  unfold Com.createRegions
  try dsimp only
  repeat' first
    | with_reducible assumption | with_reducible refine Com.noteIf_keeps ?_ _ _ _ _ _ _ _
    | with_reducible refine Com.note_keeps ?_ _ _ _ _ _ _ _
    | with_reducible exact State.placeRegion_keeps (by assumption) _ _ (by assumption)
    | with_reducible refine State.placeFit_keeps ?_ _ _ | with_reducible refine State.clearMedia_keeps ?_ _
    | with_reducible refine Keeps.foldl (fun _ _ _ => ?_) _ ?_ | with_reducible refine Keeps.foldlP (fun _ _ _ => ?_) _ ?_
    | with_reducible refine Keeps.ite (fun _ => ?_) (fun _ => ?_) | with_reducible refine Keeps.iteP (fun _ => ?_) (fun _ => ?_)
    | split | dsimp only | intro _

theorem Com.regions_keeps {c : Com} (h : Keeps F s c.1) (l) (p_dram : F .dram := by assumption) (p_rg : F .rg := by assumption)
    (p_mc : F .mc := by assumption) : Keeps F s (Com.regions l c).1 := by
  unfold Com.regions
  try dsimp only
  repeat' first
    | with_reducible assumption | with_reducible refine Com.note_keeps ?_ _ _ _ _ _ _ _
    | with_reducible refine Com.changeRegion_keeps ?_ _ _ | with_reducible refine Com.createRegions_keeps ?_ _ _
    | with_reducible refine Keeps.foldl (fun _ _ _ => ?_) _ ?_ | with_reducible refine Keeps.foldlP (fun _ _ _ => ?_) _ ?_
    | with_reducible refine Keeps.ite (fun _ => ?_) (fun _ => ?_) | with_reducible refine Keeps.iteP (fun _ => ?_) (fun _ => ?_)
    | split | dsimp only | intro _

theorem Com.tier_keeps {c : Com} (h : Keeps F s c.1) (fresh) (x) (p_rg : F .rg := by assumption)
    : Keeps F s (Com.tier fresh c x).1 := by
  unfold Com.tier
  try dsimp only
  repeat' first
    | with_reducible assumption | with_reducible refine Com.noteIf_keeps ?_ _ _ _ _ _ _ _
    | with_reducible refine State.modRegion_keeps ?_ _ _ | with_reducible refine Keeps.ite (fun _ => ?_) (fun _ => ?_)
    | with_reducible refine Keeps.iteP (fun _ => ?_) (fun _ => ?_) | split | dsimp only | intro _

theorem Com.unbind_keeps {c : Com} (h : Keeps F s c.1) (set) (p_ce : F .ce := by assumption) : Keeps F s (Com.unbind c set).1 := by
  unfold Com.unbind
  try dsimp only
  repeat' first
    | with_reducible assumption | with_reducible refine Com.note_keeps ?_ _ _ _ _ _ _ _
    | with_reducible refine Keeps.ite (fun _ => ?_) (fun _ => ?_) | with_reducible refine Keeps.iteP (fun _ => ?_) (fun _ => ?_)
    | simp only [keeps_upd, p_ce, or_true, true_or, length_lmod, length_lset, List.length_map] | split | dsimp only | intro _

theorem State.removeSet_keeps (h : Keeps F s t) (n) (p_out : F .out := by assumption) (p_dram : F .dram := by assumption)
    (p_rg : F .rg := by assumption) (p_tr : F .tr := by assumption) (p_cd : F .cd := by assumption)
    (p_lp : F .lp := by assumption) (p_sx : F .sx := by assumption) (p_mc : F .mc := by assumption)
    (p_bw : F .bw := by assumption) (p_ce : F .ce := by assumption) (p_fc : F .fc := by assumption)
    (p_pm : F .pm := by assumption) : Keeps F s (State.removeSet t n) := by
  unfold State.removeSet
  try dsimp only
  repeat' first
    | with_reducible assumption | with_reducible refine State.ceBack_keeps ?_ _ | with_reducible refine Com.sets_keeps ?_ _
    | with_reducible refine Keeps.foldl (fun _ _ _ => ?_) _ ?_ | with_reducible refine Keeps.foldlP (fun _ _ _ => ?_) _ ?_
    | with_reducible refine Keeps.ite (fun _ => ?_) (fun _ => ?_) | with_reducible refine Keeps.iteP (fun _ => ?_) (fun _ => ?_)
    | simp only [keeps_upd, p_out, p_dram, p_rg, p_tr, p_cd, p_lp, p_sx, p_mc, p_bw, p_ce, p_fc, p_pm, or_true, true_or, length_lmod, length_lset, List.length_map]
    | split | dsimp only | intro _

theorem Com.deleteSet_keeps {c : Com} (h : Keeps F s c.1) (x) (p_out : F .out := by assumption) (p_dram : F .dram := by assumption) (p_rg : F .rg := by assumption) (p_tr : F .tr := by assumption) (p_cd : F .cd := by assumption) (p_lp : F .lp := by assumption) (p_sx : F .sx := by assumption) (p_mc : F .mc := by assumption) (p_bw : F .bw := by assumption) (p_ce : F .ce := by assumption) (p_fc : F .fc := by assumption) (p_pm : F .pm := by assumption) : Keeps F s (c.deleteSet x).1 := by
  unfold Com.deleteSet
  split
  · exact Com.note_keeps h _ _ _ _ _ _ _
  · exact State.removeSet_keeps (Com.unbind_keeps h _) _

theorem Com.changeSet_keeps {c : Com} (h : Keeps F s c.1) (x) (o) (p_ce : F .ce := by assumption)
    : Keeps F s (Com.changeSet c x o).1 := by
  unfold Com.changeSet
  try dsimp only
  repeat' first
    | with_reducible assumption | with_reducible refine Com.noteIf_keeps ?_ _ _ _ _ _ _ _
    | with_reducible refine Com.sets_keeps ?_ _ | with_reducible refine Keeps.foldl (fun _ _ _ => ?_) _ ?_
    | with_reducible refine Keeps.foldlP (fun _ _ _ => ?_) _ ?_
    | simp only [keeps_upd, p_ce, or_true, true_or, length_lmod, length_lset, List.length_map] | dsimp only | intro _

theorem State.addSet_keeps (h : Keeps F s t) (n) (x_c) (p_out : F .out := by assumption) (p_fresh : F .fresh := by assumption)
    (p_dram : F .dram := by assumption) (p_hp : F .hp := by assumption) (p_rr : F .rr := by assumption)
    (p_rg : F .rg := by assumption) (p_ns : F .ns := by assumption) (p_tr : F .tr := by assumption)
    (p_cd : F .cd := by assumption) (p_lp : F .lp := by assumption) (p_sx : F .sx := by assumption)
    (p_mc : F .mc := by assumption) (p_bw : F .bw := by assumption) (p_ce : F .ce := by assumption)
    (p_fc : F .fc := by assumption) (p_pm : F .pm := by assumption) : Keeps F s (State.addSet t n x_c) := by
  unfold State.addSet
  try dsimp only
  repeat' first
    | with_reducible assumption | with_reducible refine State.maintain_keeps ?_ _ _ | with_reducible refine Com.sets_keeps ?_ _
    | with_reducible refine Keeps.foldl (fun _ _ _ => ?_) _ ?_ | with_reducible refine Keeps.foldlP (fun _ _ _ => ?_) _ ?_
    | simp only [keeps_upd, p_out, p_fresh, p_dram, p_hp, p_rr, p_rg, p_ns, p_tr, p_cd, p_lp, p_sx, p_mc, p_bw, p_ce, p_fc, p_pm, or_true, true_or, length_lmod, length_lset, List.length_map]
    | dsimp only | intro _

theorem Com.createSets_keeps {c : Com} (h : Keeps F s c.1) (new) (p_out : F .out := by assumption) (p_fresh : F .fresh := by assumption) (p_dram : F .dram := by assumption) (p_hp : F .hp := by assumption) (p_rr : F .rr := by assumption) (p_rg : F .rg := by assumption) (p_ns : F .ns := by assumption) (p_tr : F .tr := by assumption) (p_cd : F .cd := by assumption) (p_lp : F .lp := by assumption) (p_sx : F .sx := by assumption) (p_mc : F .mc := by assumption) (p_bw : F .bw := by assumption) (p_ce : F .ce := by assumption) (p_fc : F .fc := by assumption) (p_pm : F .pm := by assumption) :
    Keeps F s (Com.createSets new c).1 := by
  unfold Com.createSets
  refine Keeps.foldl (fun _ _ k => State.addSet_keeps k _ _) _ ?_
  refine Keeps.foldlG (π := fun (c : Com) => c.1) (fun _ _ k => Com.note_keeps k _ _ _ _ _ _ _) _ ?_
  refine Keeps.foldlG (π := fun (c : Com × List (Staged × CSet)) => c.1.1) (fun _ _ k => ?_) _ h
  dsimp only
  split
  · exact Com.note_keeps k _ _ _ _ _ _ _
  · exact k

theorem Com.sets_keeps {c : Com} (h : Keeps F s c.1) (l) (p_out : F .out := by assumption) (p_fresh : F .fresh := by assumption)
    (p_dram : F .dram := by assumption) (p_hp : F .hp := by assumption) (p_rr : F .rr := by assumption)
    (p_rg : F .rg := by assumption) (p_ns : F .ns := by assumption) (p_tr : F .tr := by assumption)
    (p_cd : F .cd := by assumption) (p_lp : F .lp := by assumption) (p_sx : F .sx := by assumption)
    (p_mc : F .mc := by assumption) (p_bw : F .bw := by assumption) (p_ce : F .ce := by assumption)
    (p_fc : F .fc := by assumption) (p_pm : F .pm := by assumption) : Keeps F s (Com.sets l c).1 := by
  unfold Com.sets
  try dsimp only
  repeat' first
    | with_reducible assumption | with_reducible refine Com.note_keeps ?_ _ _ _ _ _ _ _
    | with_reducible refine Com.changeSet_keeps ?_ _ _ | with_reducible refine Com.createSets_keeps ?_ _
    | with_reducible refine Keeps.foldl (fun _ _ _ => ?_) _ ?_ | with_reducible refine Keeps.foldlP (fun _ _ _ => ?_) _ ?_
    | with_reducible refine Keeps.ite (fun _ => ?_) (fun _ => ?_) | with_reducible refine Keeps.iteP (fun _ => ?_) (fun _ => ?_)
    | split | dsimp only | intro _

theorem Com.countable_keeps {c : Com} (h : Keeps F s c.1) (l) (p_rg : F .rg := by assumption) : Keeps F s (Com.countable l c).1 := by
  unfold Com.countable
  try dsimp only
  repeat' first
    | with_reducible assumption | with_reducible refine Com.regions_keeps ?_ _ | with_reducible refine Com.sets_keeps ?_ _
    | with_reducible refine Com.noteIf_keeps ?_ _ _ _ _ _ _ _ | with_reducible refine State.modRegion_keeps ?_ _ _
    | with_reducible refine Keeps.foldl (fun _ _ _ => ?_) _ ?_ | with_reducible refine Keeps.foldlP (fun _ _ _ => ?_) _ ?_
    | with_reducible refine Keeps.ite (fun _ => ?_) (fun _ => ?_) | with_reducible refine Keeps.iteP (fun _ => ?_) (fun _ => ?_)
    | split | dsimp only | intro _

theorem Com.bind_keeps {c : Com} (h : Keeps F s c.1) (x) (p_ce : F .ce := by assumption) : Keeps F s (Com.bind c x).1 := by
  unfold Com.bind
  try dsimp only
  repeat' first
    | with_reducible assumption | with_reducible refine Com.note_keeps ?_ _ _ _ _ _ _ _
    | with_reducible refine State.count_keeps ?_ _ _ _ | with_reducible refine Keeps.ite (fun _ => ?_) (fun _ => ?_)
    | with_reducible refine Keeps.iteP (fun _ => ?_) (fun _ => ?_)
    | simp only [keeps_upd, p_ce, or_true, true_or, length_lmod, length_lset, List.length_map] | split | dsimp only | intro _

theorem State.applyRow_keeps (h : Keeps F s t) (x) (p_bw : F .bw := by assumption) : Keeps F s (State.applyRow t x) := by
  unfold State.applyRow
  try dsimp only
  repeat' first
    | with_reducible assumption | simp only [keeps_upd, p_bw, or_true, true_or, length_lmod, length_lset, List.length_map]
    | dsimp only | intro _

theorem State.applyPlain_keeps (h : Keeps F s t) (x) (p_bw : F .bw := by assumption) (p_qe : F .qe := by assumption)
    (p_sc : F .sc := by assumption) (p_ce : F .ce := by assumption) (p_fc : F .fc := by assumption)
    (p_pm : F .pm := by assumption) : Keeps F s (State.applyPlain t x) := by
  unfold State.applyPlain
  try dsimp only
  repeat' first
    | with_reducible assumption | with_reducible refine State.applyRow_keeps ?_ _
    | with_reducible refine State.applyQueue_keeps ?_ _ _ | with_reducible refine State.applyPolicer_keeps ?_ _ _
    | with_reducible refine State.applyNode_keeps ?_ _ _ _ | with_reducible refine State.applyPort_keeps ?_ _ _
    | with_reducible refine State.applyGateList_keeps ?_ _ _
    | simp only [keeps_upd, p_bw, p_qe, p_sc, p_ce, p_fc, p_pm, or_true, true_or, length_lmod, length_lset, List.length_map] | split
    | intro _

theorem Com.plain_keeps {c : Com} (h : Keeps F s c.1) (x) (p_bw : F .bw := by assumption) (p_qe : F .qe := by assumption)
    (p_sc : F .sc := by assumption) (p_ce : F .ce := by assumption) (p_fc : F .fc := by assumption)
    (p_pm : F .pm := by assumption) : Keeps F s (Com.plain c x).1 := by
  unfold Com.plain
  try dsimp only
  repeat' first
    | with_reducible assumption | with_reducible refine Com.note_keeps ?_ _ _ _ _ _ _ _
    | with_reducible refine State.applyPlain_keeps ?_ _ | with_reducible refine Com.noteIf_keeps ?_ _ _ _ _ _ _ _
    | with_reducible refine Keeps.ite (fun _ => ?_) (fun _ => ?_) | with_reducible refine Keeps.iteP (fun _ => ?_) (fun _ => ?_)
    | split | dsimp only | intro _

theorem Com.guarantees_keeps {c : Com} (h : Keeps F s c.1) (l) (p_bw : F .bw := by assumption) (p_fc : F .fc := by assumption)
    : Keeps F s (Com.guarantees l c).1 := by
  unfold Com.guarantees
  try dsimp only
  repeat' first
    | with_reducible assumption | with_reducible refine State.rescaleCommit_keeps ?_ | split | dsimp only | intro _

theorem State.regionDomains_keeps (h : Keeps F s t) (p_ck : F .ck := by assumption) (p_pm : F .pm := by assumption) :
    Keeps F s t.regionDomains := by
  unfold State.regionDomains
  try dsimp only
  repeat' first | with_reducible assumption | with_reducible refine State.setDomain_keeps ?_ _ _

theorem State.settleAll_keeps (h : Keeps F s t) (p_out : F .out := by assumption) (p_fresh : F .fresh := by assumption)
    (p_dram : F .dram := by assumption) (p_hp : F .hp := by assumption) (p_rr : F .rr := by assumption)
    (p_rg : F .rg := by assumption) (p_ns : F .ns := by assumption) (p_tr : F .tr := by assumption)
    (p_cd : F .cd := by assumption) (p_lp : F .lp := by assumption) (p_sx : F .sx := by assumption)
    (p_mc : F .mc := by assumption) (p_bw : F .bw := by assumption) (p_fc : F .fc := by assumption)
    (p_pm : F .pm := by assumption) : Keeps F s (State.settleAll t) := by
  unfold State.settleAll
  try dsimp only
  repeat' first
    | with_reducible assumption | with_reducible refine State.stage_keeps ?_ _ _ _ _ _ _ _ _
    | with_reducible refine State.settle_keeps ?_ _ _ | with_reducible refine Keeps.foldl (fun _ _ _ => ?_) _ ?_
    | with_reducible refine Keeps.foldlP (fun _ _ _ => ?_) _ ?_ | split | dsimp only | intro _

theorem State.commit_keeps (h : Keeps F s t) (l) (p_out : F .out := by assumption) (p_fresh : F .fresh := by assumption)
    (p_dram : F .dram := by assumption) (p_hp : F .hp := by assumption) (p_rr : F .rr := by assumption)
    (p_rg : F .rg := by assumption) (p_ns : F .ns := by assumption) (p_tr : F .tr := by assumption)
    (p_cd : F .cd := by assumption) (p_lp : F .lp := by assumption) (p_sx : F .sx := by assumption)
    (p_mc : F .mc := by assumption) (p_bw : F .bw := by assumption) (p_qe : F .qe := by assumption)
    (p_sc : F .sc := by assumption) (p_ce : F .ce := by assumption) (p_fc : F .fc := by assumption)
    (p_ck : F .ck := by assumption) (p_pm : F .pm := by assumption) : Keeps F s (State.commit t l).1 := by
  unfold State.commit
  try dsimp only
  repeat' first
    | with_reducible assumption | with_reducible refine State.settleAll_keeps ?_
    | with_reducible refine Com.deleteRegion_keeps ?_ _ _ | with_reducible refine Com.regions_keeps ?_ _
    | with_reducible refine Com.tier_keeps ?_ _ _ | with_reducible refine Com.deleteSet_keeps ?_ _
    | with_reducible refine Com.sets_keeps ?_ _ | with_reducible refine Com.countable_keeps ?_ _
    | with_reducible refine Com.bind_keeps ?_ _ | with_reducible refine Com.plain_keeps ?_ _
    | with_reducible refine Com.guarantees_keeps ?_ _ | with_reducible refine State.regionDomains_keeps ?_
    | with_reducible refine State.schedSync_keeps ?_ | with_reducible refine Keeps.foldl (fun _ _ _ => ?_) _ ?_
    | with_reducible refine Keeps.foldlP (fun _ _ _ => ?_) _ ?_ | with_reducible refine Keeps.ite (fun _ => ?_) (fun _ => ?_)
    | with_reducible refine Keeps.iteP (fun _ => ?_) (fun _ => ?_)
    | simp only [keeps_upd, p_out, p_fresh, p_dram, p_hp, p_rr, p_rg, p_ns, p_tr, p_cd, p_lp, p_sx, p_mc, p_bw, p_qe, p_sc, p_ce, p_fc, p_ck, p_pm, or_true, true_or, length_lmod, length_lset, List.length_map]
    | split | dsimp only | intro _

theorem stageCommit_keeps (h : Keeps F s t) (a1) (a2) (p_out : F .out := by assumption) (p_fresh : F .fresh := by assumption)
    (p_dram : F .dram := by assumption) (p_hp : F .hp := by assumption) (p_rr : F .rr := by assumption)
    (p_rg : F .rg := by assumption) (p_ns : F .ns := by assumption) (p_tr : F .tr := by assumption)
    (p_cd : F .cd := by assumption) (p_lp : F .lp := by assumption) (p_sx : F .sx := by assumption)
    (p_mc : F .mc := by assumption) (p_bw : F .bw := by assumption) (p_qe : F .qe := by assumption)
    (p_sc : F .sc := by assumption) (p_ce : F .ce := by assumption) (p_mb : F .mb := by assumption)
    (p_fc : F .fc := by assumption) (p_ck : F .ck := by assumption) (p_pm : F .pm := by assumption)
    : Keeps F s (stageCommit a1 a2 t).1 := by
  unfold stageCommit
  try dsimp only
  repeat' first
    | with_reducible assumption | with_reducible refine State.commit_keeps ?_ _ | with_reducible refine State.report_keeps ?_ _ _ _
    | with_reducible refine State.endSession_keeps ?_ _ | with_reducible refine State.count_keeps ?_ _ _ _
    | with_reducible refine Keeps.ite (fun _ => ?_) (fun _ => ?_) | with_reducible refine Keeps.iteP (fun _ => ?_) (fun _ => ?_)
    | simp only [keeps_upd, p_out, p_fresh, p_dram, p_hp, p_rr, p_rg, p_ns, p_tr, p_cd, p_lp, p_sx, p_mc, p_bw, p_qe, p_sc, p_ce, p_mb, p_fc, p_ck, p_pm, or_true, true_or, length_lmod, length_lset, List.length_map]
    | split | dsimp only | intro _

theorem regionQuery_keeps (h : Keeps F s t) (a1) (a2) (p_mb : F .mb := by assumption) : Keeps F s (regionQuery a1 a2 t).1 := by
  unfold regionQuery
  try dsimp only
  repeat' first
    | with_reducible assumption | with_reducible refine query_keeps ?_ _ _ _ _ _ _ | dsimp only | intro _

end Sys2Proof.Machine
end

