-- ==== Sys2Proof/Laws/KeepsStandard.lean ====
section
/-! SUPPORT. What each operation of Machine/Standard.lean keeps: standard CXL commands and background operations. -/

set_option Elab.async false

set_option linter.all false

namespace Sys2Proof.Machine
open Sys2Proof

variable {F : Part → Prop} {s t : State}

theorem State.putImage_keeps (h : Keeps F s t) (slot) (image) (p_out : F .out := by assumption) (p_mb : F .mb := by assumption)
    : Keeps F s (State.putImage t slot image) := by
  unfold State.putImage
  try dsimp only
  repeat' first
    | with_reducible assumption | with_reducible refine State.emit_keeps ?_ _
    | simp only [keeps_upd, p_out, p_mb, or_true, true_or, length_lmod, length_lset, List.length_map] | intro _

theorem State.sealImage_keeps (h : Keeps F s t) (slot) (image) (p_out : F .out := by assumption) (p_mb : F .mb := by assumption)
    : Keeps F s (State.sealImage t slot image).1 := by
  unfold State.sealImage
  try dsimp only
  repeat' first
    | with_reducible assumption | with_reducible refine State.putImage_keeps ?_ _ _
    | with_reducible refine Keeps.ite (fun _ => ?_) (fun _ => ?_) | with_reducible refine Keeps.iteP (fun _ => ?_) (fun _ => ?_)
    | simp only [keeps_upd, p_out, p_mb, or_true, true_or, length_lmod, length_lset, List.length_map] | split | intro _

theorem State.takePart_keeps (h : Keeps F s t) (action) (slot) (offset) (data) (p_out : F .out := by assumption)
    (p_mb : F .mb := by assumption) : Keeps F s (State.takePart t action slot offset data).1 := by
  unfold State.takePart
  try dsimp only
  repeat' first
    | with_reducible assumption | with_reducible refine State.sealImage_keeps ?_ _ _
    | with_reducible refine Keeps.ite (fun _ => ?_) (fun _ => ?_) | with_reducible refine Keeps.iteP (fun _ => ?_) (fun _ => ?_)
    | simp only [keeps_upd, p_out, p_mb, or_true, true_or, length_lmod, length_lset, List.length_map] | split | intro _

theorem transferFw_keeps (h : Keeps F s t) (a1) (a2) (p_mb : F .mb := by assumption) : Keeps F s (transferFw a1 a2 t).1 := by
  unfold transferFw
  try dsimp only
  repeat' first
    | with_reducible assumption | with_reducible refine State.startBg_keeps ?_ _ _ _ _ _ _
    | with_reducible refine Keeps.ite (fun _ => ?_) (fun _ => ?_) | with_reducible refine Keeps.iteP (fun _ => ?_) (fun _ => ?_)
    | split | dsimp only | intro _

theorem State.startActivation_keeps (h : Keeps F s t) (p) (p_mb : F .mb := by assumption) (p_fc : F .fc := by assumption)
    : Keeps F s (State.startActivation t p) := by
  unfold State.startActivation
  try dsimp only
  repeat' first
    | with_reducible assumption | with_reducible refine State.openShadow_keeps ?_ _ _ _ _
    | simp only [keeps_upd, p_mb, p_fc, or_true, true_or, length_lmod, length_lset, List.length_map] | intro _

theorem activateFw_keeps (h : Keeps F s t) (a1) (a2) (p_out : F .out := by assumption) (p_mb : F .mb := by assumption)
    (p_fc : F .fc := by assumption) (p_pw : F .pw := by assumption) : Keeps F s (activateFw a1 a2 t).1 := by
  unfold activateFw
  try dsimp only
  repeat' first
    | with_reducible assumption | with_reducible refine State.startBg_keeps ?_ _ _ _ _ _ _
    | with_reducible refine State.startActivation_keeps ?_ _ | with_reducible refine State.emit_keeps ?_ _
    | with_reducible refine Keeps.ite (fun _ => ?_) (fun _ => ?_) | with_reducible refine Keeps.iteP (fun _ => ?_) (fun _ => ?_)
    | simp only [keeps_upd, p_out, p_mb, p_fc, p_pw, or_true, true_or, length_lmod, length_lset, List.length_map] | split
    | dsimp only | intro _

theorem State.burnMany_keeps (h : Keeps F s t) (a1) (p_fu : F .fu := by assumption) : Keeps F s (t.burnMany a1) := by
  induction a1 generalizing t  with
  | zero => unfold State.burnMany; with_reducible exact h
  | succ _ ih =>
    unfold State.burnMany
    repeat' first | with_reducible assumption | with_reducible refine ih ?_ | with_reducible refine State.burnOne_keeps ?_

theorem State.clearTo_keeps (h : Keeps F s t) (setx) (level) (first) (count) (a5) (a6) (p_out : F .out := by assumption) (p_dram : F .dram := by assumption) (p_hp : F .hp := by assumption) (p_rg : F .rg := by assumption) (p_tr : F .tr := by assumption) (p_cd : F .cd := by assumption) (p_lp : F .lp := by assumption) (p_sx : F .sx := by assumption) (p_mc : F .mc := by assumption) (p_bw : F .bw := by assumption) (p_ce : F .ce := by assumption) (p_fc : F .fc := by assumption) (p_pm : F .pm := by assumption) : Keeps F s (t.clearTo setx level first count a5 a6).1 := by
  induction a5 generalizing t setx level first count a6 with
  | zero => unfold State.clearTo; with_reducible exact h
  | succ _ ih =>
    unfold State.clearTo
    try dsimp only
    repeat' first
      | with_reducible assumption | with_reducible refine ih ?_ _ _ _ _ _ | intro _ | with_reducible refine State.count_keeps ?_ _ _ _
      | with_reducible refine State.ceClearLine_keeps ?_ _ _ _ _ _ | with_reducible refine Keeps.ite (fun _ => ?_) (fun _ => ?_)
      | with_reducible refine Keeps.iteP (fun _ => ?_) (fun _ => ?_)

theorem State.bgUnit_keeps (h : Keeps F s t) (o) (p_out : F .out := by assumption) (p_fresh : F .fresh := by assumption)
    (p_dram : F .dram := by assumption) (p_hp : F .hp := by assumption) (p_rr : F .rr := by assumption)
    (p_rg : F .rg := by assumption) (p_ns : F .ns := by assumption) (p_tr : F .tr := by assumption)
    (p_cd : F .cd := by assumption) (p_lp : F .lp := by assumption) (p_fu : F .fu := by assumption)
    (p_sx : F .sx := by assumption) (p_mc : F .mc := by assumption) (p_bw : F .bw := by assumption)
    (p_qe : F .qe := by assumption) (p_ce : F .ce := by assumption) (p_mb : F .mb := by assumption)
    (p_fc : F .fc := by assumption) (p_pm : F .pm := by assumption) : Keeps F s (State.bgUnit t o) := by
  unfold State.bgUnit
  try dsimp only
  repeat' first
    | with_reducible assumption | with_reducible refine State.modOp_keeps ?_ _ _
    | with_reducible refine State.rangeTo_keeps ?_ _ _ _ | with_reducible refine State.flushMany_keeps ?_ _ _ _
    | with_reducible refine State.reclaim_keeps ?_ _ _ _ | with_reducible refine ceClear_keeps ?_ _ _
    | with_reducible refine State.clearTo_keeps ?_ _ _ _ _ _ _ | with_reducible refine State.drainEntry_keeps ?_ _ _
    | with_reducible refine State.burnOne_keeps ?_ | with_reducible refine Keeps.ite (fun _ => ?_) (fun _ => ?_)
    | with_reducible refine Keeps.iteP (fun _ => ?_) (fun _ => ?_) | split | dsimp only | intro _

theorem State.bgEnd_keeps (h : Keeps F s t) (o) (p_out : F .out := by assumption) (p_fresh : F .fresh := by assumption)
    (p_dram : F .dram := by assumption) (p_hp : F .hp := by assumption) (p_rr : F .rr := by assumption)
    (p_rg : F .rg := by assumption) (p_ns : F .ns := by assumption) (p_tr : F .tr := by assumption)
    (p_cd : F .cd := by assumption) (p_lp : F .lp := by assumption) (p_fu : F .fu := by assumption)
    (p_sx : F .sx := by assumption) (p_mc : F .mc := by assumption) (p_bw : F .bw := by assumption)
    (p_qe : F .qe := by assumption) (p_sc : F .sc := by assumption) (p_ce : F .ce := by assumption)
    (p_mb : F .mb := by assumption) (p_fc : F .fc := by assumption) (p_pw : F .pw := by assumption)
    (p_pm : F .pm := by assumption) : Keeps F s (State.bgEnd t o) := by
  unfold State.bgEnd
  try dsimp only
  repeat' first
    | with_reducible assumption | with_reducible refine State.modOp_keeps ?_ _ _ | with_reducible refine State.endOp_keeps ?_ _ _ _
    | with_reducible refine State.rangeTo_keeps ?_ _ _ _ | with_reducible refine State.flushMany_keeps ?_ _ _ _
    | with_reducible refine State.schedSync_keeps ?_ | with_reducible refine State.reclaim_keeps ?_ _ _ _
    | with_reducible refine ceClear_keeps ?_ _ _ | with_reducible refine State.clearTo_keeps ?_ _ _ _ _ _ _
    | with_reducible refine State.gateGroup_keeps ?_ _ | with_reducible refine State.wakeGroup_keeps ?_ _
    | with_reducible refine State.waysEnd_keeps ?_ | with_reducible refine State.burnMany_keeps ?_ _
    | with_reducible refine pwEnter_keeps ?_ _ _ | with_reducible refine State.pwEnterDone_keeps ?_
    | with_reducible refine transferFw_keeps ?_ _ _ | with_reducible refine State.takePart_keeps ?_ _ _ _ _
    | with_reducible refine Keeps.foldl (fun _ _ _ => ?_) _ ?_ | with_reducible refine Keeps.foldlP (fun _ _ _ => ?_) _ ?_
    | with_reducible refine Keeps.ite (fun _ => ?_) (fun _ => ?_) | with_reducible refine Keeps.iteP (fun _ => ?_) (fun _ => ?_)
    | split | dsimp only | intro _

theorem backgroundOperationEnd_keeps (h : Keeps F s t) (x_h) (p_out : F .out := by assumption)
    (p_fresh : F .fresh := by assumption) (p_dram : F .dram := by assumption) (p_hp : F .hp := by assumption)
    (p_rr : F .rr := by assumption) (p_rg : F .rg := by assumption) (p_ns : F .ns := by assumption)
    (p_tr : F .tr := by assumption) (p_cd : F .cd := by assumption) (p_lp : F .lp := by assumption)
    (p_fu : F .fu := by assumption) (p_sx : F .sx := by assumption) (p_mc : F .mc := by assumption)
    (p_bw : F .bw := by assumption) (p_qe : F .qe := by assumption) (p_sc : F .sc := by assumption)
    (p_ce : F .ce := by assumption) (p_mb : F .mb := by assumption) (p_fc : F .fc := by assumption)
    (p_pw : F .pw := by assumption) (p_pm : F .pm := by assumption) : Keeps F s (backgroundOperationEnd x_h t) := by
  unfold backgroundOperationEnd
  try dsimp only
  repeat' first
    | with_reducible assumption | with_reducible refine State.bgEnd_keeps ?_ _
    | with_reducible refine Keeps.ite (fun _ => ?_) (fun _ => ?_) | with_reducible refine Keeps.iteP (fun _ => ?_) (fun _ => ?_)
    | split | intro _

theorem State.abortOp_keeps (h : Keeps F s t) (o) (p_out : F .out := by assumption) (p_hp : F .hp := by assumption)
    (p_ns : F .ns := by assumption) (p_qe : F .qe := by assumption) (p_sc : F .sc := by assumption)
    (p_mb : F .mb := by assumption) (p_pw : F .pw := by assumption) (p_pm : F .pm := by assumption)
    : Keeps F s (State.abortOp t o).1 := by
  unfold State.abortOp
  try dsimp only
  repeat' first
    | with_reducible assumption | with_reducible refine pwEnter_keeps ?_ _ _ | with_reducible refine State.abandonEntry_keeps ?_
    | with_reducible refine State.waysAbort_keeps ?_ _ | with_reducible refine State.endOp_keeps ?_ _ _ _
    | with_reducible refine State.modQueue_keeps ?_ _ _ | with_reducible refine State.reclaim_keeps ?_ _ _ _
    | with_reducible refine ceClear_keeps ?_ _ _ | with_reducible refine transferFw_keeps ?_ _ _
    | with_reducible refine Keeps.ite (fun _ => ?_) (fun _ => ?_) | with_reducible refine Keeps.iteP (fun _ => ?_) (fun _ => ?_)
    | split | dsimp only | intro _

theorem State.abortAny_keeps (h : Keeps F s t) (o) (p_out : F .out := by assumption) (p_hp : F .hp := by assumption)
    (p_ns : F .ns := by assumption) (p_qe : F .qe := by assumption) (p_sc : F .sc := by assumption)
    (p_mb : F .mb := by assumption) (p_pw : F .pw := by assumption) (p_pm : F .pm := by assumption)
    : Keeps F s (State.abortAny t o).1 := by
  unfold State.abortAny
  try dsimp only
  repeat' first
    | with_reducible assumption | with_reducible refine State.abortOp_keeps ?_ _
    | with_reducible refine Keeps.ite (fun _ => ?_) (fun _ => ?_) | with_reducible refine Keeps.iteP (fun _ => ?_) (fun _ => ?_)
    | split | intro _

theorem abort_keeps (h : Keeps F s t) (a1) (a2) (p_out : F .out := by assumption) (p_hp : F .hp := by assumption)
    (p_ns : F .ns := by assumption) (p_qe : F .qe := by assumption) (p_sc : F .sc := by assumption)
    (p_mb : F .mb := by assumption) (p_pw : F .pw := by assumption) (p_pm : F .pm := by assumption)
    : Keeps F s (abort a1 a2 t).1 := by
  unfold abort
  try dsimp only
  repeat' first
    | with_reducible assumption | with_reducible refine State.direct_keeps ?_ _ _ _ _ _
    | with_reducible refine State.abortAny_keeps ?_ _ | with_reducible refine State.abortOp_keeps ?_ _
    | with_reducible refine Keeps.ite (fun _ => ?_) (fun _ => ?_) | with_reducible refine Keeps.iteP (fun _ => ?_) (fun _ => ?_)
    | simp only [keeps_upd, p_out, p_hp, p_ns, p_qe, p_sc, p_mb, p_pw, p_pm, or_true, true_or, length_lmod, length_lset, List.length_map]
    | split | dsimp only | intro _

theorem requestAbort_keeps (h : Keeps F s t) (a1) (a2) (p_out : F .out := by assumption) (p_hp : F .hp := by assumption)
    (p_ns : F .ns := by assumption) (p_qe : F .qe := by assumption) (p_sc : F .sc := by assumption)
    (p_mb : F .mb := by assumption) (p_pw : F .pw := by assumption) (p_pm : F .pm := by assumption)
    : Keeps F s (requestAbort a1 a2 t).1 := by
  unfold requestAbort
  try dsimp only
  repeat' first
    | with_reducible assumption | with_reducible refine State.abortAny_keeps ?_ _
    | with_reducible refine Keeps.ite (fun _ => ?_) (fun _ => ?_) | with_reducible refine Keeps.iteP (fun _ => ?_) (fun _ => ?_)
    | split | dsimp only | intro _

theorem identify_keeps (h : Keeps F s t) (a1) (a2)  : Keeps F s (identify a1 a2 t).1 := by
  unfold identify
  try dsimp only
  repeat' first
    | with_reducible assumption | with_reducible refine Keeps.ite (fun _ => ?_) (fun _ => ?_)
    | with_reducible refine Keeps.iteP (fun _ => ?_) (fun _ => ?_) | split | dsimp only | intro _

theorem opStatus_keeps (h : Keeps F s t) (a1) (a2)  : Keeps F s (opStatus a1 a2 t).1 := by
  unfold opStatus
  try dsimp only
  repeat' first
    | with_reducible assumption | with_reducible refine Keeps.ite (fun _ => ?_) (fun _ => ?_)
    | with_reducible refine Keeps.iteP (fun _ => ?_) (fun _ => ?_) | split | dsimp only | intro _

theorem getEvents_keeps (h : Keeps F s t) (a1) (a2)  : Keeps F s (getEvents a1 a2 t).1 := by
  unfold getEvents
  try dsimp only
  repeat' first
    | with_reducible assumption | with_reducible refine Keeps.ite (fun _ => ?_) (fun _ => ?_)
    | with_reducible refine Keeps.iteP (fun _ => ?_) (fun _ => ?_) | split | dsimp only | intro _

theorem clearEvents_keeps (h : Keeps F s t) (a1) (a2) (p_mb : F .mb := by assumption) : Keeps F s (clearEvents a1 a2 t).1 := by
  unfold clearEvents
  try dsimp only
  repeat' first
    | with_reducible assumption | with_reducible refine Keeps.ite (fun _ => ?_) (fun _ => ?_)
    | with_reducible refine Keeps.iteP (fun _ => ?_) (fun _ => ?_)
    | simp only [keeps_upd, p_mb, or_true, true_or, length_lmod, length_lset, List.length_map] | split | dsimp only | intro _

theorem getPolicy_keeps (h : Keeps F s t) (a1) (a2)  : Keeps F s (getPolicy a1 a2 t).1 := by
  unfold getPolicy
  try dsimp only
  repeat' first
    | with_reducible assumption | dsimp only | intro _

theorem setPolicy_keeps (h : Keeps F s t) (a1) (a2) (p_mb : F .mb := by assumption) : Keeps F s (setPolicy a1 a2 t).1 := by
  unfold setPolicy
  try dsimp only
  repeat' first
    | with_reducible assumption | with_reducible refine Keeps.ite (fun _ => ?_) (fun _ => ?_)
    | with_reducible refine Keeps.iteP (fun _ => ?_) (fun _ => ?_)
    | simp only [keeps_upd, p_mb, or_true, true_or, length_lmod, length_lset, List.length_map] | split | dsimp only | intro _

theorem getFwInfo_keeps (h : Keeps F s t) (a1) (a2)  : Keeps F s (getFwInfo a1 a2 t).1 := by
  unfold getFwInfo
  try dsimp only
  repeat' first
    | with_reducible assumption | with_reducible refine Keeps.ite (fun _ => ?_) (fun _ => ?_)
    | with_reducible refine Keeps.iteP (fun _ => ?_) (fun _ => ?_) | split | dsimp only | intro _

theorem getTimestamp_keeps (h : Keeps F s t) (a1) (a2)  : Keeps F s (getTimestamp a1 a2 t).1 := by
  unfold getTimestamp
  try dsimp only
  repeat' first
    | with_reducible assumption | dsimp only | intro _

theorem setTimestamp_keeps (h : Keeps F s t) (a1) (a2) (p_mb : F .mb := by assumption) : Keeps F s (setTimestamp a1 a2 t).1 := by
  unfold setTimestamp
  try dsimp only
  repeat' first
    | with_reducible assumption | simp only [keeps_upd, p_mb, or_true, true_or, length_lmod, length_lset, List.length_map]
    | dsimp only | intro _

theorem identifyMemory_keeps (h : Keeps F s t) (a1) (a2)  : Keeps F s (identifyMemory a1 a2 t).1 := by
  unfold identifyMemory
  try dsimp only
  repeat' first
    | with_reducible assumption | dsimp only | intro _

theorem healthInfo_keeps (h : Keeps F s t) (a1) (a2)  : Keeps F s (healthInfo a1 a2 t).1 := by
  unfold healthInfo
  try dsimp only
  repeat' first
    | with_reducible assumption | with_reducible refine Keeps.foldl (fun _ _ _ => ?_) _ ?_
    | with_reducible refine Keeps.foldlP (fun _ _ _ => ?_) _ ?_ | dsimp only | intro _

theorem getAlerts_keeps (h : Keeps F s t) (a1) (a2)  : Keeps F s (getAlerts a1 a2 t).1 := by
  unfold getAlerts
  try dsimp only
  repeat' first
    | with_reducible assumption | dsimp only | intro _

theorem setAlerts_keeps (h : Keeps F s t) (a1) (a2) (p_mb : F .mb := by assumption) : Keeps F s (setAlerts a1 a2 t).1 := by
  unfold setAlerts
  try dsimp only
  repeat' first
    | with_reducible assumption | with_reducible refine Keeps.ite (fun _ => ?_) (fun _ => ?_)
    | with_reducible refine Keeps.iteP (fun _ => ?_) (fun _ => ?_)
    | simp only [keeps_upd, p_mb, or_true, true_or, length_lmod, length_lset, List.length_map] | split | dsimp only | intro _

theorem getPoisonList_keeps (h : Keeps F s t) (a1) (a2)  : Keeps F s (getPoisonList a1 a2 t).1 := by
  unfold getPoisonList
  try dsimp only
  repeat' first
    | with_reducible assumption | dsimp only | intro _

theorem injectPoison_keeps (h : Keeps F s t) (a1) (a2) (p_out : F .out := by assumption) (p_fresh : F .fresh := by assumption)
    (p_dram : F .dram := by assumption) (p_hp : F .hp := by assumption) (p_rr : F .rr := by assumption)
    (p_rg : F .rg := by assumption) (p_ns : F .ns := by assumption) (p_tr : F .tr := by assumption)
    (p_cd : F .cd := by assumption) (p_lp : F .lp := by assumption) (p_sx : F .sx := by assumption)
    (p_mc : F .mc := by assumption) (p_bw : F .bw := by assumption) (p_fc : F .fc := by assumption)
    (p_pm : F .pm := by assumption) : Keeps F s (injectPoison a1 a2 t).1 := by
  unfold injectPoison
  try dsimp only
  repeat' first
    | with_reducible assumption | with_reducible refine State.denyEngine_keeps ?_ _ _
    | with_reducible refine State.orderedRead_keeps ?_ _ _ | with_reducible refine State.nsWrite_keeps ?_ _ _ _ _ _
    | with_reducible refine Keeps.ite (fun _ => ?_) (fun _ => ?_) | with_reducible refine Keeps.iteP (fun _ => ?_) (fun _ => ?_)
    | split | dsimp only | intro _

theorem clearPoison_keeps (h : Keeps F s t) (a1) (a2) (p_out : F .out := by assumption) (p_fresh : F .fresh := by assumption)
    (p_dram : F .dram := by assumption) (p_hp : F .hp := by assumption) (p_rr : F .rr := by assumption)
    (p_rg : F .rg := by assumption) (p_ns : F .ns := by assumption) (p_tr : F .tr := by assumption)
    (p_cd : F .cd := by assumption) (p_lp : F .lp := by assumption) (p_sx : F .sx := by assumption)
    (p_mc : F .mc := by assumption) (p_bw : F .bw := by assumption) (p_ce : F .ce := by assumption)
    (p_mb : F .mb := by assumption) (p_fc : F .fc := by assumption) (p_pm : F .pm := by assumption)
    : Keeps F s (clearPoison a1 a2 t).1 := by
  unfold clearPoison
  try dsimp only
  repeat' first
    | with_reducible assumption | with_reducible refine State.denyEngine_keeps ?_ _ _
    | with_reducible refine State.settle_keeps ?_ _ _ | with_reducible refine State.serveWrite_keeps ?_ _ _ _ _ _
    | with_reducible refine Keeps.ite (fun _ => ?_) (fun _ => ?_) | with_reducible refine Keeps.iteP (fun _ => ?_) (fun _ => ?_)
    | simp only [keeps_upd, p_out, p_fresh, p_dram, p_hp, p_rr, p_rg, p_ns, p_tr, p_cd, p_lp, p_sx, p_mc, p_bw, p_ce, p_mb, p_fc, p_pm, or_true, true_or, length_lmod, length_lset, List.length_map]
    | split | dsimp only | intro _

theorem getLogs_keeps (h : Keeps F s t) (a1) (a2)  : Keeps F s (getLogs a1 a2 t).1 := by
  unfold getLogs
  try dsimp only
  repeat' first
    | with_reducible assumption | dsimp only | intro _

theorem getLog_keeps (h : Keeps F s t) (a1) (a2)  : Keeps F s (getLog a1 a2 t).1 := by
  unfold getLog
  try dsimp only
  repeat' first
    | with_reducible assumption | with_reducible refine Keeps.ite (fun _ => ?_) (fun _ => ?_)
    | with_reducible refine Keeps.iteP (fun _ => ?_) (fun _ => ?_) | split | dsimp only | intro _

end Sys2Proof.Machine
end

