-- ==== Sys2Proof/Laws/KeepsCommands.lean ====
section
/-! SUPPORT. What each operation of Machine/Commands.lean keeps: commands by opcode, held commands and restarts. -/

set_option Elab.async false

set_option linter.all false

namespace Sys2Proof.Machine
open Sys2Proof

variable {F : Part → Prop} {s t : State}

/-- What `Keeps` asks of what an opcode does. -/
def Body.Kept (F : Part → Prop) (b : Body) : Prop := ∀ (s u : State) (p : Path) (d : Bytes), Keeps F s u → Keeps F s (b p d u).1

theorem bodies_keep
    (p_out : F .out := by assumption) (p_fresh : F .fresh := by assumption) (p_dram : F .dram := by assumption) (p_hp : F .hp := by assumption) (p_rr : F .rr := by assumption) (p_rg : F .rg := by assumption) (p_ns : F .ns := by assumption) (p_tr : F .tr := by assumption) (p_cd : F .cd := by assumption) (p_lp : F .lp := by assumption) (p_fu : F .fu := by assumption) (p_sx : F .sx := by assumption) (p_mc : F .mc := by assumption) (p_bw : F .bw := by assumption) (p_qe : F .qe := by assumption) (p_sc : F .sc := by assumption) (p_tu : F .tu := by assumption) (p_ce : F .ce := by assumption) (p_mb : F .mb := by assumption) (p_fc : F .fc := by assumption) (p_pw : F .pw := by assumption) (p_ck : F .ck := by assumption) (p_pm : F .pm := by assumption) : ∀ e ∈ bodies, Body.Kept F e.2 := by
  unfold bodies
  simp only [List.forall_mem_append, List.forall_mem_cons, List.forall_mem_nil]
  exact ⟨⟨⟨⟨⟨
      fun _ _ _ _ k => identify_keeps k _ _, 
      fun _ _ _ _ k => opStatus_keeps k _ _, 
      fun _ _ _ _ k => requestAbort_keeps k _ _, 
      fun _ _ _ _ k => getEvents_keeps k _ _, 
      fun _ _ _ _ k => clearEvents_keeps k _ _, 
      fun _ _ _ _ k => getPolicy_keeps k _ _, 
      fun _ _ _ _ k => setPolicy_keeps k _ _, 
      fun _ _ _ _ k => getFwInfo_keeps k _ _, 
      fun _ _ _ _ k => transferFw_keeps k _ _, 
      fun _ _ _ _ k => activateFw_keeps k _ _, 
      fun _ _ _ _ k => getTimestamp_keeps k _ _, 
      fun _ _ _ _ k => setTimestamp_keeps k _ _, 
      fun _ _ _ _ k => getLogs_keeps k _ _, 
      fun _ _ _ _ k => getLog_keeps k _ _, 
      fun _ _ _ _ k => identifyMemory_keeps k _ _, 
      fun _ _ _ _ k => healthInfo_keeps k _ _, 
      fun _ _ _ _ k => getAlerts_keeps k _ _, 
      fun _ _ _ _ k => setAlerts_keeps k _ _, 
      fun _ _ _ _ k => getPoisonList_keeps k _ _, 
      fun _ _ _ _ k => injectPoison_keeps k _ _, 
      fun _ _ _ _ k => clearPoison_keeps k _ _, by simp⟩,
      ⟨
      fun _ _ _ _ k => stageOpen_keeps k _ _, 
      fun _ _ _ _ k => stageCommit_keeps k _ _, 
      fun _ _ _ _ k => stageAbort_keeps k _ _, 
      fun _ _ _ _ k => clampReportGet_keeps k _ _, 
      fun _ _ _ _ k => bgQuery_keeps k _ _, 
      fun _ _ _ _ k => abort_keeps k _ _, 
      fun _ _ _ _ k => fcrRegister_keeps k _ _, 
      fun _ _ _ _ k => fcrDeregister_keeps k _ _, 
      fun _ _ _ _ k => mgmtDesignate_keeps k _ _, 
      fun _ _ _ _ k => regionCfg_keeps k _ _, 
      fun _ _ _ _ k => regionDelete_keeps k _ _, 
      fun _ _ _ _ k => regionQuery_keeps k _ _, 
      fun _ _ _ _ k => tierCfg_keeps k _ _, 
      fun _ _ _ _ k => tierCtl_keeps k _ _, 
      fun _ _ _ _ k => mscRowCfg_keeps k _ _, 
      fun _ _ _ _ k => cdCtl_keeps k _ _, 
      fun _ _ _ _ k => cdYardQuery_keeps k _ _, by simp⟩⟩,
      ⟨
      fun _ _ _ _ k => qeBufRegister_keeps k _ _, 
      fun _ _ _ _ k => qeBufDeregister_keeps k _ _, 
      fun _ _ _ _ k => qeFreeRing_keeps k _ _, 
      fun _ _ _ _ k => qeFreeRingDereg_keeps k _ _, 
      fun _ _ _ _ k => qeReclaim_keeps k _ _, 
      fun _ _ _ _ k => qeEgressRing_keeps k _ _, 
      fun _ _ _ _ k => qeEgressDereg_keeps k _ _, 
      fun _ _ _ _ k => qeFlush_keeps k _ _, 
      fun _ _ _ _ k => qeQuery_keeps k _ _, 
      fun _ _ _ _ k => qeCtl_keeps k _ _, 
      fun _ _ _ _ k => qeQueueCfg_keeps k _ _, 
      fun _ _ _ _ k => qePolicerCfg_keeps k _ _, 
      fun _ _ _ _ k => scNodeCfg_keeps k _ _, 
      fun _ _ _ _ k => scPortCfg_keeps k _ _, 
      fun _ _ _ _ k => scGateList_keeps k _ _, 
      fun _ _ _ _ k => scQuery_keeps k _ _, 
      fun _ _ _ _ k => tuCtl_keeps k _ _, 
      fun _ _ _ _ k => tuSet_keeps k _ _, 
      fun _ _ _ _ k => tuQuery_keeps k _ _, by simp⟩⟩,
      ⟨
      fun _ _ _ _ k => ceSetCfg_keeps k _ _, 
      fun _ _ _ _ k => ceSetDelete_keeps k _ _, 
      fun _ _ _ _ k => ceQeBind_keeps k _ _, 
      fun _ _ _ _ k => ceClear_keeps k _ _, 
      fun _ _ _ _ k => ceQuery_keeps k _ _, 
      fun _ _ _ _ k => ceCtl_keeps k _ _, 
      fun _ _ _ _ k => faultCfg_keeps k _ _, 
      fun _ _ _ _ k => faultCtl_keeps k _ _, 
      fun _ _ _ _ k => faultLogGet_keeps k _ _, 
      fun _ _ _ _ k => faultClear_keeps k _ _, 
      fun _ _ _ _ k => faultQuery_keeps k _ _, 
      fun _ _ _ _ k => freezeCtl_keeps k _ _, 
      fun _ _ _ _ k => thaw_keeps k _ _, 
      fun _ _ _ _ k => bwReqCfg_keeps k _ _, 
      fun _ _ _ _ k => bwGuarCfg_keeps k _ _, 
      fun _ _ _ _ k => bwWindowCfg_keeps k _ _, 
      fun _ _ _ _ k => bwQuery_keeps k _ _, 
      fun _ _ _ _ k => hpPortCfg_keeps k _ _, by simp⟩⟩,
      ⟨
      fun _ _ _ _ k => pwEnter_keeps k _ _, 
      fun _ _ _ _ k => pwWake_keeps k _ _, 
      fun _ _ _ _ k => pwQuery_keeps k _ _, 
      fun _ _ _ _ k => nsWays_keeps k _ _, 
      fun _ _ _ _ k => mcSpeed_keeps k _ _, 
      fun _ _ _ _ k => pmCfg_keeps k _ _, 
      fun _ _ _ _ k => pmDumpCfg_keeps k _ _, 
      fun _ _ _ _ k => pmRead_keeps k _ _, 
      fun _ _ _ _ k => rangeCmd_keeps k _ _ _, 
      fun _ _ _ _ k => rangeCmd_keeps k _ _ _, 
      fun _ _ _ _ k => rekeyStart_keeps k _ _, 
      fun _ _ _ _ k => scrubCtl_keeps k _ _, 
      fun _ _ _ _ k => pprCtl_keeps k _ _, 
      fun _ _ _ _ k => fuseBurn_keeps k _ _, 
      fun _ _ _ _ k => mcCtl_keeps k _ _, 
      fun _ _ _ _ k => diagCtrlRead_keeps k _ _, 
      fun _ _ _ _ k => diagCtrlWrite_keeps k _ _, 
      fun _ _ _ _ k => cdGranuleRead_keeps k _ _, by simp⟩⟩

theorem bodyOf_keeps {op : Nat} {b : Body} (hb : bodyOf op = some b) (h : Keeps F s t) (p : Path) (d : Bytes)
    (p_out : F .out := by assumption) (p_fresh : F .fresh := by assumption) (p_dram : F .dram := by assumption) (p_hp : F .hp := by assumption) (p_rr : F .rr := by assumption) (p_rg : F .rg := by assumption) (p_ns : F .ns := by assumption) (p_tr : F .tr := by assumption) (p_cd : F .cd := by assumption) (p_lp : F .lp := by assumption) (p_fu : F .fu := by assumption) (p_sx : F .sx := by assumption) (p_mc : F .mc := by assumption) (p_bw : F .bw := by assumption) (p_qe : F .qe := by assumption) (p_sc : F .sc := by assumption) (p_tu : F .tu := by assumption) (p_ce : F .ce := by assumption) (p_mb : F .mb := by assumption) (p_fc : F .fc := by assumption) (p_pw : F .pw := by assumption) (p_ck : F .ck := by assumption) (p_pm : F .pm := by assumption) :
    Keeps F s (b p d t).1 := by
  unfold bodyOf at hb
  obtain ⟨e, he, rfl⟩ := Option.map_eq_some_iff.1 hb
  exact (bodies_keep : ∀ e ∈ bodies, Body.Kept F e.2) e (List.mem_of_find?_eq_some he) _ _ _ _ h

theorem State.receive_keeps (h : Keeps F s t) (p : Path) (op : Nat) (b : Bytes)
    (p_out : F .out := by assumption) (p_fresh : F .fresh := by assumption) (p_dram : F .dram := by assumption) (p_hp : F .hp := by assumption) (p_rr : F .rr := by assumption) (p_rg : F .rg := by assumption) (p_ns : F .ns := by assumption) (p_tr : F .tr := by assumption) (p_cd : F .cd := by assumption) (p_lp : F .lp := by assumption) (p_fu : F .fu := by assumption) (p_sx : F .sx := by assumption) (p_mc : F .mc := by assumption) (p_bw : F .bw := by assumption) (p_qe : F .qe := by assumption) (p_sc : F .sc := by assumption) (p_tu : F .tu := by assumption) (p_ce : F .ce := by assumption) (p_mb : F .mb := by assumption) (p_fc : F .fc := by assumption) (p_pw : F .pw := by assumption) (p_ck : F .ck := by assumption) (p_pm : F .pm := by assumption) : Keeps F s (State.receive t p op b) := by
  unfold State.receive
  split
  · rename_i hb
    exact State.command_keeps h _ _ _ _ (fun _ k => bodyOf_keeps hb k _ _)
  · exact State.unsupported_keeps h _ _ _

theorem State.release_keeps (h : Keeps F s t) (x) (p_out : F .out := by assumption) (p_fresh : F .fresh := by assumption) (p_dram : F .dram := by assumption) (p_hp : F .hp := by assumption) (p_rr : F .rr := by assumption) (p_rg : F .rg := by assumption) (p_ns : F .ns := by assumption) (p_tr : F .tr := by assumption) (p_cd : F .cd := by assumption) (p_lp : F .lp := by assumption) (p_fu : F .fu := by assumption) (p_sx : F .sx := by assumption) (p_mc : F .mc := by assumption) (p_bw : F .bw := by assumption) (p_qe : F .qe := by assumption) (p_sc : F .sc := by assumption) (p_tu : F .tu := by assumption) (p_ce : F .ce := by assumption) (p_mb : F .mb := by assumption) (p_fc : F .fc := by assumption) (p_pw : F .pw := by assumption) (p_ck : F .ck := by assumption) (p_pm : F .pm := by assumption) : Keeps F s (t.release x) := by
  unfold State.release
  split
  · exact h
  · exact State.holdCmd_keeps h _ _ _
  · exact State.holdCmd_keeps (State.beginWake_keeps h _) _ _ _
  · exact State.holdCmd_keeps (State.beginWake_keeps h _) _ _ _
  · split
    · rename_i hb _
      exact State.execute_keeps h _ _ _ _ _ (fun _ k => bodyOf_keeps hb k _ _)
    · exact State.complete_keeps (State.count_keeps (State.leaveIdle_keeps h) _ _ _) _ _ _

theorem State.releaseCmds_keeps (h : Keeps F s t) (p_out : F .out := by assumption) (p_fresh : F .fresh := by assumption) (p_dram : F .dram := by assumption) (p_hp : F .hp := by assumption) (p_rr : F .rr := by assumption) (p_rg : F .rg := by assumption) (p_ns : F .ns := by assumption) (p_tr : F .tr := by assumption) (p_cd : F .cd := by assumption) (p_lp : F .lp := by assumption) (p_fu : F .fu := by assumption) (p_sx : F .sx := by assumption) (p_mc : F .mc := by assumption) (p_bw : F .bw := by assumption) (p_qe : F .qe := by assumption) (p_sc : F .sc := by assumption) (p_tu : F .tu := by assumption) (p_ce : F .ce := by assumption) (p_mb : F .mb := by assumption) (p_fc : F .fc := by assumption) (p_pw : F .pw := by assumption) (p_ck : F .ck := by assumption) (p_pm : F .pm := by assumption) : Keeps F s t.releaseCmds := by
  unfold State.releaseCmds
  repeat' first
    | with_reducible assumption | intro _ | with_reducible refine State.release_keeps ?_ _
    | with_reducible refine Keeps.foldl (fun _ _ _ => ?_) _ ?_
    | simp only [keeps_upd, p_out, p_fresh, p_dram, p_hp, p_rr, p_rg, p_ns, p_tr, p_cd, p_lp, p_fu, p_sx, p_mc, p_bw, p_qe, p_sc, p_tu, p_ce, p_mb, p_fc, p_pw, p_ck, p_pm, or_true, true_or, length_lmod, length_lset, List.length_map]

theorem wakeDone_keeps (h : Keeps F s t) (bad) (failed) (p_out : F .out := by assumption) (p_fresh : F .fresh := by assumption)
    (p_dram : F .dram := by assumption) (p_hp : F .hp := by assumption) (p_rr : F .rr := by assumption)
    (p_rg : F .rg := by assumption) (p_ns : F .ns := by assumption) (p_tr : F .tr := by assumption)
    (p_cd : F .cd := by assumption) (p_lp : F .lp := by assumption) (p_fu : F .fu := by assumption)
    (p_sx : F .sx := by assumption) (p_mc : F .mc := by assumption) (p_bw : F .bw := by assumption)
    (p_qe : F .qe := by assumption) (p_sc : F .sc := by assumption) (p_tu : F .tu := by assumption)
    (p_ce : F .ce := by assumption) (p_mb : F .mb := by assumption) (p_fc : F .fc := by assumption)
    (p_pw : F .pw := by assumption) (p_ck : F .ck := by assumption) (p_pm : F .pm := by assumption)
    : Keeps F s (wakeDone bad failed t) := by
  unfold wakeDone
  try dsimp only
  repeat' first
    | with_reducible assumption | with_reducible refine State.wakeUp_keeps ?_ _ _ | with_reducible refine State.releaseCmds_keeps ?_
    | with_reducible refine Keeps.ite (fun _ => ?_) (fun _ => ?_) | with_reducible refine Keeps.iteP (fun _ => ?_) (fun _ => ?_)
    | split | dsimp only | intro _

theorem fcrEntryFetched_keeps (h : Keeps F s t) (f) (entry) (p_out : F .out := by assumption)
    (p_fresh : F .fresh := by assumption) (p_dram : F .dram := by assumption) (p_hp : F .hp := by assumption)
    (p_rr : F .rr := by assumption) (p_rg : F .rg := by assumption) (p_ns : F .ns := by assumption)
    (p_tr : F .tr := by assumption) (p_cd : F .cd := by assumption) (p_lp : F .lp := by assumption)
    (p_fu : F .fu := by assumption) (p_sx : F .sx := by assumption) (p_mc : F .mc := by assumption)
    (p_bw : F .bw := by assumption) (p_qe : F .qe := by assumption) (p_sc : F .sc := by assumption)
    (p_tu : F .tu := by assumption) (p_ce : F .ce := by assumption) (p_mb : F .mb := by assumption)
    (p_fc : F .fc := by assumption) (p_pw : F .pw := by assumption) (p_ck : F .ck := by assumption)
    (p_pm : F .pm := by assumption) : Keeps F s (fcrEntryFetched f entry t) := by
  unfold fcrEntryFetched
  try dsimp only
  repeat' first
    | with_reducible assumption | with_reducible refine State.modFn_keeps ?_ _ _ | with_reducible refine State.count_keeps ?_ _ _ _
    | with_reducible refine State.receive_keeps ?_ _ _ _ | with_reducible refine State.fetchRing_keeps ?_ _
    | with_reducible refine Keeps.ite (fun _ => ?_) (fun _ => ?_) | with_reducible refine Keeps.iteP (fun _ => ?_) (fun _ => ?_)
    | split | dsimp only | intro _

theorem State.narayBack_keeps (h : Keeps F s t) (src) (p_out : F .out := by assumption) (p_fresh : F .fresh := by assumption)
    (p_dram : F .dram := by assumption) (p_hp : F .hp := by assumption) (p_rr : F .rr := by assumption)
    (p_rg : F .rg := by assumption) (p_ns : F .ns := by assumption) (p_tr : F .tr := by assumption)
    (p_cd : F .cd := by assumption) (p_lp : F .lp := by assumption) (p_fu : F .fu := by assumption)
    (p_sx : F .sx := by assumption) (p_mc : F .mc := by assumption) (p_bw : F .bw := by assumption)
    (p_qe : F .qe := by assumption) (p_sc : F .sc := by assumption) (p_tu : F .tu := by assumption)
    (p_ce : F .ce := by assumption) (p_mb : F .mb := by assumption) (p_fc : F .fc := by assumption)
    (p_pw : F .pw := by assumption) (p_ck : F .ck := by assumption) (p_pm : F .pm := by assumption)
    : Keeps F s (State.narayBack t src) := by
  unfold State.narayBack
  try dsimp only
  repeat' first
    | with_reducible assumption | with_reducible refine State.closeShadow_keeps ?_ _ _
    | with_reducible refine State.actionEnds_keeps ?_ _ | with_reducible refine State.report_keeps ?_ _ _ _
    | with_reducible refine State.releaseCmds_keeps ?_ | intro _

theorem activationDone_keeps (h : Keeps F s t) (p_out : F .out := by assumption) (p_fresh : F .fresh := by assumption)
    (p_dram : F .dram := by assumption) (p_hp : F .hp := by assumption) (p_rr : F .rr := by assumption)
    (p_rg : F .rg := by assumption) (p_ns : F .ns := by assumption) (p_tr : F .tr := by assumption)
    (p_cd : F .cd := by assumption) (p_lp : F .lp := by assumption) (p_fu : F .fu := by assumption)
    (p_sx : F .sx := by assumption) (p_mc : F .mc := by assumption) (p_bw : F .bw := by assumption)
    (p_qe : F .qe := by assumption) (p_sc : F .sc := by assumption) (p_tu : F .tu := by assumption)
    (p_ce : F .ce := by assumption) (p_mb : F .mb := by assumption) (p_fc : F .fc := by assumption)
    (p_pw : F .pw := by assumption) (p_ck : F .ck := by assumption) (p_pm : F .pm := by assumption)
    : Keeps F s (activationDone t) := by
  unfold activationDone
  try dsimp only
  repeat' first
    | with_reducible assumption | with_reducible refine State.emit_keeps ?_ _ | with_reducible refine State.modOp_keeps ?_ _ _
    | with_reducible refine State.endOp_keeps ?_ _ _ _ | with_reducible refine State.narayBack_keeps ?_ _
    | with_reducible refine Keeps.ite (fun _ => ?_) (fun _ => ?_) | with_reducible refine Keeps.iteP (fun _ => ?_) (fun _ => ?_)
    | simp only [keeps_upd, p_out, p_fresh, p_dram, p_hp, p_rr, p_rg, p_ns, p_tr, p_cd, p_lp, p_fu, p_sx, p_mc, p_bw, p_qe, p_sc, p_tu, p_ce, p_mb, p_fc, p_pw, p_ck, p_pm, or_true, true_or, length_lmod, length_lset, List.length_map]
    | split
    | with_reducible refine Keeps.updFu ?_ (by first | exact le_refl _ | exact Nat.sub_le _ _) (by first | exact le_refl _ | exact le_max_left _ _) (by first | exact List.prefix_refl _ | exact List.prefix_append _ _)
    | dsimp only | intro _

theorem activationTimeout_at (h : Keeps F s t) (d : Nat)
    (p_out : F .out := by assumption) (p_fresh : F .fresh := by assumption) (p_now : F .now := by assumption) (p_dram : F .dram := by assumption) (p_hp : F .hp := by assumption) (p_rr : F .rr := by assumption) (p_rg : F .rg := by assumption) (p_ns : F .ns := by assumption) (p_tr : F .tr := by assumption) (p_cd : F .cd := by assumption) (p_lp : F .lp := by assumption) (p_fu : F .fu := by assumption) (p_sx : F .sx := by assumption) (p_mc : F .mc := by assumption) (p_bw : F .bw := by assumption) (p_qe : F .qe := by assumption) (p_sc : F .sc := by assumption) (p_tu : F .tu := by assumption) (p_ce : F .ce := by assumption) (p_mb : F .mb := by assumption) (p_fc : F .fc := by assumption) (p_pw : F .pw := by assumption) (p_ck : F .ck := by assumption) (p_pm : F .pm := by assumption) : Keeps F s (
    let s0 := State.advance t d
    let s1 : State := { s0 with mb := { s0.mb with activating := false, reloading := false, actFailed := true, actPath := none } }
    let s2 := match s1.activation with
      | some o => s1.endOp o.handle rcFwRolledBack
      | none => s1
    s2.narayBack nmActivationFailed) := by
  have hd := State.advance_keeps h d
  generalize State.advance t d = u at hd ⊢
  dsimp only
  have h2 : Keeps F s { u with mb := { u.mb with activating := false, reloading := false, actFailed := true, actPath := none } } := hd.upd
  refine State.narayBack_keeps ?_ _
  split
  · exact State.endOp_keeps h2 _ _ _
  · exact h2

theorem activationTimeout_keeps (h : Keeps F s t)
    (p_out : F .out := by assumption) (p_fresh : F .fresh := by assumption) (p_now : F .now := by assumption) (p_dram : F .dram := by assumption) (p_hp : F .hp := by assumption) (p_rr : F .rr := by assumption) (p_rg : F .rg := by assumption) (p_ns : F .ns := by assumption) (p_tr : F .tr := by assumption) (p_cd : F .cd := by assumption) (p_lp : F .lp := by assumption) (p_fu : F .fu := by assumption) (p_sx : F .sx := by assumption) (p_mc : F .mc := by assumption) (p_bw : F .bw := by assumption) (p_qe : F .qe := by assumption) (p_sc : F .sc := by assumption) (p_tu : F .tu := by assumption) (p_ce : F .ce := by assumption) (p_mb : F .mb := by assumption) (p_fc : F .fc := by assumption) (p_pw : F .pw := by assumption) (p_ck : F .ck := by assumption) (p_pm : F .pm := by assumption) : Keeps F s (activationTimeout t) := by
  unfold activationTimeout
  split
  · exact h
  · exact activationTimeout_at h _

theorem nmFetchError_keeps (h : Keeps F s t) (p_mb : F .mb := by assumption) (p_fc : F .fc := by assumption)
    : Keeps F s (nmFetchError t) := by
  unfold nmFetchError
  try dsimp only
  repeat' first
    | with_reducible assumption | with_reducible refine State.report_keeps ?_ _ _ _
    | with_reducible refine Keeps.ite (fun _ => ?_) (fun _ => ?_) | with_reducible refine Keeps.iteP (fun _ => ?_) (fun _ => ?_)
    | simp only [keeps_upd, p_mb, p_fc, or_true, true_or, length_lmod, length_lset, List.length_map] | split | intro _

theorem nmReloadDone_keeps (h : Keeps F s t) (ok) (p_out : F .out := by assumption) (p_fresh : F .fresh := by assumption)
    (p_dram : F .dram := by assumption) (p_hp : F .hp := by assumption) (p_rr : F .rr := by assumption)
    (p_rg : F .rg := by assumption) (p_ns : F .ns := by assumption) (p_tr : F .tr := by assumption)
    (p_cd : F .cd := by assumption) (p_lp : F .lp := by assumption) (p_fu : F .fu := by assumption)
    (p_sx : F .sx := by assumption) (p_mc : F .mc := by assumption) (p_bw : F .bw := by assumption)
    (p_qe : F .qe := by assumption) (p_sc : F .sc := by assumption) (p_tu : F .tu := by assumption)
    (p_ce : F .ce := by assumption) (p_mb : F .mb := by assumption) (p_fc : F .fc := by assumption)
    (p_pw : F .pw := by assumption) (p_ck : F .ck := by assumption) (p_pm : F .pm := by assumption)
    : Keeps F s (nmReloadDone ok t) := by
  unfold nmReloadDone
  try dsimp only
  repeat' first
    | with_reducible assumption | with_reducible refine State.closeShadow_keeps ?_ _ _
    | with_reducible refine State.actionEnds_keeps ?_ _ | with_reducible refine State.releaseCmds_keeps ?_
    | with_reducible refine State.startActivation_keeps ?_ _ | with_reducible refine Keeps.ite (fun _ => ?_) (fun _ => ?_)
    | with_reducible refine Keeps.iteP (fun _ => ?_) (fun _ => ?_)
    | simp only [keeps_upd, p_out, p_fresh, p_dram, p_hp, p_rr, p_rg, p_ns, p_tr, p_cd, p_lp, p_fu, p_sx, p_mc, p_bw, p_qe, p_sc, p_tu, p_ce, p_mb, p_fc, p_pw, p_ck, p_pm, or_true, true_or, length_lmod, length_lset, List.length_map]
    | split | intro _

end Sys2Proof.Machine
end

