-- ==== Sys2Proof/Laws/KeepsEngines.lean ====
section
/-! SUPPORT. What each operation of Machine/Engines.lean keeps. -/

set_option Elab.async false

set_option linter.all false

namespace Sys2Proof.Machine
open Sys2Proof

variable {F : Part → Prop} {s t : State}

theorem State.engineDone_keeps (h : Keeps F s t) (who) (p_out : F .out := by assumption) (p_fresh : F .fresh := by assumption)
    (p_dram : F .dram := by assumption) (p_hp : F .hp := by assumption) (p_rr : F .rr := by assumption)
    (p_rg : F .rg := by assumption) (p_ns : F .ns := by assumption) (p_tr : F .tr := by assumption)
    (p_cd : F .cd := by assumption) (p_lp : F .lp := by assumption) (p_sx : F .sx := by assumption)
    (p_mc : F .mc := by assumption) (p_bw : F .bw := by assumption) (p_ce : F .ce := by assumption)
    (p_mb : F .mb := by assumption) (p_fc : F .fc := by assumption) (p_pw : F .pw := by assumption)
    (p_pm : F .pm := by assumption) : Keeps F s (State.engineDone t who) := by
  unfold State.engineDone
  try dsimp only
  repeat' first
    | with_reducible assumption | with_reducible refine State.afterEngine_keeps ?_ _ | with_reducible refine State.admit_keeps ?_
    | intro _

theorem State.engineRuns_keeps (h : Keeps F s t) (who) (g : State → State) (hg : ∀ u, Keeps F s u → Keeps F s (g u))
    (p_out : F .out := by assumption) (p_fresh : F .fresh := by assumption) (p_dram : F .dram := by assumption) (p_hp : F .hp := by assumption) (p_rr : F .rr := by assumption) (p_rg : F .rg := by assumption) (p_ns : F .ns := by assumption) (p_tr : F .tr := by assumption) (p_cd : F .cd := by assumption) (p_lp : F .lp := by assumption) (p_sx : F .sx := by assumption) (p_mc : F .mc := by assumption) (p_bw : F .bw := by assumption) (p_ce : F .ce := by assumption) (p_mb : F .mb := by assumption) (p_fc : F .fc := by assumption) (p_pw : F .pw := by assumption) (p_pm : F .pm := by assumption) : Keeps F s (State.engineRuns t who g) := State.engineDone_keeps (hg _ h) _

theorem State.engine_keeps (h : Keeps F s t) (who) (g : State → State) (hg : ∀ u, Keeps F s u → Keeps F s (g u))
    (p_out : F .out := by assumption) (p_fresh : F .fresh := by assumption) (p_dram : F .dram := by assumption) (p_hp : F .hp := by assumption) (p_rr : F .rr := by assumption) (p_rg : F .rg := by assumption) (p_ns : F .ns := by assumption) (p_tr : F .tr := by assumption) (p_cd : F .cd := by assumption) (p_lp : F .lp := by assumption) (p_sx : F .sx := by assumption) (p_mc : F .mc := by assumption) (p_bw : F .bw := by assumption) (p_ce : F .ce := by assumption) (p_mb : F .mb := by assumption) (p_fc : F .fc := by assumption) (p_pw : F .pw := by assumption) (p_pm : F .pm := by assumption) : Keeps F s (State.engine t who g) :=
  Keeps.ite (fun _ => State.engineRuns_keeps h who g hg) (fun _ => h)

end Sys2Proof.Machine
end

