-- ==== Sys2Proof/Laws/State.lean ====
section
/-! SUPPORT. What the shared updates leave: one lemma per update and part of the state that it does not touch, and what is read back of
the part that it does. -/

namespace Sys2Proof.Machine
open Sys2Proof

variable (s : State)

/-! ### The parts an update does not touch -/

@[simp] theorem State.emit_pending (o : Out) : (s.emit o).pending = s.pending := rfl
@[simp] theorem State.emit_fresh (o : Out) : (s.emit o).fresh = s.fresh := rfl
@[simp] theorem State.emit_now (o : Out) : (s.emit o).now = s.now := rfl
@[simp] theorem State.emit_dram (o : Out) : (s.emit o).dram = s.dram := rfl
@[simp] theorem State.emit_hp (o : Out) : (s.emit o).hp = s.hp := rfl
@[simp] theorem State.emit_rr (o : Out) : (s.emit o).rr = s.rr := rfl
@[simp] theorem State.emit_rg (o : Out) : (s.emit o).rg = s.rg := rfl
@[simp] theorem State.emit_ns (o : Out) : (s.emit o).ns = s.ns := rfl
@[simp] theorem State.emit_tr (o : Out) : (s.emit o).tr = s.tr := rfl
@[simp] theorem State.emit_cd (o : Out) : (s.emit o).cd = s.cd := rfl
@[simp] theorem State.emit_lp (o : Out) : (s.emit o).lp = s.lp := rfl
@[simp] theorem State.emit_fu (o : Out) : (s.emit o).fu = s.fu := rfl
@[simp] theorem State.emit_sx (o : Out) : (s.emit o).sx = s.sx := rfl
@[simp] theorem State.emit_mc (o : Out) : (s.emit o).mc = s.mc := rfl
@[simp] theorem State.emit_bw (o : Out) : (s.emit o).bw = s.bw := rfl
@[simp] theorem State.emit_qe (o : Out) : (s.emit o).qe = s.qe := rfl
@[simp] theorem State.emit_sc (o : Out) : (s.emit o).sc = s.sc := rfl
@[simp] theorem State.emit_tu (o : Out) : (s.emit o).tu = s.tu := rfl
@[simp] theorem State.emit_ce (o : Out) : (s.emit o).ce = s.ce := rfl
@[simp] theorem State.emit_mb (o : Out) : (s.emit o).mb = s.mb := rfl
@[simp] theorem State.emit_fc (o : Out) : (s.emit o).fc = s.fc := rfl
@[simp] theorem State.emit_pw (o : Out) : (s.emit o).pw = s.pw := rfl
@[simp] theorem State.emit_ck (o : Out) : (s.emit o).ck = s.ck := rfl
@[simp] theorem State.emit_pm (o : Out) : (s.emit o).pm = s.pm := rfl

@[simp] theorem State.report_pending (a b : Nat) (r : Option Nat) : (s.report a b r).pending = s.pending := rfl
@[simp] theorem State.report_out (a b : Nat) (r : Option Nat) : (s.report a b r).out = s.out := rfl
@[simp] theorem State.report_fresh (a b : Nat) (r : Option Nat) : (s.report a b r).fresh = s.fresh := rfl
@[simp] theorem State.report_now (a b : Nat) (r : Option Nat) : (s.report a b r).now = s.now := rfl
@[simp] theorem State.report_dram (a b : Nat) (r : Option Nat) : (s.report a b r).dram = s.dram := rfl
@[simp] theorem State.report_hp (a b : Nat) (r : Option Nat) : (s.report a b r).hp = s.hp := rfl
@[simp] theorem State.report_rr (a b : Nat) (r : Option Nat) : (s.report a b r).rr = s.rr := rfl
@[simp] theorem State.report_rg (a b : Nat) (r : Option Nat) : (s.report a b r).rg = s.rg := rfl
@[simp] theorem State.report_ns (a b : Nat) (r : Option Nat) : (s.report a b r).ns = s.ns := rfl
@[simp] theorem State.report_tr (a b : Nat) (r : Option Nat) : (s.report a b r).tr = s.tr := rfl
@[simp] theorem State.report_cd (a b : Nat) (r : Option Nat) : (s.report a b r).cd = s.cd := rfl
@[simp] theorem State.report_lp (a b : Nat) (r : Option Nat) : (s.report a b r).lp = s.lp := rfl
@[simp] theorem State.report_fu (a b : Nat) (r : Option Nat) : (s.report a b r).fu = s.fu := rfl
@[simp] theorem State.report_sx (a b : Nat) (r : Option Nat) : (s.report a b r).sx = s.sx := rfl
@[simp] theorem State.report_mc (a b : Nat) (r : Option Nat) : (s.report a b r).mc = s.mc := rfl
@[simp] theorem State.report_bw (a b : Nat) (r : Option Nat) : (s.report a b r).bw = s.bw := rfl
@[simp] theorem State.report_qe (a b : Nat) (r : Option Nat) : (s.report a b r).qe = s.qe := rfl
@[simp] theorem State.report_sc (a b : Nat) (r : Option Nat) : (s.report a b r).sc = s.sc := rfl
@[simp] theorem State.report_tu (a b : Nat) (r : Option Nat) : (s.report a b r).tu = s.tu := rfl
@[simp] theorem State.report_ce (a b : Nat) (r : Option Nat) : (s.report a b r).ce = s.ce := rfl
@[simp] theorem State.report_mb (a b : Nat) (r : Option Nat) : (s.report a b r).mb = s.mb := rfl
@[simp] theorem State.report_pw (a b : Nat) (r : Option Nat) : (s.report a b r).pw = s.pw := rfl
@[simp] theorem State.report_ck (a b : Nat) (r : Option Nat) : (s.report a b r).ck = s.ck := rfl
@[simp] theorem State.report_pm (a b : Nat) (r : Option Nat) : (s.report a b r).pm = s.pm := rfl

@[simp] theorem State.reportAgg_pending (a b c d : Nat) (r : Option Nat) : (s.reportAgg a b c d r).pending = s.pending := by unfold State.reportAgg; dsimp only; split <;> rfl
@[simp] theorem State.reportAgg_out (a b c d : Nat) (r : Option Nat) : (s.reportAgg a b c d r).out = s.out := by unfold State.reportAgg; dsimp only; split <;> rfl
@[simp] theorem State.reportAgg_fresh (a b c d : Nat) (r : Option Nat) : (s.reportAgg a b c d r).fresh = s.fresh := by unfold State.reportAgg; dsimp only; split <;> rfl
@[simp] theorem State.reportAgg_now (a b c d : Nat) (r : Option Nat) : (s.reportAgg a b c d r).now = s.now := by unfold State.reportAgg; dsimp only; split <;> rfl
@[simp] theorem State.reportAgg_dram (a b c d : Nat) (r : Option Nat) : (s.reportAgg a b c d r).dram = s.dram := by unfold State.reportAgg; dsimp only; split <;> rfl
@[simp] theorem State.reportAgg_hp (a b c d : Nat) (r : Option Nat) : (s.reportAgg a b c d r).hp = s.hp := by unfold State.reportAgg; dsimp only; split <;> rfl
@[simp] theorem State.reportAgg_rr (a b c d : Nat) (r : Option Nat) : (s.reportAgg a b c d r).rr = s.rr := by unfold State.reportAgg; dsimp only; split <;> rfl
@[simp] theorem State.reportAgg_rg (a b c d : Nat) (r : Option Nat) : (s.reportAgg a b c d r).rg = s.rg := by unfold State.reportAgg; dsimp only; split <;> rfl
@[simp] theorem State.reportAgg_ns (a b c d : Nat) (r : Option Nat) : (s.reportAgg a b c d r).ns = s.ns := by unfold State.reportAgg; dsimp only; split <;> rfl
@[simp] theorem State.reportAgg_tr (a b c d : Nat) (r : Option Nat) : (s.reportAgg a b c d r).tr = s.tr := by unfold State.reportAgg; dsimp only; split <;> rfl
@[simp] theorem State.reportAgg_cd (a b c d : Nat) (r : Option Nat) : (s.reportAgg a b c d r).cd = s.cd := by unfold State.reportAgg; dsimp only; split <;> rfl
@[simp] theorem State.reportAgg_lp (a b c d : Nat) (r : Option Nat) : (s.reportAgg a b c d r).lp = s.lp := by unfold State.reportAgg; dsimp only; split <;> rfl
@[simp] theorem State.reportAgg_fu (a b c d : Nat) (r : Option Nat) : (s.reportAgg a b c d r).fu = s.fu := by unfold State.reportAgg; dsimp only; split <;> rfl
@[simp] theorem State.reportAgg_sx (a b c d : Nat) (r : Option Nat) : (s.reportAgg a b c d r).sx = s.sx := by unfold State.reportAgg; dsimp only; split <;> rfl
@[simp] theorem State.reportAgg_mc (a b c d : Nat) (r : Option Nat) : (s.reportAgg a b c d r).mc = s.mc := by unfold State.reportAgg; dsimp only; split <;> rfl
@[simp] theorem State.reportAgg_bw (a b c d : Nat) (r : Option Nat) : (s.reportAgg a b c d r).bw = s.bw := by unfold State.reportAgg; dsimp only; split <;> rfl
@[simp] theorem State.reportAgg_qe (a b c d : Nat) (r : Option Nat) : (s.reportAgg a b c d r).qe = s.qe := by unfold State.reportAgg; dsimp only; split <;> rfl
@[simp] theorem State.reportAgg_sc (a b c d : Nat) (r : Option Nat) : (s.reportAgg a b c d r).sc = s.sc := by unfold State.reportAgg; dsimp only; split <;> rfl
@[simp] theorem State.reportAgg_tu (a b c d : Nat) (r : Option Nat) : (s.reportAgg a b c d r).tu = s.tu := by unfold State.reportAgg; dsimp only; split <;> rfl
@[simp] theorem State.reportAgg_ce (a b c d : Nat) (r : Option Nat) : (s.reportAgg a b c d r).ce = s.ce := by unfold State.reportAgg; dsimp only; split <;> rfl
@[simp] theorem State.reportAgg_mb (a b c d : Nat) (r : Option Nat) : (s.reportAgg a b c d r).mb = s.mb := by unfold State.reportAgg; dsimp only; split <;> rfl
@[simp] theorem State.reportAgg_pw (a b c d : Nat) (r : Option Nat) : (s.reportAgg a b c d r).pw = s.pw := by unfold State.reportAgg; dsimp only; split <;> rfl
@[simp] theorem State.reportAgg_ck (a b c d : Nat) (r : Option Nat) : (s.reportAgg a b c d r).ck = s.ck := by unfold State.reportAgg; dsimp only; split <;> rfl
@[simp] theorem State.reportAgg_pm (a b c d : Nat) (r : Option Nat) : (s.reportAgg a b c d r).pm = s.pm := by unfold State.reportAgg; dsimp only; split <;> rfl

@[simp] theorem State.openShadow_pending (n : Nat) (e q : Option Nat) (k : Nat) : (s.openShadow n e q k).pending = s.pending := rfl
@[simp] theorem State.openShadow_out (n : Nat) (e q : Option Nat) (k : Nat) : (s.openShadow n e q k).out = s.out := rfl
@[simp] theorem State.openShadow_fresh (n : Nat) (e q : Option Nat) (k : Nat) : (s.openShadow n e q k).fresh = s.fresh := rfl
@[simp] theorem State.openShadow_now (n : Nat) (e q : Option Nat) (k : Nat) : (s.openShadow n e q k).now = s.now := rfl
@[simp] theorem State.openShadow_dram (n : Nat) (e q : Option Nat) (k : Nat) : (s.openShadow n e q k).dram = s.dram := rfl
@[simp] theorem State.openShadow_hp (n : Nat) (e q : Option Nat) (k : Nat) : (s.openShadow n e q k).hp = s.hp := rfl
@[simp] theorem State.openShadow_rr (n : Nat) (e q : Option Nat) (k : Nat) : (s.openShadow n e q k).rr = s.rr := rfl
@[simp] theorem State.openShadow_rg (n : Nat) (e q : Option Nat) (k : Nat) : (s.openShadow n e q k).rg = s.rg := rfl
@[simp] theorem State.openShadow_ns (n : Nat) (e q : Option Nat) (k : Nat) : (s.openShadow n e q k).ns = s.ns := rfl
@[simp] theorem State.openShadow_tr (n : Nat) (e q : Option Nat) (k : Nat) : (s.openShadow n e q k).tr = s.tr := rfl
@[simp] theorem State.openShadow_cd (n : Nat) (e q : Option Nat) (k : Nat) : (s.openShadow n e q k).cd = s.cd := rfl
@[simp] theorem State.openShadow_lp (n : Nat) (e q : Option Nat) (k : Nat) : (s.openShadow n e q k).lp = s.lp := rfl
@[simp] theorem State.openShadow_fu (n : Nat) (e q : Option Nat) (k : Nat) : (s.openShadow n e q k).fu = s.fu := rfl
@[simp] theorem State.openShadow_sx (n : Nat) (e q : Option Nat) (k : Nat) : (s.openShadow n e q k).sx = s.sx := rfl
@[simp] theorem State.openShadow_mc (n : Nat) (e q : Option Nat) (k : Nat) : (s.openShadow n e q k).mc = s.mc := rfl
@[simp] theorem State.openShadow_bw (n : Nat) (e q : Option Nat) (k : Nat) : (s.openShadow n e q k).bw = s.bw := rfl
@[simp] theorem State.openShadow_qe (n : Nat) (e q : Option Nat) (k : Nat) : (s.openShadow n e q k).qe = s.qe := rfl
@[simp] theorem State.openShadow_sc (n : Nat) (e q : Option Nat) (k : Nat) : (s.openShadow n e q k).sc = s.sc := rfl
@[simp] theorem State.openShadow_tu (n : Nat) (e q : Option Nat) (k : Nat) : (s.openShadow n e q k).tu = s.tu := rfl
@[simp] theorem State.openShadow_ce (n : Nat) (e q : Option Nat) (k : Nat) : (s.openShadow n e q k).ce = s.ce := rfl
@[simp] theorem State.openShadow_mb (n : Nat) (e q : Option Nat) (k : Nat) : (s.openShadow n e q k).mb = s.mb := rfl
@[simp] theorem State.openShadow_pw (n : Nat) (e q : Option Nat) (k : Nat) : (s.openShadow n e q k).pw = s.pw := rfl
@[simp] theorem State.openShadow_ck (n : Nat) (e q : Option Nat) (k : Nat) : (s.openShadow n e q k).ck = s.ck := rfl
@[simp] theorem State.openShadow_pm (n : Nat) (e q : Option Nat) (k : Nat) : (s.openShadow n e q k).pm = s.pm := rfl

@[simp] theorem State.closeShadow_pending (n k : Nat) : (s.closeShadow n k).pending = s.pending := rfl
@[simp] theorem State.closeShadow_out (n k : Nat) : (s.closeShadow n k).out = s.out := rfl
@[simp] theorem State.closeShadow_fresh (n k : Nat) : (s.closeShadow n k).fresh = s.fresh := rfl
@[simp] theorem State.closeShadow_now (n k : Nat) : (s.closeShadow n k).now = s.now := rfl
@[simp] theorem State.closeShadow_dram (n k : Nat) : (s.closeShadow n k).dram = s.dram := rfl
@[simp] theorem State.closeShadow_hp (n k : Nat) : (s.closeShadow n k).hp = s.hp := rfl
@[simp] theorem State.closeShadow_rr (n k : Nat) : (s.closeShadow n k).rr = s.rr := rfl
@[simp] theorem State.closeShadow_rg (n k : Nat) : (s.closeShadow n k).rg = s.rg := rfl
@[simp] theorem State.closeShadow_ns (n k : Nat) : (s.closeShadow n k).ns = s.ns := rfl
@[simp] theorem State.closeShadow_tr (n k : Nat) : (s.closeShadow n k).tr = s.tr := rfl
@[simp] theorem State.closeShadow_cd (n k : Nat) : (s.closeShadow n k).cd = s.cd := rfl
@[simp] theorem State.closeShadow_lp (n k : Nat) : (s.closeShadow n k).lp = s.lp := rfl
@[simp] theorem State.closeShadow_fu (n k : Nat) : (s.closeShadow n k).fu = s.fu := rfl
@[simp] theorem State.closeShadow_sx (n k : Nat) : (s.closeShadow n k).sx = s.sx := rfl
@[simp] theorem State.closeShadow_mc (n k : Nat) : (s.closeShadow n k).mc = s.mc := rfl
@[simp] theorem State.closeShadow_bw (n k : Nat) : (s.closeShadow n k).bw = s.bw := rfl
@[simp] theorem State.closeShadow_qe (n k : Nat) : (s.closeShadow n k).qe = s.qe := rfl
@[simp] theorem State.closeShadow_sc (n k : Nat) : (s.closeShadow n k).sc = s.sc := rfl
@[simp] theorem State.closeShadow_tu (n k : Nat) : (s.closeShadow n k).tu = s.tu := rfl
@[simp] theorem State.closeShadow_ce (n k : Nat) : (s.closeShadow n k).ce = s.ce := rfl
@[simp] theorem State.closeShadow_mb (n k : Nat) : (s.closeShadow n k).mb = s.mb := rfl
@[simp] theorem State.closeShadow_pw (n k : Nat) : (s.closeShadow n k).pw = s.pw := rfl
@[simp] theorem State.closeShadow_ck (n k : Nat) : (s.closeShadow n k).ck = s.ck := rfl
@[simp] theorem State.closeShadow_pm (n k : Nat) : (s.closeShadow n k).pm = s.pm := rfl

@[simp] theorem State.flashShadow_pending (n k : Nat) : (s.flashShadow n k).pending = s.pending := rfl
@[simp] theorem State.flashShadow_out (n k : Nat) : (s.flashShadow n k).out = s.out := rfl
@[simp] theorem State.flashShadow_fresh (n k : Nat) : (s.flashShadow n k).fresh = s.fresh := rfl
@[simp] theorem State.flashShadow_now (n k : Nat) : (s.flashShadow n k).now = s.now := rfl
@[simp] theorem State.flashShadow_dram (n k : Nat) : (s.flashShadow n k).dram = s.dram := rfl
@[simp] theorem State.flashShadow_hp (n k : Nat) : (s.flashShadow n k).hp = s.hp := rfl
@[simp] theorem State.flashShadow_rr (n k : Nat) : (s.flashShadow n k).rr = s.rr := rfl
@[simp] theorem State.flashShadow_rg (n k : Nat) : (s.flashShadow n k).rg = s.rg := rfl
@[simp] theorem State.flashShadow_ns (n k : Nat) : (s.flashShadow n k).ns = s.ns := rfl
@[simp] theorem State.flashShadow_tr (n k : Nat) : (s.flashShadow n k).tr = s.tr := rfl
@[simp] theorem State.flashShadow_cd (n k : Nat) : (s.flashShadow n k).cd = s.cd := rfl
@[simp] theorem State.flashShadow_lp (n k : Nat) : (s.flashShadow n k).lp = s.lp := rfl
@[simp] theorem State.flashShadow_fu (n k : Nat) : (s.flashShadow n k).fu = s.fu := rfl
@[simp] theorem State.flashShadow_sx (n k : Nat) : (s.flashShadow n k).sx = s.sx := rfl
@[simp] theorem State.flashShadow_mc (n k : Nat) : (s.flashShadow n k).mc = s.mc := rfl
@[simp] theorem State.flashShadow_bw (n k : Nat) : (s.flashShadow n k).bw = s.bw := rfl
@[simp] theorem State.flashShadow_qe (n k : Nat) : (s.flashShadow n k).qe = s.qe := rfl
@[simp] theorem State.flashShadow_sc (n k : Nat) : (s.flashShadow n k).sc = s.sc := rfl
@[simp] theorem State.flashShadow_tu (n k : Nat) : (s.flashShadow n k).tu = s.tu := rfl
@[simp] theorem State.flashShadow_ce (n k : Nat) : (s.flashShadow n k).ce = s.ce := rfl
@[simp] theorem State.flashShadow_mb (n k : Nat) : (s.flashShadow n k).mb = s.mb := rfl
@[simp] theorem State.flashShadow_pw (n k : Nat) : (s.flashShadow n k).pw = s.pw := rfl
@[simp] theorem State.flashShadow_ck (n k : Nat) : (s.flashShadow n k).ck = s.ck := rfl
@[simp] theorem State.flashShadow_pm (n k : Nat) : (s.flashShadow n k).pm = s.pm := rfl

@[simp] theorem State.actionEnds_pending (n : Nat) : (s.actionEnds n).pending = s.pending := rfl
@[simp] theorem State.actionEnds_out (n : Nat) : (s.actionEnds n).out = s.out := rfl
@[simp] theorem State.actionEnds_fresh (n : Nat) : (s.actionEnds n).fresh = s.fresh := rfl
@[simp] theorem State.actionEnds_now (n : Nat) : (s.actionEnds n).now = s.now := rfl
@[simp] theorem State.actionEnds_dram (n : Nat) : (s.actionEnds n).dram = s.dram := rfl
@[simp] theorem State.actionEnds_hp (n : Nat) : (s.actionEnds n).hp = s.hp := rfl
@[simp] theorem State.actionEnds_rr (n : Nat) : (s.actionEnds n).rr = s.rr := rfl
@[simp] theorem State.actionEnds_rg (n : Nat) : (s.actionEnds n).rg = s.rg := rfl
@[simp] theorem State.actionEnds_ns (n : Nat) : (s.actionEnds n).ns = s.ns := rfl
@[simp] theorem State.actionEnds_tr (n : Nat) : (s.actionEnds n).tr = s.tr := rfl
@[simp] theorem State.actionEnds_cd (n : Nat) : (s.actionEnds n).cd = s.cd := rfl
@[simp] theorem State.actionEnds_lp (n : Nat) : (s.actionEnds n).lp = s.lp := rfl
@[simp] theorem State.actionEnds_fu (n : Nat) : (s.actionEnds n).fu = s.fu := rfl
@[simp] theorem State.actionEnds_sx (n : Nat) : (s.actionEnds n).sx = s.sx := rfl
@[simp] theorem State.actionEnds_mc (n : Nat) : (s.actionEnds n).mc = s.mc := rfl
@[simp] theorem State.actionEnds_bw (n : Nat) : (s.actionEnds n).bw = s.bw := rfl
@[simp] theorem State.actionEnds_qe (n : Nat) : (s.actionEnds n).qe = s.qe := rfl
@[simp] theorem State.actionEnds_sc (n : Nat) : (s.actionEnds n).sc = s.sc := rfl
@[simp] theorem State.actionEnds_tu (n : Nat) : (s.actionEnds n).tu = s.tu := rfl
@[simp] theorem State.actionEnds_ce (n : Nat) : (s.actionEnds n).ce = s.ce := rfl
@[simp] theorem State.actionEnds_mb (n : Nat) : (s.actionEnds n).mb = s.mb := rfl
@[simp] theorem State.actionEnds_pw (n : Nat) : (s.actionEnds n).pw = s.pw := rfl
@[simp] theorem State.actionEnds_ck (n : Nat) : (s.actionEnds n).ck = s.ck := rfl
@[simp] theorem State.actionEnds_pm (n : Nat) : (s.actionEnds n).pm = s.pm := rfl

@[simp] theorem State.drawn_pending : (s.drawn).pending = s.pending := rfl
@[simp] theorem State.drawn_out : (s.drawn).out = s.out := rfl
@[simp] theorem State.drawn_now : (s.drawn).now = s.now := rfl
@[simp] theorem State.drawn_dram : (s.drawn).dram = s.dram := rfl
@[simp] theorem State.drawn_hp : (s.drawn).hp = s.hp := rfl
@[simp] theorem State.drawn_rr : (s.drawn).rr = s.rr := rfl
@[simp] theorem State.drawn_rg : (s.drawn).rg = s.rg := rfl
@[simp] theorem State.drawn_ns : (s.drawn).ns = s.ns := rfl
@[simp] theorem State.drawn_tr : (s.drawn).tr = s.tr := rfl
@[simp] theorem State.drawn_cd : (s.drawn).cd = s.cd := rfl
@[simp] theorem State.drawn_lp : (s.drawn).lp = s.lp := rfl
@[simp] theorem State.drawn_fu : (s.drawn).fu = s.fu := rfl
@[simp] theorem State.drawn_sx : (s.drawn).sx = s.sx := rfl
@[simp] theorem State.drawn_mc : (s.drawn).mc = s.mc := rfl
@[simp] theorem State.drawn_bw : (s.drawn).bw = s.bw := rfl
@[simp] theorem State.drawn_qe : (s.drawn).qe = s.qe := rfl
@[simp] theorem State.drawn_sc : (s.drawn).sc = s.sc := rfl
@[simp] theorem State.drawn_tu : (s.drawn).tu = s.tu := rfl
@[simp] theorem State.drawn_ce : (s.drawn).ce = s.ce := rfl
@[simp] theorem State.drawn_mb : (s.drawn).mb = s.mb := rfl
@[simp] theorem State.drawn_fc : (s.drawn).fc = s.fc := rfl
@[simp] theorem State.drawn_pw : (s.drawn).pw = s.pw := rfl
@[simp] theorem State.drawn_ck : (s.drawn).ck = s.ck := rfl
@[simp] theorem State.drawn_pm : (s.drawn).pm = s.pm := rfl

@[simp] theorem State.advance_pending (t : Nat) : (s.advance t).pending = s.pending := by unfold State.advance; repeat' first | rfl | split
@[simp] theorem State.advance_out (t : Nat) : (s.advance t).out = s.out := by unfold State.advance; repeat' first | rfl | split
@[simp] theorem State.advance_fresh (t : Nat) : (s.advance t).fresh = s.fresh := by unfold State.advance; repeat' first | rfl | split
@[simp] theorem State.advance_dram (t : Nat) : (s.advance t).dram = s.dram := by unfold State.advance; repeat' first | rfl | split
@[simp] theorem State.advance_hp (t : Nat) : (s.advance t).hp = s.hp := by unfold State.advance; repeat' first | rfl | split
@[simp] theorem State.advance_rr (t : Nat) : (s.advance t).rr = s.rr := by unfold State.advance; repeat' first | rfl | split
@[simp] theorem State.advance_rg (t : Nat) : (s.advance t).rg = s.rg := by unfold State.advance; repeat' first | rfl | split
@[simp] theorem State.advance_ns (t : Nat) : (s.advance t).ns = s.ns := by unfold State.advance; repeat' first | rfl | split
@[simp] theorem State.advance_tr (t : Nat) : (s.advance t).tr = s.tr := by unfold State.advance; repeat' first | rfl | split
@[simp] theorem State.advance_cd (t : Nat) : (s.advance t).cd = s.cd := by unfold State.advance; repeat' first | rfl | split
@[simp] theorem State.advance_lp (t : Nat) : (s.advance t).lp = s.lp := by unfold State.advance; repeat' first | rfl | split
@[simp] theorem State.advance_fu (t : Nat) : (s.advance t).fu = s.fu := by unfold State.advance; repeat' first | rfl | split
@[simp] theorem State.advance_sx (t : Nat) : (s.advance t).sx = s.sx := by unfold State.advance; repeat' first | rfl | split
@[simp] theorem State.advance_mc (t : Nat) : (s.advance t).mc = s.mc := by unfold State.advance; repeat' first | rfl | split
@[simp] theorem State.advance_bw (t : Nat) : (s.advance t).bw = s.bw := by unfold State.advance; repeat' first | rfl | split
@[simp] theorem State.advance_qe (t : Nat) : (s.advance t).qe = s.qe := by unfold State.advance; repeat' first | rfl | split
@[simp] theorem State.advance_sc (t : Nat) : (s.advance t).sc = s.sc := by unfold State.advance; repeat' first | rfl | split
@[simp] theorem State.advance_ce (t : Nat) : (s.advance t).ce = s.ce := by unfold State.advance; repeat' first | rfl | split
@[simp] theorem State.advance_mb (t : Nat) : (s.advance t).mb = s.mb := by unfold State.advance; repeat' first | rfl | split
@[simp] theorem State.advance_fc (t : Nat) : (s.advance t).fc = s.fc := by unfold State.advance; repeat' first | rfl | split
@[simp] theorem State.advance_pw (t : Nat) : (s.advance t).pw = s.pw := by unfold State.advance; repeat' first | rfl | split
@[simp] theorem State.advance_ck (t : Nat) : (s.advance t).ck = s.ck := by unfold State.advance; repeat' first | rfl | split
@[simp] theorem State.advance_pm (t : Nat) : (s.advance t).pm = s.pm := by unfold State.advance; repeat' first | rfl | split

@[simp] theorem State.count_pending (a b n : Nat) : (s.count a b n).pending = s.pending := by unfold State.count; repeat' first | rfl | split
@[simp] theorem State.count_out (a b n : Nat) : (s.count a b n).out = s.out := by unfold State.count; repeat' first | rfl | split
@[simp] theorem State.count_fresh (a b n : Nat) : (s.count a b n).fresh = s.fresh := by unfold State.count; repeat' first | rfl | split
@[simp] theorem State.count_now (a b n : Nat) : (s.count a b n).now = s.now := by unfold State.count; repeat' first | rfl | split
@[simp] theorem State.count_dram (a b n : Nat) : (s.count a b n).dram = s.dram := by unfold State.count; repeat' first | rfl | split
@[simp] theorem State.count_hp (a b n : Nat) : (s.count a b n).hp = s.hp := by unfold State.count; repeat' first | rfl | split
@[simp] theorem State.count_rr (a b n : Nat) : (s.count a b n).rr = s.rr := by unfold State.count; repeat' first | rfl | split
@[simp] theorem State.count_rg (a b n : Nat) : (s.count a b n).rg = s.rg := by unfold State.count; repeat' first | rfl | split
@[simp] theorem State.count_ns (a b n : Nat) : (s.count a b n).ns = s.ns := by unfold State.count; repeat' first | rfl | split
@[simp] theorem State.count_tr (a b n : Nat) : (s.count a b n).tr = s.tr := by unfold State.count; repeat' first | rfl | split
@[simp] theorem State.count_cd (a b n : Nat) : (s.count a b n).cd = s.cd := by unfold State.count; repeat' first | rfl | split
@[simp] theorem State.count_lp (a b n : Nat) : (s.count a b n).lp = s.lp := by unfold State.count; repeat' first | rfl | split
@[simp] theorem State.count_fu (a b n : Nat) : (s.count a b n).fu = s.fu := by unfold State.count; repeat' first | rfl | split
@[simp] theorem State.count_sx (a b n : Nat) : (s.count a b n).sx = s.sx := by unfold State.count; repeat' first | rfl | split
@[simp] theorem State.count_mc (a b n : Nat) : (s.count a b n).mc = s.mc := by unfold State.count; repeat' first | rfl | split
@[simp] theorem State.count_bw (a b n : Nat) : (s.count a b n).bw = s.bw := by unfold State.count; repeat' first | rfl | split
@[simp] theorem State.count_qe (a b n : Nat) : (s.count a b n).qe = s.qe := by unfold State.count; repeat' first | rfl | split
@[simp] theorem State.count_sc (a b n : Nat) : (s.count a b n).sc = s.sc := by unfold State.count; repeat' first | rfl | split
@[simp] theorem State.count_tu (a b n : Nat) : (s.count a b n).tu = s.tu := by unfold State.count; repeat' first | rfl | split
@[simp] theorem State.count_ce (a b n : Nat) : (s.count a b n).ce = s.ce := by unfold State.count; repeat' first | rfl | split
@[simp] theorem State.count_mb (a b n : Nat) : (s.count a b n).mb = s.mb := by unfold State.count; repeat' first | rfl | split
@[simp] theorem State.count_fc (a b n : Nat) : (s.count a b n).fc = s.fc := by unfold State.count; repeat' first | rfl | split
@[simp] theorem State.count_pw (a b n : Nat) : (s.count a b n).pw = s.pw := by unfold State.count; repeat' first | rfl | split
@[simp] theorem State.count_ck (a b n : Nat) : (s.count a b n).ck = s.ck := by unfold State.count; repeat' first | rfl | split

@[simp] theorem State.modFn_pending (f : Nat) (g : HostFn → HostFn) : (s.modFn f g).pending = s.pending := rfl
@[simp] theorem State.modFn_out (f : Nat) (g : HostFn → HostFn) : (s.modFn f g).out = s.out := rfl
@[simp] theorem State.modFn_fresh (f : Nat) (g : HostFn → HostFn) : (s.modFn f g).fresh = s.fresh := rfl
@[simp] theorem State.modFn_now (f : Nat) (g : HostFn → HostFn) : (s.modFn f g).now = s.now := rfl
@[simp] theorem State.modFn_dram (f : Nat) (g : HostFn → HostFn) : (s.modFn f g).dram = s.dram := rfl
@[simp] theorem State.modFn_rr (f : Nat) (g : HostFn → HostFn) : (s.modFn f g).rr = s.rr := rfl
@[simp] theorem State.modFn_rg (f : Nat) (g : HostFn → HostFn) : (s.modFn f g).rg = s.rg := rfl
@[simp] theorem State.modFn_ns (f : Nat) (g : HostFn → HostFn) : (s.modFn f g).ns = s.ns := rfl
@[simp] theorem State.modFn_tr (f : Nat) (g : HostFn → HostFn) : (s.modFn f g).tr = s.tr := rfl
@[simp] theorem State.modFn_cd (f : Nat) (g : HostFn → HostFn) : (s.modFn f g).cd = s.cd := rfl
@[simp] theorem State.modFn_lp (f : Nat) (g : HostFn → HostFn) : (s.modFn f g).lp = s.lp := rfl
@[simp] theorem State.modFn_fu (f : Nat) (g : HostFn → HostFn) : (s.modFn f g).fu = s.fu := rfl
@[simp] theorem State.modFn_sx (f : Nat) (g : HostFn → HostFn) : (s.modFn f g).sx = s.sx := rfl
@[simp] theorem State.modFn_mc (f : Nat) (g : HostFn → HostFn) : (s.modFn f g).mc = s.mc := rfl
@[simp] theorem State.modFn_bw (f : Nat) (g : HostFn → HostFn) : (s.modFn f g).bw = s.bw := rfl
@[simp] theorem State.modFn_qe (f : Nat) (g : HostFn → HostFn) : (s.modFn f g).qe = s.qe := rfl
@[simp] theorem State.modFn_sc (f : Nat) (g : HostFn → HostFn) : (s.modFn f g).sc = s.sc := rfl
@[simp] theorem State.modFn_tu (f : Nat) (g : HostFn → HostFn) : (s.modFn f g).tu = s.tu := rfl
@[simp] theorem State.modFn_ce (f : Nat) (g : HostFn → HostFn) : (s.modFn f g).ce = s.ce := rfl
@[simp] theorem State.modFn_mb (f : Nat) (g : HostFn → HostFn) : (s.modFn f g).mb = s.mb := rfl
@[simp] theorem State.modFn_fc (f : Nat) (g : HostFn → HostFn) : (s.modFn f g).fc = s.fc := rfl
@[simp] theorem State.modFn_pw (f : Nat) (g : HostFn → HostFn) : (s.modFn f g).pw = s.pw := rfl
@[simp] theorem State.modFn_ck (f : Nat) (g : HostFn → HostFn) : (s.modFn f g).ck = s.ck := rfl
@[simp] theorem State.modFn_pm (f : Nat) (g : HostFn → HostFn) : (s.modFn f g).pm = s.pm := rfl

@[simp] theorem State.modPort_pending (q : Nat) (g : Port → Port) : (s.modPort q g).pending = s.pending := rfl
@[simp] theorem State.modPort_out (q : Nat) (g : Port → Port) : (s.modPort q g).out = s.out := rfl
@[simp] theorem State.modPort_fresh (q : Nat) (g : Port → Port) : (s.modPort q g).fresh = s.fresh := rfl
@[simp] theorem State.modPort_now (q : Nat) (g : Port → Port) : (s.modPort q g).now = s.now := rfl
@[simp] theorem State.modPort_dram (q : Nat) (g : Port → Port) : (s.modPort q g).dram = s.dram := rfl
@[simp] theorem State.modPort_rr (q : Nat) (g : Port → Port) : (s.modPort q g).rr = s.rr := rfl
@[simp] theorem State.modPort_rg (q : Nat) (g : Port → Port) : (s.modPort q g).rg = s.rg := rfl
@[simp] theorem State.modPort_ns (q : Nat) (g : Port → Port) : (s.modPort q g).ns = s.ns := rfl
@[simp] theorem State.modPort_tr (q : Nat) (g : Port → Port) : (s.modPort q g).tr = s.tr := rfl
@[simp] theorem State.modPort_cd (q : Nat) (g : Port → Port) : (s.modPort q g).cd = s.cd := rfl
@[simp] theorem State.modPort_lp (q : Nat) (g : Port → Port) : (s.modPort q g).lp = s.lp := rfl
@[simp] theorem State.modPort_fu (q : Nat) (g : Port → Port) : (s.modPort q g).fu = s.fu := rfl
@[simp] theorem State.modPort_sx (q : Nat) (g : Port → Port) : (s.modPort q g).sx = s.sx := rfl
@[simp] theorem State.modPort_mc (q : Nat) (g : Port → Port) : (s.modPort q g).mc = s.mc := rfl
@[simp] theorem State.modPort_bw (q : Nat) (g : Port → Port) : (s.modPort q g).bw = s.bw := rfl
@[simp] theorem State.modPort_qe (q : Nat) (g : Port → Port) : (s.modPort q g).qe = s.qe := rfl
@[simp] theorem State.modPort_sc (q : Nat) (g : Port → Port) : (s.modPort q g).sc = s.sc := rfl
@[simp] theorem State.modPort_tu (q : Nat) (g : Port → Port) : (s.modPort q g).tu = s.tu := rfl
@[simp] theorem State.modPort_ce (q : Nat) (g : Port → Port) : (s.modPort q g).ce = s.ce := rfl
@[simp] theorem State.modPort_mb (q : Nat) (g : Port → Port) : (s.modPort q g).mb = s.mb := rfl
@[simp] theorem State.modPort_fc (q : Nat) (g : Port → Port) : (s.modPort q g).fc = s.fc := rfl
@[simp] theorem State.modPort_pw (q : Nat) (g : Port → Port) : (s.modPort q g).pw = s.pw := rfl
@[simp] theorem State.modPort_ck (q : Nat) (g : Port → Port) : (s.modPort q g).ck = s.ck := rfl
@[simp] theorem State.modPort_pm (q : Nat) (g : Port → Port) : (s.modPort q g).pm = s.pm := rfl

@[simp] theorem State.modChan_pending (c : Nat) (g : Mc → Mc) : (s.modChan c g).pending = s.pending := rfl
@[simp] theorem State.modChan_out (c : Nat) (g : Mc → Mc) : (s.modChan c g).out = s.out := rfl
@[simp] theorem State.modChan_fresh (c : Nat) (g : Mc → Mc) : (s.modChan c g).fresh = s.fresh := rfl
@[simp] theorem State.modChan_now (c : Nat) (g : Mc → Mc) : (s.modChan c g).now = s.now := rfl
@[simp] theorem State.modChan_dram (c : Nat) (g : Mc → Mc) : (s.modChan c g).dram = s.dram := rfl
@[simp] theorem State.modChan_hp (c : Nat) (g : Mc → Mc) : (s.modChan c g).hp = s.hp := rfl
@[simp] theorem State.modChan_rr (c : Nat) (g : Mc → Mc) : (s.modChan c g).rr = s.rr := rfl
@[simp] theorem State.modChan_rg (c : Nat) (g : Mc → Mc) : (s.modChan c g).rg = s.rg := rfl
@[simp] theorem State.modChan_ns (c : Nat) (g : Mc → Mc) : (s.modChan c g).ns = s.ns := rfl
@[simp] theorem State.modChan_tr (c : Nat) (g : Mc → Mc) : (s.modChan c g).tr = s.tr := rfl
@[simp] theorem State.modChan_cd (c : Nat) (g : Mc → Mc) : (s.modChan c g).cd = s.cd := rfl
@[simp] theorem State.modChan_lp (c : Nat) (g : Mc → Mc) : (s.modChan c g).lp = s.lp := rfl
@[simp] theorem State.modChan_fu (c : Nat) (g : Mc → Mc) : (s.modChan c g).fu = s.fu := rfl
@[simp] theorem State.modChan_sx (c : Nat) (g : Mc → Mc) : (s.modChan c g).sx = s.sx := rfl
@[simp] theorem State.modChan_bw (c : Nat) (g : Mc → Mc) : (s.modChan c g).bw = s.bw := rfl
@[simp] theorem State.modChan_qe (c : Nat) (g : Mc → Mc) : (s.modChan c g).qe = s.qe := rfl
@[simp] theorem State.modChan_sc (c : Nat) (g : Mc → Mc) : (s.modChan c g).sc = s.sc := rfl
@[simp] theorem State.modChan_tu (c : Nat) (g : Mc → Mc) : (s.modChan c g).tu = s.tu := rfl
@[simp] theorem State.modChan_ce (c : Nat) (g : Mc → Mc) : (s.modChan c g).ce = s.ce := rfl
@[simp] theorem State.modChan_mb (c : Nat) (g : Mc → Mc) : (s.modChan c g).mb = s.mb := rfl
@[simp] theorem State.modChan_fc (c : Nat) (g : Mc → Mc) : (s.modChan c g).fc = s.fc := rfl
@[simp] theorem State.modChan_pw (c : Nat) (g : Mc → Mc) : (s.modChan c g).pw = s.pw := rfl
@[simp] theorem State.modChan_ck (c : Nat) (g : Mc → Mc) : (s.modChan c g).ck = s.ck := rfl
@[simp] theorem State.modChan_pm (c : Nat) (g : Mc → Mc) : (s.modChan c g).pm = s.pm := rfl

@[simp] theorem State.modSub_pending (c u : Nat) (g : SubCh → SubCh) : (s.modSub c u g).pending = s.pending := rfl
@[simp] theorem State.modSub_out (c u : Nat) (g : SubCh → SubCh) : (s.modSub c u g).out = s.out := rfl
@[simp] theorem State.modSub_fresh (c u : Nat) (g : SubCh → SubCh) : (s.modSub c u g).fresh = s.fresh := rfl
@[simp] theorem State.modSub_now (c u : Nat) (g : SubCh → SubCh) : (s.modSub c u g).now = s.now := rfl
@[simp] theorem State.modSub_dram (c u : Nat) (g : SubCh → SubCh) : (s.modSub c u g).dram = s.dram := rfl
@[simp] theorem State.modSub_hp (c u : Nat) (g : SubCh → SubCh) : (s.modSub c u g).hp = s.hp := rfl
@[simp] theorem State.modSub_rr (c u : Nat) (g : SubCh → SubCh) : (s.modSub c u g).rr = s.rr := rfl
@[simp] theorem State.modSub_rg (c u : Nat) (g : SubCh → SubCh) : (s.modSub c u g).rg = s.rg := rfl
@[simp] theorem State.modSub_ns (c u : Nat) (g : SubCh → SubCh) : (s.modSub c u g).ns = s.ns := rfl
@[simp] theorem State.modSub_tr (c u : Nat) (g : SubCh → SubCh) : (s.modSub c u g).tr = s.tr := rfl
@[simp] theorem State.modSub_cd (c u : Nat) (g : SubCh → SubCh) : (s.modSub c u g).cd = s.cd := rfl
@[simp] theorem State.modSub_lp (c u : Nat) (g : SubCh → SubCh) : (s.modSub c u g).lp = s.lp := rfl
@[simp] theorem State.modSub_fu (c u : Nat) (g : SubCh → SubCh) : (s.modSub c u g).fu = s.fu := rfl
@[simp] theorem State.modSub_sx (c u : Nat) (g : SubCh → SubCh) : (s.modSub c u g).sx = s.sx := rfl
@[simp] theorem State.modSub_bw (c u : Nat) (g : SubCh → SubCh) : (s.modSub c u g).bw = s.bw := rfl
@[simp] theorem State.modSub_qe (c u : Nat) (g : SubCh → SubCh) : (s.modSub c u g).qe = s.qe := rfl
@[simp] theorem State.modSub_sc (c u : Nat) (g : SubCh → SubCh) : (s.modSub c u g).sc = s.sc := rfl
@[simp] theorem State.modSub_tu (c u : Nat) (g : SubCh → SubCh) : (s.modSub c u g).tu = s.tu := rfl
@[simp] theorem State.modSub_ce (c u : Nat) (g : SubCh → SubCh) : (s.modSub c u g).ce = s.ce := rfl
@[simp] theorem State.modSub_mb (c u : Nat) (g : SubCh → SubCh) : (s.modSub c u g).mb = s.mb := rfl
@[simp] theorem State.modSub_fc (c u : Nat) (g : SubCh → SubCh) : (s.modSub c u g).fc = s.fc := rfl
@[simp] theorem State.modSub_pw (c u : Nat) (g : SubCh → SubCh) : (s.modSub c u g).pw = s.pw := rfl
@[simp] theorem State.modSub_ck (c u : Nat) (g : SubCh → SubCh) : (s.modSub c u g).ck = s.ck := rfl
@[simp] theorem State.modSub_pm (c u : Nat) (g : SubCh → SubCh) : (s.modSub c u g).pm = s.pm := rfl

@[simp] theorem State.modRegion_pending (n : Nat) (g : Region → Region) : (s.modRegion n g).pending = s.pending := rfl
@[simp] theorem State.modRegion_out (n : Nat) (g : Region → Region) : (s.modRegion n g).out = s.out := rfl
@[simp] theorem State.modRegion_fresh (n : Nat) (g : Region → Region) : (s.modRegion n g).fresh = s.fresh := rfl
@[simp] theorem State.modRegion_now (n : Nat) (g : Region → Region) : (s.modRegion n g).now = s.now := rfl
@[simp] theorem State.modRegion_dram (n : Nat) (g : Region → Region) : (s.modRegion n g).dram = s.dram := rfl
@[simp] theorem State.modRegion_hp (n : Nat) (g : Region → Region) : (s.modRegion n g).hp = s.hp := rfl
@[simp] theorem State.modRegion_rr (n : Nat) (g : Region → Region) : (s.modRegion n g).rr = s.rr := rfl
@[simp] theorem State.modRegion_ns (n : Nat) (g : Region → Region) : (s.modRegion n g).ns = s.ns := rfl
@[simp] theorem State.modRegion_tr (n : Nat) (g : Region → Region) : (s.modRegion n g).tr = s.tr := rfl
@[simp] theorem State.modRegion_cd (n : Nat) (g : Region → Region) : (s.modRegion n g).cd = s.cd := rfl
@[simp] theorem State.modRegion_lp (n : Nat) (g : Region → Region) : (s.modRegion n g).lp = s.lp := rfl
@[simp] theorem State.modRegion_fu (n : Nat) (g : Region → Region) : (s.modRegion n g).fu = s.fu := rfl
@[simp] theorem State.modRegion_sx (n : Nat) (g : Region → Region) : (s.modRegion n g).sx = s.sx := rfl
@[simp] theorem State.modRegion_mc (n : Nat) (g : Region → Region) : (s.modRegion n g).mc = s.mc := rfl
@[simp] theorem State.modRegion_bw (n : Nat) (g : Region → Region) : (s.modRegion n g).bw = s.bw := rfl
@[simp] theorem State.modRegion_qe (n : Nat) (g : Region → Region) : (s.modRegion n g).qe = s.qe := rfl
@[simp] theorem State.modRegion_sc (n : Nat) (g : Region → Region) : (s.modRegion n g).sc = s.sc := rfl
@[simp] theorem State.modRegion_tu (n : Nat) (g : Region → Region) : (s.modRegion n g).tu = s.tu := rfl
@[simp] theorem State.modRegion_ce (n : Nat) (g : Region → Region) : (s.modRegion n g).ce = s.ce := rfl
@[simp] theorem State.modRegion_mb (n : Nat) (g : Region → Region) : (s.modRegion n g).mb = s.mb := rfl
@[simp] theorem State.modRegion_fc (n : Nat) (g : Region → Region) : (s.modRegion n g).fc = s.fc := rfl
@[simp] theorem State.modRegion_pw (n : Nat) (g : Region → Region) : (s.modRegion n g).pw = s.pw := rfl
@[simp] theorem State.modRegion_ck (n : Nat) (g : Region → Region) : (s.modRegion n g).ck = s.ck := rfl
@[simp] theorem State.modRegion_pm (n : Nat) (g : Region → Region) : (s.modRegion n g).pm = s.pm := rfl

@[simp] theorem State.modOp_pending (h : Nat) (g : BgOp → BgOp) : (s.modOp h g).pending = s.pending := rfl
@[simp] theorem State.modOp_out (h : Nat) (g : BgOp → BgOp) : (s.modOp h g).out = s.out := rfl
@[simp] theorem State.modOp_fresh (h : Nat) (g : BgOp → BgOp) : (s.modOp h g).fresh = s.fresh := rfl
@[simp] theorem State.modOp_now (h : Nat) (g : BgOp → BgOp) : (s.modOp h g).now = s.now := rfl
@[simp] theorem State.modOp_dram (h : Nat) (g : BgOp → BgOp) : (s.modOp h g).dram = s.dram := rfl
@[simp] theorem State.modOp_hp (h : Nat) (g : BgOp → BgOp) : (s.modOp h g).hp = s.hp := rfl
@[simp] theorem State.modOp_rr (h : Nat) (g : BgOp → BgOp) : (s.modOp h g).rr = s.rr := rfl
@[simp] theorem State.modOp_rg (h : Nat) (g : BgOp → BgOp) : (s.modOp h g).rg = s.rg := rfl
@[simp] theorem State.modOp_ns (h : Nat) (g : BgOp → BgOp) : (s.modOp h g).ns = s.ns := rfl
@[simp] theorem State.modOp_tr (h : Nat) (g : BgOp → BgOp) : (s.modOp h g).tr = s.tr := rfl
@[simp] theorem State.modOp_cd (h : Nat) (g : BgOp → BgOp) : (s.modOp h g).cd = s.cd := rfl
@[simp] theorem State.modOp_lp (h : Nat) (g : BgOp → BgOp) : (s.modOp h g).lp = s.lp := rfl
@[simp] theorem State.modOp_fu (h : Nat) (g : BgOp → BgOp) : (s.modOp h g).fu = s.fu := rfl
@[simp] theorem State.modOp_sx (h : Nat) (g : BgOp → BgOp) : (s.modOp h g).sx = s.sx := rfl
@[simp] theorem State.modOp_mc (h : Nat) (g : BgOp → BgOp) : (s.modOp h g).mc = s.mc := rfl
@[simp] theorem State.modOp_bw (h : Nat) (g : BgOp → BgOp) : (s.modOp h g).bw = s.bw := rfl
@[simp] theorem State.modOp_qe (h : Nat) (g : BgOp → BgOp) : (s.modOp h g).qe = s.qe := rfl
@[simp] theorem State.modOp_sc (h : Nat) (g : BgOp → BgOp) : (s.modOp h g).sc = s.sc := rfl
@[simp] theorem State.modOp_tu (h : Nat) (g : BgOp → BgOp) : (s.modOp h g).tu = s.tu := rfl
@[simp] theorem State.modOp_ce (h : Nat) (g : BgOp → BgOp) : (s.modOp h g).ce = s.ce := rfl
@[simp] theorem State.modOp_fc (h : Nat) (g : BgOp → BgOp) : (s.modOp h g).fc = s.fc := rfl
@[simp] theorem State.modOp_pw (h : Nat) (g : BgOp → BgOp) : (s.modOp h g).pw = s.pw := rfl
@[simp] theorem State.modOp_ck (h : Nat) (g : BgOp → BgOp) : (s.modOp h g).ck = s.ck := rfl
@[simp] theorem State.modOp_pm (h : Nat) (g : BgOp → BgOp) : (s.modOp h g).pm = s.pm := rfl

@[simp] theorem State.modSrc_pending (k : Nat) (g : Src → Src) : (s.modSrc k g).pending = s.pending := rfl
@[simp] theorem State.modSrc_out (k : Nat) (g : Src → Src) : (s.modSrc k g).out = s.out := rfl
@[simp] theorem State.modSrc_fresh (k : Nat) (g : Src → Src) : (s.modSrc k g).fresh = s.fresh := rfl
@[simp] theorem State.modSrc_now (k : Nat) (g : Src → Src) : (s.modSrc k g).now = s.now := rfl
@[simp] theorem State.modSrc_dram (k : Nat) (g : Src → Src) : (s.modSrc k g).dram = s.dram := rfl
@[simp] theorem State.modSrc_hp (k : Nat) (g : Src → Src) : (s.modSrc k g).hp = s.hp := rfl
@[simp] theorem State.modSrc_rr (k : Nat) (g : Src → Src) : (s.modSrc k g).rr = s.rr := rfl
@[simp] theorem State.modSrc_rg (k : Nat) (g : Src → Src) : (s.modSrc k g).rg = s.rg := rfl
@[simp] theorem State.modSrc_ns (k : Nat) (g : Src → Src) : (s.modSrc k g).ns = s.ns := rfl
@[simp] theorem State.modSrc_tr (k : Nat) (g : Src → Src) : (s.modSrc k g).tr = s.tr := rfl
@[simp] theorem State.modSrc_cd (k : Nat) (g : Src → Src) : (s.modSrc k g).cd = s.cd := rfl
@[simp] theorem State.modSrc_lp (k : Nat) (g : Src → Src) : (s.modSrc k g).lp = s.lp := rfl
@[simp] theorem State.modSrc_fu (k : Nat) (g : Src → Src) : (s.modSrc k g).fu = s.fu := rfl
@[simp] theorem State.modSrc_sx (k : Nat) (g : Src → Src) : (s.modSrc k g).sx = s.sx := rfl
@[simp] theorem State.modSrc_mc (k : Nat) (g : Src → Src) : (s.modSrc k g).mc = s.mc := rfl
@[simp] theorem State.modSrc_bw (k : Nat) (g : Src → Src) : (s.modSrc k g).bw = s.bw := rfl
@[simp] theorem State.modSrc_qe (k : Nat) (g : Src → Src) : (s.modSrc k g).qe = s.qe := rfl
@[simp] theorem State.modSrc_sc (k : Nat) (g : Src → Src) : (s.modSrc k g).sc = s.sc := rfl
@[simp] theorem State.modSrc_tu (k : Nat) (g : Src → Src) : (s.modSrc k g).tu = s.tu := rfl
@[simp] theorem State.modSrc_ce (k : Nat) (g : Src → Src) : (s.modSrc k g).ce = s.ce := rfl
@[simp] theorem State.modSrc_mb (k : Nat) (g : Src → Src) : (s.modSrc k g).mb = s.mb := rfl
@[simp] theorem State.modSrc_pw (k : Nat) (g : Src → Src) : (s.modSrc k g).pw = s.pw := rfl
@[simp] theorem State.modSrc_ck (k : Nat) (g : Src → Src) : (s.modSrc k g).ck = s.ck := rfl
@[simp] theorem State.modSrc_pm (k : Nat) (g : Src → Src) : (s.modSrc k g).pm = s.pm := rfl

@[simp] theorem State.modDeq_pending (n : Nat) (g : Deq → Deq) : (s.modDeq n g).pending = s.pending := rfl
@[simp] theorem State.modDeq_out (n : Nat) (g : Deq → Deq) : (s.modDeq n g).out = s.out := rfl
@[simp] theorem State.modDeq_fresh (n : Nat) (g : Deq → Deq) : (s.modDeq n g).fresh = s.fresh := rfl
@[simp] theorem State.modDeq_now (n : Nat) (g : Deq → Deq) : (s.modDeq n g).now = s.now := rfl
@[simp] theorem State.modDeq_dram (n : Nat) (g : Deq → Deq) : (s.modDeq n g).dram = s.dram := rfl
@[simp] theorem State.modDeq_hp (n : Nat) (g : Deq → Deq) : (s.modDeq n g).hp = s.hp := rfl
@[simp] theorem State.modDeq_rr (n : Nat) (g : Deq → Deq) : (s.modDeq n g).rr = s.rr := rfl
@[simp] theorem State.modDeq_rg (n : Nat) (g : Deq → Deq) : (s.modDeq n g).rg = s.rg := rfl
@[simp] theorem State.modDeq_ns (n : Nat) (g : Deq → Deq) : (s.modDeq n g).ns = s.ns := rfl
@[simp] theorem State.modDeq_tr (n : Nat) (g : Deq → Deq) : (s.modDeq n g).tr = s.tr := rfl
@[simp] theorem State.modDeq_cd (n : Nat) (g : Deq → Deq) : (s.modDeq n g).cd = s.cd := rfl
@[simp] theorem State.modDeq_lp (n : Nat) (g : Deq → Deq) : (s.modDeq n g).lp = s.lp := rfl
@[simp] theorem State.modDeq_fu (n : Nat) (g : Deq → Deq) : (s.modDeq n g).fu = s.fu := rfl
@[simp] theorem State.modDeq_sx (n : Nat) (g : Deq → Deq) : (s.modDeq n g).sx = s.sx := rfl
@[simp] theorem State.modDeq_mc (n : Nat) (g : Deq → Deq) : (s.modDeq n g).mc = s.mc := rfl
@[simp] theorem State.modDeq_bw (n : Nat) (g : Deq → Deq) : (s.modDeq n g).bw = s.bw := rfl
@[simp] theorem State.modDeq_sc (n : Nat) (g : Deq → Deq) : (s.modDeq n g).sc = s.sc := rfl
@[simp] theorem State.modDeq_tu (n : Nat) (g : Deq → Deq) : (s.modDeq n g).tu = s.tu := rfl
@[simp] theorem State.modDeq_ce (n : Nat) (g : Deq → Deq) : (s.modDeq n g).ce = s.ce := rfl
@[simp] theorem State.modDeq_mb (n : Nat) (g : Deq → Deq) : (s.modDeq n g).mb = s.mb := rfl
@[simp] theorem State.modDeq_fc (n : Nat) (g : Deq → Deq) : (s.modDeq n g).fc = s.fc := rfl
@[simp] theorem State.modDeq_pw (n : Nat) (g : Deq → Deq) : (s.modDeq n g).pw = s.pw := rfl
@[simp] theorem State.modDeq_ck (n : Nat) (g : Deq → Deq) : (s.modDeq n g).ck = s.ck := rfl
@[simp] theorem State.modDeq_pm (n : Nat) (g : Deq → Deq) : (s.modDeq n g).pm = s.pm := rfl

@[simp] theorem State.direct_pending (p : Path) (a b c : Nat) (l : List (Nat × Nat × Nat)) : (s.direct p a b c l).pending = s.pending := by unfold State.direct; repeat' first | rfl | split
@[simp] theorem State.direct_out (p : Path) (a b c : Nat) (l : List (Nat × Nat × Nat)) : (s.direct p a b c l).out = s.out := by unfold State.direct; repeat' first | rfl | split
@[simp] theorem State.direct_fresh (p : Path) (a b c : Nat) (l : List (Nat × Nat × Nat)) : (s.direct p a b c l).fresh = s.fresh := by unfold State.direct; repeat' first | rfl | split
@[simp] theorem State.direct_now (p : Path) (a b c : Nat) (l : List (Nat × Nat × Nat)) : (s.direct p a b c l).now = s.now := by unfold State.direct; repeat' first | rfl | split
@[simp] theorem State.direct_dram (p : Path) (a b c : Nat) (l : List (Nat × Nat × Nat)) : (s.direct p a b c l).dram = s.dram := by unfold State.direct; repeat' first | rfl | split
@[simp] theorem State.direct_hp (p : Path) (a b c : Nat) (l : List (Nat × Nat × Nat)) : (s.direct p a b c l).hp = s.hp := by unfold State.direct; repeat' first | rfl | split
@[simp] theorem State.direct_rr (p : Path) (a b c : Nat) (l : List (Nat × Nat × Nat)) : (s.direct p a b c l).rr = s.rr := by unfold State.direct; repeat' first | rfl | split
@[simp] theorem State.direct_rg (p : Path) (a b c : Nat) (l : List (Nat × Nat × Nat)) : (s.direct p a b c l).rg = s.rg := by unfold State.direct; repeat' first | rfl | split
@[simp] theorem State.direct_ns (p : Path) (a b c : Nat) (l : List (Nat × Nat × Nat)) : (s.direct p a b c l).ns = s.ns := by unfold State.direct; repeat' first | rfl | split
@[simp] theorem State.direct_tr (p : Path) (a b c : Nat) (l : List (Nat × Nat × Nat)) : (s.direct p a b c l).tr = s.tr := by unfold State.direct; repeat' first | rfl | split
@[simp] theorem State.direct_cd (p : Path) (a b c : Nat) (l : List (Nat × Nat × Nat)) : (s.direct p a b c l).cd = s.cd := by unfold State.direct; repeat' first | rfl | split
@[simp] theorem State.direct_lp (p : Path) (a b c : Nat) (l : List (Nat × Nat × Nat)) : (s.direct p a b c l).lp = s.lp := by unfold State.direct; repeat' first | rfl | split
@[simp] theorem State.direct_fu (p : Path) (a b c : Nat) (l : List (Nat × Nat × Nat)) : (s.direct p a b c l).fu = s.fu := by unfold State.direct; repeat' first | rfl | split
@[simp] theorem State.direct_sx (p : Path) (a b c : Nat) (l : List (Nat × Nat × Nat)) : (s.direct p a b c l).sx = s.sx := by unfold State.direct; repeat' first | rfl | split
@[simp] theorem State.direct_mc (p : Path) (a b c : Nat) (l : List (Nat × Nat × Nat)) : (s.direct p a b c l).mc = s.mc := by unfold State.direct; repeat' first | rfl | split
@[simp] theorem State.direct_bw (p : Path) (a b c : Nat) (l : List (Nat × Nat × Nat)) : (s.direct p a b c l).bw = s.bw := by unfold State.direct; repeat' first | rfl | split
@[simp] theorem State.direct_qe (p : Path) (a b c : Nat) (l : List (Nat × Nat × Nat)) : (s.direct p a b c l).qe = s.qe := by unfold State.direct; repeat' first | rfl | split
@[simp] theorem State.direct_sc (p : Path) (a b c : Nat) (l : List (Nat × Nat × Nat)) : (s.direct p a b c l).sc = s.sc := by unfold State.direct; repeat' first | rfl | split
@[simp] theorem State.direct_tu (p : Path) (a b c : Nat) (l : List (Nat × Nat × Nat)) : (s.direct p a b c l).tu = s.tu := by unfold State.direct; repeat' first | rfl | split
@[simp] theorem State.direct_ce (p : Path) (a b c : Nat) (l : List (Nat × Nat × Nat)) : (s.direct p a b c l).ce = s.ce := by unfold State.direct; repeat' first | rfl | split
@[simp] theorem State.direct_fc (p : Path) (a b c : Nat) (l : List (Nat × Nat × Nat)) : (s.direct p a b c l).fc = s.fc := by unfold State.direct; repeat' first | rfl | split
@[simp] theorem State.direct_pw (p : Path) (a b c : Nat) (l : List (Nat × Nat × Nat)) : (s.direct p a b c l).pw = s.pw := by unfold State.direct; repeat' first | rfl | split
@[simp] theorem State.direct_ck (p : Path) (a b c : Nat) (l : List (Nat × Nat × Nat)) : (s.direct p a b c l).ck = s.ck := by unfold State.direct; repeat' first | rfl | split
@[simp] theorem State.direct_pm (p : Path) (a b c : Nat) (l : List (Nat × Nat × Nat)) : (s.direct p a b c l).pm = s.pm := by unfold State.direct; repeat' first | rfl | split

/-! ### What an update leaves -/

@[simp] theorem State.emit_out (o : Out) : (s.emit o).out = s.out ++ [o] := rfl
@[simp] theorem State.drawn_fresh : s.drawn.fresh = s.fresh + 1 := rfl

/-- Time never goes back: an event whose time has come takes place now (log 1). -/
@[simp] theorem State.advance_now (t : Nat) : (s.advance t).now = max s.now t := by
  unfold State.advance
  split_ifs with h
  · exact (max_eq_left h).symm
  all_goals exact (max_eq_right (le_of_not_ge h)).symm

@[simp] theorem State.report_reports (a b : Nat) (r : Option Nat) : (s.report a b r).fc.reports = s.fc.reports ++ [s.faultMsg a b r] := rfl
@[simp] theorem State.faultMsg_source (a b : Nat) (r : Option Nat) : (s.faultMsg a b r).source = a := rfl

/-- A report leaves every other register of FC as it was. -/
theorem State.report_fc (a b : Nat) (r : Option Nat) : (s.report a b r).fc = { s.fc with reports := s.fc.reports ++ [s.faultMsg a b r] } := rfl

/-! ### Functions, ports, channels, regions, sources -/

theorem State.fnAt_modFn_same {f : Nat} (g : HostFn → HostFn) (h : f < s.hp.fns.length) : (s.modFn f g).fnAt f = g (s.fnAt f) :=
  getD_lmod_same h

theorem State.fnAt_modFn_other {f e : Nat} (g : HostFn → HostFn) (h : e ≠ f) : (s.modFn f g).fnAt e = s.fnAt e :=
  getD_lmod_other h

/-- A function that exists is one of the four. -/
theorem State.fn_lt {f : Nat} (h : s.fnExists f = true) : f < s.hp.fns.length := by
  by_contra hf
  rw [State.fnExists, State.fnAt, List.getD_eq_getElem?_getD, List.getElem?_eq_none (not_lt.mp hf)] at h
  exact absurd h (by decide)

theorem State.portAt_modPort_same {q : Nat} (g : Port → Port) (h : q < s.hp.ports.length) : (s.modPort q g).portAt q = g (s.portAt q) :=
  getD_lmod_same h

theorem State.portAt_modPort_other {q r : Nat} (g : Port → Port) (h : r ≠ q) : (s.modPort q g).portAt r = s.portAt r :=
  getD_lmod_other h

@[simp] theorem State.fnAt_modPort (f q : Nat) (g : Port → Port) : (s.modPort q g).fnAt f = s.fnAt f := rfl
@[simp] theorem State.portAt_modFn (f q : Nat) (g : HostFn → HostFn) : (s.modFn f g).portAt q = s.portAt q := rfl

theorem State.chan_modChan_same {c : Nat} (g : Mc → Mc) (h : c < s.mc.chans.length) : (s.modChan c g).chan c = g (s.chan c) :=
  getD_lmod_same h

theorem State.chan_modChan_other {c d : Nat} (g : Mc → Mc) (h : d ≠ c) : (s.modChan c g).chan d = s.chan d :=
  getD_lmod_other h

/-- A channel with subchannels is one of the twelve. -/
theorem State.chan_lt {c u : Nat} (h : u < (s.chan c).subs.length) (h2 : Mc.reset.subs.length ≤ u) : c < s.mc.chans.length := by
  by_contra hc
  rw [State.chan, List.getD_eq_getElem?_getD, List.getElem?_eq_none (not_lt.mp hc)] at h
  exact absurd h (not_lt.mpr h2)

theorem State.subAt_modSub_same {c u : Nat} (g : SubCh → SubCh) (h : c < s.mc.chans.length) (hu : u < (s.chan c).subs.length) :
    (s.modSub c u g).subAt c u = g (s.subAt c u) := by
  simp only [State.subAt, State.modSub]
  rw [State.chan_modChan_same s _ h]
  exact getD_lmod_same hu

theorem State.region_modRegion (n m : Nat) (g : Region → Region) :
    (s.modRegion n g).region m = if m = n then (s.region n).map g else s.region m :=
  oget_omod

theorem State.srcAt_modSrc_same (k : Nat) (g : Src → Src) : (s.modSrc k g).srcAt k = g (s.srcAt k) := by
  simp only [State.srcAt, State.modSrc]
  rw [oget_oset, if_pos rfl, Option.getD_some]

theorem State.srcAt_modSrc_other {k j : Nat} (g : Src → Src) (h : j ≠ k) : (s.modSrc k g).srcAt j = s.srcAt j := by
  simp only [State.srcAt, State.modSrc]
  rw [oget_oset, if_neg h]

end Sys2Proof.Machine
end

