-- ==== Sys2Proof/WellFormed.lean ====
section
/-! DEFINITION. Which commands can be sent: operands within the ranges that the spec gives the ports, functions, channels,
queues and payloads. -/

namespace Sys2Proof

/-- A host function number (00 R7). -/
def okFn (f : Nat) : Bool := decide (f < 4)

/-- A port number. -/
def okPort (p : Nat) : Bool := decide (p < 2)

/-- A channel number (09 R309). -/
def okChannel (c : Nat) : Bool := decide (c < 12)

/-- A path (14 R485, R490): the ring's slot is a 16-bit count and its TAG 16 bits. -/
def Path.ok : Path → Bool
  | .primary f => okFn f
  | .secondary f => okFn f
  | .ring f k tag => okFn f && decide (k < 2 ^ 16) && decide (tag < 2 ^ 16)
  | .sideband => true

/-- A payload fits its path (14 R485). -/
def okPayload (p : Path) (b : Bytes) : Bool :=
  p.ok && decide (b.length ≤ (match p with
    | .ring _ _ _ => 56
    | .sideband => 8192
    | _ => 65536))

/-- A CXL.mem request is of a function. -/
def MemReq.ok (r : MemReq) : Bool := okFn r.fn

/-- Names channels, symbols and lines that exist (07 R226). -/
def ReadEnv.ok (e : ReadEnv) : Bool :=
  e.upsets.all (fun u => okChannel u.1 && decide (u.2.1 < 2 ^ 33) && decide (u.2.2.1 < 80)) &&
  e.misdirect.all (fun u => okChannel u.1 && decide (u.2.1 < 2 ^ 33) && decide (u.2.2 < 2 ^ 33))

/-- A channel population that the part supports (09 R309 to R311). -/
def PopCfg.ok (p : PopCfg) : Bool := (p.dimms == 1 || p.dimms == 2) && p.serials.length == p.dimms

/-- A register target names a function or a control node (01 R30, R32). -/
def RegTarget.ok : RegTarget → Bool
  | .bar0 f o => okFn f && decide (o < 2 ^ 28)
  | .config f r => okFn f && (match r with
    | .vectorMask v => decide (v < 256)
    | _ => true)
  | .node n o => decide (n < 38) && decide (o < 2 ^ 20)

/-- A ring name is in range (11 R377, R402). -/
def RingName.ok : RingName → Bool
  | .fcr => true
  | .free m => decide (m < 16)
  | .egress n => decide (n < 64)

/-- A command whose operands are in range. -/
def Instr.wellFormed : Instr → Bool
  | .backgroundOperationEnd h => decide (h < 2 ^ 16)
  | .fcrDoorbellWrite f _ => okFn f
  | .fcrEntryFetched f e => okFn f && e.length == 64
  | .fcrFetchError f => okFn f
  | .freeRingConsWrite f m _ => okFn f && decide (m < 16)
  | .egressRingConsWrite f n _ => okFn f && decide (n < 64)
  | .intCauseWrite f _ => okFn f
  | .intEnableWrite f _ => okFn f
  | .msixVectorUnmask f v => okFn f && v.all (fun v => decide (v < 256))
  | .busMasterEnableSet f => okFn f
  | .busMasterEnableClear f => okFn f
  | .hdmDecoderCommit f i _ => okFn f && decide (i < 8)
  | .registerWrite t _ _ => t.ok
  | .enqueueWindowWrite f w _ _ _ _ => okFn f && decide (w < 512)
  | .counterUpdateWindowWrite f w _ _ _ _ => okFn f && decide (w < 512)
  | .enqueueDescriptor f _ => okFn f
  | .updateRecord f _ => okFn f
  | .backInvalidateResponse f _ => okFn f
  | .cxlmemRead f _ _ tie => okFn f && tie.all (fun r => r.ok)
  | .cxlmemWrite f _ _ _ _ tie => okFn f && tie.all (fun r => r.ok)
  | .dramReadReturn _ e => e.ok
  | .addressErrorReread _ e => e.ok
  | .lineRepair _ e => e.ok
  | .nsTagScrub q _ => decide (q < 4)
  | .heatSweep r => decide (r < 64)
  | .promotionSwitch r _ => decide (r < 64)
  | .demotionSwitch r _ => decide (r < 64)
  | .patrolRead c e _ => okChannel c && e.ok
  | .demandScrub x => x.env.ok
  | .patrolLate c => okChannel c
  | .pageRetirement c _ => okChannel c
  | .hardPprDone c => okChannel c
  | .resilverLine x => okChannel x.channel
  | .fillOnTouchWrite f _ _ _ _ => okFn f
  | .keyCheck bad => bad.all (fun i => decide (i < 3))
  | .refreshIssue c u r b => okChannel c && decide (u < 2) && decide (r < 8) && decide (b < 4)
  | .refreshForced c u r b => okChannel c && decide (u < 2) && decide (r < 8) && decide (b < 4)
  | .rfmIssue c u r g b => okChannel c && decide (u < 2) && decide (r < 8) && decide (g < 8) && decide (b < 4)
  | .subchannelIssue c u _ => okChannel c && decide (u < 2)
  | .agePromotion c u _ => okChannel c && decide (u < 2)
  | .alertNAssert c u _ => okChannel c && decide (u < 2)
  | .alertEpisodeEnd c u => okChannel c && decide (u < 2)
  | .dqsTracking c _ _ => okChannel c
  | .zqCalibration c _ => okChannel c
  | .dimmTempRead c _ => okChannel c
  | .fencedChannelRetrainDone c _ => okChannel c
  | .initialTrainingDone cs => cs.all okChannel
  | .headLineReturn q => decide (q < 262144)
  | .dequeuePacketRead q _ => decide (q < 262144)
  | .packetPush q => decide (q < 262144)
  | .ringModerationTimer f r => okFn f && r.ok
  | .gateEntryChange p => decide (p < 64)
  | .gateSwap p => decide (p < 64)
  | .ptmSample i _ _ ns => decide (1 ≤ i) && decide (i ≤ 2) && decide (ns < 1000000000)
  | .commandBoundMissed p _ => p.ok
  | .actionRungDone x => decide (x < 608)
  | .handlingWindowExpiry x => decide (x < 608)
  | .sourceConditionClear x => decide (x < 608)
  | .faultReport e => e.all (fun e => decide (e.source < 608))
  | .thermalSample ts => ts.length == 16
  | .hostAccessWake f _ => okFn f
  | .wakeDone bad failed => bad.all (fun g => decide (g < 96)) && failed.all okChannel
  | .coldStartStepDone i => i.pops.length == 12 && i.pops.all (fun p => p.all PopCfg.ok)
  | .perstNAssert p => okPort p
  | .perstNRelease p => okPort p
  | .hotReset f => okFn f
  | .linkDisable f => okFn f
  | .surpriseLinkDown f => okFn f
  | .linkUp f _ => okFn f
  | .functionLevelReset f => okFn f
  | .cxlReset f => okFn f
  | .hostViral f => okFn f
  | .ideMacFailure f => okFn f
  | .flitError f => okFn f
  | .spdmDoeMessage f _ => okFn f
  | .pmParityError c => decide (c < 512)
  | .linkRecoveryEntry f => okFn f
  | .linkRecoveryExit f => okFn f
  | .vddSramDipInDeep gs => gs.all (fun g => decide (g < 96))
  | .unassignedVendorOpcode p op b => okPayload p b && decide (0xC000 ≤ op) && decide (op < 2 ^ 16)
  | .unsupportedCxlCommand p op b => okPayload p b && decide (op < 0xC000)
  | .stageOpen p b => okPayload p b
  | .stageCommit p b => okPayload p b
  | .stageAbort p b => okPayload p b
  | .clampReportGet p b => okPayload p b
  | .bgQuery p b => okPayload p b
  | .abort p b => okPayload p b
  | .fcrRegister p b => okPayload p b
  | .fcrDeregister p b => okPayload p b
  | .mgmtDesignate p b => okPayload p b
  | .regionCfg p b => okPayload p b
  | .regionDelete p b => okPayload p b
  | .regionQuery p b => okPayload p b
  | .tierCfg p b => okPayload p b
  | .tierCtl p b => okPayload p b
  | .mscRowCfg p b => okPayload p b
  | .cdCtl p b => okPayload p b
  | .cdYardQuery p b => okPayload p b
  | .qeBufRegister p b => okPayload p b
  | .qeBufDeregister p b => okPayload p b
  | .qeFreeRing p b => okPayload p b
  | .qeFreeRingDereg p b => okPayload p b
  | .qeReclaim p b => okPayload p b
  | .qeEgressRing p b => okPayload p b
  | .qeEgressDereg p b => okPayload p b
  | .qeFlush p b => okPayload p b
  | .qeQuery p b => okPayload p b
  | .qeCtl p b => okPayload p b
  | .qeQueueCfg p b => okPayload p b
  | .qePolicerCfg p b => okPayload p b
  | .scNodeCfg p b => okPayload p b
  | .scPortCfg p b => okPayload p b
  | .scGateList p b => okPayload p b
  | .scQuery p b => okPayload p b
  | .tuCtl p b => okPayload p b
  | .tuSet p b => okPayload p b
  | .tuQuery p b => okPayload p b
  | .ceSetCfg p b => okPayload p b
  | .ceSetDelete p b => okPayload p b
  | .ceQeBind p b => okPayload p b
  | .ceClear p b => okPayload p b
  | .ceQuery p b => okPayload p b
  | .ceCtl p b => okPayload p b
  | .faultCfg p b => okPayload p b
  | .faultCtl p b => okPayload p b
  | .faultLogGet p b => okPayload p b
  | .faultClear p b => okPayload p b
  | .faultQuery p b => okPayload p b
  | .freezeCtl p b => okPayload p b
  | .thaw p b => okPayload p b
  | .bwReqCfg p b => okPayload p b
  | .bwGuarCfg p b => okPayload p b
  | .bwWindowCfg p b => okPayload p b
  | .bwQuery p b => okPayload p b
  | .hpPortCfg p b => okPayload p b
  | .pwEnter p b => okPayload p b
  | .pwWake p b => okPayload p b
  | .pwQuery p b => okPayload p b
  | .nsWays p b => okPayload p b
  | .mcSpeed p b => okPayload p b
  | .pmCfg p b => okPayload p b
  | .pmDumpCfg p b => okPayload p b
  | .pmRead p b => okPayload p b
  | .zeroRange p b => okPayload p b
  | .nsMaint p b => okPayload p b
  | .rekeyStart p b => okPayload p b
  | .scrubCtl p b => okPayload p b
  | .pprCtl p b => okPayload p b
  | .fuseBurn p b => okPayload p b
  | .mcCtl p b => okPayload p b
  | .diagCtrlRead p b => okPayload p b
  | .diagCtrlWrite p b => okPayload p b
  | .cdGranuleRead p b => okPayload p b
  | .identify p b => okPayload p b
  | .backgroundOperationStatus p b => okPayload p b
  | .requestAbortBackgroundOperation p b => okPayload p b
  | .getEventRecords p b => okPayload p b
  | .clearEventRecords p b => okPayload p b
  | .getEventInterruptPolicy p b => okPayload p b
  | .setEventInterruptPolicy p b => okPayload p b
  | .getFwInfo p b => okPayload p b
  | .transferFw p b => okPayload p b
  | .activateFw p b => okPayload p b
  | .getTimestamp p b => okPayload p b
  | .setTimestamp p b => okPayload p b
  | .getSupportedLogs p b => okPayload p b
  | .getLog p b => okPayload p b
  | .identifyMemoryDevice p b => okPayload p b
  | .getHealthInfo p b => okPayload p b
  | .getAlertConfiguration p b => okPayload p b
  | .setAlertConfiguration p b => okPayload p b
  | .getPoisonList p b => okPayload p b
  | .injectPoison p b => okPayload p b
  | .clearPoison p b => okPayload p b
  | .scWheelLagRead => true
  | .mbLatFRead => true
  | .mbLatSRead => true
  | .tuTimeSRead => true
  | .queueEventCount => true
  | .specVerifyResult _ _ => true
  | .writebackAck _ => true
  | .evictionOfferAnswer _ => true
  | .nsWaysDrainDone => true
  | .nsWaysEnableDone => true
  | .muckVisit _ => true
  | .rowErrorWindowEnd _ => true
  | .softPpr _ => true
  | .fillBlock _ => true
  | .rekeyStep _ => true
  | .retrainingStart => true
  | .retrainingDone _ => true
  | .speedChangeStepDone => true
  | .speedChangeWaitTimeout => true
  | .budgetWindowEnd => true
  | .bwStampUpdate => true
  | .freeRingRefill _ => true
  | .schedulerDecision => true
  | .drainLimitExpiry => true
  | .wheelSlotRelease => true
  | .wheelCascade => true
  | .ptmDialogue => true
  | .ppsInEdge => true
  | .timeSourceTimeout => true
  | .ceRecomputeStep => true
  | .sessionIdleExpiry _ => true
  | .freezeWindowEnd => true
  | .activationDone => true
  | .activationTimeout => true
  | .nmFetchUe => true
  | .nmReloadDone _ => true
  | .quietPeriodExpiry => true
  | .shadowWindowEnd => true
  | .faultLogFlashCopy => true
  | .throttleLift => true
  | .droopDetect _ => true
  | .pwrFailNAssert => true
  | .pwrFailNDeassert => true
  | .pllUnlock _ => true
  | .crystalStop => true
  | .vddqDipInDeep => true
  | .idleEntry => true
  | .powerStateReached => true
  | .wakeNAssert => true
  | .porNAssert => true
  | .porNRelease _ => true
  | .pmDumpLatch _ => true
  | .trstNChange _ => true
  | .malformedSidebandTransaction => true

end Sys2Proof
end

