-- ==== Sys2Proof/Tests/Slice0.lean ====
section
/-! SUPPORT. Checks of the model: ill-formed commands are refused by each check of WellFormed, the worked examples of the spec come
out as it gives them, and states and operands that meet the hypotheses of each obligation, clause by clause. -/

set_option Elab.async false

namespace Sys2Proof.Tests
open Sys2Proof Sys2Proof.Machine

/-! ### Ill-formed commands: one for each check -/

theorem test_function_range : (Instr.intCauseWrite 4 0).wellFormed = false ∧ (Instr.intCauseWrite 3 0).wellFormed = true := by decide
theorem test_port_range : (Instr.perstNAssert 2).wellFormed = false ∧ (Instr.perstNAssert 1).wellFormed = true := by decide
theorem test_channel_range : (Instr.hardPprDone 12).wellFormed = false ∧ (Instr.hardPprDone 11).wellFormed = true := by decide
theorem test_handle_range : (Instr.backgroundOperationEnd 65536).wellFormed = false := by decide
theorem test_entry_length : (Instr.fcrEntryFetched 0 [1, 2]).wellFormed = false := by decide
theorem test_free_ring_range : (Instr.freeRingConsWrite 0 16 0).wellFormed = false := by decide
theorem test_egress_ring_range : (Instr.egressRingConsWrite 0 64 0).wellFormed = false := by decide
theorem test_vector_range : (Instr.msixVectorUnmask 0 (some 256)).wellFormed = false := by decide
theorem test_decoder_range : (Instr.hdmDecoderCommit 0 8 Decoder.reset.cfg).wellFormed = false := by decide
theorem test_window_range : (Instr.enqueueWindowWrite 0 512 0 [] true false).wellFormed = false := by decide
theorem test_offset_range : (Instr.registerWrite (.bar0 0 (2 ^ 28)) 4 0).wellFormed = false ∧
    (Instr.registerWrite (.node 38 0) 4 0).wellFormed = false ∧ (Instr.registerWrite (.config 0 (.vectorMask 256)) 4 0).wellFormed = false := by
  decide
theorem test_tie_range : (Instr.cxlmemRead 0 0 false [⟨4, 0, .read false⟩]).wellFormed = false := by decide
theorem test_upset_range : (Instr.dramReadReturn 0 ⟨[(0, 0, 80, 1)], []⟩).wellFormed = false ∧
    (Instr.dramReadReturn 0 ⟨[], [(12, 0, 0)]⟩).wellFormed = false := by decide
theorem test_quadrant_range : (Instr.nsTagScrub 4 []).wellFormed = false := by decide
theorem test_region_range : (Instr.heatSweep 64).wellFormed = false := by decide
theorem test_copy_range : (Instr.keyCheck [3]).wellFormed = false := by decide
theorem test_bank_range : (Instr.refreshIssue 0 2 0 0).wellFormed = false ∧ (Instr.refreshIssue 0 0 8 0).wellFormed = false ∧
    (Instr.rfmIssue 0 0 0 8 0).wellFormed = false ∧ (Instr.refreshIssue 0 0 0 4).wellFormed = false := by decide
theorem test_queue_range : (Instr.headLineReturn 262144).wellFormed = false := by decide
theorem test_sched_port_range : (Instr.gateSwap 64).wellFormed = false := by decide
theorem test_ptm_range : (Instr.ptmSample 3 true 0 0).wellFormed = false ∧ (Instr.ptmSample 0 true 0 0).wellFormed = false ∧
    (Instr.ptmSample 1 true 0 1000000000).wellFormed = false := by decide
theorem test_source_range : (Instr.actionRungDone 608).wellFormed = false := by decide
theorem test_sensor_count : (Instr.thermalSample [0]).wellFormed = false := by decide
theorem test_group_range : (Instr.wakeDone [96] []).wellFormed = false ∧ (Instr.wakeDone [] [12]).wellFormed = false := by decide
theorem test_population : (Instr.coldStartStepDone ⟨true, [], none, true⟩).wellFormed = false ∧
    (Instr.coldStartStepDone ⟨true, List.replicate 12 (some ⟨3, false, 16, false, false, [], 0⟩), none, true⟩).wellFormed = false := by decide

/-! ### The worked examples of the spec -/

/-- 03, two decodes: offset 74,560 of a PLAIN extent lies on MC3 at channel address 6,208. -/
theorem test_plain_decode : locate 0 0 0xFFF (List.replicate 12 0) 74560 = ⟨3, 6208 / 64, none, none⟩ := by decide +kernel

/-- 03, two decodes: offset 27,712 of a STRIPE extent lies on MC5, its parity on MC9, both at channel address 2,112. -/
theorem test_stripe_decode : (locate 2 2 0xFFF (List.replicate 12 0) 27712).ch = 5 ∧
    (locate 2 2 0xFFF (List.replicate 12 0) 27712).cla = 2112 / 64 ∧
    ((locate 2 2 0xFFF (List.replicate 12 0) 27712).row.map (fun x => x.2)) = some 9 := by decide +kernel

/-- 04, placing a line: DPA 0x0000_4012_3440. -/
theorem test_near_store_place : nsQuad (0x40123440 / 64) = 0 ∧ field (0x40123440 / 64) 2 14 = 0x1234 ∧ nsSet (0x40123440 / 64) = 0x1334 ∧
    nsTag (0x40123440 / 64) = 0x100 := by decide

/-- 09, decoding one line of a channel of one 256 GiB MRDIMM. -/
theorem test_channel_place : place ⟨1, true, 256, true, true, [0], 8800⟩ 0x2345679 =
    ⟨0, 2, 5, 0, 0x468, 0x590⟩ := by decide

/-- 06, one granule of the adjacency set: its first 12 stored bytes under profile 2, and the bits of its first words. -/
theorem test_granule_encodes :
    bytesOfBits 12 ((toBits 8 2 ++ encodeWords 2 0 [] [0x00000A4000001000, 0x30001]).take 96) =
      [0x02, 0xE0, 0x00, 0x01, 0x48, 0x00, 0x00, 0x02, 0x00, 0x0F, 0x45, 0x1F] := by decide +kernel

theorem test_granule_words :
    (encodeWords 2 0 [] [0x00000A4000001000]).length = 67 ∧
    (encodeWords 2 0 [] [0x00000A4000001000, 0x30001, 0x00000A4000001040, 0x30001]).length = 67 + 55 + 15 + 3 := by decide +kernel

/-! ### Witnesses -/

/-- A function whose link is up. -/
def upFn : HostFn := { HostFn.reset with exist := true, link := .l0, bme := true, memInfo := true }

/-- A region of 1 MiB at `base`, owned by every function, on every channel. -/
def someRegion (base tier : Nat) : Region :=
  ⟨base, 2 ^ 20, tier, 0, 0, 3, 0xFFF, 0xFFFF, 0, false, false, false, 0, 0, 0, 4, 1, false, 100, 0, 5,
    ⟨2 ^ 20, List.replicate 12 0, 0, []⟩, Extent.none, Extent.none, Extent.none, Extent.none, [], [], [], [], 0, false, false, false, [], [],
    [], [], [], [], 0, 0⟩

/-- A channel in service, with one 64 GiB DIMM. -/
def upChan : Mc := { Mc.reset with state := .service, pop := some ⟨1, false, 64, false, false, [7], 6400⟩, rate := 6400 }

/-- The device in RUN with functions 0 and 2, one DIRECT region, its key, and every channel in service. -/
def live : State := { State.reset with
  hp := ⟨[upFn, HostFn.reset, upFn, HostFn.reset], [⟨false, 13, [], [], [], false⟩, ⟨false, 13, [], [], [], false⟩], 0⟩
  rg := { State.reset.rg with regions := [(0, some (someRegion 0 0))] }
  sx := { State.reset.sx with key := some 1 }
  mc := { State.reset.mc with chans := List.replicate 12 upChan, rate := 6400 }
  pw := { Pw.reset with cold := .done }
  ck := { State.reset.ck with sysLock := true, memLock := true, refA := true, refB := true } }

/-- The same with a staging session 1 of the sideband. -/
def staging : State := { live with mb := { live.mb with sessions := [⟨1, 15, [], ⟨[], 0⟩, 0⟩] } }

/-- Whether a command executes, as a test. -/
def admitted (s : State) (p : Path) (op : Nat) (b : Bytes) : Bool :=
  decide (s.arrival p op = .run) && (match cmdInfo op with
    | some i => decide ((s.seen p).admission i p op b = none)
    | none => false)

theorem admits {s : State} {p : Path} {op : Nat} {b : Bytes} (h : admitted s p op b = true) : s.Admits p op b := by
  unfold admitted at h
  cases hc : cmdInfo op with
  | none => simp [hc] at h
  | some i => simp only [hc, Bool.and_eq_true, decide_eq_true_eq] at h; exact ⟨h.1, i, hc, h.2⟩

/-- A payload of `n` bytes with OBJECT `obj`, the first field byte `x`, and SESSION or VALID 0. -/
def pay (n obj : Nat) (x : Byte := 0) : Bytes := [0, 0, 0, 0] ++ le 4 obj ++ [x] ++ List.replicate (n - 9) 0

/-- The same in session 1. -/
def inSession (n obj : Nat) (x : Byte := 0) : Bytes := [1, 0, 0, 0] ++ le 4 obj ++ [x] ++ List.replicate (n - 9) 0

theorem witness_step : ∃ s t c, s.Sound ∧ s.pending = [c] ∧ step s = .next t :=
  ⟨{ live with pending := [.trstNChange true] }, _, _, ⟨by decide, by decide, by decide, by decide⟩, rfl, rfl⟩

theorem witness_idle_step : State.reset.pending = [] ∧ ∃ t, step State.reset = .next t := ⟨rfl, _, rfl⟩

theorem witness_frame : Part.dram ∉ touched (.trstNChange true) ∧ ∃ t, exec (.trstNChange true) live = .next t := ⟨by decide, _, rfl⟩

theorem witness_line_cells : lineKey 0 (live.remap 0 5) + 81 ≤ lineKey 0 6 ∧ 3 < lineKey 0 (live.remap 0 5) := by decide +kernel

/-- ManagementCommandsNeedTheLevel: function 2 is not the management function. -/
theorem witness_level : live.isMgmt 2 = false ∧ live.arrival (.primary 2) 0xC100 = .run ∧ live.arrival (.primary 2) 0xC520 = .run ∧
    live.arrival (.primary 2) 0xC722 = .run ∧ 24 ≤ (pay 64 0).length ∧ (pay 64 0).length ≤ pathMax (.primary 2) := by decide +kernel

/-- Function 0 frozen. -/
def frozen : State := { live with mb := { live.mb with frozen := 1 } }

theorem witness_frozen : frozen.isFrozen 0 = true ∧ frozen.pw.state = .run ∧ frozen.fc.safe = false ∧
    frozen.arrival (.primary 0) 0xC210 = .run ∧ frozen.arrival (.primary 0) 0xC222 = .run ∧ (pay 37 0).length ≤ pathMax (.primary 0) := by
  decide +kernel

theorem witness_unlisted : cmdInfo 0xC999 = none ∧ cmdInfo 0x0500 = none ∧ live.arrival .sideband 0xC999 = .run ∧
    live.arrival .sideband 0x0500 = .run := by decide +kernel

/-- The staged commands, each with a payload of its whole table. -/
theorem witness_staged : ∀ x ∈ [(0xC100, 26, 63), (0xC101, 8, 63), (0xC110, 40, 63), (0xC120, 16, 64), (0xC420, 16, 15), (0xC421, 16, 7),
    (0xC422, 16, 0), (0xC230, 64, 262143), (0xC231, 64, 1048575), (0xC241, 64, 63), (0xC242, 64, 63), (0xC300, 64, 4095), (0xC301, 16, 4095),
    (0xC302, 64, 1)], admitted staging .sideband x.1 (inSession x.2.1 x.2.2) = true ∧ rd (inSession x.2.1 x.2.2) 4 4 = x.2.2 ∧
      (staging.session (rd (inSession x.2.1 x.2.2) 0 2) 15).isSome = true := by decide +kernel

theorem witness_staged_node : admitted staging .sideband 0xC240 (inSession 64 4095 2) = true ∧ rd (inSession 64 4095 2) 8 1 = 2 ∧
    4095 < levelSize 2 := by decide +kernel

theorem witness_staged_room : ∀ y ∈ staging.mb.sessions, y.number = 1 ∧ y.staged = [] := by decide

theorem witness_bind : rd (inSession 64 0) 4 4 < 2 ∧ (staging.ce.bindP).any (fun _ => true) = false ∧
    (staging.ce.bindQ).any (fun _ => true) = false := by decide

theorem witness_field : (fRange 8 2 1 1000).off + (fRange 8 2 1 1000).len ≤ (pay 16 0).length ∧
    (fRange 8 2 1 1000).fix (rd (pay 16 0) 8 2) < 256 ^ 2 := by decide

theorem witness_sessions : admitted staging .sideband 0xC000 (pay 8 0) = true ∧ staging.mb.sessions.length < 4 ∧
    admitted staging .sideband 0xC002 (inSession 9 0) = true ∧ admitted staging .sideband 0xC001 (inSession 9 0) = true ∧
    (staging.session 1 15).isSome = true ∧ (staging.mb.sessions.find? (fun y => y.number == 1)).isSome = true := by decide +kernel

theorem witness_queries : ∀ x ∈ [0xC102, 0xC131, 0xC223, 0xC243, 0xC252, 0xC304, 0xC404, 0xC423, 0xC502, 0xC010, 0xC402, 0xC602],
    admitted live .sideband x (pay 64 0) = true := by decide +kernel

/-- A session of the sideband that has ended with a report. -/
def ended : State := { live with mb := { live.mb with retained := [(15, 1, ⟨[], 0⟩)] } }

theorem witness_report : admitted ended .sideband 0xC003 (inSession 64 0) = true ∧ (ended.reportOf 1 15).isSome = true ∧
    (sourceInfo 1).isSome = true := by decide +kernel

theorem witness_standard_reads : ∀ x ∈ [0x0001, 0x0002, 0x0100, 0x0102, 0x0200, 0x0300, 0x0400, 0x0401, 0x4000, 0x4200, 0x4201, 0x4300],
    admitted live .sideband x (pay 64 0) = true := by decide +kernel

theorem witness_standard_writes : ∀ x ∈ [0x0101, 0x0103, 0x0301, 0x4202, 0x4302, 0x4301], admitted live .sideband x (pay 72 0) = true := by
  decide +kernel

theorem witness_event_logs : rd ([3, 1] ++ List.replicate 8 0 : Bytes) 0 1 < 4 ∧
    (rd ([3, 1] ++ List.replicate 8 0 : Bytes) 1 1).testBit 0 = true ∧ ∀ i < 4, rd (pay 72 0) i 1 < 2 := by decide

/-- A near store that holds line 0. -/
def holding : State := { live with ns := { live.ns with lines := [(nsKey 0 0 0, some ⟨0, false, false, 15, 5⟩)] } }

theorem witness_poison : (holding.lineRegion 0).isSome = true ∧ holding.ctrLine 0 = none ∧ holding.fetchOf 0 = none ∧
    holding.nsFind 0 = some (nsKey 0 0 0, ⟨0, false, false, 15, 5⟩) := by decide +kernel

/-- ManagementCommandsSet. -/
theorem witness_management : admitted live .sideband 0xC030 (pay 9 3) = true ∧ admitted live .sideband 0xC410 (pay 16 0) = true ∧
    admitted live .sideband 0xC411 (pay 9 3) = true ∧ admitted live .sideband 0xC430 (pay 16 1) = true ∧ rd (pay 16 1) 4 4 = 1 := by
  decide +kernel

/-- Function 0 with a fast command ring, free ring 15 and egress ring 63. -/
def ringed : State := live.modFn 0 (fun h => { h with
  fcr := some ⟨0x10000, 0x20000, 64, 4, 50, 0, [], [], 0, 0⟩
  freeRings := [(15, some ⟨0x30000, 16, 0, 0, 1, 1, 0, 0, [], 0, 0, 0⟩)]
  egress := [(63, some ⟨0x40000, 0x50000, 16, 2048, 1, 1, none, false, 0, 0, 0, 0⟩)] })

/-- A buffer region that is registered. -/
def buffered : State := { live with qe := { live.qe with bufs := [0] } }

theorem witness_rings : live.Sound ∧ ((live.seen (.primary 0)).fnAt 0).ringOn = false ∧ admitted live (.primary 0) 0xC020 (pay 64 0) = true ∧
    ((ringed.seen (.primary 0)).fnAt 0).ringOn = true ∧ admitted ringed (.primary 0) 0xC021 (pay 9 0) = true ∧
    (ringed.freeRing 0 15).isSome = true ∧ admitted ringed (.primary 0) 0xC211 (pay 9 15) = true ∧
    (ringed.egressRing 0 63).isSome = true ∧ admitted ringed (.primary 0) 0xC221 (pay 9 63) = true :=
  ⟨⟨by decide, by decide, by decide, by decide⟩, by decide +kernel⟩

theorem witness_new_rings : live.egressRing 0 63 = none ∧ admitted live (.primary 0) 0xC220 (pay 64 63) = true ∧
    (rd (pay 64 63) 36 1).testBit 0 = false ∧ buffered.freeRing 0 15 = none ∧ admitted buffered (.primary 0) 0xC210 (pay 64 15) = true ∧
    rd (pay 64 15) 29 1 ∈ buffered.qe.bufs := by decide +kernel

theorem witness_buffers : admitted live .sideband 0xC200 (pay 9 0) = true ∧ live.region 0 = some (someRegion 0 0) ∧
    0 ∉ live.qe.bufs ∧ admitted buffered .sideband 0xC201 (pay 9 0) = true ∧ 0 ∈ buffered.qe.bufs ∧
    buffered.freeCount (someRegion 0 0) = (someRegion 0 0).cellSpan.2 ∧ admitted live .sideband 0xC224 (pay 16 0) = true ∧
    admitted live .sideband 0xC305 (pay 16 0) = true := by decide +kernel

/-- The same device with a YARD region. -/
def yard : State := { live with rg := { live.rg with regions := [(63, some (someRegion 0 1))] } }

theorem witness_controls : ∀ x ∈ [0xC111, 0xC130, 0xC720, 0xC250, 0xC251, 0xC601, 0xC401, 0xC403],
    admitted live .sideband x (pay 64 0) = true := by decide +kernel

theorem witness_control_region : admitted yard .sideband 0xC130 (pay 16 63) = true ∧ (yard.region 63).any (fun r => r.tier == 1) = true ∧
    validBit (pay 16 63) 0 = false ∧ validBit (pay 16 63) 1 = false := by decide +kernel

theorem witness_clock_set : live.tu.mode ≠ .acquiring ∧ live.tu.mode ≠ .locked := by decide

theorem witness_counter : admitted live .sideband 0xC600 (pay 16 511) = true ∧ rd (pay 16 511) 4 4 = 511 ∧ eventListed 64 = true := by
  decide +kernel

/-- FAULT_CFG of source 1 with DEFAULT. -/
def faultDefault : Bytes := [0, 0, 0, 0, 1, 0, 0, 0] ++ List.replicate 13 0 ++ [1] ++ List.replicate 10 0

theorem witness_fault_default : admitted live .sideband 0xC400 faultDefault = true ∧ (rd faultDefault 21 1).testBit 0 = true ∧
    (sourceInfo (rd faultDefault 4 4)).isSome = true ∧ (live.srcAt 1).walk = .none := by decide +kernel

/-- Function 0 with a counter set, a long queue, a soft repair entry, and a halted sweep. -/
def busyish : State := { live with
  ce := { live.ce with sets := [(4095, some ⟨0, 0, 4096, 0, 8, false, true, 0xF, 1, [8], 0, 0, 0, 0, false⟩)] }
  qe := { live.qe with queues := [(262143, some ⟨true, 0xF, 100, 0, 0, some 1, some 2, 5000, 4097, 5000, none, none⟩)] }
  fu := { live.fu with soft := [(0, 0)] }
  sx := { live.sx with sweep := true, halted := true } }

theorem witness_background : busyish.bgRoom 0 = true ∧ admitted busyish (.primary 0) 0xC212 (pay 16 0 4) = true ∧
    4 ≤ rd (pay 16 0 4) 8 1 ∧ admitted busyish (.primary 0) 0xC303 (pay 64 4095) = true ∧ (busyish.ceSet 4095).isSome = true ∧
    admitted busyish (.primary 0) 0xC222 (pay 9 262143) = true ∧ ownerHas (busyish.queueAt 262143).owner 0 = true ∧
    busyish.flushing 262143 = false ∧ 4096 < (busyish.queueAt 262143).packets ∧ busyish.running = [] ∧
    admitted busyish (.primary 0) 0xC510 (pay 16 0) = true ∧ admitted busyish (.primary 0) 0xC710 (pay 16 0) = true ∧
    admitted busyish (.primary 0) 0xC722 (pay 16 0) = true ∧ busyish.fu.soft ≠ [] ∧ 0 < busyish.fu.burnsLeft := by decide +kernel

/-- A range of 8 MiB from the start of region 0, which is made 4 MiB long. -/
def longRange : Bytes := [0, 0, 0, 0, 0, 0, 0, 0] ++ le 8 0 ++ le 8 (2 ^ 23) ++ List.replicate 16 0

def wide : State := { live with rg := { live.rg with regions := [(0, some { someRegion 0 0 with size := 2 ^ 22 })] } }

theorem witness_ranges : wide.bgRoom 0 = true ∧ admitted wide (.primary 0) 0xC700 longRange = true ∧
    admitted wide (.primary 0) 0xC701 longRange = true ∧ (wide.regionAt (rd longRange 8 8 / 64 * 64)).isSome = true ∧
    2 ^ 20 < min (fixRange (rd longRange 16 8)) (2 ^ 22) := by decide +kernel

theorem witness_power_entry : live.bgRoom 15 = true ∧ admitted live .sideband 0xC500 (pay 64 0 1) = true ∧
    (live.seen .sideband).entryBusy = false ∧ rd (pay 64 0 1) 8 1 = 1 := by decide +kernel

/-- A device that wakes from SLEEP. -/
def waking : State := { live with pw := { live.pw with state := .waking, wake := some ⟨3, false, 0⟩ } }

theorem witness_wake : waking.pw.state = .waking ∧ admitted waking .sideband 0xC501 (pay 9 0) = true ∧ waking.bgRoom 15 = true := by
  decide +kernel

theorem witness_speed : admitted live .sideband 0xC520 (pay 16 0) = true ∧ live.mc.speed = none ∧ live.fenced 11 = false := by decide +kernel

/-- PPR_CTL of row 0 of channel 11, with FORCE; whether the row has a hard resource left is the device's own (log 3). -/
theorem witness_repair : admitted live .sideband 0xC721 ([0, 0, 0, 0] ++ le 4 11 ++ List.replicate 8 0 ++ [1] ++ List.replicate 8 0) = true ∧
    live.fenced 11 = false ∧ (live.lp.resilver.getD 11 Resilver.none).active = false := by decide +kernel

theorem witness_repair_rows : live.hardLeft (rowId 11 ⟨0, 0, 0, 0, 0, 0⟩) = true →
    (pprRows live 11 (List.replicate 24 0)).filter live.hardLeft = [rowId 11 ⟨0, 0, 0, 0, 0, 0⟩] := by
  intro h
  have e : pprRows live 11 (List.replicate 24 0) = [rowId 11 ⟨0, 0, 0, 0, 0, 0⟩] := by decide +kernel
  rw [e, List.filter_cons_of_pos h]; rfl

theorem witness_channel_control : admitted live .sideband 0xC730 (pay 64 11) = true ∧ (live.chan 11).pop.isSome = true ∧
    rd (pay 64 11) 8 1 = 0 ∧ live.mb.sActive.length < 4 := by decide +kernel

/-- A diagnostic access of 4 B at `addr`, with value 7. -/
def diag (addr : Nat) : Bytes := List.replicate 8 0 ++ le 8 addr ++ le 2 4 ++ List.replicate 6 0 ++ le 4 7

theorem witness_diagnostics : admitted live .sideband 0xC800 (diag 0x10000C) = true ∧ admitted live .sideband 0xC801 (diag 0x10000C) = true ∧
    badWindow 0x10000C 4 = false ∧ badWindow 0x25FFFFC 4 = false ∧ badWindow 0x2600000 4 = true ∧ badWindow 0xFFFFC 8 = true ∧
    admitted live .sideband 0xC800 (diag 0x2600000) = true := by decide +kernel

/-- The YARD device with the metadata line of its first granules in the cache: granule 0 poisoned, granule 1 empty. -/
def described : State := { yard with cd := { yard.cd with mcache := [⟨63, 0, 0xC000000000000000, false, 15⟩] } }

theorem witness_granules : live.regionAt 0 = some (0, someRegion 0 0) ∧ admitted live .sideband 0xC810 (diag 0) = true ∧
    described.regionAt 512 = some (63, someRegion 0 1) ∧ ((described.seen .sideband).descGet 63 0 15).2 = some 0xC000000000000000 ∧
    ((described.seen .sideband).descGet 63 1 15).2 = some 0 ∧ field 0xC000000000000000 62 2 = 3 ∧ field 0 62 2 ≠ 3 := by decide +kernel

/-- An image in slot 1. -/
def imaged : State := { live with mb := { live.mb with slots := [⟨true, 0, 0, []⟩, ⟨true, 0, 0, []⟩] } }

theorem witness_firmware : admitted live .sideband 0x0201 ([1, 2] ++ List.replicate 254 0) = true ∧ live.bgRoom 15 = true ∧
    admitted imaged .sideband 0x0202 [1, 2] = true ∧ imaged.pw.cold = .done ∧
    (imaged.mb.slots.getD 1 ⟨false, 0, 0, []⟩).good = true := by decide +kernel

/-- A reclaim of the sideband that runs. -/
def reclaiming : State := { live with mb := { live.mb with ops := [⟨1, 15, .sideband, 0xC212, 0, .reclaim 0, 0, 10, 0, true, false⟩] } }

theorem witness_operation : (reclaiming.opAt 1).isSome = true ∧ reclaiming.latestOp .sideband = reclaiming.opAt 1 ∧
    admitted reclaiming .sideband 0xC011 (pay 16 1) = true ∧ admitted reclaiming .sideband 0x0005 (pay 16 1) = true ∧
    reclaiming.mb.ops.find? (fun x => x.handle == 1 && x.who == 15) = reclaiming.opAt 1 ∧ reclaiming.narayUp = true := by decide +kernel

/-- DoorbellWritesMoveCounts, at the ends of the ranges. -/
theorem witness_doorbells : ringed.ioReach 0 = true ∧ (ringed.fnAt 0).ringOn = true ∧
    ((ringed.fnAt 0).fcr.map (fun q => q.slots)) = some 64 ∧ ahead (64 % 65536) (ringed.fnAt 0).fcrCons = 64 ∧
    ahead (65 % 65536) (ringed.fnAt 0).fcrCons = 65 ∧ ((ringed.freeRing 0 15).map (fun q => (ahead q.prod q.cons, ahead 1 q.cons))) = some (0, 1) ∧
    ((ringed.egressRing 0 63).map (fun q => (ahead q.prod q.cons, ahead 65535 q.cons))) = some (0, 65535) := by decide +kernel

/-- A ring that waits for an entry. -/
def fetching : State := live.modFn 0 (fun h => { h with fcr := some ⟨0x10000, 0x20000, 64, 4, 50, 1, [], [], 0, 0⟩ })

theorem witness_fetch_error : (fetching.fnAt 0).ringOn = true ∧ ((fetching.fnAt 0).fcr.map (fun q => q.fetching)) = some 1 := by
  decide +kernel

theorem witness_registers : live.ioReach 2 = true ∧ (5#64).toNat < 6 ∧ decoderLegal ⟨0, 2 ^ 28, 12, 256, 11, 0, false, false⟩ = true ∧
    7 < (live.fnAt 2).decoders.length ∧ ((live.fnAt 2).decoders.getD 7 Decoder.reset).committed = false := by decide +kernel

theorem witness_windows : live.Sound ∧ live.ioReach 0 = true ∧ (live.fnAt 0).viral = false ∧ live.isFrozen 0 = false ∧
    (65280 % 32 = 0 ∧ 256 % 32 = 0 ∧ 65280 + 256 ≤ 65536) ∧ (65472 % 64 = 0 ∧ 65472 + 64 ≤ 65536) ∧ 31 % 32 ≠ 0 ∧ 32 % 64 ≠ 0 :=
  ⟨⟨by decide, by decide, by decide, by decide⟩, by decide +kernel⟩

/-- Links of function 0: in recovery, and down. -/
def recovering : State := live.modFn 0 (fun h => { h with link := .recovery })
def unlinked : State := live.modFn 0 (fun h => { h with link := .down, lost := true })
def held : State := live.modPort 0 (fun p => { p with perst := true })

theorem witness_quiet : live.Quiet ∧ live.Sound :=
  ⟨⟨by decide, by decide, by decide, by decide, by decide⟩, ⟨by decide, by decide, by decide, by decide⟩⟩

theorem witness_links : live.linkL0 0 = true ∧ (recovering.fnAt 0).link = .recovery ∧ (recovering.fnAt 0).held = [] ∧
    unlinked.fnExists 0 = true ∧ unlinked.linkLost 0 = true ∧ unlinked.mayTrain 0 = true ∧ live.linkLost 0 = false ∧
    (live.portAt 1).perst = false ∧ live.fnsOf 1 ≠ [] ∧ (held.portAt 0).perst = true ∧ held.hp.ports.length = 2 ∧
    (⟨8, true, false, 256, true, 16⟩ : LinkCfg).flit68 = true ∧ (⟨8, true, false, 256, true, 16⟩ : LinkCfg).ltssmOk = true := by decide +kernel

/-- Function 0 with link security on, and with 64 flit errors. -/
def secured : State := live.modFn 0 (fun h => { h with ideOn := true, flitTimes := List.replicate 64 0 })

theorem witness_errors : secured.linkL0 0 = true ∧ (secured.fnAt 0).ideOn = true ∧ (secured.fnAt 0).ideOff = false ∧
    (secured.fnAt 0).flitTimes = List.replicate 64 0 ∧ secured.now < 0 + 1000000 ∧ secured.ioReach 0 = true := by decide +kernel

/-- Time: a unit with PTM of function 0 and the PPS input as its sources, and one locked to PTM alone. -/
def timed : State := { live.modFn 0 (fun h => { h with ptmEn := true }) with tu := { live.tu with primary := 1, secondary := 3 } }
def locked : State := { timed with tu := { timed.tu with mode := .locked, active := 1, secondary := 0 } }

theorem witness_time : timed.tuRuns = true ∧ timed.enabledSource 1 = true ∧ timed.ptmOpen 1 = true ∧ timed.enabledSource 3 = true ∧
    locked.tuRuns = true ∧ locked.tu.mode = .locked ∧ locked.tu.secondary = 0 := by decide +kernel

/-- A performance monitor that dumps every millisecond, to a function whose link is up and to one that is absent. -/
def dumping (f : Nat) : State := { live with pm := { live.pm with interval := 1000, fn := f } }

theorem witness_dump : (dumping 0).canSend 0 = true ∧ (dumping 1).canSend 1 = false ∧ (dumping 0).awake = true ∧ (dumping 0).fc.safe = false ∧
    (dumping 0).pm.interval ≠ 0 ∧ ((dumping 0).fnAt 0).viral = false := by decide +kernel

/-- The device with a decoder of function 0 over region 0, and a near store that holds line 0, in way 0, and is full of nothing else. -/
def decoding : State := holding.modFn 0 (fun h => { h with decoders := [⟨⟨0, 2 ^ 28, 1, 256, 0, 0, false, false⟩, true, false, 0⟩] })

theorem witness_hit : decoding.regionAt 0 = some (0, someRegion 0 0) ∧ decoding.ctrLine 0 = none ∧ decoding.fetchOf 0 = none ∧
    decoding.nsFind 0 = some (nsKey 0 0 0, ⟨0, false, false, 15, 5⟩) ∧ decoding.gate ⟨0, 0, .read true⟩ = .to 0 ∧
    decoding.gate ⟨0, 0, .write 7 1 false⟩ = .to 0 ∧ ownerHas (someRegion 0 0).owner 0 = true ∧ (decoding.fnAt 0).viral = false ∧
    decoding.region 0 = some (someRegion 0 0) ∧ decoding.lineRegion 0 = some (0, someRegion 0 0, 0 / 64 * 64 - 0) := by decide +kernel

theorem witness_refused : live.gate ⟨0, 0, .write 7 1 false⟩ = .drop 4 ∧ frozen.gate ⟨0, 0, .read false⟩ = .drop 2 ∧
    frozen.fnExists 0 = true ∧ frozen.linkLost 0 = false := by decide +kernel

/-- A fetch of line 0 for a read of function 0, from channel 0. -/
def fetchAt (x : FetchStage) : Fetch := ⟨0, 1, 0, [⟨⟨0, 0, .read false⟩, 0⟩], x⟩

/-- Line 0 was written with zeros, and its check symbols came to be those of line 1. -/
def misread (x : FetchStage) : State := { live with
  rr := ⟨0, [fetchAt x], []⟩
  dram := [(lineKey 0 0 + 80, 1)]
  mc := { live.mc with upsets := [(0, 0, 68, 118), (0, 0, 69, 146), (0, 0, 70, 231), (0, 0, 71, 85), (0, 0, 72, 242), (0, 0, 73, 94),
    (0, 0, 74, 235), (0, 0, 75, 134), (0, 0, 76, 41), (0, 0, 77, 180), (0, 0, 78, 175), (0, 0, 79, 164)] } }

theorem witness_return : (misread .waiting).fetchOf 0 = some (fetchAt .waiting) ∧ (misread .waiting).idQueued 1 = false ∧
    (misread .waiting).lineRegion 0 = some (0, someRegion 0 0, 0) ∧ (misread .waiting).readable 0 0 = true ∧
    (misread .waiting).holding 0 = false := by decide +kernel

set_option maxRecDepth 100000 in
theorem witness_misread : (((misread .waiting).upset ⟨[], []⟩).decodeCopy ⟨[], []⟩ ((someRegion 0 0).loc (someRegion 0 0).data 0) false 0).1 =
    .addressError := by decide +kernel

theorem witness_stages : (misread .reread).fetchOf 0 = some (fetchAt .reread) ∧
    (misread (.repair true false 0)).fetchOf 0 = some (fetchAt (.repair true false 0)) ∧
    (misread (.spec 0 false true)).fetchOf 0 = some (fetchAt (.spec 0 false true)) ∧ LineClass.addressError.good = false := by decide +kernel

/-- A near store with a dirty victim and an offered one, a group that drains and one that wakes, and a snoop under way. -/
def victims : State := { live with
  ns := { live.ns with victims := [⟨3, ⟨0, true, false, 0, 1⟩, false, false⟩, ⟨5, ⟨0, false, false, 0, 1⟩, true, false⟩]
                       ways := [.on, .draining, .waking, .off] }
  hp := { live.hp with ports := [⟨false, 13, [(0, 9)], [], [], false⟩, ⟨false, 13, [], [], [], false⟩] } }

theorem witness_near_store : (victims.ns.victims.find? (fun x => x.line == 3 && x.ent.dirty)).isSome = true ∧
    (victims.ns.victims.find? (fun x => x.line == 5 && x.offer)).any (fun v => !v.hit) = true ∧
    (0, 9) ∈ (victims.portAt (portOf 0)).snoops ∧ victims.awake = true ∧ victims.wayLive 3 = true ∧ victims.ns.errLoc.length = 4 ∧
    victims.groupsIn .draining = [1] ∧ 1 < victims.ns.ways.length ∧ victims.groupsIn .waking = [2] := by decide +kernel

theorem witness_victims_quiet : victims.Quiet ∧ victims.Sound :=
  ⟨⟨by decide, by decide, by decide, by decide, by decide⟩, ⟨by decide, by decide, by decide, by decide⟩⟩

/-- A TIERED region of 64 KiB of frames, with a promotion of page 1 under way and a demotion of page 2. -/
def tiered : State := { live with
  rg := { live.rg with regions := [(0, some { someRegion 0 2 with
    t1 := ⟨65536, List.replicate 12 0, 0, []⟩, frames := [(1, 0), (2, 1)], quota := 16, quotaInit := 16 })] }
  tr := { live.tr with moves := [⟨0, 1, true, 0⟩, ⟨0, 2, false, 1⟩] } }

theorem witness_tiers : (tiered.region 0).any (fun r => r.tier == 2) = true ∧ tiered.enginesRun = true ∧ tiered.bgPaused = false ∧
    tiered.tr.paused = false ∧ tiered.moveOf 0 1 = some ⟨0, 1, true, 0⟩ ∧ tiered.moveOf 0 2 = some ⟨0, 2, false, 1⟩ := by decide +kernel

/-- MUCK on region 63, at its last granule. -/
def mucking : State := { yard with cd := { yard.cd with muckRegion := 63, muckPos := 2047 } }

theorem witness_muck : mucking.bgPaused = false ∧ mucking.cd.muckHalted = false ∧ 0 ∉ mucking.cd.isolated ∧
    mucking.region mucking.cd.muckRegion = some (someRegion 0 1) ∧ (someRegion 0 1).tier ≠ 0 ∧
    mucking.cd.muckPos < (someRegion 0 1).size / 512 := by decide +kernel

/-- A queue of one demand read, a row with one error, a hard row, and a queue state extent to fill. -/
def scrubbing : State := { live with
  lp := { live.lp with demandQ := [(11, 5)], rows := [⟨7, 1, 0, 0⟩], hardRows := [7] }
  rg := { live.rg with qstate := ⟨2 ^ 20, List.replicate 12 0, 0, []⟩ } }

theorem witness_scrub : live.lpRuns = true ∧ live.lp.scrubHalted = false ∧ live.fenced 11 = false ∧
    live.lp.patrolPos.getD 11 0 + 1 < live.chanLines 11 ∧ live.lineFilled 11 (live.lp.patrolPos.getD 11 0) = false ∧
    live.lp.patrolLate.getD 11 false = false ∧ 11 < live.lp.patrolLate.length ∧ scrubbing.rg.qstate.toFill = some 0 ∧
    scrubbing.bgPaused = false ∧ scrubbing.mediaReady = true ∧ scrubbing.lp.fillHalted = false := by decide +kernel

/-- A demand read of a line whose channel is fenced. -/
def fencedScrub : State := { scrubbing with mc := { live.mc with chans := List.replicate 11 upChan ++ [{ upChan with state := .fenced }] } }

theorem witness_demand : fencedScrub.enginesRun = true ∧ fencedScrub.lp.demandQ = [(11, 5)] ∧ fencedScrub.readable 11 5 = false := by
  decide +kernel

theorem witness_row : (scrubbing.lp.rows.find? (fun x => x.row == 7)).isSome = true ∧ 7 ∈ scrubbing.lp.hardRows ∧
    softRes 7 ∉ scrubbing.lp.softUsed ∧ scrubbing.enginesRun = true := by decide +kernel

/-- A hard row with no soft resource; its pages are retired where no hard resource is left either. -/
def unrepaired : State := { live with lp := { live.lp with
  hardRows := [rowId 0 ⟨0, 0, 0, 0, 0, 0⟩], softUsed := [softRes (rowId 0 ⟨0, 0, 0, 0, 0, 0⟩)], spareFree := [[(100, 8)]] } }

theorem witness_retirement : rowId 0 ⟨0, 0, 0, 0, 0, 0⟩ ∈ unrepaired.lp.hardRows ∧
    softRes (rowId 0 ⟨0, 0, 0, 0, 0, 0⟩) ∈ unrepaired.lp.softUsed ∧ unrepaired.pageInRow 0 0 (rowId 0 ⟨0, 0, 0, 0, 0, 0⟩) = true ∧
    unrepaired.lp.retired = [] ∧ takeSpare (unrepaired.lp.spareFree.getD 0 []) = some (100, [(101, 7)]) := by decide +kernel

/-- Hard PPR of channel 3, whose rank 0 of subchannel 1 is out, and passes of resilvering after it and after a fence. -/
def repairingState (r : Resilver) : State := { live with
  mb := { live.mb with ops := [⟨1, 15, .sideband, 0xC721, 3, .ppr 3 [5], 0, 1, 0, true, false⟩] }
  lp := { live.lp with rankOut := [(3, 1, 0)], resilver := lset live.lp.resilver 3 r } }

theorem witness_hard_repair : ((repairingState Resilver.none).bgOf (repairing 3)).isSome = true ∧
    (repairingState Resilver.none).lp.rankOut.find? (fun y => y.1 == 3) = some (3, 1, 0) := by decide +kernel

theorem witness_resilver : (repairingState ⟨0, true, some (1, 3)⟩).lp.resilver[3]? = some ⟨0, true, some (1, 3)⟩ ∧
    ((repairingState ⟨0, true, some (1, 3)⟩).placeOf 3 0).rank ≠ 3 ∧ 0 + 1 < live.chanLines 3 ∧
    (repairingState ⟨live.chanLines 3, true, none⟩).lineFilled 3 (live.chanLines 3) = false ∧
    (repairingState ⟨live.chanLines 3, true, none⟩).lpRuns = true := by decide +kernel

/-- A sweep under way. -/
def sweeping : State := { live with sx := { live.sx with sweep := true } }

theorem witness_keys : sweeping.sx.sweep = true ∧ sweeping.sx.halted = false ∧ sweeping.sx.paused = false ∧ sweeping.bgPaused = false ∧
    live.sx.key.isSome = true ∧ live.awake = true ∧ live.mbReady = true := by decide +kernel

theorem witness_demotion : ((tiered.frameLines 0 2 1).1.storePage 0 2 (tiered.frameLines 0 2 1).2).2 = true := by decide +kernel

/-- A subchannel with a read waiting, owed nothing, whose bank's RAA counter is at the threshold where RFM is issued. -/
def oneRead : ChanReq := ⟨5, 9, 0, false, 0, 0, false, 7, false⟩

def sub (u : SubCh) : State := { live with mc := { live.mc with chans := { upChan with subs := [u, SubCh.reset] } :: List.replicate 11 upChan } }

theorem witness_refresh : live.refreshes 11 = true ∧ 1 < (live.chan 11).subs.length ∧ 0 * 4 + 3 ∈ live.refKeys 11 ∧
    live.owedNow 11 1 (0 * 4 + 3) = 0 ∧ (live.subAt 11 1).considered = [] := by decide +kernel

theorem witness_management_refresh : Config.raaInitial 0 ≤ sget 0 ((sub { SubCh.reset with raa := [(0 * 32 + 7 * 4 + 3, Config.raaInitial 0)] }).subAt 0 0).raa
    (0 * 32 + 7 * 4 + 3) := Nat.le_refl _

theorem witness_channel_events : live.chanIs 11 .service = true ∧ live.awake = true ∧ 11 < live.mc.chans.length ∧
    (((sub { SubCh.reset with writeQ := [oneRead] }).subAt 0 0).readQ ++ ((sub { SubCh.reset with writeQ := [oneRead] }).subAt 0 0).writeQ).find?
      (fun q => q.tag == 9 && !q.promoted && !q.held) = some oneRead ∧
    ((sub { SubCh.reset with alerts := 2 }).subAt 0 0).alerts < 3 ∧ 3 ≤ ((sub { SubCh.reset with alerts := 3 }).subAt 0 0).alerts ∧
    (sub { SubCh.reset with alerts := 3 }).chanIs 0 .service = true ∧
    ((sub { SubCh.reset with alerts := 1, sinceAlert := 64 }).subAt 0 0).sinceAlert = 64 ∧
    (live.chan 11).pop.isSome = true ∧ live.fenced 11 = false ∧ (85 : Int) < 86 := by decide +kernel

/-- Subchannel 0 of channel 0 with one read. -/
def picking : State := sub { SubCh.reset with readQ := [oneRead] }

/-- A read that may be issued is picked where its bank's RAA counter has not reached its maximum. -/
theorem witness_pick (h : Config.raaMaximum 0 ≠ 0) : picking.pickReq 0 0 [9] =
    some (oneRead, slotOwner SubCh.reset.frame SubCh.reset.credit SubCh.reset.since, [oneRead]) := by
  have h1 : picking.bankBlocked 0 0 (picking.bankOf 0 oneRead) = false := by
    have h2 : picking.owedNow 0 0 (indexOf (picking.bankOf 0 oneRead)) = 0 := by decide +kernel
    have h3 : sget 0 (picking.subAt 0 0).raa (picking.bankOf 0 oneRead) = 0 := rfl
    unfold State.bankBlocked
    rw [h2, h3]
    simp [h]
  have h4 : (picking.subAt 0 0).behind oneRead = false := by decide +kernel
  have h5 : ((picking.subAt 0 0).readQ ++ (picking.subAt 0 0).writeQ).filter (fun q => q.promoted && !([9] : List Nat).contains q.tag) = [] := rfl
  have h6 : (picking.subAt 0 0).considered = [oneRead] := rfl
  have h7 : ([9] : List Nat).contains oneRead.tag = true := rfl
  unfold State.pickReq
  simp only [h5, h6, List.filter_cons, List.filter_nil, h7, h4, h1, List.map_nil, List.contains_nil, Bool.not_false, Bool.and_self, if_true]
  rfl

/-- Channel 11 waits for an error-driven retraining, with no read queued. -/
def drifting : State := { live with mc := { live.mc with trigQ := [11] } }
def retraining : State := { live with mc := { live.mc with training := some 11 } }
def fullRetraining : State := { live with
  mb := { live.mb with ops := [⟨1, 15, .sideband, 0xC521, 11, .retrain 11, 0, 1, 0, true, false⟩] }
  mc := { live.mc with chans := List.replicate 11 upChan ++ [{ upChan with state := .training }] }
  lp := { live.lp with resilver := List.replicate 12 Resilver.none } }
def changing (started : Bool) : State := { live with mc := { live.mc with
  chans := List.replicate 11 upChan ++ [{ upChan with state := .speedChange }], speed := some ⟨4800, 11, started, 0⟩ } }
def firstTraining : State := { live with
  pw := { live.pw with cold := .step 6 }
  mc := { live.mc with chans := List.replicate 12 { upChan with state := .training } } }

theorem witness_training : drifting.mc.training = none ∧ drifting.awake = true ∧
    drifting.mc.trigQ.find? (fun c => drifting.chanIs c .service && !drifting.hardPprOn c) = some 11 ∧
    (∀ u ∈ (drifting.chan 11).subs, ∀ q ∈ u.readQ, q.id = 0) ∧ retraining.mc.training = some 11 ∧ retraining.mc.speed = none ∧
    (fullRetraining.fullTraining 11).isSome = true ∧ fullRetraining.mc.speed = none ∧ 11 < fullRetraining.lp.resilver.length ∧
    (changing true).chanIs 11 .speedChange = true ∧ (changing false).mc.speed = some ⟨4800, 11, false, 0⟩ ∧
    firstTraining.pw.cold = .step 6 ∧ firstTraining.chanIs 11 .training = true := by decide +kernel

theorem witness_training_sound : drifting.Sound ∧ retraining.Sound ∧ fullRetraining.Sound ∧ (changing true).Sound ∧ firstTraining.Sound :=
  ⟨⟨by decide, by decide, by decide, by decide⟩, ⟨by decide, by decide, by decide, by decide⟩, ⟨by decide, by decide, by decide, by decide⟩,
    ⟨by decide, by decide, by decide, by decide⟩, ⟨by decide, by decide, by decide, by decide⟩⟩

/-- A descriptor of 32 bytes: RUN_PTR, QUEUE_ID, LENGTH and the byte of flags. -/
def descriptor (run queue len flags : Nat) : Bytes :=
  le 4 run ++ le 4 0 ++ le 3 queue ++ le 5 0 ++ le 2 len ++ le 1 0 ++ le 1 flags ++ List.replicate 12 0

/-- Function 0 has written a descriptor; run 100 of one cell is held by its free ring 15, and queue 262143 is enabled. -/
def posted (rec : Bytes) : State := { ringed with
  hp := { ringed.hp with ports := [⟨false, 13, [], [⟨0, 511, true, [rec]⟩], [], false⟩, ⟨false, 13, [], [], [], false⟩] }
  qe := { ringed.qe with bufs := [0], cells := [(100, 1)], links := [(100, heldEntry 0 15 0 + 1)],
                         queues := [(262143, some ⟨true, 0xF, 100, 0, 63, none, none, 0, 0, 0, none, none⟩)] } }

theorem witness_malformed_descriptor : (posted (descriptor 100 262143 0x8001 0)).enginesRun = true ∧
    (posted (descriptor 100 262143 0x8001 0)).ctxFree 32 4 = true ∧ (descOf (descriptor 100 262143 0x8001 0)).reserved = true ∧
    ((posted (descriptor 100 262143 0x8001 0)).takeRecord 0 true).any (fun r =>
      decide (r.2.2 = descriptor 100 262143 0x8001 0) && !(r.1.fnAt 0).viral && !r.1.isFrozen 0) = true := by decide +kernel

theorem witness_enqueue : ((posted (descriptor 100 262143 252 0)).takeRecord 0 true).any (fun r =>
      let d := descOf r.2.2
      !(r.1.fnAt 0).viral && !r.1.isFrozen 0 && !d.reserved && decide (d.len = 252) && decide (r.1.heldRun d.run = some (0, 15, 0)) &&
      decide (d.len + 4 ≤ 2 ^ 0 * 256) && !d.freeOnly && ownerHas (r.1.queueAt d.queue).owner 0 && !r.1.qe.draining &&
      (r.1.queueAt d.queue).enabled && !d.police && decide ((r.1.queueAt d.queue).cells + cellsFor d.len ≤ (r.1.queueAt d.queue).limit)) = true := by
  decide +kernel

/-- Queue 262143 holds one packet at cell 100 with its head line absent. -/
def queued : State := { ringed with qe := { ringed.qe with
  bufs := [0], queues := [(262143, some ⟨true, 0xF, 100, 0, 63, some 100, some 100, 1, 1, 60, none, none⟩)] } }

theorem witness_head_line : queued.enginesRun = true ∧ (queued.queueAt 262143).head = some 100 ∧ (queued.queueAt 262143).headLine = none ∧
    queued.sc.nodes = [] ∧ queued.qe.heads.length < 65536 := by decide +kernel

/-- The turn of free ring 15 of function 0, whose region has free runs. -/
def refilling : State := { ringed with qe := { ringed.qe with bufs := [0], rrRing := 15 } }

theorem witness_refill : refilling.enginesRun = true ∧ refilling.qe.draining = false ∧ refilling.ctxFree 36 4 = true ∧
    refilling.freeReady (refilling.qe.rrRing % 64 / 16) (refilling.qe.rrRing % 64 % 16) = true ∧
    (refilling.freeRing (refilling.qe.rrRing % 64 / 16) (refilling.qe.rrRing % 64 % 16)).any (fun q =>
      ((refilling.bufs.find? (fun b => b.1 == q.region)).bind
        (fun b => refilling.takeRuns (refilling.qe.rrRing % 64 / 16) (refilling.qe.rrRing % 64 % 16) q b.2 16 [])).isSome) = true := by
  decide +kernel

/-- The header of a packet of 60 bytes as a head line. -/
def headLine : Nat := 0x99003C

/-- A packet of 60 bytes selected from queue 262143, to be read: its egress ring is not registered and nothing else is read. -/
def selected : Deq := ⟨262143, 0, 1, 60, 60 + 2 ^ 24 * 0x99, 1, [], false, 0, 0, [], false, false, false, 0, 0, none, 5⟩

/-- The same with the lines of its cell in the near store. -/
def reading : State := { live with
  ns := { live.ns with lines := [(nsKey 0 0 0, some ⟨0, false, false, 15, 60 + 2 ^ 24 * 0x99⟩), (nsKey 1 0 0, some ⟨0, false, false, 15, 0⟩),
    (nsKey 2 0 0, some ⟨0, false, false, 15, 0⟩), (nsKey 3 0 0, some ⟨0, false, false, 15, 0⟩)] }
  qe := { live.qe with bufs := [0], deq := [selected], cells := [(0, 2)],
                       queues := [(262143, some ⟨true, 0xF, 100, 0, 63, none, none, 0, 0, 0, none, none⟩)] } }

theorem witness_dequeue : reading.enginesRun = true ∧ reading.qe.deq.find? (fun d => d.queue == 262143 && !d.read) = some selected ∧
    reading.cellFenced (selected.first + 0) = false ∧ selected.cells = 1 ∧ (reading.readPacket selected).2.2 = none ∧
    headerOk (reading.readPacket selected).2.1 selected.cells = true ∧ reading.egressOf 262143 = none := by decide +kernel

/-- The read packet, its push started to egress ring 63 of function 0. -/
def pushed : Deq := ⟨262143, 0, 1, 60, 60, 1, [], true, 60, 0, List.replicate 60 7, true, false, false, 0, 0, some (0, 63), 0⟩

def pushing : State := { ringed with qe := { ringed.qe with bufs := [0], deq := [pushed] } }

theorem witness_push : pushing.enginesRun = true ∧ pushing.qe.deq.find? (fun d => d.queue == 262143 && d.read) = some pushed ∧
    pushing.qe.deq.find? (fun x => x.first == pushed.first && x.started) = some pushed ∧
    (pushing.egressRing 0 63).map (fun r => r.prod) = some pushed.slot ∧ pushing.pushOpen 0 = true := by decide +kernel

theorem witness_moderation : ((live.modFn 0 (fun h => { h with freeRings := [(15, some ⟨0x30000, 16, 0, 0, 1, 1, 1, 0, [], 0, 1, 0⟩)] })).freeRing 0 15).any
    (fun q => decide (q.unsig ≠ 0)) = true := by decide +kernel

/-- A scheduler of one port, group, subgroup and queue, whose packet's head line is present. -/
def scheduling : State := { ringed with
  qe := { ringed.qe with
    bufs := [0], pkts := [(100, some ⟨1, 60⟩)], heads := [262143]
    queues := [(262143, some ⟨true, 0xF, 100, 0, 63, some 100, some 100, 1, 1, 60, some (60 + 2 ^ 24 * 0x99), none⟩)] }
  sc := { ringed.sc with
    ports := [(63, some ⟨100000, 24, false, 0, none, none, none, []⟩)]
    nodes := [(nodeKey 1 63, some ⟨none, 0, 1, 0, false, 0, 0, 0, 0, 0⟩), (nodeKey 2 7, some ⟨some 63, 0, 100, 0, false, 0, 0, 0, 0, 0⟩),
      (nodeKey 3 9, some ⟨some 7, 0, 100, 0, false, 0, 0, 0, 0, 0⟩), (nodeKey 4 262143, some ⟨some 9, 0, 100, 7, false, 0, 0, 0, 0, 0⟩)]
    rrPort := 0 } }

theorem witness_decision : scheduling.enginesRun = true ∧ scheduling.schedSync.portsReady.head? = some 63 ∧ scheduling.schedSync.deqRoom = true ∧
    ((scheduling.schedSync.pickChild (nodeKey 1 63)).bind (fun a => (a.1.pickChild a.2.1).bind (fun b => b.1.pickChild b.2.1))).any
      (fun r => decide (keyNum r.2.1 = 262143)) = true ∧ (scheduling.queueAt 262143).head = some 100 := by decide +kernel

/-- Two nodes on the wheel, one of them on its outer ring; a gated port whose next list is due. -/
def wheeled : State := { live with sc := { live.sc with
  wheel := [(nodeKey 4 1, 5, 0), (nodeKey 4 2, 40000, 1)]
  ports := [(63, some ⟨100000, 24, true, 0, some ⟨1000, 0, 0, [(1000, 0xFF)]⟩, some ⟨2000, 50, 0, [(2000, 1)]⟩, some 50, []⟩)] } }

theorem witness_wheel : (minBy (fun (e : Nat × Nat × Nat) => e.2.1) (wheeled.sc.wheel.filter (fun e => e.2.2 == 0))).isSome = true ∧
    (minBy slotStart (wheeled.sc.wheel.filter (fun e => e.2.2 != 0))).isSome = true ∧ wheeled.enginesRun = true ∧
    ((wheeled.scPort 63).gateAt wheeled.netNs).2.2 = some 50 ∧ (wheeled.scPort 63).gate = true ∧
    (wheeled.scPort 63).admin = some ⟨2000, 50, 0, [(2000, 1)]⟩ ∧ (wheeled.scPort 63).swapAt = some 50 := by decide +kernel

/-- An update record of 16 bytes: LEAF, PACKETS, BYTES and OP. -/
def update (leaf op : Nat) : Bytes := le 4 leaf ++ le 2 1 ++ le 4 60 ++ le 1 op ++ le 5 0

/-- Set 4095 of 4,096 leaves, and a posted record of function 0. -/
def counting (rec : Bytes) : State := { busyish with
  hp := { live.hp with ports := [⟨false, 13, [], [⟨0, 511, false, [rec]⟩], [], false⟩, ⟨false, 13, [], [], [], false⟩] } }

theorem witness_updates : ∀ op < 3, (counting (update 7 op)).ceRuns = true ∧ ((counting (update 7 op)).takeRecord 0 false).any (fun r =>
      !(r.1.fnAt 0).viral && !r.1.isFrozen 0 && decide (field (unle (r.2.2.take 16)) 80 8 = op) &&
      decide (field (unle (r.2.2.take 16)) 89 7 = 0) && decide (field (unle (r.2.2.take 16)) 96 32 = 0) &&
      (r.1.setOfLeaf (field (unle (r.2.2.take 16)) 0 32)).any (fun x => decide (x.1 = 4095) && ownerHas x.2.owner 0)) = true := by
  decide +kernel

/-- An event of queue 3, not bound and bound; an ancestor to be recomputed. -/
def events (b : Option Binding) : State := { busyish with ce := { busyish.ce with
  events := [⟨false, 3, evEnqueue, 1, 60⟩], bindQ := b, stale := [(4095, 1, 5)] } }

theorem witness_events : (events none).ceRuns = true ∧ (events none).ce.events ≠ [] ∧ (events none).ce.bindQ = none ∧
    (events (some ⟨4095, 0, 4, 1, List.replicate 16 (some 0)⟩)).ce.bindQ = some ⟨4095, 0, 4, 1, List.replicate 16 (some 0)⟩ ∧
    (List.replicate 16 (some 0)).getD evEnqueue none = some 0 ∧ 3 < 0 + 4 := by decide +kernel

theorem witness_recompute : (events none).bgPaused = false ∧ (events none).ce.recompute = none ∧
    (events none).staleNext = some (4095, 1, 5) ∧ ((events none).ceSet 4095).isSome = true := by decide +kernel

/-- An entry of an opcode that the table does not list. -/
def ringEntry : Bytes := [0x99, 0xC9, 1, 0] ++ List.replicate 60 0

theorem witness_ring_entry : ((fetching.fnAt 0).fcr.map (fun q => q.fetching)) = some 1 ∧ (fetching.fnAt 0).fcrHalted = false ∧
    rd (ringEntry ++ List.replicate (64 - ringEntry.length) 0) 0 2 = 0xC999 ∧ cmdInfo 0xC999 = none ∧
    rd (ringEntry ++ List.replicate (64 - ringEntry.length) 0) 2 2 = 1 ∧
    fetching.arrival (.ring 0 (fetching.fnAt 0).fcrCons 1) 0xC999 = .run := by decide +kernel

theorem witness_firmware_events : ({ live.mb with activating := true } : Mb).heldCmds = [] ∧ live.narayUp = true ∧ live.mbReady = true ∧
    live.awake = true ∧ ({ live.mb with reloading := true } : Mb).activating = false := by decide +kernel

/-- Fault states: a report of source 1 waits with ladder ACK, and one source each in an action, in a window, raised and settling. -/
def src0 (m : SrcMode) (w : Walk) : Src := ⟨m, w, 0, 0, some ⟨[3], 0, 1⟩, 1, 0, 0, 0, false⟩

def faulty (src : Nat) (x : Src) : State := { live with fc := { live.fc with
  src := [(src, some x)], cfg := [(1, some ⟨[3], 10, 1⟩)], reports := [⟨0, 0, false, false, 1, none, 0⟩], flashDue := some 5 } }

def quietFaults : State := { live with fc := { live.fc with
  src := [(pwTempWarn, some (src0 .settling .none))], shadows := [⟨8, 0, some 10000, none, 1, []⟩] } }

theorem witness_faults : (faulty 2 (src0 .clear .none)).fcRuns = true ∧
    minBy reportKey (faulty 2 (src0 .clear .none)).fc.reports = some ⟨0, 0, false, false, 1, none, 0⟩ ∧
    (faulty 2 (src0 .clear .none)).shadowFor 1 0 = none ∧ ((faulty 2 (src0 .clear .none)).srcAt 1).walk = .none ∧
    ((faulty 2 (src0 .clear .none)).cfgOf 1).ladder = [3] ∧ severityOf pwTempWarn ≠ 4 ∧ isStateSource pwTempWarn = true ∧
    ((faulty pwTempWarn (src0 .raised (.action 0 9))).srcAt pwTempWarn).walk = .action 0 9 ∧
    ((faulty pwTempWarn (src0 .raised (.window 0 9))).srcAt pwTempWarn).walk = .window 0 9 ∧
    (faulty pwTempWarn (src0 .raised .none)).condition pwTempWarn = false ∧
    ((faulty pwTempWarn (src0 .raised .none)).srcAt pwTempWarn).mode = .raised ∧
    ((faulty pwTempWarn (src0 .raised .none)).srcAt pwTempWarn).walkCfg = some ⟨[3], 0, 1⟩ ∧
    (minBy (fun (w : Shadow) => w.end_.getD 0) (quietFaults.fc.shadows.filter (fun w => w.end_.isSome))).isSome = true ∧
    (minBy (fun (e : Nat × Src) => quietFaults.clearDue e.2) ((oall quietFaults.fc.src).filter
      (fun e => decide (e.2.mode = .settling) && decide (severityOf e.1 ≠ 4)))).map (fun e => e.1) = some pwTempWarn ∧
    (faulty 2 (src0 .clear .none)).fc.flashDue.isSome = true := by decide +kernel

/-- A throttle whose condition is gone. -/
def throttled : State := { live with pw := { live.pw with bgBy := [pwTempThrottle] } }

theorem witness_throttle : minBy (fun k => (throttled.srcAt k).clearAt) ((throttled.pw.bgBy ++ throttled.pw.dramBy).filter (fun k =>
    !throttled.condition k && decide ((throttled.srcAt k).mode ≠ .raised))) = some pwTempThrottle := by decide +kernel

/-- A device in DEEP, group 95 retained. -/
def asleep (x : PwState) : State := { live with pw := { live.pw with state := x, retain := 1#96 <<< 95 } }

theorem witness_supplies : live.pw.cold ≠ .held ∧ live.awake = true ∧ live.pw.droop = false ∧ live.pw.pwrFail = false ∧ live.fcRuns = true ∧
    live.pw.wake = none ∧ (40 : Int) ∈ List.replicate 16 (40 : Int) ∧ (∀ y ∈ List.replicate 16 (40 : Int), y ≤ 40) ∧ live.ck.sysLock = true ∧
    ({ live.ck with xtal := true } : Ck).xtal = true ∧ (asleep .deep).pw.state = .deep ∧ (asleep .deep).pw.retain.getLsbD 95 = true := by
  decide +kernel

/-- A device about to reach SLEEP, DEEP or OFF, or that still drains. -/
def entering (target step : Nat) : State := { live with pw := { live.pw with
  state := .entering, target := target, entry := some ⟨target, 1, step, false, 0, 5, none⟩, idleDelay := 7 } }

theorem witness_idle : ({ live with pw := { live.pw with idleDelay := 7 } } : State).mbReady = true ∧ live.pw.state = .run ∧ live.running = [] ∧
    live.mb.heldCmds = [] ∧ live.mb.sActive = [] ∧ live.mb.activating = false ∧ live.mb.reloading = false ∧
    (∀ h ∈ live.hp.fns, h.fcr = none) ∧ oall live.fc.src = [] ∧ live.fc.safe = false := by decide +kernel

theorem witness_power_states : (∀ x ∈ [1, 2, 3], (entering x 7).pw.entry = some ⟨x, 1, 7, false, 0, 5, none⟩) ∧
    (entering 2 1).pw.entry = some ⟨2, 1, 1, false, 0, 5, none⟩ ∧ (asleep .off).pw.state = .off ∧ (asleep .sleep).pw.state = .sleep ∧
    (asleep .sleep).fnExists 0 = true ∧ (asleep .sleep).linkLost 0 = false := by decide +kernel

theorem witness_wake_done : waking.pw.coarse = false ∧ waking.mb.heldCmds = [] ∧ (∀ h ∈ waking.hp.fns, h.held = [] ∧ h.link ≠ .l1) ∧
    waking.running = [] := by decide +kernel

theorem witness_start_up : State.reset.pw.cold = .held ∧ ({ live with pw := { live.pw with cold := .step 8 } } : State).pw.cold = .step 8 := by
  decide +kernel

/-! ### Witnesses of the clauses on entries, credits, ownership and link tables -/

/-- A staged command of session 1 may stage its object. -/
theorem can_stage {op obj lvl : Nat} {b : Bytes} (h : admitted staging .sideband op b = true) (h0 : rd b 0 2 = 1) :
    staging.CanStage .sideband op obj lvl b ⟨1, 15, [], ⟨[], 0⟩, 0⟩ where
  admits := admits h
  session := by rw [h0]; decide
  alone := fun y hy hne => by
    have : y = ⟨1, 15, [], ⟨[], 0⟩, 0⟩ := by simpa [staging] using hy
    exact absurd (by rw [this]) hne
  room := by simp

theorem witness_can_stage : staging.CanStage .sideband 0xC100 63 0 (inSession 26 63) ⟨1, 15, [], ⟨[], 0⟩, 0⟩ ∧
    staging.CanStage .sideband 0xC230 262143 0 (inSession 64 262143) ⟨1, 15, [], ⟨[], 0⟩, 0⟩ ∧
    staging.CanStage .sideband 0xC240 4095 2 (inSession 64 4095 2) ⟨1, 15, [], ⟨[], 0⟩, 0⟩ :=
  ⟨can_stage (by decide +kernel) (by decide), can_stage (by decide +kernel) (by decide), can_stage (by decide +kernel) (by decide)⟩

/-- A region that requesters 12 to 15 do not own. -/
def unowned : State := { live with rg := { live.rg with regions := [(0, some { someRegion 0 0 with owner := 0x0FFF })] } }

theorem witness_poison_owner : (holding.lineRegion 0).any (fun x => ownerHas x.2.1.owner 15) = true ∧
    (unowned.lineRegion 0).any (fun x => !ownerHas x.2.1.owner 15) = true ∧ unowned.ctrLine 0 = none ∧
    admitted unowned .sideband 0x4302 (pay 72 0) = true ∧ admitted unowned .sideband 0x4301 (pay 72 0) = true ∧
    rd (pay 72 0) 0 8 / 64 = 0 := by decide +kernel

theorem witness_clear : live.Clear ∧ decoding.Clear ∧ frozen.Clear ∧ decoding.portFull 0 = false ∧ live.portFull 0 = false ∧
    frozen.portFull 0 = false :=
  ⟨⟨by decide, by decide, by decide⟩, ⟨by decide, by decide, by decide⟩, ⟨by decide, by decide, by decide⟩, by decide, by decide, by decide⟩

theorem witness_entries : tiered.entryFree 10 = true ∧ mucking.entryFree 14 = true ∧ scrubbing.entryFree 11 = true ∧
    scrubbing.entryFree 13 = true ∧ fencedScrub.entryFree 11 = true ∧ (repairingState ⟨0, true, some (1, 3)⟩).entryFree 11 = true ∧
    sweeping.entryFree 12 = true ∧ (posted (descriptor 100 262143 252 0)).entryFree 8 = true ∧ queued.entryFree 8 = true ∧
    (counting (update 7 1)).entryFree 9 = true ∧ (events none).entryFree 9 = true := by decide +kernel

/-- An 8-decoder function with all but the last committed, one above the other. -/
def decoded : State := live.modFn 2 (fun h => { h with
  decoders := (List.range 7).map (fun i => ⟨⟨i * 2 ^ 28, 2 ^ 28, 1, 256, 0, 0, false, false⟩, true, false, i * 2 ^ 28⟩) ++ [Decoder.reset] })

theorem witness_decoder_order : (decoded.fnAt 2).inTurn 7 ⟨7 * 2 ^ 28, 2 ^ 28, 12, 256, 11, 0, false, false⟩ = true ∧
    (live.fnAt 2).inTurn 7 ⟨7 * 2 ^ 28, 2 ^ 28, 12, 256, 11, 0, false, false⟩ = false ∧
    (live.fnAt 2).inTurn 0 ⟨0, 2 ^ 28, 12, 256, 11, 0, false, false⟩ = true ∧
    decoderLegal ⟨7 * 2 ^ 28, 2 ^ 28, 12, 256, 11, 0, false, false⟩ = true ∧
    decoderLegal ⟨0, 2 ^ 28, 5, 256, 0, 0, false, false⟩ = false ∧ decoded.ioReach 2 = true ∧ (decoded.fnAt 2).decoders.length = 8 := by
  decide +kernel

/-- A port whose posted-write queue holds `n` entries. -/
def posting (n : Nat) : State := live.modPort 0 (fun p => { p with posted := [⟨0, 0, true, List.replicate (2 * n) (List.replicate 32 0)⟩] })

theorem witness_window_room : (live.portAt 0).stalled = [] ∧ ((posting 508).portAt 0).postedUsed = 508 ∧ ((posting 509).portAt 0).postedUsed = 509 ∧
    512 < 509 + (256 + 63) / 64 := by decide +kernel

theorem witness_link_width : unlinked.widthOk 0 16 = true ∧ unlinked.widthOk 0 2 = false := by decide

/-- Function 0 with an SPDM session. -/
def trusted : State := live.modFn 0 (fun h => { h with spdm := some 3 })

theorem witness_spdm : trusted.ioReach 0 = true ∧ (trusted.fnAt 0).spdm.isSome = true ∧ (trusted.fnAt 0).ideOff = false ∧
    (live.fnAt 0).spdm = none := by decide +kernel

theorem witness_flit_window : ((secured.fnAt 0).flitTimes.filter (fun x => decide (secured.now < x + 1000000)) ++ [secured.now]).length = 65 ∧
    ((live.fnAt 0).flitTimes.filter (fun x => decide (live.now < x + 1000000)) ++ [live.now]).length = 1 := by decide +kernel

theorem witness_room : (∀ x ∈ victims.rr.fetches, ∀ d p i, x.stage ≠ .room d p i) ∧ victims.ns.victims.length < 64 := by
  constructor
  · intro x hx; exact absurd hx (by simp [victims, live, State.reset])
  · decide

/-- The switch of page 1 to its frame, and of page 2 to the yard, before the switch is complete. -/
theorem witness_switches : (((tiered.pageRead 0 1 10).1.frameWrite 0 0 10 (granLines (tiered.pageRead 0 1 10).2)).pageGet 0 1 10).1.moveOf 0 1 =
      some ⟨0, 1, true, 0⟩ ∧
    ((((tiered.frameLines 0 2 1).1.storePage 0 2 (tiered.frameLines 0 2 1).2).1.pageGet 0 2 10).1.moveOf 0 2).isSome = true := by decide +kernel

theorem witness_muck_next : ({ mucking with cd := { mucking.cd with muckPos := 2046 } } : State).cd.muckPos + 1 < (someRegion 0 1).size / 512 := by
  decide

theorem witness_row_threshold : live.lp.rowThr ≤ 15 ∧ 1 < live.lp.rowThr ∧ (∀ x ∈ scrubbing.lp.rows, x.count < scrubbing.lp.rowThr) := by decide

theorem witness_retry_room : live.retryFull 11 1 1 = false ∧ live.retryFull 11 0 1 = false := by decide +kernel

theorem witness_population_legal : fullRetraining.popOk 11 = true := by decide +kernel

/-- The packet selected, every access of its read having an entry. -/
def entered : State := { reading with qe := { reading.qe with deq := [{ selected with entries := 5 }] } }

theorem witness_dequeue_entries : entered.qe.deq.find? (fun d => d.queue == 262143 && !d.read && decide (d.entries ≠ 0)) =
    some { selected with entries := 5 } ∧ (∀ x ∈ entered.qe.deq, x.read = false → x.entries ≠ 0) ∧
    (entered.readPacket { selected with entries := 5 }).2.2 = none ∧
    headerOk (entered.readPacket { selected with entries := 5 }).2.1 1 = true ∧ entered.egressOf 262143 = none ∧
    entered.enginesRun = true ∧ entered.cellFenced 0 = false := by decide +kernel

theorem witness_push_link : pushing.linkL0 0 = true ∧ pushing.pushOpen 0 = true := by decide +kernel

/-- The steps of a cold start. -/
def starting (k : Nat) : State := { live with pw := { live.pw with cold := .step k } }

theorem witness_steps : (∀ k ∈ [0, 1, 2, 3, 4, 5, 6, 8], (starting k).pw.cold = .step k) ∧ (starting 6).anyTraining = false := by decide +kernel

theorem witness_requester : live.hasRequester 0 = true ∧ live.hasRequester 15 = true ∧ live.hasRequester 4 = false := by decide

theorem witness_throttle_limit : thermalHolds false thermalLimits.2.1 200 = true := by unfold thermalLimits; split <;> decide

theorem witness_recovery_empty : (recovering.fnAt 0).link = .recovery ∧ (recovering.fnAt 0).held = [] := by decide +kernel

theorem witness_patrol : live.chanLines 11 ≠ 0 ∧ live.enginesRun = true ∧ (11, 5) :: [] = scrubbing.lp.demandQ := by decide +kernel

end Sys2Proof.Tests
end

section
/-! PROOFS. How links train, recover and go down (02 R54, R55, R92, R95, R98). Most of what happens when a link changes state touches rings,
pushes, messages and held requests, and nothing that says how a link stands: `State.KeepsLinks` says so once for each operation, and what a
command does to the link itself is then one change of one function. -/

namespace Sys2Proof.Machine
open Sys2Proof

/-! ### What says how a link stands -/

/-- A function apart from its rings' progress and contents, and from what is held or pending for it. -/
def HostFn.bare (h : HostFn) : HostFn :=
  { h.essence with answers := [], held := [], withheld := [], freeRings := [], egress := [], kept := [] }

/-- From `s` to `t` every function but for its rings and what is held for it stays as it was, and so do the levels of PERST_N; and a state
in which nothing waits for a host remains one. -/
structure State.KeepsLinks (s t : State) : Prop where
  fns    : ∀ g, (t.fnAt g).bare = (s.fnAt g).bare
  number : t.hp.fns.length = s.hp.fns.length
  perst  : ∀ p, (t.portAt p).perst = (s.portAt p).perst
  quiet  : s.Quiet → t.Quiet

namespace State.KeepsLinks

variable {s t u : State}

@[refl] theorem refl (s : State) : s.KeepsLinks s := ⟨fun _ => rfl, rfl, fun _ => rfl, id⟩

@[trans] theorem trans (h : s.KeepsLinks t) (k : t.KeepsLinks u) : s.KeepsLinks u :=
  ⟨fun g => (k.fns g).trans (h.fns g), k.number.trans h.number, fun p => (k.perst p).trans (h.perst p), k.quiet ∘ h.quiet⟩

theorem link (h : s.KeepsLinks t) (g : Nat) : (t.fnAt g).link = (s.fnAt g).link :=
  (congrArg HostFn.link (h.fns g) :)

theorem slow (h : s.KeepsLinks t) (g : Nat) : (t.fnAt g).slow = (s.fnAt g).slow :=
  (congrArg HostFn.slow (h.fns g) :)

theorem gts (h : s.KeepsLinks t) (g : Nat) : (t.fnAt g).gts = (s.fnAt g).gts :=
  (congrArg HostFn.gts (h.fns g) :)

theorem width (h : s.KeepsLinks t) (g : Nat) : (t.fnAt g).width = (s.fnAt g).width :=
  (congrArg HostFn.width (h.fns g) :)

theorem mps (h : s.KeepsLinks t) (g : Nat) : (t.fnAt g).mps = (s.fnAt g).mps :=
  (congrArg HostFn.mps (h.fns g) :)

theorem bme (h : s.KeepsLinks t) (g : Nat) : (t.fnAt g).bme = (s.fnAt g).bme :=
  (congrArg HostFn.bme (h.fns g) :)

theorem lost (h : s.KeepsLinks t) (g : Nat) : (t.fnAt g).lost = (s.fnAt g).lost :=
  (congrArg HostFn.lost (h.fns g) :)

theorem fnExists (h : s.KeepsLinks t) (g : Nat) : t.fnExists g = s.fnExists g :=
  (congrArg HostFn.exist (h.fns g) :)

/-- A function without a fast command ring has none. -/
theorem fcr_none (h : s.KeepsLinks t) {g : Nat} (hg : (s.fnAt g).fcr = none) : (t.fnAt g).fcr = none := by
  have e : (t.fnAt g).fcr.map Fcr.essence = (s.fnAt g).fcr.map Fcr.essence := congrArg HostFn.fcr (h.fns g)
  rw [hg] at e
  exact Option.map_eq_none_iff.mp e

/-- An operation outside the host functions and ports. -/
theorem of_hp (hp : t.hp = s.hp) (quiet : s.Quiet → t.Quiet) : s.KeepsLinks t :=
  ⟨fun g => by rw [State.fnAt, hp]; rfl, by rw [hp], fun p => by rw [State.portAt, hp]; rfl, quiet⟩

theorem foldl {α : Type} {step : State → α → State} (h : ∀ (s : State) x, s.KeepsLinks (step s x)) (l : List α) (s : State) :
    s.KeepsLinks (l.foldl step s) := by
  induction l generalizing s with
  | nil => exact refl s
  | cons x l ih => exact (h s x).trans (ih _)

end State.KeepsLinks

/-! ### Quiet states -/

theorem State.Quiet.congr {s t : State} (h : s.Quiet) (ce : t.ce = s.ce) (deq : t.qe.deq = s.qe.deq)
    (short : t.mb.sActive = s.mb.sActive) (ops : t.mb.ops = s.mb.ops) : t.Quiet :=
  ⟨by rw [ce]; exact h.updates, by rw [ce]; exact h.held, deq.trans h.pushes, short.trans h.short, by rw [ops]; exact h.long⟩

/-- In a quiet state no push is under way to any function. -/
theorem State.Quiet.pushesTo {s : State} (h : s.Quiet) (f : Nat) : s.pushesTo f = [] := by
  rw [State.pushesTo, h.pushes]; rfl

theorem State.ceResume_of_none {s : State} (h : s.ce.waiting = []) : s.ceResume = s := by
  rw [State.ceResume, h, List.foldl_nil, ← h]

theorem State.ctrResume_of_none {s : State} (h : s.ce.held = []) : s.ctrResume = s := by
  rw [State.ctrResume, h, List.foldl_nil, ← h]

theorem State.resumeRanges_of_none {s : State} (h : s.mb.sActive = []) : s.resumeRanges = s := by
  rw [State.resumeRanges, h, List.foldl_nil]

/-- In a quiet state nothing goes on once snoops are answered. -/
theorem State.Quiet.resume {s : State} (h : s.Quiet) : s.ceResume.ctrResume.resumeRanges = s := by
  rw [State.ceResume_of_none h.updates, State.ctrResume_of_none h.held, State.resumeRanges_of_none h.short]

/-! ### What the operations keep -/

theorem HostFn.bare_of_essence {h k : HostFn} (e : h.essence = k.essence) : h.bare = k.bare := by
  rw [HostFn.bare, HostFn.bare, e]

/-- What leaves the essence of a state as it is: sending, counting, vectors, causes, held writes, ring fetches. -/
theorem State.KeepsLinks.of_essence {s t : State} (h : t.essence = s.essence) : s.KeepsLinks t where
  fns g := HostFn.bare_of_essence (State.fnAt_of_essence h g)
  number := State.fns_length_of_essence h
  perst p := by rw [State.portAt, State.ports_of_essence h]; rfl
  quiet q := q.congr (State.ce_of_essence h) (by rw [State.qe_of_essence h]) (by rw [State.mb_of_essence h]) (by rw [State.mb_of_essence h])

theorem State.fnAt_modFn (s : State) (f g : Nat) (c : HostFn → HostFn) :
    (s.modFn f c).fnAt g = if g = f ∧ f < s.hp.fns.length then c (s.fnAt g) else s.fnAt g := by
  split_ifs with h
  · obtain ⟨rfl, hg⟩ := h
    exact State.fnAt_modFn_same s c hg
  · by_cases e : g = f
    · subst e
      have hg : s.hp.fns.length ≤ g := not_lt.mp fun hg => h ⟨rfl, hg⟩
      simp [State.fnAt, State.modFn, lmod, List.getD_eq_getElem?_getD, List.getElem?_eq_none hg]
    · exact State.fnAt_modFn_other s c e

@[simp] theorem State.quiet_modFn {s : State} (f : Nat) (c : HostFn → HostFn) : (s.modFn f c).Quiet ↔ s.Quiet :=
  ⟨fun h => h.congr rfl rfl rfl rfl, fun h => h.congr rfl rfl rfl rfl⟩

/-- The same change of a function on both sides, which looks at no ring of it and at nothing held for it. -/
theorem State.KeepsLinks.modFn {s t : State} (h : s.KeepsLinks t) (f : Nat) {c : HostFn → HostFn}
    (hc : ∀ x, (c x).bare = (c x.bare).bare) : (s.modFn f c).KeepsLinks (t.modFn f c) where
  fns g := by
    rw [State.fnAt_modFn, State.fnAt_modFn, h.number]
    split_ifs
    · rw [hc, h.fns, ← hc]
    · exact h.fns g
  number := by simpa only [State.modFn, length_lmod] using h.number
  perst := h.perst
  quiet q := (State.quiet_modFn f c).mpr (h.quiet ((State.quiet_modFn f c).mp q))

/-- Two changes of a function that differ in its rings, or in what is held for it. -/
theorem State.keepsLinks_modFn_of_bare (s : State) (f : Nat) {c d : HostFn → HostFn} (hcd : ∀ x, (d x).bare = (c x).bare) :
    (s.modFn f c).KeepsLinks (s.modFn f d) where
  fns g := by
    rw [State.fnAt_modFn, State.fnAt_modFn]
    split_ifs
    · exact hcd _
    · rfl
  number := by simp only [State.modFn, length_lmod]
  perst _ := rfl
  quiet q := (State.quiet_modFn f d).mpr ((State.quiet_modFn f c).mp q)

theorem State.modFn_id (s : State) (f : Nat) : s.modFn f id = s := by
  simp only [State.modFn, lmod, List.modify_id]

/-- A change of a function's rings, or of what is held for it. -/
theorem State.keepsLinks_modFn (s : State) (f : Nat) {c : HostFn → HostFn} (hc : ∀ x, (c x).bare = x.bare) :
    s.KeepsLinks (s.modFn f c) := by
  simpa only [State.modFn_id] using s.keepsLinks_modFn_of_bare f (c := id) hc

theorem State.modFn_modFn (s : State) (f : Nat) (b c : HostFn → HostFn) : (s.modFn f b).modFn f c = s.modFn f (c ∘ b) := by
  simp only [State.modFn, lmod, List.modify_modify_eq]

theorem State.keepsLinks_report (s : State) (source detail : Nat) (req : Option Nat) : s.KeepsLinks (s.report source detail req) :=
  .of_hp rfl fun q => q.congr rfl rfl rfl rfl

theorem State.keepsLinks_flashShadow (s : State) (node src : Nat) : s.KeepsLinks (s.flashShadow node src) :=
  .of_hp rfl fun q => q.congr rfl rfl rfl rfl

theorem State.keepsLinks_setCells (s : State) (first n st : Nat) : s.KeepsLinks (s.setCells first n st) :=
  .of_hp rfl fun q => q.congr rfl rfl rfl rfl

theorem State.keepsLinks_endSessionsOf (s : State) (w : Nat) : s.KeepsLinks (s.endSessionsOf w) :=
  .of_hp rfl fun q => q.congr rfl rfl rfl rfl

/-- The parts that bringing the scheduler up to date may change. -/
theorem State.schedSync_parts (s : State) : Keeps (· ∈ [.sc, .pm]) s s.schedSync :=
  State.schedSync_keeps (.refl _ s) (by decide) (by decide)

theorem State.schedSync_hp (s : State) : s.schedSync.hp = s.hp := s.schedSync_parts.same .hp (by decide)

theorem State.keepsLinks_schedSync (s : State) : s.KeepsLinks s.schedSync := by
  have k := s.schedSync_parts
  have qe : s.schedSync.qe = s.qe := k.same .qe (by decide)
  have mb : s.schedSync.mb = s.mb := k.same .mb (by decide)
  exact .of_hp s.schedSync_hp fun q => q.congr (k.same .ce (by decide)) (by rw [qe]) (by rw [mb]) (by rw [mb])

theorem State.keepsLinks_poolCheck (s : State) : s.KeepsLinks s.poolCheck := by
  refine .foldl (fun s b => ?_) _ _
  dsimp only
  split_ifs
  · exact .of_hp rfl fun q => q.congr rfl rfl rfl rfl
  · exact .of_hp rfl fun q => q.congr rfl rfl rfl rfl
  · exact .refl s

theorem State.keepsLinks_dropFreeRing (s : State) (f m : Nat) (give : Bool) : s.KeepsLinks (s.dropFreeRing f m give) := by
  unfold State.dropFreeRing
  split
  · exact .refl s
  · have drop := s.keepsLinks_modFn f (c := fun h => { h with freeRings := oset h.freeRings m none }) fun _ => rfl
    dsimp only
    split_ifs
    · refine drop.trans ((State.KeepsLinks.foldl (fun s p => ?_) _ _).trans (State.keepsLinks_poolCheck _))
      split_ifs
      · exact s.keepsLinks_setCells ..
      · exact .refl s
    · exact drop

theorem State.keepsLinks_dropEgress {s : State} (q : s.Quiet) (f n : Nat) : s.KeepsLinks (s.dropEgress f n) :=
  (s.keepsLinks_modFn f (c := fun h => { h with egress := oset h.egress n none }) fun _ => rfl).trans
    (.of_hp rfl fun _ => q.congr rfl (by simp [State.dropEgress, q.pushes]) rfl rfl)

theorem State.keepsLinks_dropHeld (s : State) (f : Nat) : s.KeepsLinks (s.dropHeld f) := by
  have drop := s.keepsLinks_modFn f (c := fun h => { h with held := [], heldW := [], withheld := [], answers := [] }) fun _ => rfl
  refine drop.trans ⟨fun _ => rfl, rfl, fun p => ?_, fun q => q.congr rfl rfl rfl rfl⟩
  simp only [State.dropHeld, State.dropReads, State.portAt, List.getD_eq_getElem?_getD, List.getElem?_map]
  cases (s.modFn f _).hp.ports[p]? <;> rfl

theorem State.keepsLinks_peerPath (s : State) (f : Nat) : s.KeepsLinks (s.peerPath f) :=
  .foldl (fun s g => .of_essence (s.essence_cause g 7)) _ _

theorem State.keepsLinks_flushAnswers (s : State) (f : Nat) : s.KeepsLinks (s.flushAnswers f) :=
  (s.keepsLinks_modFn f (c := fun h => { h with answers := [] }) fun _ => rfl).trans
    (.foldl (fun s o => .of_essence (s.essence_emit o)) _ _)

theorem State.keepsLinks_resumeFn (s : State) (f : Nat) : s.KeepsLinks (s.resumeFn f) :=
  .trans (.of_essence (by rw [State.essence_fetchRing, State.essence_flushWrites, State.essence_flushVectors]))
    (State.keepsLinks_schedSync _)

/-- A change of a port that is not one of its PERST_N. -/
theorem State.keepsLinks_modPort (s : State) (p : Nat) {c : Port → Port} (hc : ∀ x, (c x).perst = x.perst) :
    s.KeepsLinks (s.modPort p c) := by
  refine ⟨fun _ => rfl, rfl, fun p => ?_, fun q => q.congr rfl rfl rfl rfl⟩
  simp only [State.portAt, State.modPort, lmod, List.getD_eq_getElem?_getD, List.getElem?_modify]
  cases s.hp.ports[p]? with
  | none => rfl
  | some x => simp only [Option.map_eq_map, Option.map_some, Option.getD_some]; split_ifs <;> simp only [hc]

theorem State.keepsLinks_snoopsGone {s : State} (q : s.Quiet) (f : Nat) : s.KeepsLinks (s.snoopsGone f) := by
  have gone := s.keepsLinks_modPort (portOf f) (c := fun p => { p with snoops := p.snoops.filter (fun x => x.1 != f) }) fun _ => rfl
  rw [State.snoopsGone, (gone.quiet q).resume]
  exact gone

/-! ### What a reset, a loss and a training of a link do to its function -/

/-- The fast command ring of a function is gone. -/
def HostFn.clearFcr (h : HostFn) : HostFn := { h with fcr := none, fcrProd := 0, fcrCons := 0, fcrHalted := false }

/-- A function whose link is reset (02 R92). -/
def HostFn.linkReset (x : LinkState) (h : HostFn) : HostFn := h.clearFcr.clearPort x

/-- A function whose link is lost without a reset (02 R95). -/
def HostFn.surpriseDown (h : HostFn) : HostFn :=
  { h with link := .down, slow := false, latOpt := false, gts := 0, width := 0, memInfo := false, flitTimes := [], lost := true
           fcr := none, fcrHalted := false }

/-- Whether a link serves CXL.io only (02 R54, R55). -/
def slowLink (c : LinkCfg) : Bool := c.flit68 || decide (c.gts < 16)

/-- A function whose link has trained (02 R53 to R55). -/
def HostFn.trained (c : LinkCfg) (h : HostFn) : HostFn :=
  { h with link := .l0, slow := slowLink c, latOpt := c.latOpt, gts := c.gts, width := c.width, mps := c.mps, memInfo := true, lost := false }

/-- A function whose link is back in L0. -/
def HostFn.inL0 (h : HostFn) : HostFn := { h with link := .l0 }

/-! ### What the operations on links do -/

theorem State.keepsLinks_discardPushes {s : State} (q : s.Quiet) (f : Nat) : s.KeepsLinks (s.discardPushes f) := by
  rw [State.discardPushes, q.pushesTo f]
  exact .refl s

theorem State.keepsLinks_failPushes {s : State} (q : s.Quiet) (f : Nat) : s.KeepsLinks (s.failPushes f) := by
  rw [State.failPushes, q.pushesTo f]
  exact s.keepsLinks_modFn f fun _ => rfl

/-- A fold over operations each of which keeps the links of a quiet state. -/
theorem State.KeepsLinks.foldl_quiet {α : Type} {step : State → α → State} (h : ∀ (s : State) x, s.Quiet → s.KeepsLinks (step s x))
    (l : List α) {s : State} (q : s.Quiet) : s.KeepsLinks (l.foldl step s) := by
  induction l generalizing s with
  | nil => exact .refl s
  | cons x l ih => exact (h s x q).trans (ih ((h s x q).quiet q))

/-- Of what says how a link stands, clearing the rings of a function changes its fast command ring. -/
theorem State.keepsLinks_clearRings {s : State} (q : s.Quiet) (f : Nat) (keep : Bool) :
    (s.modFn f HostFn.clearFcr).KeepsLinks (s.clearRings f keep) := by
  have pushes := State.keepsLinks_discardPushes q f
  have free := pushes.trans (.foldl (fun s e => s.keepsLinks_dropFreeRing f e.1 true) (oall (s.fnAt f).freeRings) _)
  have egress := free.trans
    (.foldl_quiet (fun s e q => State.keepsLinks_dropEgress q f e.1) (oall (s.fnAt f).egress) (free.quiet q))
  exact (egress.modFn f (c := HostFn.clearFcr) fun _ => rfl).trans (State.keepsLinks_modFn_of_bare _ f fun _ => rfl)

/-- The reset of a link looks at no ring of its function and at nothing held for it. -/
theorem HostFn.bare_clearPort (h : HostFn) (x : LinkState) : (h.clearPort x).bare = (h.bare.clearPort x).bare := by
  have ring : (h.fcr.map Fcr.essence).map Fcr.essence = h.fcr.map Fcr.essence := by rw [Option.map_map]; rfl
  simp only [HostFn.bare, HostFn.essence, HostFn.clearPort, HostFn.clearIo, ring]

theorem State.keepsLinks_linkReset {s : State} (q : s.Quiet) {f : Nat} (hf : s.fnExists f = true) (x : LinkState) :
    (s.modFn f (HostFn.linkReset x)).KeepsLinks (s.linkReset f x) := by
  rw [State.linkReset, hf, if_neg (by decide)]
  have port := (State.keepsLinks_clearRings q f true).modFn f fun h => h.bare_clearPort x
  rw [State.modFn_modFn] at port
  have ended := port.trans ((State.keepsLinks_dropHeld _ f).trans (State.keepsLinks_endSessionsOf _ f))
  have quiet := ended.quiet ((State.quiet_modFn f _).mpr q)
  exact ended.trans ((State.keepsLinks_snoopsGone quiet f).trans (State.keepsLinks_schedSync _))

theorem State.keepsLinks_linkGoes {s : State} (q : s.Quiet) {f : Nat} (hf : s.fnExists f = true) (x : LinkState) :
    (s.modFn f (HostFn.linkReset x)).KeepsLinks (s.linkGoes f x) := by
  have reset := State.keepsLinks_linkReset q hf x
  rw [State.linkGoes, hf, if_neg (by decide)]
  split_ifs
  · exact reset
  · exact reset.trans ((State.keepsLinks_flashShadow ..).trans ((State.keepsLinks_report ..).trans (State.keepsLinks_peerPath ..)))

theorem keepsLinks_surpriseDown {s : State} (q : s.Quiet) {f : Nat} (hf : s.fnExists f = true) (up : s.linkLost f = false) :
    (s.modFn f HostFn.surpriseDown).KeepsLinks (surpriseDown f s) := by
  have quiet := (State.quiet_modFn f HostFn.surpriseDown).mpr q
  have held := (State.keepsLinks_failPushes quiet f).trans (State.keepsLinks_dropHeld _ f)
  have gone := held.trans ((State.keepsLinks_snoopsGone (held.quiet quiet) f).trans (State.keepsLinks_schedSync _))
  rw [surpriseDown, hf, up, if_neg (by decide)]
  exact gone.trans ((State.keepsLinks_flashShadow ..).trans ((State.keepsLinks_report ..).trans (State.keepsLinks_peerPath ..)))

/-- A link that goes down by a reset: it is in the state the reset names, without Bus Master Enable and fast command ring. -/
theorem State.linkGoes_link {s : State} (q : s.Quiet) {f : Nat} (hf : s.fnExists f = true) (x : LinkState) :
    ((s.linkGoes f x).fnAt f).link = x ∧ ((s.linkGoes f x).fnAt f).bme = false ∧ ((s.linkGoes f x).fnAt f).fcr = none := by
  have k := State.keepsLinks_linkGoes q hf x
  have e : (s.modFn f (HostFn.linkReset x)).fnAt f = (s.fnAt f).linkReset x := State.fnAt_modFn_same s _ (s.fn_lt hf)
  exact ⟨by rw [k.link, e]; rfl, by rw [k.bme, e]; rfl, k.fcr_none (by rw [e]; rfl)⟩

/-- A link that is down stays so while other links are reset. -/
theorem State.linkGoes_other {s : State} (q : s.Quiet) {f g : Nat} (hf : s.fnExists f = true) (hg : (s.fnAt g).link = .down) :
    ((s.linkGoes f .down).fnAt g).link = .down := by
  by_cases e : g = f
  · subst e
    exact (State.linkGoes_link q hf .down).1
  · rw [(State.keepsLinks_linkGoes q hf .down).link, State.fnAt_modFn_other s _ e, hg]

/-! ### A link that trains (02 R53 to R55) -/

/-- A function whose link is not down is one of the four. -/
theorem State.fn_lt_of_link {s : State} {f : Nat} (h : (s.fnAt f).link ≠ .down) : f < s.hp.fns.length := by
  by_contra hf
  rw [State.fnAt, List.getD_eq_getElem?_getD, List.getElem?_eq_none (not_lt.mp hf)] at h
  exact h rfl

/-- The links of a port train only while the mailboxes are ready and the device is neither in DEEP nor in OFF. -/
theorem State.mayTrain_awake {s : State} {p : Nat} (h : s.mayTrain p = true) :
    s.mbReady = true ∧ s.pw.state ≠ .deep ∧ s.pw.state ≠ .off := by
  simp only [State.mayTrain, Bool.and_eq_true] at h
  obtain ⟨⟨⟨-, ready⟩, -⟩, power⟩ := h
  refine ⟨ready, fun e => ?_, fun e => ?_⟩ <;> simp [e] at power

/-- A function is reached on CXL.io while its link is up, the mailboxes are ready and the device is neither in DEEP nor in OFF (02 R58). -/
theorem State.ioReach_of_link {s : State} {f : Nat} (hf : s.fnExists f = true) (up : s.linkLost f = false) (ready : s.mbReady = true)
    (deep : s.pw.state ≠ .deep) (off : s.pw.state ≠ .off) : s.ioReach f = true := by
  rw [State.ioReach, hf, up, ready]
  cases e : s.pw.state with
  | deep => exact absurd e deep
  | off => exact absurd e off
  | _ => rfl

/-- On a slow link no request of CXL.mem reaches the device (02 R54, R55). -/
theorem State.gate_of_slow {s : State} {q : MemReq} (h : (s.fnAt q.fn).slow = true) : s.gate q = .lost := by
  simp [State.gate, h]

/-- The parts that change when a link comes up, beside the reports. -/
theorem State.peerPath_resumeFn_parts (s : State) (f : Nat) : Keeps (· ∈ [.out, .hp, .sc, .pm]) s ((s.peerPath f).resumeFn f) :=
  State.resumeFn_keeps (State.peerPath_keeps (.refl _ s) f (by decide) (by decide)) f (by decide) (by decide) (by decide) (by decide)

section
variable {s : State} {f : Nat} {c : LinkCfg} (hf : s.fnExists f = true) (down : s.linkLost f = true)
  (may : s.mayTrain (portOf f) = true) (ok : c.ltssmOk = true) (wide : s.widthOk f c.width = true)
include hf down may ok wide

/-- What LINK_UP does where the link may train. -/
theorem linkUp_eq :
    linkUp f c s = ((if slowLink c then (s.modFn f (HostFn.trained c)).report (hpCxlUnavailable (portOf f)) f (some f)
      else s.modFn f (HostFn.trained c)).peerPath f).resumeFn f := by
  rw [linkUp, hf, down, may, ok, wide, if_neg (by decide)]
  rfl

theorem keepsLinks_linkUp : (s.modFn f (HostFn.trained c)).KeepsLinks (linkUp f c s) := by
  rw [linkUp_eq hf down may ok wide]
  refine .trans ?_ ((State.keepsLinks_peerPath ..).trans (State.keepsLinks_resumeFn ..))
  split_ifs
  · exact State.keepsLinks_report ..
  · exact .refl _

/-- A slow link raises HP_CXL_UNAVAILABLE on the control node of its port (02 R54, R55). -/
theorem linkUp_reported (slow : slowLink c = true) : s.Reported (linkUp f c s) (hpCxlUnavailable (portOf f)) := by
  rw [linkUp_eq hf down may ok wide, if_pos slow]
  exact ⟨_, _, by rw [(State.peerPath_resumeFn_parts _ f).same .fc (by decide)]; rfl, List.mem_singleton_self _, rfl⟩

/-- A link that comes up serves CXL.io. -/
theorem linkUp_ioReach : (linkUp f c s).ioReach f = true := by
  have k := keepsLinks_linkUp hf down may ok wide
  have e : (s.modFn f (HostFn.trained c)).fnAt f = (s.fnAt f).trained c := State.fnAt_modFn_same s _ (s.fn_lt hf)
  have pw : (linkUp f c s).pw = s.pw := (linkUp_keeps (F := (· ∈ [.out, .hp, .sc, .fc, .pm])) (.refl _ s) f c
    (by decide) (by decide) (by decide) (by decide) (by decide)).same .pw (by decide)
  obtain ⟨ready, deep, off⟩ := State.mayTrain_awake may
  refine State.ioReach_of_link ?_ ?_ ?_ (by rwa [pw]) (by rwa [pw])
  · rw [k.fnExists, State.fnExists, e]; exact hf
  · rw [State.linkLost, k.link, e]; rfl
  · rw [← ready, State.mbReady, pw]; rfl

/-- Training of a link: its state, Max Payload Size, rate and width; a slow link serves CXL.io only (02 R53 to R55). -/
theorem linkUp_trains :
    ∃ t, exec (.linkUp f c) s = .next t ∧ (t.fnAt f).link = .l0 ∧ (t.fnAt f).mps = c.mps ∧ (t.fnAt f).gts = c.gts ∧
      (t.fnAt f).width = c.width ∧
      ((c.flit68 = true ∨ c.gts < 16) → s.Reported t (hpCxlUnavailable (portOf f)) ∧ t.ioReach f = true ∧
        ∀ q : MemReq, q.fn = f → t.gate q = .lost) := by
  have k := keepsLinks_linkUp hf down may ok wide
  have e : (s.modFn f (HostFn.trained c)).fnAt f = (s.fnAt f).trained c := State.fnAt_modFn_same s _ (s.fn_lt hf)
  refine ⟨linkUp f c s, rfl, by rw [k.link, e]; rfl, by rw [k.mps, e]; rfl, by rw [k.gts, e]; rfl, by rw [k.width, e]; rfl, fun h => ?_⟩
  have slow : slowLink c = true := by simpa [slowLink] using h
  refine ⟨linkUp_reported hf down may ok wide slow, linkUp_ioReach hf down may ok wide, ?_⟩
  rintro q rfl
  exact State.gate_of_slow (by rw [k.slow, e]; exact slow)

end

/-! ### Recovery (02 R98) -/

theorem recoveryEntry_link {s : State} {f : Nat} (h : s.linkL0 f = true) :
    ∃ t, exec (.linkRecoveryEntry f) s = .next t ∧ (t.fnAt f).link = .recovery ∧ ∀ g, g ≠ f → t.fnAt g = s.fnAt g := by
  have l0 : (s.fnAt f).link = .l0 := of_decide_eq_true h
  have hf : f < s.hp.fns.length := State.fn_lt_of_link (by rw [l0]; decide)
  refine ⟨recoveryEntry f s, rfl, ?_, fun g hg => ?_⟩ <;> rw [recoveryEntry, if_pos h]
  · rw [State.fnAt_modFn_same s _ hf]
  · exact State.fnAt_modFn_other s _ hg

/-- What is held for a function belongs to the essence of a state. -/
theorem State.held_of_essence {s t : State} (h : t.essence = s.essence) (g : Nat) : (t.fnAt g).held = (s.fnAt g).held :=
  (congrArg HostFn.held (State.fnAt_of_essence h g) :)

theorem State.schedSync_fnAt (s : State) (g : Nat) : s.schedSync.fnAt g = s.fnAt g := by
  rw [State.fnAt, State.schedSync_hp, State.fnAt]

/-- Nothing held for a function is released while its messages, writes and fetches go out. -/
theorem State.resumeFn_held (s : State) (f g : Nat) : ((s.resumeFn f).fnAt g).held = (s.fnAt g).held := by
  rw [State.resumeFn, State.schedSync_fnAt]
  exact State.held_of_essence (by rw [State.essence_fetchRing, State.essence_flushWrites, State.essence_flushVectors]) g

theorem State.flushAnswers_held (s : State) (f g : Nat) : ((s.flushAnswers f).fnAt g).held = (s.fnAt g).held := by
  rw [State.flushAnswers, State.held_of_essence (State.essence_foldl _ State.essence_emit _ _), State.fnAt_modFn]
  split_ifs <;> rfl

/-- A function for which no request is held releases none. -/
theorem State.keepsLinks_releaseHeld {s : State} {f : Nat} (h : (s.fnAt f).held = []) : s.KeepsLinks (s.releaseHeld f) := by
  rw [State.releaseHeld, h]
  exact s.keepsLinks_modFn f fun _ => rfl

/-- What the end of recovery does before the requests that hosts kept enter. -/
def State.linkResumed (s : State) (f : Nat) : State := (((s.modFn f HostFn.inL0).flushAnswers f).resumeFn f).releaseHeld f

theorem State.keepsLinks_linkResumed {s : State} {f : Nat} (h : (s.fnAt f).held = []) :
    (s.modFn f HostFn.inL0).KeepsLinks (s.linkResumed f) := by
  refine (State.keepsLinks_flushAnswers ..).trans ((State.keepsLinks_resumeFn ..).trans (State.keepsLinks_releaseHeld ?_))
  rw [State.resumeFn_held, State.flushAnswers_held, State.fnAt_modFn]
  split_ifs <;> exact h

theorem recoveryExit_link {s : State} {f : Nat} (h : (s.fnAt f).link = .recovery) (held : (s.fnAt f).held = []) :
    ∃ t : State, exec (.linkRecoveryExit f) s = .next t.enterKept ∧ (t.fnAt f).link = .l0 := by
  have hf : f < s.hp.fns.length := State.fn_lt_of_link (by rw [h]; decide)
  have back : recoveryExit f s = (s.linkResumed f).enterKept := by rw [recoveryExit, if_pos h]; rfl
  refine ⟨s.linkResumed f, congrArg Host.Outcome.next back, ?_⟩
  rw [(State.keepsLinks_linkResumed held).link, State.fnAt_modFn_same s _ hf]
  rfl

/-! ### The ways a link goes down (02 R92, R95) -/

/-- A link that goes down by a reset: it is in the state the reset names, without Bus Master Enable and fast command ring. -/
theorem linkResetBy_link {s : State} (q : s.Quiet) {f : Nat} (hf : s.fnExists f = true) (up : s.linkLost f = false) (x : LinkState) :
    ((linkResetBy f x s).fnAt f).link = x ∧ ((linkResetBy f x s).fnAt f).bme = false ∧ ((linkResetBy f x s).fnAt f).fcr = none := by
  rw [linkResetBy, up, if_neg (by decide)]
  exact State.linkGoes_link q hf x

theorem surpriseDown_link {s : State} (q : s.Quiet) {f : Nat} (hf : s.fnExists f = true) (up : s.linkLost f = false) :
    ((surpriseDown f s).fnAt f).link = .down ∧ ((surpriseDown f s).fnAt f).lost = true ∧
      ((surpriseDown f s).fnAt f).bme = (s.fnAt f).bme := by
  have k := keepsLinks_surpriseDown q hf up
  have e : (s.modFn f HostFn.surpriseDown).fnAt f = (s.fnAt f).surpriseDown := State.fnAt_modFn_same s _ (s.fn_lt hf)
  exact ⟨by rw [k.link, e]; rfl, by rw [k.lost, e]; rfl, by rw [k.bme, e]; rfl⟩

/-! ### PERST_N -/

/-- The reset of links that exist leaves PERST_N and which functions exist, and a quiet state quiet. -/
theorem State.linkGoes_rest {s : State} (q : s.Quiet) {f : Nat} (hf : s.fnExists f = true) :
    (s.linkGoes f .down).Quiet ∧ (∀ p, ((s.linkGoes f .down).portAt p).perst = (s.portAt p).perst) ∧
      ∀ g, (s.linkGoes f .down).fnExists g = s.fnExists g := by
  have k := State.keepsLinks_linkGoes q hf .down
  refine ⟨k.quiet ((State.quiet_modFn f _).mpr q), k.perst, fun g => ?_⟩
  rw [k.fnExists, State.fnExists, State.fnAt_modFn]
  split_ifs <;> rfl

/-- Links that are reset one after the other are all down, with those that were; and PERST_N stays as it was. -/
theorem State.linksGo_down (l : List Nat) {s : State} (q : s.Quiet) (hl : ∀ f ∈ l, s.fnExists f = true) :
    (∀ p, ((l.foldl (fun s f => s.linkGoes f .down) s).portAt p).perst = (s.portAt p).perst) ∧
      ∀ g, g ∈ l ∨ (s.fnAt g).link = .down → ((l.foldl (fun s f => s.linkGoes f .down) s).fnAt g).link = .down := by
  induction l generalizing s with
  | nil => exact ⟨fun _ => rfl, fun g hg => hg.resolve_left List.not_mem_nil⟩
  | cons f l ih =>
    have hf := hl f (List.mem_cons_self ..)
    obtain ⟨quiet, perst, exist⟩ := State.linkGoes_rest q hf
    obtain ⟨rest, down⟩ := ih quiet fun g hg => (exist g).trans (hl g (List.mem_cons_of_mem _ hg))
    refine ⟨fun p => (rest p).trans (perst p), fun g hg => down g ?_⟩
    rcases hg with hg | hg
    · rcases List.mem_cons.mp hg with rfl | hg
      · exact .inr (State.linkGoes_link q hf .down).1
      · exact .inl hg
    · exact .inr (State.linkGoes_other q hf hg)

theorem perstAssert_links {s : State} {port : Nat} (sound : s.Sound) (q : s.Quiet) (hp : port < 2) (high : (s.portAt port).perst = false) :
    ∃ t, exec (.perstNAssert port) s = .next t ∧ (t.portAt port).perst = true ∧ ∀ f ∈ s.fnsOf port, (t.fnAt f).link = .down := by
  have quiet : (s.modPort port (fun p => { p with perst := true, disabled := false })).Quiet := q.congr rfl rfl rfl rfl
  obtain ⟨perst, down⟩ := State.linksGo_down (s.fnsOf port) quiet fun f hf => (List.mem_filter.mp (List.mem_filter.mp hf).1).2
  have e : perstAssert port s = (s.fnsOf port).foldl (fun s f => s.linkGoes f .down)
      (s.modPort port (fun p => { p with perst := true, disabled := false })) := by
    rw [perstAssert, high, if_neg (by decide)]
  refine ⟨perstAssert port s, rfl, ?_, fun f hf => ?_⟩ <;> rw [e]
  · rw [perst, State.portAt_modPort_same s _ (by rw [sound.ports]; exact hp)]
  · exact down f (.inl hf)

/-- A wake leaves every host port as it was. -/
theorem State.beginWake_hp (s : State) (cause : Nat) : (s.beginWake cause).hp = s.hp :=
  (State.beginWake_keeps (F := (· ∈ [.pw])) (.refl _ s) cause (by decide)).same .hp (by decide)

theorem perstRelease_hp {s : State} {port : Nat} (low : (s.portAt port).perst = true) :
    (perstRelease port s).hp = (s.modPort port (fun p => { p with perst := false })).hp := by
  rw [perstRelease, low, if_neg (by decide)]
  dsimp only
  split
  · exact State.beginWake_hp _ 5
  · rfl

theorem perstRelease_links {s : State} {port : Nat} (sound : s.Sound) (hp : port < 2) (low : (s.portAt port).perst = true) :
    ∃ t, exec (.perstNRelease port) s = .next t ∧ (t.portAt port).perst = false ∧ t.hp.fns = s.hp.fns := by
  refine ⟨perstRelease port s, rfl, ?_, by rw [perstRelease_hp low]; rfl⟩
  rw [State.portAt, perstRelease_hp low]
  show ((s.modPort port _).portAt port).perst = false
  rw [State.portAt_modPort_same s _ (by rw [sound.ports]; exact hp)]

/-! ### The obligation -/

/-- Settles O36: each command changes the link of its function as stated, and whatever else it does keeps the links (`State.KeepsLinks`). -/
theorem linksChangeState : Obligations.LinksChangeState := by
  refine ⟨fun s f => recoveryEntry_link, fun s f => recoveryExit_link, fun s f c => linkUp_trains, by decide, by decide, ?_,
    fun s port sound q => perstAssert_links sound q, fun s port sound => perstRelease_links sound⟩
  intro s f q hf up
  exact ⟨⟨linkResetBy f .down s, rfl, linkResetBy_link q hf up .down⟩,
    ⟨linkResetBy f .disabled s, rfl, linkResetBy_link q hf up .disabled⟩,
    ⟨surpriseDown f s, rfl, surpriseDown_link q hf up⟩⟩

end Sys2Proof.Machine
end

section
/-! PROOFS. How what firmware waits for ends (07 R261; 14 R491, R498, R516, R522). A ring entry is received as the command it spells; an
activation or reload ends with `State.narayBack`, which reports and releases the commands that were held and leaves the mailboxes otherwise
as they were; the other events count, report, or do both. -/

namespace Sys2Proof.Machine
open Sys2Proof

/-! ### Commands of an opcode that no table lists (15 R561) -/

/-- Every opcode with a meaning stands in the command table. -/
theorem cmdInfo_isSome_of_mem_bodies : ∀ e ∈ bodies, (cmdInfo e.1).isSome = true :=
  List.all_eq_true.mp (by decide)

theorem bodyOf_of_unlisted {op : Nat} (h : cmdInfo op = none) : bodyOf op = none := by
  rw [bodyOf, Option.map_eq_none_iff, List.find?_eq_none]
  intro e he eq
  have listed := cmdInfo_isSome_of_mem_bodies e he
  rw [eq_of_beq eq, h] at listed
  exact absurd listed (by decide)

theorem State.receive_of_unlisted {s : State} {p : Path} {op : Nat} (h : cmdInfo op = none) (run : s.arrival p op = .run) (b : Bytes) :
    s.receive p op b = (s.seen p).complete p (std rcUnsupported) true := by
  rw [State.receive, bodyOf_of_unlisted h, State.unsupported, run]
  rfl

/-- Counting an arrival and leaving IDLE changes of a function only the progress of its ring. -/
theorem State.seen_fnAt_essence (s : State) (p : Path) (f : Nat) : ((s.seen p).fnAt f).essence = (s.fnAt f).essence := by
  rw [← State.essence_fnAt, State.essence_seen]
  exact State.essence_fnAt s f

/-- An answer is given from every state that has sent the same. -/
theorem State.Answers.of_out {s s' t : State} {p : Path} {r : Reply} (h : s'.Answers t p r) (out : s'.out = s.out) : s.Answers t p r := by
  obtain ⟨final, l, sent, given⟩ := h
  exact ⟨final, l, out ▸ sent, given⟩

/-- The command of an opcode that no table lists answers Unsupported, and of its function only the ring's progress and last answers
change. -/
theorem State.receive_unlisted {s : State} {p : Path} {op : Nat} (h : cmdInfo op = none) (run : s.arrival p op = .run) (b : Bytes) :
    s.Answers (s.receive p op b) p (std rcUnsupported) ∧ ∀ g, ((s.receive p op b).fnAt g).essence = (s.fnAt g).essence := by
  rw [State.receive_of_unlisted h run b]
  refine ⟨.of_out ⟨true, State.complete_sent (s.seen p) p (std rcUnsupported) true⟩ (State.seen_out s p), fun g => ?_⟩
  rw [State.fnAt_of_essence (State.essence_complete ..), State.seen_fnAt_essence]

/-- An answer stays given while the ring asks for more entries. -/
theorem State.Answers.fetchRing {s t : State} {p : Path} {r : Reply} (h : s.Answers t p r) (f : Nat) : s.Answers (t.fetchRing f) p r := by
  obtain ⟨final, l, sent, given⟩ := h
  obtain ⟨more, hmore⟩ :=
    (State.fetchRing_keeps (F := (· ∈ [.out, .hp])) (.refl _ t) f (by decide) (by decide)).sent
  exact ⟨final, l ++ more, by rw [← hmore, sent, List.append_assoc], List.mem_append_left _ given⟩

/-! ### Ring entries (14 R491) -/

/-- A function whose oldest entry asked for has arrived: the entry is counted, and one fetch fewer is under way. -/
def HostFn.entryTaken (h : HostFn) : HostFn :=
  { h with fcrCons := (h.fcrCons + 1) % 65536, fcr := h.fcr.map (fun q => { q with fetching := q.fetching - 1 }) }

/-- A state in which an entry of the ring of `f` has arrived and its command is not yet received. -/
def State.entryTaken (s : State) (f : Nat) : State := (s.modFn f HostFn.entryTaken).count 1 1

section
variable {s : State} {f : Nat}

/-- An entry asked for that arrives is counted, its command is received with the payload `b`, and the ring asks for more. -/
theorem fcrEntryFetched_eq {q : Fcr} (ring : (s.fnAt f).fcr = some q) (asked : q.fetching ≠ 0) (on : (s.fnAt f).fcrHalted = false)
    (e : Bytes) : ∃ b, fcrEntryFetched f e s =
      ((s.entryTaken f).receive (.ring f (s.fnAt f).fcrCons (rd (e ++ List.replicate (64 - e.length) 0) 2 2))
        (rd (e ++ List.replicate (64 - e.length) 0) 0 2) b).fetchRing f := by
  rw [fcrEntryFetched, ring]
  dsimp only
  rw [if_neg (by simp [asked, on])]
  exact ⟨_, rfl⟩

/-- A function with a ring is one of the four. -/
theorem State.fn_lt_of_ring {q : Fcr} (ring : (s.fnAt f).fcr = some q) : f < s.hp.fns.length := by
  by_contra hf
  rw [State.fnAt, List.getD_eq_getElem?_getD, List.getElem?_eq_none (not_lt.mp hf)] at ring
  cases ring

theorem State.entryTaken_fnAt (s : State) (f g : Nat) : (s.entryTaken f).fnAt g = (s.modFn f HostFn.entryTaken).fnAt g := by
  rw [State.entryTaken, State.fnAt, State.count_hp, ← State.fnAt]

theorem State.entryTaken_fcrCons (hf : f < s.hp.fns.length) :
    ((s.entryTaken f).fnAt f).fcrCons = ((s.fnAt f).fcrCons + 1) % 65536 := by
  rw [State.entryTaken_fnAt, State.fnAt_modFn_same s _ hf]
  rfl

/-- Functions of the same essence have taken the same number of entries. -/
theorem HostFn.fcrCons_of_essence {h k : HostFn} (e : h.essence = k.essence) : h.fcrCons = k.fcrCons :=
  (congrArg HostFn.fcrCons e :)

/-- An arrived entry changes nothing of whether its function exists, and how a command on a ring is received depends on that and on power
and firmware. -/
theorem State.entryTaken_arrival (s : State) (f g k tag op : Nat) :
    (s.entryTaken f).arrival (.ring g k tag) op = s.arrival (.ring g k tag) op := by
  have exist (g : Nat) : (s.entryTaken f).fnExists g = s.fnExists g := by
    rw [State.fnExists, State.entryTaken_fnAt, State.fnAt_modFn]
    split_ifs <;> rfl
  have pw : (s.entryTaken f).pw = s.pw := State.count_pw ..
  have mb : (s.entryTaken f).mb = s.mb := State.count_mb ..
  have ready : (s.entryTaken f).mbReady = s.mbReady := by rw [State.mbReady, pw, ← State.mbReady]
  have mgmt (w : Nat) : (s.entryTaken f).isMgmt w = s.isMgmt w := by rw [State.isMgmt, mb, exist, ← State.isMgmt]
  unfold State.arrival
  dsimp only
  rw [exist, pw, mb, ready, mgmt]

theorem State.entryTaken_out (s : State) (f : Nat) : (s.entryTaken f).out = s.out := State.count_out ..

/-- An entry of an opcode that no table lists is counted, and its command answers Unsupported. -/
theorem fcrEntryFetched_unlisted {op tag : Nat} {e : Bytes} {q : Fcr} (ring : (s.fnAt f).fcr = some q) (asked : q.fetching ≠ 0)
    (on : (s.fnAt f).fcrHalted = false) (hop : op = rd (e ++ List.replicate (64 - e.length) 0) 0 2)
    (htag : tag = rd (e ++ List.replicate (64 - e.length) 0) 2 2) (unlisted : cmdInfo op = none)
    (run : s.arrival (.ring f (s.fnAt f).fcrCons tag) op = .run) :
    ∃ t, exec (.fcrEntryFetched f e) s = .next t ∧ (t.fnAt f).fcrCons = ((s.fnAt f).fcrCons + 1) % 65536 ∧
      s.Answers t (.ring f (s.fnAt f).fcrCons tag) (std rcUnsupported) := by
  refine ⟨fcrEntryFetched f e s, rfl, ?_⟩
  obtain ⟨b, received⟩ := fcrEntryFetched_eq ring asked on e
  rw [← hop, ← htag] at received
  obtain ⟨answers, kept⟩ := State.receive_unlisted unlisted ((State.entryTaken_arrival s f f _ tag op).trans run) b
  rw [received]
  constructor
  · have same := (State.fnAt_of_essence (State.essence_fetchRing _ f) f).trans (kept f)
    exact (HostFn.fcrCons_of_essence same).trans (State.entryTaken_fcrCons (State.fn_lt_of_ring ring))
  · exact (answers.fetchRing f).of_out (State.entryTaken_out s f)

end

/-! ### Windows and bounds (14 R498, R516) -/

theorem freezeWindowEnd_restarts (s : State) :
    ∃ t, exec .freezeWindowEnd s = .next t ∧ t.mb = { s.mb with malfCount := [0, 0, 0, 0], malfWin := t.now } ∧
      t.now = max s.now (s.mb.malfWin + 1000000) :=
  ⟨freezeWindowEnd s, rfl, by rw [freezeWindowEnd, State.advance_mb], State.advance_now ..⟩

/-- A missed bound counts in the mailboxes' registers and is reported; nothing is sent and no command is touched. -/
theorem boundMissed_counts (s : State) (p : Path) (op : Nat) :
    (boundMissed p op s).mb.boundMiss = satAdd (2 ^ 32 - 1) s.mb.boundMiss 1 ∧ (boundMissed p op s).mb.ops = s.mb.ops ∧
      (boundMissed p op s).mb.sActive = s.mb.sActive ∧ (boundMissed p op s).out = s.out ∧
      (boundMissed p op s).fc = { s.fc with reports := s.fc.reports ++ [s.faultMsg mbBoundMissed op (some (who p))] } := by
  rw [boundMissed, State.count_mb, State.count_out, State.count_fc]
  exact ⟨rfl, rfl, rfl, rfl, rfl⟩

/-- A report names its requester where the device has it (00 R8). -/
theorem State.faultMsg_req {s : State} {w : Nat} (h : s.hasRequester w = true) (source detail : Nat) :
    (s.faultMsg source detail (some w)).req = some w := by
  rw [State.faultMsg, Option.filter_some, if_pos h]

/-! ### Reports -/

/-- Whether a report is raised between two states depends on the reports of FC alone. -/
theorem State.Reported.congr {s s' t t' : State} {source : Nat} (h : s'.Reported t' source) (since : s'.fc.reports = s.fc.reports)
    (upto : t'.fc.reports = t.fc.reports) : s.Reported t source := by
  rw [State.Reported, ← since, ← upto]
  exact h

theorem State.report_reported (s : State) (source detail : Nat) (req : Option Nat) : s.Reported (s.report source detail req) source :=
  ⟨_, _, s.report_reports source detail req, List.mem_singleton_self _, s.faultMsg_source source detail req⟩

/-! ### Naray comes back (14 R520 to R522) -/

theorem State.releaseCmds_of_none {s : State} (h : s.mb.heldCmds = []) : s.releaseCmds = s := by
  rw [State.releaseCmds, h, List.foldl_nil, ← h]

/-- Where no command is held, Naray's return changes FC alone: the running reaction ends and `src` is reported. -/
theorem State.narayBack_of_none {s : State} (h : s.mb.heldCmds = []) (src : Nat) :
    s.narayBack src = ((s.closeShadow 0 src).actionEnds 0).report src s.mb.slot := by
  rw [State.narayBack, State.releaseCmds_of_none (by rw [State.report_mb, State.actionEnds_mb, State.closeShadow_mb, h])]

section
variable {s : State} (h : s.mb.heldCmds = []) (src : Nat)
include h

theorem State.narayBack_mb : (s.narayBack src).mb = s.mb := by
  rw [State.narayBack_of_none h, State.report_mb, State.actionEnds_mb, State.closeShadow_mb]

theorem State.narayBack_now : (s.narayBack src).now = s.now := by
  rw [State.narayBack_of_none h, State.report_now, State.actionEnds_now, State.closeShadow_now]

theorem State.narayBack_reported : s.Reported (s.narayBack src) src := by
  rw [State.narayBack_of_none h]
  exact (State.report_reported _ src _ none).congr rfl rfl

end

/-- The parts that the end of a background operation may change. -/
theorem State.endOp_parts (s : State) (h st : Nat) : Keeps (· ∈ [.out, .hp, .mb, .pm]) s (s.endOp h st) :=
  State.endOp_keeps (.refl _ s) h st [] (by decide) (by decide) (by decide) (by decide)

theorem State.endOp_fc (s : State) (h st : Nat) : (s.endOp h st).fc = s.fc := (s.endOp_parts h st).same .fc (by decide)

theorem State.endOp_now (s : State) (h st : Nat) : (s.endOp h st).now = s.now := (s.endOp_parts h st).same .now (by decide)

/-- A background operation that ends changes of the mailboxes only the operations; its answer leaves them as they are. -/
theorem State.endOp_mb (s : State) (h st : Nat) : (s.endOp h st).mb = { s.mb with ops := (s.endOp h st).mb.ops } := by
  have answered (g : BgOp → BgOp) (p : Path) (r : Reply) :
      Keeps (· ∈ [.out, .hp, .pm]) (s.modOp h g) ((s.modOp h g).complete p r true) :=
    State.complete_keeps (.refl _ _) p r true (by decide) (by decide) (by decide)
  have of_modOp {g : BgOp → BgOp} {t : State} (k : Keeps (· ∈ [.out, .hp, .pm]) (s.modOp h g) t) :
      t.mb = { s.mb with ops := t.mb.ops } := by
    rw [show t.mb = (s.modOp h g).mb from k.same .mb (by decide)]
    rfl
  rw [State.endOp]
  cases s.opAt h with
  | none => rfl
  | some o =>
    dsimp only
    by_cases ended : (!o.running) = true
    · rw [if_pos ended]
    · rw [if_neg ended]
      split
      · exact of_modOp (State.vector_keeps (answered _ _ _) _ 0 (by decide) (by decide))
      · exact of_modOp (State.vector_keeps (answered _ _ _) _ 0 (by decide) (by decide))
      · exact of_modOp (answered _ _ _)

/-! ### Activation (14 R521, R522) -/

/-- What ACTIVATION_DONE does before Naray is back: the activation has ended well, and the slot in service is the one that boots. -/
theorem activationDone_eq {s : State} (activating : s.mb.activating = true) :
    ∃ u : State, activationDone s = u.narayBack nmActivated ∧ u.mb.activating = false ∧ u.mb.actFailed = false ∧
      u.mb.bootSlot = u.mb.slot ∧ u.mb.heldCmds = s.mb.heldCmds ∧ u.fc = s.fc := by
  rw [activationDone, activating, if_neg (by decide)]
  refine ⟨_, rfl, ?_⟩
  split
  · rw [State.endOp_mb, State.endOp_fc]
    exact ⟨rfl, rfl, rfl, rfl, rfl⟩
  · exact ⟨rfl, rfl, rfl, rfl, rfl⟩

/-- What ACTIVATION_TIMEOUT does before Naray is back: the activation has failed, and the slot in service stays. -/
theorem activationTimeout_eq {s : State} (activating : s.mb.activating = true) :
    ∃ u : State, activationTimeout s = u.narayBack nmActivationFailed ∧ u.mb.activating = false ∧ u.mb.actFailed = true ∧
      u.mb.slot = s.mb.slot ∧ u.mb.heldCmds = s.mb.heldCmds ∧ u.fc = s.fc ∧ u.now = max s.now (s.mb.actAt + 400000000) := by
  -- The state at the due time stays opaque, for unfolding `advance` leads the kernel to count up to the due time.
  obtain ⟨w, due⟩ : ∃ w, w = s.advance (s.mb.actAt + 400000000) := ⟨_, rfl⟩
  have mb : w.mb = s.mb := by rw [due, State.advance_mb]
  have fc : w.fc = s.fc := by rw [due, State.advance_fc]
  have now : w.now = max s.now (s.mb.actAt + 400000000) := by rw [due, State.advance_now]
  rw [activationTimeout, activating, if_neg (by decide), ← due, ← now, ← mb, ← fc]
  refine ⟨_, rfl, ?_⟩
  split
  · rw [State.endOp_mb, State.endOp_fc, State.endOp_now]
    exact ⟨rfl, rfl, rfl, rfl, rfl, rfl⟩
  · exact ⟨rfl, rfl, rfl, rfl, rfl, rfl⟩

section
variable {s : State} (activating : s.mb.activating = true) (none_held : s.mb.heldCmds = [])
include activating none_held

theorem activationDone_ends :
    ∃ t, exec .activationDone s = .next t ∧ t.mb.activating = false ∧ t.mb.actFailed = false ∧ t.mb.bootSlot = t.mb.slot ∧
      s.Reported t nmActivated := by
  obtain ⟨u, back, ended, well, boot, held, fc⟩ := activationDone_eq activating
  have none_left : u.mb.heldCmds = [] := held.trans none_held
  refine ⟨activationDone s, rfl, ?_⟩
  rw [back, State.narayBack_mb none_left]
  exact ⟨ended, well, boot, (State.narayBack_reported none_left nmActivated).congr (congrArg _ fc) rfl⟩

theorem activationTimeout_ends :
    ∃ t, exec .activationTimeout s = .next t ∧ t.mb.activating = false ∧ t.mb.actFailed = true ∧ t.mb.slot = s.mb.slot ∧
      s.Reported t nmActivationFailed ∧ t.now = max s.now (s.mb.actAt + 400000000) := by
  obtain ⟨u, back, ended, failed, slot, held, fc, now⟩ := activationTimeout_eq activating
  have none_left : u.mb.heldCmds = [] := held.trans none_held
  refine ⟨activationTimeout s, rfl, ?_⟩
  rw [back, State.narayBack_mb none_left, State.narayBack_now none_left]
  exact ⟨ended, failed, slot, (State.narayBack_reported none_left nmActivationFailed).congr (congrArg _ fc) rfl, now⟩

end

/-! ### A trap of the core and the sideband (07 R261; 16 R563) -/

theorem nmFetchError_reloads {s : State} (ready : s.mbReady = true) (awake : s.awake = true) (up : s.narayUp = true) :
    ∃ t, exec .nmFetchUe s = .next t ∧ t.mb = { s.mb with reloading := true } ∧ s.Reported t nmFetchUe := by
  refine ⟨nmFetchError s, rfl, ?_⟩
  rw [nmFetchError, ready, awake, up, if_pos (by decide)]
  exact ⟨rfl, (State.report_reported _ nmFetchUe 0 none).congr rfl rfl⟩

/-- A reload that succeeds ends, and commands execute again. -/
theorem nmReloadDone_resumes {s : State} (reloading : s.mb.reloading = true) (idle : s.mb.activating = false)
    (none_held : s.mb.heldCmds = []) : ∃ t, exec (.nmReloadDone true) s = .next t ∧ t.mb = { s.mb with reloading := false } := by
  refine ⟨nmReloadDone true s, rfl, ?_⟩
  rw [nmReloadDone, reloading, idle, if_neg (by decide), if_pos rfl, State.releaseCmds_of_none (by exact none_held)]
  rfl

theorem sidebandMalformed_reported {s : State} (ready : s.mbReady = true) (awake : s.awake = true) :
    ∃ t, exec .malformedSidebandTransaction s = .next t ∧ s.Reported t sbProtocol ∧ t.mb = s.mb := by
  refine ⟨sidebandMalformed s, rfl, ?_⟩
  rw [sidebandMalformed, ready, awake, if_pos (by decide)]
  constructor
  · exact (s.report_reported sbProtocol 0 none).congr rfl (by rw [State.count_fc, State.count_fc])
  · rw [State.count_mb, State.count_mb, State.report_mb]

/-! ### The obligation -/

/-- Settles O56: entries, windows, bounds, restarts and reports each by their own lemma above. -/
theorem firmwareEventsEnd : Obligations.FirmwareEventsEnd := by
  refine ⟨fun s f op tag e q => fcrEntryFetched_unlisted, freezeWindowEnd_restarts, fun s p op => ?_, by decide,
    fun s activating none_held => ⟨activationDone_ends activating none_held, activationTimeout_ends activating none_held⟩,
    fun s => nmFetchError_reloads, fun s => nmReloadDone_resumes, fun s => sidebandMalformed_reported⟩
  obtain ⟨missed, ops, short, out, fc⟩ := boundMissed_counts s p op
  exact ⟨boundMissed p op s, rfl, missed, ops, short, out, fc, rfl, rfl, fun h => State.faultMsg_req h mbBoundMissed op⟩

end Sys2Proof.Machine
end

section
/-! PROOFS. What an opcode that no table lists does (00 R20; 15 R561): its arrival is counted, Naray leaves IDLE, and the answer is given.
None of these reaches more than the path it came on, the power and clock state, and the performance monitor's counts. -/

namespace Sys2Proof.Machine
open Sys2Proof

/-- An effect on the parts of `F` is one on the parts of any `G` that holds them. -/
theorem Keeps.mono {F G : Part → Prop} {s t : State} (h : Keeps F s t) (sub : ∀ x, F x → G x) : Keeps G s t :=
  { h with same := fun x hx => h.same x fun hF => hx (sub x hF) }

/-- A command that is answered as soon as it is seen has only read. -/
theorem State.seen_complete_readsOnly (s : State) (p : Path) (r : Reply) (final : Bool) :
    s.ReadsOnly ((s.seen p).complete p r final) p r := by
  have answered : s.Answers ((s.seen p).complete p r final) p r :=
    .of_out ⟨final, State.complete_sent (s.seen p) p r final⟩ (State.seen_out s p)
  have arrived : Keeps (· ∈ [.out, .hp, .mb, .pw, .ck, .pm]) s (s.seen p) := (State.seen_keeps s p).mono (by decide)
  exact ⟨answered, (State.complete_keeps arrived p r final (by decide) (by decide) (by decide)).same⟩

/-- A command of an unlisted opcode that executes is answered as soon as it is seen. -/
theorem State.unsupported_of_run {s : State} {p : Path} {op : Nat} (run : s.arrival p op = .run) (b : Bytes) :
    s.unsupported p op b = (s.seen p).complete p (std rcUnsupported) true := by
  rw [State.unsupported, run, State.seen]

theorem State.unsupported_readsOnly {s : State} {p : Path} {op : Nat} (run : s.arrival p op = .run) (b : Bytes) :
    s.ReadsOnly (s.unsupported p op b) p (std rcUnsupported) := by
  rw [State.unsupported_of_run run]
  exact State.seen_complete_readsOnly s p (std rcUnsupported) true

section
variable {op : Nat} (unlisted : cmdInfo op = none) (s : State) (p : Path) (b : Bytes)
include unlisted

theorem exec_unassignedVendorOpcode_of_unlisted : exec (.unassignedVendorOpcode p op b) s = .next (s.unsupported p op b) :=
  congrArg Host.Outcome.next (if_pos (Option.isNone_iff_eq_none.mpr unlisted))

theorem exec_unsupportedCxlCommand_of_unlisted : exec (.unsupportedCxlCommand p op b) s = .next (s.unsupported p op b) :=
  congrArg Host.Outcome.next (if_pos (Option.isNone_iff_eq_none.mpr unlisted))

end

/-- Settles O11: both commands take the answer of `State.unsupported`, which only reads. -/
theorem unlistedOpcodesAreUnsupported : Obligations.UnlistedOpcodesAreUnsupported := by
  intro s p op b unlisted run
  have reads : s.ReadsOnly (s.unsupported p op b) p (std rcUnsupported) := State.unsupported_readsOnly run b
  exact ⟨⟨_, exec_unassignedVendorOpcode_of_unlisted unlisted s p b, reads⟩,
    ⟨_, exec_unsupportedCxlCommand_of_unlisted unlisted s p b, reads⟩⟩

end Sys2Proof.Machine
end

section
/-! PROOFS. What a dump latch and a counter parity error do (18 R640, R641, R644, R646). A latch that comes due takes its sequence number;
then it is skipped or written out, and what events, writes and causes change of the monitor is counters and sticky bits alone
(`State.pm_of_essence`). -/

namespace Sys2Proof.Machine
open Sys2Proof

/-! ### What time leaves of the functions -/

theorem State.advance_fnAt (s : State) (t f : Nat) : (s.advance t).fnAt f = s.fnAt f := by
  rw [State.fnAt, State.advance_hp, State.fnAt]

theorem State.advance_canSend (s : State) (t f : Nat) : (s.advance t).canSend f = s.canSend f := by
  rw [State.canSend, State.canSend, State.linkL0, State.linkL0, State.advance_fnAt]

/-! ### What a latch is made of (18 R641, R643, R644, R647) -/

/-- The state in which a latch that is due has taken its sequence number and set the time of the next. -/
def State.latched (s : State) : State :=
  let d := s.advance s.pm.nextAt
  { d with pm := { s.pm with seq := (s.pm.seq + 1) % 2 ^ 32, nextAt := d.now + s.pm.interval * 1000 } }

/-- A latch is counted as missed. -/
def State.missLatch (s : State) : State :=
  ({ s with pm := { s.pm with
    missed := satAdd (2 ^ 32 - 1) s.pm.missed 1, missedSince := satAdd 65535 s.pm.missedSince 1 } }).count 3 1

/-- The three writes of record `seq`: a SEQ that says it is not whole, its body, and its SEQ. -/
def State.writeRecord (s : State) (seq : Nat) (body : Bytes) : State :=
  let at_ := s.pm.base + seq % s.pm.records * 4096
  ((s.sendWrite s.pm.fn at_ (le 4 0xFFFFFFFF) 15).sendWrite s.pm.fn (at_ + 4) body 15).sendWrite s.pm.fn at_ (le 4 seq) 15

/-- After a record was written to `f`: its GAP and MISSED have been told, and it counts as an event and sets its cause. -/
def State.endRecord (s : State) (f : Nat) : State :=
  (({ s with pm := { s.pm with missedSince := 0, gap := false } }).count 3 0).cause f 4

/-- The state after a latch that wrote its record. -/
def State.recorded (s : State) (ue : Bool) : State :=
  (s.latched.writeRecord s.pm.seq (dumpBody (s.advance s.pm.nextAt) (!ue))).endRecord s.pm.fn

/-! ### What its parts leave of the monitor -/

theorem State.latched_pm (s : State) :
    s.latched.pm = { s.pm with seq := (s.pm.seq + 1) % 2 ^ 32, nextAt := s.latched.pm.nextAt } := rfl

theorem State.latched_out (s : State) : s.latched.out = s.out := State.advance_out s _

theorem State.missLatch_out (s : State) : s.missLatch.out = s.out := State.count_out _ 3 1 1

theorem State.missLatch_pm (s : State) : s.missLatch.pm = { s.pm with
    cnt := s.missLatch.pm.cnt, sticky := s.missLatch.pm.sticky
    missed := satAdd (2 ^ 32 - 1) s.pm.missed 1, missedSince := satAdd 65535 s.pm.missedSince 1 } :=
  State.pm_of_essence (State.essence_count _ 3 1 1)

theorem State.writeRecord_pm (s : State) (seq : Nat) (body : Bytes) : (s.writeRecord seq body).pm = { s.pm with
    cnt := (s.writeRecord seq body).pm.cnt, sticky := (s.writeRecord seq body).pm.sticky } :=
  State.pm_of_essence (by rw [State.writeRecord, State.essence_sendWrite, State.essence_sendWrite, State.essence_sendWrite])

theorem State.endRecord_pm (s : State) (f : Nat) : (s.endRecord f).pm = { s.pm with
    cnt := (s.endRecord f).pm.cnt, sticky := (s.endRecord f).pm.sticky, missedSince := 0, gap := false } :=
  State.pm_of_essence ((State.essence_cause _ f 4).trans (State.essence_count _ 3 0 1))

theorem State.recorded_pm (s : State) (ue : Bool) : (s.recorded ue).pm = { s.pm with
    cnt := (s.recorded ue).pm.cnt, sticky := (s.recorded ue).pm.sticky, seq := (s.pm.seq + 1) % 2 ^ 32
    nextAt := s.latched.pm.nextAt, missedSince := 0, gap := false } := by
  refine (State.endRecord_pm _ s.pm.fn).trans ?_
  rw [State.writeRecord_pm, State.latched_pm]
  rfl

/-! ### A latch that is due -/

section
variable {s : State} (periodic : s.pm.interval ≠ 0) (awake : s.awake = true) (working : s.fc.safe = false)
include periodic awake working

theorem not_latchStopped : ¬ (s.pm.interval = 0 || !s.awake || s.fc.safe) = true := by
  simp [periodic, awake, working]

/-- 18 R644: the function cannot send, or is viral. -/
theorem pmLatch_eq_missLatch (ue : Bool) (closed : (!s.canSend s.pm.fn || (s.fnAt s.pm.fn).viral) = true) :
    pmLatch ue s = s.latched.missLatch := by
  rw [pmLatch, if_neg (not_latchStopped periodic awake working)]
  simp only [State.advance_pm, State.advance_canSend, State.advance_fnAt]
  rw [if_pos closed]
  rfl

/-- 18 R643, R646: the function can send and is not viral. -/
theorem pmLatch_eq_recorded (ue : Bool) (opened : (!s.canSend s.pm.fn || (s.fnAt s.pm.fn).viral) = false) :
    pmLatch ue s = if ue then (s.recorded ue).report (sramUe 3) s.pm.seq else s.recorded ue := by
  rw [pmLatch, if_neg (not_latchStopped periodic awake working)]
  simp only [State.advance_pm, State.advance_canSend, State.advance_fnAt]
  rw [opened, if_neg (by decide)]
  rfl

theorem pmDumpLatch_missed (closed : s.canSend s.pm.fn = false) :
    ∃ t, exec (.pmDumpLatch false) s = .next t ∧ t.pm.seq = (s.pm.seq + 1) % 2 ^ 32 ∧
      t.pm.missed = satAdd (2 ^ 32 - 1) s.pm.missed 1 ∧ t.out = s.out := by
  have skipped : pmLatch false s = s.latched.missLatch :=
    pmLatch_eq_missLatch periodic awake working false (by rw [closed]; rfl)
  have pm := State.missLatch_pm s.latched
  exact ⟨_, congrArg Host.Outcome.next skipped, congrArg Pm.seq pm, congrArg Pm.missed pm, (State.missLatch_out _).trans s.latched_out⟩

theorem pmDumpLatch_recorded (sends : s.canSend s.pm.fn = true) (well : (s.fnAt s.pm.fn).viral = false) :
    ∃ t, exec (.pmDumpLatch false) s = .next t ∧ t.pm.seq = (s.pm.seq + 1) % 2 ^ 32 ∧ t.pm.missed = s.pm.missed ∧
      t.pm.gap = false := by
  have written : pmLatch false s = s.recorded false :=
    pmLatch_eq_recorded periodic awake working false (by rw [sends, well]; rfl)
  have pm := State.recorded_pm s false
  exact ⟨_, congrArg Host.Outcome.next written, congrArg Pm.seq pm, (congrArg Pm.missed pm :), congrArg Pm.gap pm⟩

end

/-! ### A parity error (18 R640) -/

theorem pmParity_eq (s : State) {c : Nat} (counter : c < 512) : pmParity c s = { s with pm := { s.pm with
    cnt := sset 0 s.pm.cnt c 0
    sticky := if c ∈ s.pm.sticky then s.pm.sticky else s.pm.sticky ++ [c]
    parity := satAdd (2 ^ 32 - 1) s.pm.parity 1 } } :=
  if_neg (not_le.mpr counter)

/-- The sticky bit of a counter is set, whether or not it was. -/
theorem mem_ite_append_self (c : Nat) (sticky : List Nat) : c ∈ if c ∈ sticky then sticky else sticky ++ [c] := by
  split_ifs with was
  · exact was
  · exact List.mem_append_right sticky (List.mem_singleton_self c)

theorem pmParityError_restarts (s : State) {c : Nat} (counter : c < 512) :
    ∃ t, exec (.pmParityError c) s = .next t ∧ sget 0 t.pm.cnt c = 0 ∧ c ∈ t.pm.sticky ∧
      t.pm.parity = satAdd (2 ^ 32 - 1) s.pm.parity 1 ∧ t.fc = s.fc ∧ ∀ d, d ≠ c → sget 0 t.pm.cnt d = sget 0 s.pm.cnt d :=
  ⟨_, congrArg Host.Outcome.next (pmParity_eq s counter), sget_sset_same 0 c 0 s.pm.cnt, mem_ite_append_self c s.pm.sticky, rfl, rfl,
    fun _ other => (sget_sset_other other : sget 0 (sset 0 s.pm.cnt c 0) _ = _)⟩

/-! ### The obligation -/

/-- Settles O39: a latch that is due is `State.missLatch` or `State.recorded` by whether its function can be written to, and a parity error
touches one counter. -/
theorem performanceRecordsAreLatched : Obligations.PerformanceRecordsAreLatched :=
  ⟨fun _ periodic awake working closed => pmDumpLatch_missed periodic awake working closed,
    fun _ periodic awake working sends well => pmDumpLatch_recorded periodic awake working sends well,
    fun s _ counter => pmParityError_restarts s counter⟩

end Sys2Proof.Machine
end

section
/-! PROOFS. What every step keeps. Each command changes the parts that `touched` names and no others (`exec_keeps`), and an empty queue lets
time pass; the frames, the soundness of the device and what no step undoes follow from the one relation `Keeps`. The frame of a stored
codeword is that of a write of 81 cells. -/

set_option Elab.async false

namespace Sys2Proof.Machine
open Sys2Proof

/-! ### What a command and a step keep -/

/-- Every command ends in a next state, and comes to it by effects on the parts that `touched` names: for each command, what its operation
keeps. That `touched` names a part is a computation, so each `assumption` of a `…_keeps` lemma is `yes`. -/
theorem exec_keeps (c : Instr) (s : State) : ∃ t, exec c s = .next t ∧ Keeps (fun q => (touched c).contains q = true) s t := by
  have yes : true = true := rfl
  cases c with
  | stageOpen p b => exact ⟨_, rfl, State.command_keeps (.refl _ s) p _ b _ fun _ k => stageOpen_keeps k p b⟩
  | stageCommit p b => exact ⟨_, rfl, State.command_keeps (.refl _ s) p _ b _ fun _ k => stageCommit_keeps k p b⟩
  | stageAbort p b => exact ⟨_, rfl, State.command_keeps (.refl _ s) p _ b _ fun _ k => stageAbort_keeps k p b⟩
  | clampReportGet p b => exact ⟨_, rfl, State.command_keeps (.refl _ s) p _ b _ fun _ k => clampReportGet_keeps k p b⟩
  | bgQuery p b => exact ⟨_, rfl, State.command_keeps (.refl _ s) p _ b _ fun _ k => bgQuery_keeps k p b⟩
  | abort p b => exact ⟨_, rfl, State.command_keeps (.refl _ s) p _ b _ fun _ k => abort_keeps k p b⟩
  | fcrRegister p b => exact ⟨_, rfl, State.command_keeps (.refl _ s) p _ b _ fun _ k => fcrRegister_keeps k p b⟩
  | fcrDeregister p b => exact ⟨_, rfl, State.command_keeps (.refl _ s) p _ b _ fun _ k => fcrDeregister_keeps k p b⟩
  | mgmtDesignate p b => exact ⟨_, rfl, State.command_keeps (.refl _ s) p _ b _ fun _ k => mgmtDesignate_keeps k p b⟩
  | regionCfg p b => exact ⟨_, rfl, State.command_keeps (.refl _ s) p _ b _ fun _ k => regionCfg_keeps k p b⟩
  | regionDelete p b => exact ⟨_, rfl, State.command_keeps (.refl _ s) p _ b _ fun _ k => regionDelete_keeps k p b⟩
  | regionQuery p b => exact ⟨_, rfl, State.command_keeps (.refl _ s) p _ b _ fun _ k => regionQuery_keeps k p b⟩
  | tierCfg p b => exact ⟨_, rfl, State.command_keeps (.refl _ s) p _ b _ fun _ k => tierCfg_keeps k p b⟩
  | tierCtl p b => exact ⟨_, rfl, State.command_keeps (.refl _ s) p _ b _ fun _ k => tierCtl_keeps k p b⟩
  | mscRowCfg p b => exact ⟨_, rfl, State.command_keeps (.refl _ s) p _ b _ fun _ k => mscRowCfg_keeps k p b⟩
  | cdCtl p b => exact ⟨_, rfl, State.command_keeps (.refl _ s) p _ b _ fun _ k => cdCtl_keeps k p b⟩
  | cdYardQuery p b => exact ⟨_, rfl, State.command_keeps (.refl _ s) p _ b _ fun _ k => cdYardQuery_keeps k p b⟩
  | qeBufRegister p b => exact ⟨_, rfl, State.command_keeps (.refl _ s) p _ b _ fun _ k => qeBufRegister_keeps k p b⟩
  | qeBufDeregister p b => exact ⟨_, rfl, State.command_keeps (.refl _ s) p _ b _ fun _ k => qeBufDeregister_keeps k p b⟩
  | qeFreeRing p b => exact ⟨_, rfl, State.command_keeps (.refl _ s) p _ b _ fun _ k => qeFreeRing_keeps k p b⟩
  | qeFreeRingDereg p b => exact ⟨_, rfl, State.command_keeps (.refl _ s) p _ b _ fun _ k => qeFreeRingDereg_keeps k p b⟩
  | qeReclaim p b => exact ⟨_, rfl, State.command_keeps (.refl _ s) p _ b _ fun _ k => qeReclaim_keeps k p b⟩
  | qeEgressRing p b => exact ⟨_, rfl, State.command_keeps (.refl _ s) p _ b _ fun _ k => qeEgressRing_keeps k p b⟩
  | qeEgressDereg p b => exact ⟨_, rfl, State.command_keeps (.refl _ s) p _ b _ fun _ k => qeEgressDereg_keeps k p b⟩
  | qeFlush p b => exact ⟨_, rfl, State.command_keeps (.refl _ s) p _ b _ fun _ k => qeFlush_keeps k p b⟩
  | qeQuery p b => exact ⟨_, rfl, State.command_keeps (.refl _ s) p _ b _ fun _ k => qeQuery_keeps k p b⟩
  | qeCtl p b => exact ⟨_, rfl, State.command_keeps (.refl _ s) p _ b _ fun _ k => qeCtl_keeps k p b⟩
  | qeQueueCfg p b => exact ⟨_, rfl, State.command_keeps (.refl _ s) p _ b _ fun _ k => qeQueueCfg_keeps k p b⟩
  | qePolicerCfg p b => exact ⟨_, rfl, State.command_keeps (.refl _ s) p _ b _ fun _ k => qePolicerCfg_keeps k p b⟩
  | scNodeCfg p b => exact ⟨_, rfl, State.command_keeps (.refl _ s) p _ b _ fun _ k => scNodeCfg_keeps k p b⟩
  | scPortCfg p b => exact ⟨_, rfl, State.command_keeps (.refl _ s) p _ b _ fun _ k => scPortCfg_keeps k p b⟩
  | scGateList p b => exact ⟨_, rfl, State.command_keeps (.refl _ s) p _ b _ fun _ k => scGateList_keeps k p b⟩
  | scQuery p b => exact ⟨_, rfl, State.command_keeps (.refl _ s) p _ b _ fun _ k => scQuery_keeps k p b⟩
  | tuCtl p b => exact ⟨_, rfl, State.command_keeps (.refl _ s) p _ b _ fun _ k => tuCtl_keeps k p b⟩
  | tuSet p b => exact ⟨_, rfl, State.command_keeps (.refl _ s) p _ b _ fun _ k => tuSet_keeps k p b⟩
  | tuQuery p b => exact ⟨_, rfl, State.command_keeps (.refl _ s) p _ b _ fun _ k => tuQuery_keeps k p b⟩
  | ceSetCfg p b => exact ⟨_, rfl, State.command_keeps (.refl _ s) p _ b _ fun _ k => ceSetCfg_keeps k p b⟩
  | ceSetDelete p b => exact ⟨_, rfl, State.command_keeps (.refl _ s) p _ b _ fun _ k => ceSetDelete_keeps k p b⟩
  | ceQeBind p b => exact ⟨_, rfl, State.command_keeps (.refl _ s) p _ b _ fun _ k => ceQeBind_keeps k p b⟩
  | ceClear p b => exact ⟨_, rfl, State.command_keeps (.refl _ s) p _ b _ fun _ k => ceClear_keeps k p b⟩
  | ceQuery p b => exact ⟨_, rfl, State.command_keeps (.refl _ s) p _ b _ fun _ k => ceQuery_keeps k p b⟩
  | ceCtl p b => exact ⟨_, rfl, State.command_keeps (.refl _ s) p _ b _ fun _ k => ceCtl_keeps k p b⟩
  | faultCfg p b => exact ⟨_, rfl, State.command_keeps (.refl _ s) p _ b _ fun _ k => faultCfg_keeps k p b⟩
  | faultCtl p b => exact ⟨_, rfl, State.command_keeps (.refl _ s) p _ b _ fun _ k => faultCtl_keeps k p b⟩
  | faultLogGet p b => exact ⟨_, rfl, State.command_keeps (.refl _ s) p _ b _ fun _ k => faultLogGet_keeps k p b⟩
  | faultClear p b => exact ⟨_, rfl, State.command_keeps (.refl _ s) p _ b _ fun _ k => faultClear_keeps k p b⟩
  | faultQuery p b => exact ⟨_, rfl, State.command_keeps (.refl _ s) p _ b _ fun _ k => faultQuery_keeps k p b⟩
  | freezeCtl p b => exact ⟨_, rfl, State.command_keeps (.refl _ s) p _ b _ fun _ k => freezeCtl_keeps k p b⟩
  | thaw p b => exact ⟨_, rfl, State.command_keeps (.refl _ s) p _ b _ fun _ k => thaw_keeps k p b⟩
  | bwReqCfg p b => exact ⟨_, rfl, State.command_keeps (.refl _ s) p _ b _ fun _ k => bwReqCfg_keeps k p b⟩
  | bwGuarCfg p b => exact ⟨_, rfl, State.command_keeps (.refl _ s) p _ b _ fun _ k => bwGuarCfg_keeps k p b⟩
  | bwWindowCfg p b => exact ⟨_, rfl, State.command_keeps (.refl _ s) p _ b _ fun _ k => bwWindowCfg_keeps k p b⟩
  | bwQuery p b => exact ⟨_, rfl, State.command_keeps (.refl _ s) p _ b _ fun _ k => bwQuery_keeps k p b⟩
  | hpPortCfg p b => exact ⟨_, rfl, State.command_keeps (.refl _ s) p _ b _ fun _ k => hpPortCfg_keeps k p b⟩
  | pwEnter p b => exact ⟨_, rfl, State.command_keeps (.refl _ s) p _ b _ fun _ k => pwEnter_keeps k p b⟩
  | pwWake p b => exact ⟨_, rfl, State.command_keeps (.refl _ s) p _ b _ fun _ k => pwWake_keeps k p b⟩
  | pwQuery p b => exact ⟨_, rfl, State.command_keeps (.refl _ s) p _ b _ fun _ k => pwQuery_keeps k p b⟩
  | nsWays p b => exact ⟨_, rfl, State.command_keeps (.refl _ s) p _ b _ fun _ k => nsWays_keeps k p b⟩
  | mcSpeed p b => exact ⟨_, rfl, State.command_keeps (.refl _ s) p _ b _ fun _ k => mcSpeed_keeps k p b⟩
  | pmCfg p b => exact ⟨_, rfl, State.command_keeps (.refl _ s) p _ b _ fun _ k => pmCfg_keeps k p b⟩
  | pmDumpCfg p b => exact ⟨_, rfl, State.command_keeps (.refl _ s) p _ b _ fun _ k => pmDumpCfg_keeps k p b⟩
  | pmRead p b => exact ⟨_, rfl, State.command_keeps (.refl _ s) p _ b _ fun _ k => pmRead_keeps k p b⟩
  | zeroRange p b => exact ⟨_, rfl, State.command_keeps (.refl _ s) p _ b _ fun _ k => rangeCmd_keeps k _ p b⟩
  | nsMaint p b => exact ⟨_, rfl, State.command_keeps (.refl _ s) p _ b _ fun _ k => rangeCmd_keeps k _ p b⟩
  | rekeyStart p b => exact ⟨_, rfl, State.command_keeps (.refl _ s) p _ b _ fun _ k => rekeyStart_keeps k p b⟩
  | scrubCtl p b => exact ⟨_, rfl, State.command_keeps (.refl _ s) p _ b _ fun _ k => scrubCtl_keeps k p b⟩
  | pprCtl p b => exact ⟨_, rfl, State.command_keeps (.refl _ s) p _ b _ fun _ k => pprCtl_keeps k p b⟩
  | fuseBurn p b => exact ⟨_, rfl, State.command_keeps (.refl _ s) p _ b _ fun _ k => fuseBurn_keeps k p b⟩
  | mcCtl p b => exact ⟨_, rfl, State.command_keeps (.refl _ s) p _ b _ fun _ k => mcCtl_keeps k p b⟩
  | diagCtrlRead p b => exact ⟨_, rfl, State.command_keeps (.refl _ s) p _ b _ fun _ k => diagCtrlRead_keeps k p b⟩
  | diagCtrlWrite p b => exact ⟨_, rfl, State.command_keeps (.refl _ s) p _ b _ fun _ k => diagCtrlWrite_keeps k p b⟩
  | cdGranuleRead p b => exact ⟨_, rfl, State.command_keeps (.refl _ s) p _ b _ fun _ k => cdGranuleRead_keeps k p b⟩
  | unassignedVendorOpcode p opcode b => exact ⟨_, rfl, Keeps.ite (fun _ => State.unsupported_keeps (.refl _ s) p opcode b) fun _ => .refl _ s⟩
  | unsupportedCxlCommand p opcode b => exact ⟨_, rfl, Keeps.ite (fun _ => State.unsupported_keeps (.refl _ s) p opcode b) fun _ => .refl _ s⟩
  | identify p b => exact ⟨_, rfl, State.command_keeps (.refl _ s) p _ b _ fun _ k => identify_keeps k p b⟩
  | backgroundOperationStatus p b => exact ⟨_, rfl, State.command_keeps (.refl _ s) p _ b _ fun _ k => opStatus_keeps k p b⟩
  | requestAbortBackgroundOperation p b => exact ⟨_, rfl, State.command_keeps (.refl _ s) p _ b _ fun _ k => requestAbort_keeps k p b⟩
  | getEventRecords p b => exact ⟨_, rfl, State.command_keeps (.refl _ s) p _ b _ fun _ k => getEvents_keeps k p b⟩
  | clearEventRecords p b => exact ⟨_, rfl, State.command_keeps (.refl _ s) p _ b _ fun _ k => clearEvents_keeps k p b⟩
  | getEventInterruptPolicy p b => exact ⟨_, rfl, State.command_keeps (.refl _ s) p _ b _ fun _ k => getPolicy_keeps k p b⟩
  | setEventInterruptPolicy p b => exact ⟨_, rfl, State.command_keeps (.refl _ s) p _ b _ fun _ k => setPolicy_keeps k p b⟩
  | getFwInfo p b => exact ⟨_, rfl, State.command_keeps (.refl _ s) p _ b _ fun _ k => getFwInfo_keeps k p b⟩
  | transferFw p b => exact ⟨_, rfl, State.command_keeps (.refl _ s) p _ b _ fun _ k => transferFw_keeps k p b⟩
  | activateFw p b => exact ⟨_, rfl, State.command_keeps (.refl _ s) p _ b _ fun _ k => activateFw_keeps k p b⟩
  | getTimestamp p b => exact ⟨_, rfl, State.command_keeps (.refl _ s) p _ b _ fun _ k => getTimestamp_keeps k p b⟩
  | setTimestamp p b => exact ⟨_, rfl, State.command_keeps (.refl _ s) p _ b _ fun _ k => setTimestamp_keeps k p b⟩
  | getSupportedLogs p b => exact ⟨_, rfl, State.command_keeps (.refl _ s) p _ b _ fun _ k => getLogs_keeps k p b⟩
  | getLog p b => exact ⟨_, rfl, State.command_keeps (.refl _ s) p _ b _ fun _ k => getLog_keeps k p b⟩
  | identifyMemoryDevice p b => exact ⟨_, rfl, State.command_keeps (.refl _ s) p _ b _ fun _ k => identifyMemory_keeps k p b⟩
  | getHealthInfo p b => exact ⟨_, rfl, State.command_keeps (.refl _ s) p _ b _ fun _ k => healthInfo_keeps k p b⟩
  | getAlertConfiguration p b => exact ⟨_, rfl, State.command_keeps (.refl _ s) p _ b _ fun _ k => getAlerts_keeps k p b⟩
  | setAlertConfiguration p b => exact ⟨_, rfl, State.command_keeps (.refl _ s) p _ b _ fun _ k => setAlerts_keeps k p b⟩
  | getPoisonList p b => exact ⟨_, rfl, State.command_keeps (.refl _ s) p _ b _ fun _ k => getPoisonList_keeps k p b⟩
  | injectPoison p b => exact ⟨_, rfl, State.afterEngine_keeps (State.command_keeps (.refl _ s) p _ b _ fun _ k => injectPoison_keeps k p b) _⟩
  | clearPoison p b => exact ⟨_, rfl, State.afterEngine_keeps (State.command_keeps (.refl _ s) p _ b _ fun _ k => clearPoison_keeps k p b) _⟩
  | backgroundOperationEnd handle => exact ⟨_, rfl, backgroundOperationEnd_keeps (.refl _ s) _⟩
  | fcrDoorbellWrite fn value => exact ⟨_, rfl, State.ioAccess_keeps (.refl _ s) fn _ fun _ k => fcrDoorbell_keeps k _ _⟩
  | fcrEntryFetched fn entry => exact ⟨_, rfl, fcrEntryFetched_keeps (.refl _ s) _ _⟩
  | fcrFetchError fn => exact ⟨_, rfl, fcrFetchError_keeps (.refl _ s) _⟩
  | freeRingConsWrite fn ring value => exact ⟨_, rfl, State.ioAccess_keeps (.refl _ s) fn _ fun _ k => freeCons_keeps k _ _ _⟩
  | egressRingConsWrite fn ring value => exact ⟨_, rfl, State.ioAccess_keeps (.refl _ s) fn _ fun _ k => egressCons_keeps k _ _ _⟩
  | intCauseWrite fn value => exact ⟨_, rfl, State.ioAccess_keeps (.refl _ s) fn _ fun _ k => intCauseWrite_keeps k _ _⟩
  | intEnableWrite fn value => exact ⟨_, rfl, State.ioAccess_keeps (.refl _ s) fn _ fun _ k => intEnableWrite_keeps k _ _⟩
  | msixVectorUnmask fn vector => exact ⟨_, rfl, State.ioAccess_keeps (.refl _ s) fn _ fun _ k => msixUnmask_keeps k _ _⟩
  | busMasterEnableSet fn => exact ⟨_, rfl, State.ioAccess_keeps (.refl _ s) fn _ fun _ k => bmeSet_keeps k _⟩
  | busMasterEnableClear fn => exact ⟨_, rfl, State.ioAccess_keeps (.refl _ s) fn _ fun _ k => bmeClear_keeps k _⟩
  | hdmDecoderCommit fn index d => exact ⟨_, rfl, State.ioAccess_keeps (.refl _ s) fn _ fun _ k => decoderCommit_keeps k _ _ _⟩
  | scWheelLagRead => exact ⟨_, rfl, State.emit_keeps (Keeps.upd (.refl _ s)) _⟩
  | mbLatFRead => exact ⟨_, rfl, latFRead_keeps (.refl _ s)⟩
  | mbLatSRead => exact ⟨_, rfl, latSRead_keeps (.refl _ s)⟩
  | tuTimeSRead => exact ⟨_, rfl, State.emit_keeps (State.latchTime_keeps (.refl _ s)) _⟩
  | registerWrite target size value => exact ⟨_, rfl, registerWrite_keeps (.refl _ s) _ _ _⟩
  | enqueueWindowWrite fn window offset data allEnabled poisoned => exact ⟨_, rfl, State.ioAccess_keeps (.refl _ s) fn _ fun _ k => windowWrite_keeps k _⟩
  | counterUpdateWindowWrite fn window offset data allEnabled poisoned => exact ⟨_, rfl, State.ioAccess_keeps (.refl _ s) fn _ fun _ k => windowWrite_keeps k _⟩
  | enqueueDescriptor fn halt => exact ⟨_, rfl, State.takeStalled_keeps (State.engine_keeps (.refl _ s) _ _ fun _ k => enqueueDescriptor_keeps k _ _) _⟩
  | updateRecord fn halt => exact ⟨_, rfl, State.takeStalled_keeps (State.engine_keeps (.refl _ s) _ _ fun _ k => updateRecord_keeps k _ _) _⟩
  | queueEventCount => exact ⟨_, rfl, State.engine_keeps (.refl _ s) _ _ fun _ k => queueEventCount_keeps k⟩
  | backInvalidateResponse fn line => exact ⟨_, rfl, backInvalidateResponse_keeps (.refl _ s) _ _⟩
  | cxlmemRead fn hpa noCopy tie => exact ⟨_, rfl, State.hostAccess_keeps (.refl _ s) _ _ _⟩
  | cxlmemWrite fn hpa data enables poisoned tie => exact ⟨_, rfl, State.hostAccess_keeps (.refl _ s) _ _ _⟩
  | dramReadReturn line env => exact ⟨_, rfl, State.admit_keeps (dramReadReturn_keeps (.refl _ s) _ _)⟩
  | addressErrorReread line env => exact ⟨_, rfl, State.admit_keeps (addressErrorReread_keeps (.refl _ s) _ _)⟩
  | lineRepair line env => exact ⟨_, rfl, State.admit_keeps (lineRepair_keeps (.refl _ s) _ _)⟩
  | specVerifyResult line committed => exact ⟨_, rfl, State.admit_keeps (specVerifyResult_keeps (.refl _ s) _ _)⟩
  | writebackAck line => exact ⟨_, rfl, writebackAck_keeps (.refl _ s) _⟩
  | evictionOfferAnswer line => exact ⟨_, rfl, evictionOfferAnswer_keeps (.refl _ s) _⟩
  | nsTagScrub quadrant bad => exact ⟨_, rfl, nsTagScrub_keeps (.refl _ s) _ _⟩
  | nsWaysDrainDone => exact ⟨_, rfl, nsWaysDrainDone_keeps (.refl _ s)⟩
  | nsWaysEnableDone => exact ⟨_, rfl, nsWaysEnableDone_keeps (.refl _ s)⟩
  | heatSweep region => exact ⟨_, rfl, heatSweep_keeps (.refl _ s) _⟩
  | promotionSwitch region page => exact ⟨_, rfl, State.engine_keeps (.refl _ s) _ _ fun _ k => promotionSwitch_keeps k _ _⟩
  | demotionSwitch region page => exact ⟨_, rfl, State.engine_keeps (.refl _ s) _ _ fun _ k => demotionSwitch_keeps k _ _⟩
  | muckVisit halt => exact ⟨_, rfl, State.engine_keeps (.refl _ s) _ _ fun _ k => muckVisit_keeps k _⟩
  | patrolRead channel env halt => exact ⟨_, rfl, State.engine_keeps (.refl _ s) _ _ fun _ k => patrolRead_keeps k _ _ _⟩
  | demandScrub read => exact ⟨_, rfl, State.engine_keeps (.refl _ s) _ _ fun _ k => demandScrub_keeps k _ _⟩
  | patrolLate channel => exact ⟨_, rfl, patrolLate_keeps (.refl _ s) _⟩
  | rowErrorWindowEnd row => exact ⟨_, rfl, rowWindowEnd_keeps (.refl _ s) _⟩
  | softPpr row => exact ⟨_, rfl, softPpr_keeps (.refl _ s) _⟩
  | pageRetirement channel page => exact ⟨_, rfl, pageRetirement_keeps (.refl _ s) _ _⟩
  | hardPprDone channel => exact ⟨_, rfl, hardPprDone_keeps (.refl _ s) _⟩
  | resilverLine pass => exact ⟨_, rfl, State.engine_keeps (.refl _ s) _ _ fun _ k => resilverLine_keeps k _ _⟩
  | fillBlock halt => exact ⟨_, rfl, State.engine_keeps (.refl _ s) _ _ fun _ k => fillBlock_keeps k _⟩
  | fillOnTouchWrite fn hpa data enables poisoned => exact ⟨_, rfl, State.hostOne_keeps (.refl _ s) _ _⟩
  | rekeyStep halt => exact ⟨_, rfl, State.engine_keeps (.refl _ s) _ _ fun _ k => rekeyStep_keeps k _⟩
  | keyCheck bad => exact ⟨_, rfl, keyCheck_keeps (.refl _ s) _⟩
  | refreshIssue channel sub rank bank => exact ⟨_, rfl, refreshIssue_keeps (.refl _ s) _ _ _ _⟩
  | refreshForced channel sub rank bank => exact ⟨_, rfl, refreshForced_keeps (.refl _ s) _ _ _ _⟩
  | rfmIssue channel sub rank group bank => exact ⟨_, rfl, rfmIssue_keeps (.refl _ s) _ _ _ _ _⟩
  | subchannelIssue channel sub ready => exact ⟨_, rfl, subchannelIssue_keeps (.refl _ s) _ _ _⟩
  | agePromotion channel sub id => exact ⟨_, rfl, agePromotion_keeps (.refl _ s) _ _ _⟩
  | alertNAssert channel sub writeCrc => exact ⟨_, rfl, alertN_keeps (.refl _ s) _ _ _⟩
  | alertEpisodeEnd channel sub => exact ⟨_, rfl, alertEpisodeEnd_keeps (.refl _ s) _ _⟩
  | dqsTracking channel rank drift => exact ⟨_, rfl, dqsTracking_keeps (.refl _ s) _ _ _⟩
  | zqCalibration channel rank => exact ⟨_, rfl, zqCalibration_keeps (.refl _ s) _ _⟩
  | dimmTempRead channel temps => exact ⟨_, rfl, dimmTempRead_keeps (.refl _ s) _ _⟩
  | retrainingStart => exact ⟨_, rfl, retrainingStart_keeps (.refl _ s)⟩
  | retrainingDone ok => exact ⟨_, rfl, retrainingDone_keeps (.refl _ s) _⟩
  | fencedChannelRetrainDone channel ok => exact ⟨_, rfl, fencedRetrainDone_keeps (.refl _ s) _ _⟩
  | speedChangeStepDone => exact ⟨_, rfl, speedStepDone_keeps (.refl _ s)⟩
  | speedChangeWaitTimeout => exact ⟨_, rfl, speedTimeout_keeps (.refl _ s)⟩
  | initialTrainingDone failed => exact ⟨_, rfl, State.trained_keeps (.refl _ s) _⟩
  | budgetWindowEnd => exact ⟨_, rfl, budgetWindowEnd_keeps (.refl _ s)⟩
  | bwStampUpdate => exact ⟨_, rfl, bwStampUpdate_keeps (.refl _ s)⟩
  | freeRingRefill halt => exact ⟨_, rfl, freeRingRefill_keeps (.refl _ s) _⟩
  | headLineReturn queue => exact ⟨_, rfl, State.engine_keeps (.refl _ s) _ _ fun _ k => headLineReturn_keeps k _⟩
  | schedulerDecision => exact ⟨_, rfl, schedulerDecision_keeps (.refl _ s)⟩
  | dequeuePacketRead queue halt => exact ⟨_, rfl, State.engineRuns_keeps (.refl _ s) _ _ fun _ k => dequeuePacketRead_keeps k _ _⟩
  | packetPush queue => exact ⟨_, rfl, packetPush_keeps (.refl _ s) _⟩
  | ringModerationTimer fn ring => exact ⟨_, rfl, ringModerationTimer_keeps (.refl _ s) _ _⟩
  | drainLimitExpiry => exact ⟨_, rfl, drainLimit_keeps (.refl _ s)⟩
  | wheelSlotRelease => exact ⟨_, rfl, wheelSlotRelease_keeps (.refl _ s)⟩
  | wheelCascade => exact ⟨_, rfl, wheelCascade_keeps (.refl _ s)⟩
  | gateEntryChange port => exact ⟨_, rfl, gateEntryChange_keeps (.refl _ s) _⟩
  | gateSwap port => exact ⟨_, rfl, gateSwap_keeps (.refl _ s) _⟩
  | ptmDialogue => exact ⟨_, rfl, ptmDialogue_keeps (.refl _ s)⟩
  | ptmSample source valid sec ns => exact ⟨_, rfl, ptmSample_keeps (.refl _ s) _ _ _ _⟩
  | ppsInEdge => exact ⟨_, rfl, ppsInEdge_keeps (.refl _ s)⟩
  | timeSourceTimeout => exact ⟨_, rfl, timeSourceTimeout_keeps (.refl _ s)⟩
  | ceRecomputeStep => exact ⟨_, rfl, State.engine_keeps (.refl _ s) _ _ fun _ k => ceRecomputeStep_keeps k⟩
  | sessionIdleExpiry session => exact ⟨_, rfl, sessionExpiry_keeps (.refl _ s) _⟩
  | freezeWindowEnd => exact ⟨_, rfl, freezeWindowEnd_keeps (.refl _ s)⟩
  | commandBoundMissed p opcode => exact ⟨_, rfl, boundMissed_keeps (.refl _ s) _ _⟩
  | activationDone => exact ⟨_, rfl, activationDone_keeps (.refl _ s)⟩
  | activationTimeout => exact ⟨_, rfl, activationTimeout_keeps (.refl _ s)⟩
  | nmFetchUe => exact ⟨_, rfl, nmFetchError_keeps (.refl _ s)⟩
  | nmReloadDone ok => exact ⟨_, rfl, nmReloadDone_keeps (.refl _ s) _⟩
  | faultReport ext => exact ⟨_, rfl, faultReport_keeps (.refl _ s) _⟩
  | actionRungDone source => exact ⟨_, rfl, actionRungDone_keeps (.refl _ s) _⟩
  | handlingWindowExpiry source => exact ⟨_, rfl, windowExpiry_keeps (.refl _ s) _⟩
  | sourceConditionClear source => exact ⟨_, rfl, conditionClear_keeps (.refl _ s) _⟩
  | quietPeriodExpiry => exact ⟨_, rfl, quietExpiry_keeps (.refl _ s)⟩
  | shadowWindowEnd => exact ⟨_, rfl, shadowEnd_keeps (.refl _ s)⟩
  | faultLogFlashCopy => exact ⟨_, rfl, flashCopy_keeps (.refl _ s)⟩
  | throttleLift => exact ⟨_, rfl, throttleLift_keeps (.refl _ s)⟩
  | droopDetect present => exact ⟨_, rfl, droopDetect_keeps (.refl _ s) _⟩
  | pwrFailNAssert => exact ⟨_, rfl, pwrFailLow_keeps (.refl _ s)⟩
  | pwrFailNDeassert => exact ⟨_, rfl, pwrFailHigh_keeps (.refl _ s)⟩
  | thermalSample temps => exact ⟨_, rfl, thermalSample_keeps (.refl _ s) _⟩
  | pllUnlock memory => exact ⟨_, rfl, pllUnlock_keeps (.refl _ s) _⟩
  | crystalStop => exact ⟨_, rfl, crystalStop_keeps (.refl _ s)⟩
  | vddqDipInDeep => exact ⟨_, rfl, vddqDip_keeps (.refl _ s)⟩
  | idleEntry => exact ⟨_, rfl, idleEntry_keeps (.refl _ s)⟩
  | powerStateReached => exact ⟨_, rfl, powerStateReached_keeps (.refl _ s)⟩
  | wakeNAssert => exact ⟨_, rfl, wakeN_keeps (.refl _ s)⟩
  | hostAccessWake fn access => exact ⟨_, rfl, hostWake_keeps (.refl _ s) _ _⟩
  | wakeDone bad failed => exact ⟨_, rfl, wakeDone_keeps (.refl _ s) _ _⟩
  | porNAssert => exact ⟨_, rfl, porAssert_keeps (.refl _ s)⟩
  | porNRelease straps => exact ⟨_, rfl, porRelease_keeps (.refl _ s) _⟩
  | coldStartStepDone info => exact ⟨_, rfl, coldStartStep_keeps (.refl _ s) _⟩
  | perstNAssert port => exact ⟨_, rfl, perstAssert_keeps (.refl _ s) _⟩
  | perstNRelease port => exact ⟨_, rfl, perstRelease_keeps (.refl _ s) _⟩
  | hotReset fn => exact ⟨_, rfl, linkResetBy_keeps (.refl _ s) _ _⟩
  | linkDisable fn => exact ⟨_, rfl, linkResetBy_keeps (.refl _ s) _ _⟩
  | surpriseLinkDown fn => exact ⟨_, rfl, surpriseDown_keeps (.refl _ s) _⟩
  | linkUp fn cfg => exact ⟨_, rfl, linkUp_keeps (.refl _ s) _ _⟩
  | functionLevelReset fn => exact ⟨_, rfl, State.ioAccess_keeps (.refl _ s) fn _ fun _ k => functionReset_keeps k _⟩
  | cxlReset fn => exact ⟨_, rfl, State.ioAccess_keeps (.refl _ s) fn _ fun _ k => cxlReset_keeps k _⟩
  | hostViral fn => exact ⟨_, rfl, hostViral_keeps (.refl _ s) _⟩
  | ideMacFailure fn => exact ⟨_, rfl, ideMacFailure_keeps (.refl _ s) _⟩
  | flitError fn => exact ⟨_, rfl, flitError_keeps (.refl _ s) _⟩
  | spdmDoeMessage fn m => exact ⟨_, rfl, State.ioAccess_keeps (.refl _ s) fn _ fun _ k => spdm_keeps k _ _⟩
  | pmDumpLatch sramUe => exact ⟨_, rfl, pmLatch_keeps (.refl _ s) _⟩
  | pmParityError counter => exact ⟨_, rfl, pmParity_keeps (.refl _ s) _⟩
  | linkRecoveryEntry fn => exact ⟨_, rfl, recoveryEntry_keeps (.refl _ s) _⟩
  | linkRecoveryExit fn => exact ⟨_, rfl, recoveryExit_keeps (.refl _ s) _⟩
  | vddSramDipInDeep groups => exact ⟨_, rfl, vddSramDip_keeps (.refl _ s) _⟩
  | trstNChange high => exact ⟨_, rfl, trstChange_keeps (.refl _ s) _⟩
  | malformedSidebandTransaction => exact ⟨_, rfl, sidebandMalformed_keeps (.refl _ s)⟩

/-- A command whose next state is `t` comes to it by effects on the parts that `touched` names. -/
theorem keeps_of_exec {F : Part → Prop} {c : Instr} {s t : State} (hF : ∀ p ∈ touched c, F p) (h : exec c s = .next t) : Keeps F s t := by
  obtain ⟨u, hu, keeps⟩ := exec_keeps c s
  obtain rfl : u = t := Host.Outcome.next.inj (hu.symm.trans h)
  exact keeps.mono fun p touch => hF p (List.contains_iff_mem.mp touch)

theorem step_of_cons {c : Instr} {s : State} {rest : List Instr} (h : s.pending = c :: rest) :
    step s = exec c { s with pending := rest } := by
  rw [step, h]

theorem step_of_nil {s : State} (h : s.pending = []) : step s = .next s.tick := by
  rw [step, h]

/-- A cycle of time may change every part. -/
theorem State.tick_keeps_all (s : State) : Keeps (fun _ => True) s s.tick :=
  have all : True := trivial
  State.tick_keeps (.refl _ s)

/-- A step is an effect on the state without the command that it takes off the queue. -/
theorem step_keeps {s t : State} (h : step s = .next t) : Keeps (fun _ => True) { s with pending := s.pending.tail } t := by
  cases queue : s.pending with
  | nil =>
    rw [step_of_nil queue] at h
    obtain rfl : s.tick = t := Host.Outcome.next.inj h
    rw [List.tail_nil, ← queue]
    exact s.tick_keeps_all
  | cons c rest =>
    rw [step_of_cons queue] at h
    exact keeps_of_exec (fun _ _ => trivial) h

/-! ### The obligations -/

/-- Settles O3: a step keeps soundness (`Keeps.sound`), of which the queue is no part. -/
theorem stepKeepsTheDeviceSound : Obligations.StepKeepsTheDeviceSound :=
  fun _ _ ⟨fns, ports, chans, cells⟩ h => (step_keeps h).sound ⟨fns, ports, chans, cells⟩

/-- Settles O5: what is permanent is part of what a step keeps. -/
theorem stepKeepsWhatIsPermanent : Obligations.StepKeepsWhatIsPermanent := by
  intro s t h
  have keeps := step_keeps h
  exact ⟨keeps.sent, keeps.draws, keeps.burned, keeps.burns, keeps.svn⟩

/-- Settles O6: a command keeps the parts that `touched` does not name, and the queue. -/
theorem commandsChangeOnlyWhatTheyTouch : Obligations.CommandsChangeOnlyWhatTheyTouch := by
  intro c s t h
  have keeps : Keeps (· ∈ touched c) s t := keeps_of_exec (fun _ touch => touch) h
  exact ⟨keeps.same, keeps.queue⟩

/-- Settles O7, from the frame of every command. -/
theorem commandsThatStoreNothingKeepMemory : Obligations.CommandsThatStoreNothingKeepMemory := by
  intro c s t k untouched h
  have same : t.dram = s.dram := (commandsChangeOnlyWhatTheyTouch c s t h).1 .dram untouched
  rw [same]

/-- Settles O1. -/
theorem stepRunsTheFrontCommand : Obligations.StepRunsTheFrontCommand :=
  ⟨fun _ _ _ => step_of_cons, fun _ => step_of_nil⟩

/-- Settles O2: no effect touches the queue. -/
theorem stepTakesOneCommand : Obligations.StepTakesOneCommand :=
  fun _ _ h => (step_keeps h).queue

/-- Settles O4. -/
theorem resetIsSound : Obligations.ResetIsSound :=
  ⟨⟨rfl, rfl, rfl, rfl⟩, rfl⟩

/-! ### The codeword of a line (07 R227, R231) -/

theorem length_lineBytes (d : Line) : (lineBytes d).length = 64 := by
  rw [lineBytes, List.length_map, List.length_range]

theorem Stored.length_content (x : Stored) : x.content.length = 68 := by
  simp only [Stored.content, List.length_append, List.length_map, length_lineBytes, length_le]

/-- The register of the division holds at most as many coefficients as the generator has below its leading one. -/
theorem length_rsStep_le (low reg : List Nat) (sym : Nat) : (rsStep low reg sym).length ≤ low.length := by
  rw [rsStep, List.length_zipWith]
  exact min_le_right _ _

/-- At most 12 check symbols. -/
theorem length_rsCheck_le (info : List Nat) : (rsCheck info).length ≤ 12 := by
  have low : (rsGen.take 12).reverse.length ≤ 12 := by
    rw [List.length_reverse, List.length_take]
    exact min_le_left _ _
  induction info using List.reverseRecOn with
  | nil => rw [rsCheck, List.foldl_nil, List.length_replicate]
  | append_singleton info sym _ =>
    rw [rsCheck, List.foldl_concat]
    exact (length_rsStep_le _ _ _).trans low

/-- A stored line takes at most 81 cells: its codeword, and the mark that it is written. -/
theorem length_codeword_le (cla : Nat) (x : Stored) :
    ((rsEncode cla x.content).map (BitVec.ofNat 8) ++ [1#8]).length ≤ 81 := by
  have check := length_rsCheck_le (virtualSyms (foldedAddr cla) ++ x.content)
  simp only [rsEncode, List.length_append, List.length_map, List.length_singleton, Stored.length_content]
  omega

theorem State.putStored_dram (s : State) (c cla : Nat) (x : Stored) :
    (s.putStored c cla x).dram =
      memWrite s.dram (lineKey c (s.remap c cla)) ((rsEncode cla x.content).map (BitVec.ofNat 8) ++ [1#8]) := by
  rw [State.putStored]

/-- Settles O8: a codeword is written into the cells of its line. -/
theorem storedCodewordChangesItsLineOnly : Obligations.StoredCodewordChangesItsLineOnly := by
  intro s c cla w k outside
  rw [State.putStored_dram]
  exact memGet_memWrite_other _ _ _ (outside.imp_right (Nat.add_le_add_left (length_codeword_le cla w) _).trans)

end Sys2Proof.Machine
end

section
/-! PROOFS. What every command has in common. One that is admitted leaves the state its body leads to, but for its answer, the counts of
answers and the progress of rings (`State.Ends`); one that a check refuses leaves the state it found (14 R499, R500, R517). -/

set_option Elab.async false

namespace Sys2Proof.Machine
open Sys2Proof

/-! ### Answers -/

@[simp] theorem ans_ne_owedLater (st obj : Nat) (data : Bytes) : ans st obj data ≠ owedLater :=
  fun h => (by decide : rcSuccess ≠ 0xFFFF) (congrArg Reply.rc h)

@[simp] theorem accepted_ne_owedLater (h obj : Nat) : accepted h obj ≠ owedLater :=
  fun e => (by decide : rcSuccess ≠ 0xFFFF) (congrArg Reply.rc e)

theorem std_ne_owedLater {rc : Nat} (h : rc ≠ 0xFFFF) (data : Bytes) : std rc data ≠ owedLater :=
  fun e => h (congrArg Reply.rc e)

/-! ### What a command leaves -/

/-- A command begun in `s` whose body led to `u` and answered `r` has ended in `t`. -/
structure State.Ends (s u t : State) (p : Path) (r : Reply) : Prop where
  keeps   : Keeps (· ∈ [.out, .hp, .mb, .pm]) u t
  essence : t.essence = u.essence
  answers : s.Answers t p r

namespace State.Ends

variable {s u t : State} {p : Path} {r : Reply}

/-- Of the mailboxes only the counts of answers change while a command is answered. -/
theorem mb (h : s.Ends u t p r) : t.mb = { u.mb with nF := t.mb.nF, nS := t.mb.nS } := State.mb_of_essence h.essence

theorem rg (h : s.Ends u t p r) : t.rg = u.rg := State.rg_of_essence h.essence
theorem ns (h : s.Ends u t p r) : t.ns = u.ns := State.ns_of_essence h.essence
theorem tr (h : s.Ends u t p r) : t.tr = u.tr := State.tr_of_essence h.essence
theorem cd (h : s.Ends u t p r) : t.cd = u.cd := State.cd_of_essence h.essence
theorem lp (h : s.Ends u t p r) : t.lp = u.lp := State.lp_of_essence h.essence
theorem fu (h : s.Ends u t p r) : t.fu = u.fu := State.fu_of_essence h.essence
theorem sx (h : s.Ends u t p r) : t.sx = u.sx := State.sx_of_essence h.essence
theorem mc (h : s.Ends u t p r) : t.mc = u.mc := State.mc_of_essence h.essence
theorem qe (h : s.Ends u t p r) : t.qe = u.qe := State.qe_of_essence h.essence
theorem sc (h : s.Ends u t p r) : t.sc = u.sc := State.sc_of_essence h.essence
theorem tu (h : s.Ends u t p r) : t.tu = u.tu := State.tu_of_essence h.essence
theorem ce (h : s.Ends u t p r) : t.ce = u.ce := State.ce_of_essence h.essence
theorem fc (h : s.Ends u t p r) : t.fc = u.fc := State.fc_of_essence h.essence
theorem pw (h : s.Ends u t p r) : t.pw = u.pw := State.pw_of_essence h.essence
theorem now (h : s.Ends u t p r) : t.now = u.now := State.now_of_essence h.essence

theorem sessions (h : s.Ends u t p r) : t.mb.sessions = u.mb.sessions := (congrArg Mb.sessions h.mb :)
theorem ops (h : s.Ends u t p r) : t.mb.ops = u.mb.ops := (congrArg Mb.ops h.mb :)

/-- A session is found as the body left it. -/
theorem session (h : s.Ends u t p r) (n w : Nat) : t.session n w = u.session n w := by
  rw [State.session, h.sessions, State.session]

end State.Ends

/-- What an admitted command leaves. -/
theorem State.Admits.runs {s : State} {p : Path} {op : Nat} {b : Bytes} (h : s.Admits p op b) (body : Body)
    (hr : (body p b (s.seen p)).2 ≠ owedLater) (sent : (s.seen p).out <+: (body p b (s.seen p)).1.out) :
    s.Ends (body p b (s.seen p)).1 (s.command p op b body) p (body p b (s.seen p)).2 := by
  obtain ⟨keeps, essence, answers⟩ := State.command_admitted h body hr
  exact ⟨keeps, essence, answers (s.seen_out p ▸ sent)⟩

/-- What an admitted command leaves, by what its body does in the state it finds. -/
theorem State.Admits.ends {s : State} {p : Path} {op : Nat} {b : Bytes} (h : s.Admits p op b) {body : Body} {u : State} {r : Reply}
    (does : body p b (s.seen p) = (u, r)) (hr : r ≠ owedLater) (sent : (s.seen p).out <+: u.out) :
    s.Ends u (s.command p op b body) p r := by
  have runs := h.runs body (by rwa [does]) (by rwa [does])
  rwa [does] at runs

/-- What a command that a check refuses leaves. -/
theorem State.refused_ends {s : State} {p : Path} {op : Nat} {b : Bytes} {i : CmdInfo} {r : Reply} (run : s.arrival p op = .run)
    (hi : cmdInfo op = some i) (hn : (s.seen p).admission i p op b = some r) (hr : r ≠ owedLater) (body : Body) :
    s.Ends (s.seen p) (s.command p op b body) p r := by
  obtain ⟨keeps, essence, answers⟩ := State.command_refused run hi hn hr body
  exact ⟨keeps, essence, answers⟩

/-! ### What a command finds -/

theorem State.seen_fnExists (s : State) (p : Path) (f : Nat) : (s.seen p).fnExists f = s.fnExists f :=
  (congrArg HostFn.exist (s.seen_fnAt_essence p f) :)

theorem State.seen_isMgmt (s : State) (p : Path) (w : Nat) : (s.seen p).isMgmt w = s.isMgmt w := by
  rw [State.isMgmt, State.seen_mb, State.seen_fnExists, State.isMgmt]

theorem State.seen_isFrozen (s : State) (p : Path) (f : Nat) : (s.seen p).isFrozen f = s.isFrozen f := by
  rw [State.isFrozen, State.seen_mb, State.isFrozen]

theorem State.seen_session (s : State) (p : Path) (n w : Nat) : (s.seen p).session n w = s.session n w := by
  rw [State.session, State.seen_mb, State.session]

theorem State.countArrival_pw (s : State) (p : Path) : (s.countArrival p).pw = s.pw :=
  (State.countArrival_keeps (F := (· ∈ [.hp, .pm])) (.refl _ s) p (by decide) (by decide)).same .pw (by decide)

/-- A device that is not idle stays in its power state while a command arrives. -/
theorem State.seen_state {s : State} (h : s.pw.state ≠ .idle) (p : Path) : (s.seen p).pw.state = s.pw.state := by
  have idle : ¬(s.countArrival p).pw.state = .idle := by rwa [State.countArrival_pw]
  rw [State.seen, State.count_pw, State.leaveIdle]
  dsimp only
  rw [if_neg idle]
  exact (congrArg Pw.state (s.countArrival_pw p) :)

/-! ### Refusals -/

section
variable {s : State} {p : Path} {op : Nat} {b : Bytes} {i : CmdInfo} (run : s.arrival p op = .run) (hi : cmdInfo op = some i)
  (naray : i.std = false) (long : i.len ≤ b.length) (short : b.length ≤ pathMax p) (body : Body)
include run hi naray long short

/-- A management command of a principal without management level completes NOT_PERMITTED (14 R499, R500). -/
theorem State.command_notPermitted (level : i.mgmt = true) (low : s.isMgmt (who p) = false) :
    s.Ends (s.seen p) (s.command p op b body) p (ans stNotPermitted (rd b 4 4)) := by
  refine State.refused_ends run hi ?_ (ans_ne_owedLater _ _ _) body
  have length : ¬(b.length < i.len ∨ pathMax p < b.length) := by omega
  simp [State.admission, length, naray, level, State.seen_isMgmt, low, refuse]

/-- A command of a frozen function that is open to every principal but not to a frozen one completes FROZEN (14 R517). -/
theorem State.command_frozen (level : i.mgmt = false) (designate : op ≠ 0xC030) (closed : i.frozen = false) (fn : who p < 4)
    (frozen : s.isFrozen (who p) = true) (power : s.pw.state = .run) (safe : s.fc.safe = false) :
    s.Ends (s.seen p) (s.command p op b body) p (ans stFrozen (rd b 4 4)) := by
  refine State.refused_ends run hi ?_ (ans_ne_owedLater _ _ _) body
  have length : ¬(b.length < i.len ∨ pathMax p < b.length) := by omega
  have awake : (s.seen p).pw.state = .run := (State.seen_state (by rw [power]; decide) p).trans power
  simp [State.admission, length, naray, level, designate, closed, fn, awake, State.seen_isFrozen, frozen, State.seen_fc, safe, refuse]

end

/-- Settles O9: the level is checked before the body runs. -/
theorem managementCommandsNeedTheLevel : Obligations.ManagementCommandsNeedTheLevel := by
  intro s p b low
  refine ⟨fun run long short => ?_, fun run long short => ?_, fun run long short => ?_⟩
  · have ends := State.command_notPermitted run rfl rfl long short regionCfg rfl low
    exact ⟨_, rfl, ends.answers, by rw [ends.sessions, State.seen_mb]⟩
  · have ends := State.command_notPermitted run rfl rfl long short mcSpeed rfl low
    exact ⟨_, rfl, ends.answers, by rw [ends.mc, State.seen_mc]⟩
  · have ends := State.command_notPermitted run rfl rfl long short fuseBurn rfl low
    exact ⟨_, rfl, ends.answers, by rw [ends.fu, State.seen_fu]⟩

/-- Settles O10: freezing is checked before the body runs. -/
theorem frozenFunctionsAreRefused : Obligations.FrozenFunctionsAreRefused := by
  intro s p b fn frozen power safe
  refine ⟨fun run long short => ?_, fun run long short => ?_⟩
  · have ends := State.command_frozen run rfl rfl long short qeFreeRing rfl (by decide) rfl fn frozen power safe
    exact ⟨_, rfl, ends.answers, by rw [ends.qe, State.seen_qe]⟩
  · have ends := State.command_frozen run rfl rfl long short qeFlush rfl (by decide) rfl fn frozen power safe
    exact ⟨_, rfl, ends.answers, by rw [ends.qe, State.seen_qe]⟩

end Sys2Proof.Machine
end

section
/-! PROOFS. Fields of payloads and staging sessions (14 R505 to R513). A staged command puts its object into the session it names by
`State.stage`; sessions open under the first free number, and end by abort, commit and idle time. -/

set_option Elab.async false

namespace Sys2Proof.Machine
open Sys2Proof

/-! ### One field (14 R512) -/

theorem applyRules_singleton_entries (r : FieldRule) (b : Bytes) :
    (applyRules [r] b).2 = if r.fix (rd b r.off r.len) = rd b r.off r.len then []
      else [(r.off, rd b r.off r.len, r.fix (rd b r.off r.len))] := by
  rw [applyRules_eq, List.foldl_cons, List.foldl_nil, fieldStep]
  split_ifs <;> rfl

/-- Settles O14. -/
theorem fieldsAreAppliedOneByOne : Obligations.FieldsAreAppliedOneByOne := by
  intro r b inside fits
  have only {P : FieldRule → Prop} (h : P r) : ∀ q ∈ [r], P q := List.forall_mem_singleton.mpr h
  exact ⟨applyRules_field [r] b r (List.mem_singleton_self r) (List.pairwise_singleton _ r) (only ⟨inside, fits⟩),
    fun o l apart => applyRules_other [r] b o l (only inside) (only apart), applyRules_singleton_entries r b⟩

/-! ### What a staged command does -/

/-- A session with one more object in it, in place of an earlier one of the same object, and its clamps reported (14 R506, R513). -/
def Session.stages (x : Session) (kind op obj lvl now : Nat) (c : Bytes × List (Nat × Nat × Nat)) : Session :=
  { x with
    staged := x.staged.filter (fun z => !z.sameAs op obj lvl) ++ [⟨op, obj, lvl, c.1⟩]
    report := x.report.add (clampEntries op kind obj 0 c.2)
    lastAt := now }

/-- The sessions with `y` in place of those of its number. -/
def State.putSession (s : State) (y : Session) : State :=
  { s with mb := { s.mb with sessions := s.mb.sessions.map (fun z => if z.number == y.number then y else z) } }

/-- Staging an object that no other session stages into a session with room. -/
theorem State.stage_eq {s : State} {p : Path} {op obj lvl : Nat} {b : Bytes} {x : Session} (kind : Nat) (rules : List FieldRule)
    (session : s.session (rd b 0 2) (who p) = some x)
    (alone : ∀ y ∈ s.mb.sessions, y.number ≠ x.number → ∀ z ∈ y.staged, z.sameAs op obj lvl = false)
    (room : (x.staged.filter (fun z => !z.sameAs op obj lvl)).length < 16384) :
    s.stage p op kind obj lvl true b rules =
      (s.putSession (x.stages kind op obj lvl s.now (applyRules rules b)), ans (okStatus (applyRules rules b).2) obj) := by
  have free : s.mb.sessions.any (fun y => y.number != x.number && y.staged.any (fun z => z.sameAs op obj lvl)) = false := by
    rw [List.any_eq_false]
    intro y hy
    by_cases other : y.number = x.number
    · simp [other]
    · simpa [other] using alone y hy other
  rw [State.stage, session]
  simp only [free, not_le.mpr room, if_false, Bool.not_true, Bool.false_eq_true]
  rfl

/-- What a principal's number names, after the sessions of that number were replaced. -/
theorem find?_putSession {n w : Nat} {y : Session} (number : y.number = n) (owner : y.who = w) (l : List Session) {x : Session}
    (h : l.find? (fun z => z.number == n && z.who == w) = some x) :
    (l.map (fun z => if z.number == y.number then y else z)).find? (fun z => z.number == n && z.who == w) = some y := by
  subst number owner
  induction l with
  | nil => cases h
  | cons z l ih =>
    by_cases same : z.number = y.number
    · simp [same]
    · simp only [List.find?_cons, List.map_cons, beq_eq_false_iff_ne.mpr same, Bool.false_and, Bool.false_eq_true, if_false] at h ⊢
      exact ih h

/-- The session that a principal's number names is the one put there. -/
theorem State.putSession_session {s : State} {n w : Nat} {x y : Session} (h : s.session n w = some x) (number : y.number = x.number)
    (owner : y.who = x.who) : (s.putSession y).session n w = some y := by
  have found := List.find?_some (p := fun z : Session => z.number == n && z.who == w) h
  simp only [Bool.and_eq_true, beq_iff_eq] at found
  exact find?_putSession (number.trans found.1) (owner.trans found.2) _ h

/-- A command whose body stages its object, in range, where it may join its session. -/
theorem State.CanStage.stages {s : State} {p : Path} {op obj lvl : Nat} {b : Bytes} {x : Session} (h : s.CanStage p op obj lvl b x)
    {body : Body} {kind : Nat} {inRange : Bool} {rules : List FieldRule}
    (does : body p b (s.seen p) = (s.seen p).stage p op kind obj lvl inRange b rules) (range : inRange = true) :
    s.StagesObject (s.command p op b body) op obj lvl rules p b x := by
  have session : (s.seen p).session (rd b 0 2) (who p) = some x := (s.seen_session p _ _).trans h.session
  subst range
  rw [State.stage_eq kind rules session (by rw [State.seen_mb]; exact h.alone) h.room] at does
  have ends := h.admits.ends does (ans_ne_owedLater _ _ _) List.prefix_rfl
  exact ⟨_, (ends.session _ _).trans (State.putSession_session session rfl rfl), rfl, ends.answers⟩

/-! ### Rules that look at the state -/

theorem State.seen_tierRules (s : State) (p q : Path) (b : Bytes) : (s.seen p).tierRules q b = s.tierRules q b := by
  simp only [State.tierRules, State.stagedSize, State.seen_session, State.seen_rg]

theorem State.seen_queueRules (s : State) (p : Path) (b : Bytes) : (s.seen p).queueRules b = s.queueRules b := by
  simp only [State.queueRules, State.queueAt, State.seen_qe]

theorem State.seen_bindRules (s : State) (p : Path) (b : Bytes) : (s.seen p).bindRules b = s.bindRules b := by
  simp only [State.bindRules, State.boundSet, State.seen_ce]

theorem tierCfg_stages (s : State) (p : Path) (b : Bytes) :
    tierCfg p b (s.seen p) = (s.seen p).stage p 0xC110 2 (rd b 4 4) 0 (decide (rd b 4 4 < 64)) b (s.tierRules p b) := by
  rw [tierCfg, State.seen_tierRules]

theorem qeQueueCfg_stages (s : State) (p : Path) (b : Bytes) :
    qeQueueCfg p b (s.seen p) = (s.seen p).stage p 0xC230 9 (rd b 4 4) 0 (decide (rd b 4 4 < 262144)) b (s.queueRules b) := by
  rw [qeQueueCfg, State.seen_queueRules]

/-- CE_QE_BIND stages its binding where its set is not bound to the other event kind (13 R482). -/
theorem ceQeBind_stages {s : State} {p : Path} {b : Bytes}
    (free : (if rd b 4 4 = 0 then s.ce.bindP else s.ce.bindQ).any
      (fun x => x.set == (if rd b 8 2 < 4096 ∨ rd b 8 2 = 0xFFFF then rd b 8 2 else s.boundSet (rd b 4 4))) = false) :
    ceQeBind p b (s.seen p) = (s.seen p).stage p 0xC302 12 (rd b 4 4) 0 (decide (rd b 4 4 < 2)) b (s.bindRules b) := by
  have bound (o : Nat) : (s.seen p).boundSet o = s.boundSet o := by simp only [State.boundSet, State.seen_ce]
  simp only [ceQeBind, State.seen_ce, bound, free, Bool.and_false, Bool.false_eq_true, if_false, State.seen_bindRules]

/-- Settles O12: the body of each command stages its object. -/
theorem regionAndClassCommandsAreStaged : Obligations.RegionAndClassCommandsAreStaged := by
  intro s p b x
  exact ⟨fun range can => ⟨_, rfl, can.stages rfl (decide_eq_true range)⟩,
    fun range can => ⟨_, rfl, can.stages rfl (decide_eq_true range)⟩,
    fun range can => ⟨_, rfl, can.stages (tierCfg_stages s p b) (decide_eq_true range)⟩,
    fun range can => ⟨_, rfl, can.stages rfl (decide_eq_true range)⟩,
    fun range can => ⟨_, rfl, can.stages rfl (decide_eq_true range)⟩,
    fun range can => ⟨_, rfl, can.stages rfl (decide_eq_true range)⟩,
    fun range can => ⟨_, rfl, can.stages rfl (decide_eq_true range)⟩⟩

/-- Settles O13: the body of each command stages its object. -/
theorem queueAndCounterCommandsAreStaged : Obligations.QueueAndCounterCommandsAreStaged := by
  intro s p b x
  exact ⟨fun range can => ⟨_, rfl, can.stages (qeQueueCfg_stages s p b) (decide_eq_true range)⟩,
    fun range can => ⟨_, rfl, can.stages rfl (decide_eq_true range)⟩,
    fun range can => ⟨_, rfl, can.stages rfl (decide_eq_true range)⟩,
    fun range can => ⟨_, rfl, can.stages rfl (decide_eq_true range)⟩,
    fun range can => ⟨_, rfl, can.stages rfl (decide_eq_true range)⟩,
    fun range can => ⟨_, rfl, can.stages rfl (decide_eq_true range)⟩,
    fun range can => ⟨_, rfl, can.stages rfl (decide_eq_true range)⟩,
    fun range free can => ⟨_, rfl, can.stages (ceQeBind_stages free) (decide_eq_true range)⟩⟩

/-! ### Session numbers (14 R505, R513; log 11) -/

theorem le_firstFree (used : Nat → Bool) (fuel lo : Nat) : lo ≤ firstFree used fuel lo := by
  induction fuel generalizing lo with
  | zero => exact le_refl lo
  | succ fuel ih =>
    rw [firstFree]
    split_ifs
    · exact (Nat.le_succ lo).trans (ih (lo + 1))
    · exact le_refl lo

/-- Where fewer numbers are used than are tried, the first free one is free. -/
theorem used_firstFree (used : Nat → Bool) (fuel lo : Nat) (l : List Nat) (within : ∀ n, lo ≤ n → used n = true → n ∈ l)
    (few : l.length < fuel) : used (firstFree used fuel lo) = false := by
  induction fuel generalizing lo l with
  | zero => exact absurd few (Nat.not_lt_zero _)
  | succ fuel ih =>
    rw [firstFree]
    split_ifs with taken
    · refine ih (lo + 1) (l.erase lo) (fun n above hn => ?_) ?_
      · exact (List.mem_erase_of_ne (by omega)).mpr (within n (by omega) hn)
      · have hlo : lo ∈ l := within lo (le_refl lo) taken
        have := List.length_pos_of_mem hlo
        rw [List.length_erase_of_mem hlo]
        omega
    · exact Bool.eq_false_iff.mpr taken

/-- The number that STAGE_OPEN gives. -/
def State.newSession (s : State) : Nat :=
  firstFree (fun n => s.mb.sessions.any (fun x => x.number == n) || s.mb.retained.any (fun x => x.2.1 == n))
    (s.mb.sessions.length + s.mb.retained.length + 1) 1

/-- A new number is that of no open session and of no retained report. -/
theorem State.newSession_free (s : State) :
    (∀ y ∈ s.mb.sessions, y.number ≠ s.newSession) ∧ ∀ y ∈ s.mb.retained, y.2.1 ≠ s.newSession := by
  have free : _ = false := used_firstFree
    (fun n => s.mb.sessions.any (fun x => x.number == n) || s.mb.retained.any (fun x => x.2.1 == n))
    (s.mb.sessions.length + s.mb.retained.length + 1) 1 (s.mb.sessions.map (·.number) ++ s.mb.retained.map (·.2.1))
    (fun n _ hn => by simpa using hn) (by simp)
  rw [Bool.or_eq_false_iff, List.any_eq_false, List.any_eq_false] at free
  exact ⟨fun y hy e => free.1 y hy (beq_iff_eq.mpr e), fun y hy e => free.2 y hy (beq_iff_eq.mpr e)⟩

/-- A state with one more session open. -/
def State.withSession (s : State) (x : Session) : State := { s with mb := { s.mb with sessions := s.mb.sessions ++ [x] } }

/-- STAGE_OPEN where fewer than 4 sessions are open. -/
theorem stageOpen_opens {s : State} {p : Path} {b : Bytes} (h : s.Admits p 0xC000 b) (few : s.mb.sessions.length < 4) :
    (s.command p 0xC000 b stageOpen).mb.sessions = s.mb.sessions ++ [⟨s.newSession, who p, [], ⟨[], 0⟩, s.now⟩] ∧
      s.Answers (s.command p 0xC000 b stageOpen) p (ans stSuccess (rd b 4 4) (le 2 s.newSession)) := by
  have number : (s.seen p).newSession = s.newSession := by rw [State.newSession, State.seen_mb, State.newSession]
  have room : ¬4 ≤ (s.seen p).mb.sessions.length := by rw [State.seen_mb]; omega
  have does : stageOpen p b (s.seen p) = ((s.seen p).withSession ⟨(s.seen p).newSession, who p, [], ⟨[], 0⟩, (s.seen p).now⟩,
      ans stSuccess (rd b 4 4) (le 2 (s.seen p).newSession)) := if_neg room
  rw [number, State.seen_now] at does
  have ends := h.ends does (ans_ne_owedLater _ _ _) List.prefix_rfl
  exact ⟨by rw [ends.sessions, State.withSession, State.seen_mb], ends.answers⟩

/-! ### The ends of sessions (14 R509, R510, R513) -/

theorem stageAbort_ends {s : State} {p : Path} {b : Bytes} {x : Session} (h : s.Admits p 0xC002 b)
    (session : s.session (rd b 0 2) (who p) = some x) :
    (s.command p 0xC002 b stageAbort).mb.sessions = s.mb.sessions.filter (fun y => y.number != x.number) ∧
      s.Answers (s.command p 0xC002 b stageAbort) p (ans stSuccess (rd b 4 4)) := by
  have does : stageAbort p b (s.seen p) = ((s.seen p).endSession x.number, ans stSuccess (rd b 4 4)) := by
    rw [stageAbort, State.seen_session, session]
  have ends := h.ends does (ans_ne_owedLater _ _ _) List.prefix_rfl
  exact ⟨by rw [ends.sessions, State.endSession, State.seen_mb], ends.answers⟩

/-- Once the sessions of a session's number are gone, its number names none. -/
theorem State.session_endSession {s : State} {n w : Nat} {x : Session} (h : s.session n w = some x) (u : State) :
    (u.endSession x.number).session n w = none := by
  have found := List.find?_some (p := fun z : Session => z.number == n && z.who == w) h
  rw [Bool.and_eq_true, beq_iff_eq] at found
  rw [State.session, State.endSession, List.find?_eq_none, found.1]
  intro y hy named
  rw [Bool.and_eq_true, beq_iff_eq] at named
  exact absurd named.1 (bne_iff_ne.mp (List.mem_filter.mp hy).2)

/-- What a commit leaves of its session: it is closed, its report is retained, and the command is answered. -/
theorem stageCommit_closes {s : State} {p : Path} {b : Bytes} {x : Session} (session : s.session (rd b 0 2) (who p) = some x) :
    (stageCommit p b s).1.session (rd b 0 2) (who p) = none ∧ (∃ r, (who p, x.number, r) ∈ (stageCommit p b s).1.mb.retained) ∧
      (stageCommit p b s).2 ≠ owedLater := by
  rw [stageCommit, session]
  refine ⟨?_, ⟨_, List.mem_append_right _ (List.mem_singleton_self _)⟩, ans_ne_owedLater _ _ _⟩
  dsimp only
  rw [State.session, State.count_mb]
  exact State.session_endSession session _

/-- A commit ends its session and retains its report. -/
theorem stageCommit_ends {s : State} {p : Path} {b : Bytes} {x : Session} (h : s.Admits p 0xC001 b)
    (session : s.session (rd b 0 2) (who p) = some x) :
    (s.command p 0xC001 b stageCommit).session (rd b 0 2) (who p) = none ∧
      ∃ r, (who p, x.number, r) ∈ (s.command p 0xC001 b stageCommit).mb.retained := by
  have all : True := trivial
  have sent := (stageCommit_keeps (F := fun _ => True) (.refl _ (s.seen p)) p b).sent
  obtain ⟨closed, ⟨r, kept⟩, answered⟩ := stageCommit_closes ((s.seen_session p _ _).trans session)
  have ends := h.runs stageCommit answered sent
  exact ⟨by rw [ends.session, closed], r, by rw [ends.mb]; exact kept⟩

/-- A session that was idle for a second ends with a report (14 R509). -/
theorem sessionExpiry_ends {s : State} {n : Nat} {x : Session} (found : s.mb.sessions.find? (fun y => y.number == n) = some x) :
    ∃ t m, exec (.sessionIdleExpiry n) s = .next t ∧ t.mb.sessions = s.mb.sessions.filter (fun y => y.number != n) ∧
      t.now = max s.now (x.lastAt + 1000000000) ∧ t.fc.reports = s.fc.reports ++ [m] ∧ m.source = mbSessionExpired := by
  -- The state at the due time stays opaque, for unfolding `advance` leads the kernel to count up to the due time.
  obtain ⟨w, due⟩ : ∃ w, w = s.advance (x.lastAt + 1000000000) := ⟨_, rfl⟩
  have mb : w.mb = s.mb := by rw [due, State.advance_mb]
  have fc : w.fc = s.fc := by rw [due, State.advance_fc]
  have now : w.now = max s.now (x.lastAt + 1000000000) := by rw [due, State.advance_now]
  have does : sessionExpiry n s = (w.endSession n).report mbSessionExpired n (some x.who) := by
    rw [sessionExpiry, found, due]
  rw [← mb, ← fc, ← now]
  exact ⟨_, _, congrArg Host.Outcome.next does, rfl, rfl, State.report_reports .., rfl⟩

/-- Settles O15: each way a session opens or ends by its own lemma above. -/
theorem sessionsOpenAndEnd : Obligations.SessionsOpenAndEnd := by
  intro s p b
  refine ⟨fun h few => ?_, fun x h session => ⟨_, rfl, stageAbort_ends h session⟩, fun x h session => ?_,
    fun n x found => sessionExpiry_ends found⟩
  · obtain ⟨sessions, answers⟩ := stageOpen_opens h few
    exact ⟨_, _, rfl, sessions, answers⟩
  · obtain ⟨closed, r, kept⟩ := stageCommit_ends h session
    exact ⟨_, r, rfl, closed, kept⟩

/-- Settles O16: the new session has the first free number. -/
theorem sessionNumbersAreNew : Obligations.SessionNumbersAreNew := by
  intro s t p b h few executes
  obtain rfl : s.command p 0xC000 b stageOpen = t := Host.Outcome.next.inj executes
  obtain ⟨open_, retained⟩ := s.newSession_free
  exact ⟨_, (stageOpen_opens h few).1, rfl, rfl, le_firstFree _ _ _, fun y hy => open_ y hy, fun y hy => retained y hy⟩

end Sys2Proof.Machine
end

section
/-! PROOFS. Commands that set what they name at once: the standard commands that write (15 R560), and those that act on the management path
itself (14 R499, R516, R518; 02 R87). What a body does to its unit is stated once as the state it leads to; `State.Admits.ends` does the rest. -/

set_option Elab.async false

namespace Sys2Proof.Machine
open Sys2Proof

/-! ### Reports, and what else a command finds -/

/-- A fault that a command's body reports is reported by the command. -/
theorem State.Ends.reported {s u t : State} {p : Path} {r : Reply} {source : Nat} (h : s.Ends u t p r)
    (reported : (s.seen p).Reported u source) : s.Reported t source :=
  reported.congr (by rw [State.seen_fc]) (by rw [h.fc])

theorem State.seen_rr (s : State) (p : Path) : (s.seen p).rr = s.rr := (State.seen_keeps s p).same .rr (by decide)

theorem State.seen_region (s : State) (p : Path) (n : Nat) : (s.seen p).region n = s.region n := by
  rw [State.region, State.seen_rg, State.region]

theorem State.seen_regionAt (s : State) (p : Path) (dpa : Nat) : (s.seen p).regionAt dpa = s.regionAt dpa := by
  rw [State.regionAt, State.seen_rg, State.regionAt]

theorem State.seen_lineRegion (s : State) (p : Path) (l : Nat) : (s.seen p).lineRegion l = s.lineRegion l := by
  rw [State.lineRegion, State.seen_regionAt, State.lineRegion]

/-- Which lines are of counter sets follows from the regions and the sets. -/
theorem State.ctrLine_congr {s t : State} (rg : t.rg = s.rg) (ce : t.ce = s.ce) (l : Nat) : t.ctrLine l = s.ctrLine l := by
  have ctr (x : CSet) : t.ctrBase x = s.ctrBase x := by rw [State.ctrBase, State.region, rg]; rfl
  have status (x : CSet) : t.stBase x = s.stBase x := by rw [State.stBase, State.region, rg]; rfl
  rw [State.ctrLine, ce, State.ctrLine]
  simp only [ctr, status]

theorem State.fetchOf_congr {s t : State} (rr : t.rr = s.rr) (l : Nat) : t.fetchOf l = s.fetchOf l := by
  rw [State.fetchOf, rr, State.fetchOf]

/-- Where the near store holds a line follows from its entries and way groups. -/
theorem State.nsFind_congr {s t : State} (lines : t.ns.lines = s.ns.lines) (ways : t.ns.ways = s.ns.ways) (l : Nat) :
    t.nsFind l = s.nsFind l := by
  have live (w : Nat) : t.wayLive w = s.wayLive w := by rw [State.wayLive, ways]; rfl
  rw [State.nsFind, lines, State.nsFind]
  simp only [live]

/-! ### Lines in the near store -/

/-- A hit leaves every line where it is. -/
theorem State.nsFind_touched (s : State) (k node l : Nat) : ((s.nsTouch k).count node 0).nsFind l = s.nsFind l :=
  State.nsFind_congr (by rw [State.count_ns]; rfl) (by rw [State.count_ns]; rfl) l

/-- A line that no fetch waits for has nothing to settle. -/
theorem State.settle_of_none {s : State} {l : Nat} (none : s.fetchOf l = none) (install : Bool) : s.settle l install = s := by
  rw [State.settle, none]

/-- An engine's read of a line that the near store holds. -/
theorem State.orderedRead_hit {s : State} {l k : Nat} {e : NsLine} (none : s.fetchOf l = none) (hit : s.nsFind l = some (k, e)) (w : Nat) :
    s.orderedRead l w = ((s.nsTouch k).count (12 + nsQuad l) 0, ⟨e.data, e.poison, false, false⟩) := by
  rw [State.orderedRead, State.settle_of_none none, State.nsRead, State.nsServe, hit]

/-- Whether the write of a line breaks a capture or not, the near store stays as it was. -/
theorem State.captureBroken_ns (s : State) (l : Nat) : (s.captureBroken l).ns = s.ns :=
  (State.captureBroken_keeps (F := (· ∈ [.out, .dram, .rg, .tr, .cd, .lp, .sx, .mc, .bw, .fc, .pm])) (.refl _ s) l (by decide) (by decide)
    (by decide) (by decide) (by decide) (by decide) (by decide) (by decide) (by decide) (by decide) (by decide)).same .ns (by decide)

/-- A write of a line that the near store holds changes that line. -/
theorem State.nsWrite_hit_lines {s : State} {l k : Nat} {e : NsLine} (hit : s.nsFind l = some (k, e)) (w : Nat) (d : Line) (en : BitVec 64)
    (poison : Bool) : oget (s.nsWrite l w d en poison).ns.lines k =
      some ⟨nsTag l, true, poison || (!decide (en = fullEn) && e.poison), w, mergeLine e.data d en⟩ := by
  have ns := s.captureBroken_ns l
  have still : (s.captureBroken l).nsFind l = some (k, e) := (State.nsFind_congr (by rw [ns]) (by rw [ns]) l).trans hit
  rw [State.nsWrite]
  simp only [still, State.count_ns]
  simp [State.nsTouch, State.nsSetAt]

/-- An engine's write that the owner mask does not allow is dropped and reported (01 R35, R37). -/
theorem State.denyEngine_reported (s : State) (dpa : Nat) : s.Reported (s.denyEngine 15 dpa) nmWriteDenied := by
  refine State.Reported.congr (State.report_reported _ nmWriteDenied dpa (some 15)) ?_ rfl
  rw [State.emit_fc, State.count_fc]

/-! ### Standard commands that write -/

section
variable {s : State} {p : Path} {b : Bytes}

theorem clearEvents_ends (h : s.Admits p 0x0101 b) (log : rd b 0 1 < 4) (all : (rd b 1 1).testBit 0 = true) :
    ∃ t, exec (.clearEventRecords p b) s = .next t ∧ t.mb.evlog = lset s.mb.evlog (rd b 0 1) [] ∧ s.Answers t p (std rcSuccess) := by
  have does : clearEvents p b (s.seen p) = ({ s.seen p with mb := { (s.seen p).mb with
      evlog := lset (s.seen p).mb.evlog (rd b 0 1) [], evOver := lset (s.seen p).mb.evOver (rd b 0 1) (0, 0, 0) } }, std rcSuccess) := by
    simp [clearEvents, not_le.mpr log, all]
  have ends := h.ends does (std_ne_owedLater (by decide) _) List.prefix_rfl
  exact ⟨_, rfl, by rw [ends.mb, State.seen_mb], ends.answers⟩

/-- Vectors 0 and 1 of the interrupt policy are kept as given. -/
theorem setPolicy_ends (h : s.Admits p 0x0103 b) (small : ∀ i < 4, rd b i 1 < 2) :
    ∃ t, exec (.setEventInterruptPolicy p b) s = .next t ∧ t.mb.policy = (List.range 4).map (fun i => rd b i 1) ∧
      s.Answers t p (std rcSuccess) := by
  have legal : ((List.range 4).map (fun i => rd b i 1)).any (fun x => decide (2 ≤ x % 4) || decide (x / 16 ≠ 0)) = false := by
    rw [List.any_map, List.any_eq_false]
    intro i hi
    have := small i (List.mem_range.mp hi)
    simp only [Function.comp_apply, Bool.or_eq_true, decide_eq_true_eq, not_or]
    omega
  have same : ((List.range 4).map (fun i => rd b i 1)).map (fun x => x % 4) = (List.range 4).map (fun i => rd b i 1) := by
    rw [List.map_map]
    refine List.map_congr_left fun i hi => ?_
    have := small i (List.mem_range.mp hi)
    simp only [Function.comp_apply]
    omega
  have does : setPolicy p b (s.seen p) =
      ({ s.seen p with mb := { (s.seen p).mb with policy := (List.range 4).map (fun i => rd b i 1) } }, std rcSuccess) := by
    simp only [setPolicy, legal, same, Bool.false_eq_true, if_false]
  have ends := h.ends does (std_ne_owedLater (by decide) _) List.prefix_rfl
  exact ⟨_, rfl, by rw [ends.mb], ends.answers⟩

theorem setTimestamp_ends (h : s.Admits p 0x0301 b) :
    ∃ t, exec (.setTimestamp p b) s = .next t ∧ (t.mb.tsBase + s.now) % 2 ^ 64 = rd b 0 8 % 2 ^ 64 ∧ s.Answers t p (std rcSuccess) := by
  have ends := h.ends (body := setTimestamp) rfl (std_ne_owedLater (by decide) _) List.prefix_rfl
  refine ⟨_, rfl, ?_, ends.answers⟩
  rw [ends.mb]
  dsimp only
  rw [State.seen_now]
  omega

theorem setAlerts_ends (h : s.Admits p 0x4202 b) :
    ∃ t, exec (.setAlertConfiguration p b) s = .next t ∧
      t.mb.alert.getD 1 0 = (if (rd b 0 1).testBit 1 then rd b 4 2 else s.mb.alert.getD 1 0) ∧
      t.mb.alert.getD 2 0 = (if (rd b 0 1).testBit 2 then rd b 6 2 else s.mb.alert.getD 2 0) ∧
      t.mb.alert.getD 3 0 = (if (rd b 0 1).testBit 3 then rd b 8 2 else s.mb.alert.getD 3 0) ∧ s.Answers t p (std rcSuccess) := by
  have ends := h.ends (body := setAlerts) rfl (std_ne_owedLater (by decide) _) List.prefix_rfl
  refine ⟨_, rfl, ?_, ?_, ?_, ends.answers⟩ <;> (rw [ends.mb]; dsimp only; rw [State.seen_mb]; rfl)

/-! ### Poison (01 R35, R37; 13 R681; log 43, 99) -/

variable {n o : Nat} {r : Region}

/-- A line given new data leaves the poison list. -/
theorem clearPoison_ends (h : s.Admits p 0x4302 b) (region : s.lineRegion (rd b 0 8 / 64) = some (n, r, o)) (owner : ownerHas r.owner 15 = true) :
    ∃ t : State, exec (.clearPoison p b) s = .next (t.afterEngine 15) ∧ rd b 0 8 / 64 * 64 ∉ t.mb.poison ∧ s.Answers t p (std rcSuccess) := by
  have all : True := trivial
  have sent := (clearPoison_keeps (F := fun _ => True) (.refl _ (s.seen p)) p b).sent
  have clears : rd b 0 8 / 64 * 64 ∉ (clearPoison p b (s.seen p)).1.mb.poison ∧ (clearPoison p b (s.seen p)).2 = std rcSuccess := by
    simp [clearPoison, State.seen_lineRegion, region, owner]
  have ends := h.runs clearPoison (by rw [clears.2]; exact std_ne_owedLater (by decide) _) sent
  rw [clears.2] at ends
  exact ⟨_, rfl, by rw [ends.mb]; exact clears.1, ends.answers⟩

/-- A line that the near store holds is written with its data and POISON 1. -/
theorem injectPoison_ends {k : Nat} {e : NsLine} (h : s.Admits p 0x4301 b) (region : s.lineRegion (rd b 0 8 / 64) = some (n, r, o))
    (owner : ownerHas r.owner 15 = true) (ctr : s.ctrLine (rd b 0 8 / 64) = none) (fetch : s.fetchOf (rd b 0 8 / 64) = none)
    (hit : s.nsFind (rd b 0 8 / 64) = some (k, e)) :
    ∃ t : State, exec (.injectPoison p b) s = .next (t.afterEngine 15) ∧
      oget t.ns.lines k = some ⟨nsTag (rd b 0 8 / 64), true, true, 15, mergeLine e.data e.data fullEn⟩ ∧ s.Answers t p (std rcSuccess) := by
  have all : True := trivial
  have sent := (injectPoison_keeps (F := fun _ => True) (.refl _ (s.seen p)) p b).sent
  have ns := s.seen_ns p
  have seen_hit : (s.seen p).nsFind (rd b 0 8 / 64) = some (k, e) := (State.nsFind_congr (by rw [ns]) (by rw [ns]) _).trans hit
  have read := State.orderedRead_hit ((State.fetchOf_congr (s.seen_rr p) _).trans fetch) seen_hit 15
  have does : injectPoison p b (s.seen p) =
      (((((s.seen p).nsTouch k).count (12 + nsQuad (rd b 0 8 / 64)) 0).nsWrite (rd b 0 8 / 64) 15 e.data fullEn true), std rcSuccess) := by
    simp [injectPoison, State.seen_lineRegion, region, State.ctrLine_congr (s.seen_rg p) (s.seen_ce p), ctr, owner, read]
  rw [does] at sent
  have ends := h.ends does (std_ne_owedLater (by decide) _) sent
  refine ⟨_, rfl, ?_, ends.answers⟩
  rw [ends.ns, State.nsWrite_hit_lines ((State.nsFind_touched _ _ _ _).trans seen_hit), Bool.true_or]

/-- Where the owner mask does not name requester NM, the write is dropped and reported. -/
theorem clearPoison_denied (h : s.Admits p 0x4302 b) (region : s.lineRegion (rd b 0 8 / 64) = some (n, r, o))
    (owner : ownerHas r.owner 15 = false) :
    ∃ t : State, exec (.clearPoison p b) s = .next (t.afterEngine 15) ∧ t.mb.poison = s.mb.poison ∧ t.ns = s.ns ∧
      s.Reported t nmWriteDenied := by
  have keeps := State.denyEngine_keeps (F := (· ∈ [.out, .fc, .pm])) (.refl _ (s.seen p)) 15 (rd b 0 8 / 64 * 64)
    (by decide) (by decide) (by decide)
  have does : clearPoison p b (s.seen p) = ((s.seen p).denyEngine 15 (rd b 0 8 / 64 * 64), std rcSuccess) := by
    simp [clearPoison, State.seen_lineRegion, region, owner]
  have ends := h.ends does (std_ne_owedLater (by decide) _) keeps.sent
  refine ⟨_, rfl, ?_, ?_, ends.reported (State.denyEngine_reported _ _)⟩
  · rw [ends.mb, keeps.same .mb (by decide), State.seen_mb]
  · rw [ends.ns, keeps.same .ns (by decide), State.seen_ns]

theorem injectPoison_denied (h : s.Admits p 0x4301 b) (region : s.lineRegion (rd b 0 8 / 64) = some (n, r, o))
    (owner : ownerHas r.owner 15 = false) (ctr : s.ctrLine (rd b 0 8 / 64) = none) :
    ∃ t : State, exec (.injectPoison p b) s = .next (t.afterEngine 15) ∧ t.ns = s.ns ∧ s.Reported t nmWriteDenied := by
  have keeps := State.denyEngine_keeps (F := (· ∈ [.out, .fc, .pm])) (.refl _ (s.seen p)) 15 (rd b 0 8 / 64 * 64)
    (by decide) (by decide) (by decide)
  have does : injectPoison p b (s.seen p) = ((s.seen p).denyEngine 15 (rd b 0 8 / 64 * 64), std rcSuccess) := by
    simp [injectPoison, State.seen_lineRegion, region, State.ctrLine_congr (s.seen_rg p) (s.seen_ce p), ctr, owner]
  have ends := h.ends does (std_ne_owedLater (by decide) _) keeps.sent
  refine ⟨_, rfl, ?_, ends.reported (State.denyEngine_reported _ _)⟩
  rw [ends.ns, keeps.same .ns (by decide), State.seen_ns]

end

/-- Settles O19: each command by its own lemma above. -/
theorem standardWritesSet : Obligations.StandardWritesSet := fun _ _ _ =>
  ⟨clearEvents_ends, setPolicy_ends, setTimestamp_ends, setAlerts_ends, fun _ _ _ => clearPoison_ends,
    fun _ _ _ _ _ h region owner ctr fetch hit => injectPoison_ends h region owner ctr fetch hit,
    fun _ _ _ region owner => ⟨fun h => clearPoison_denied h region owner, fun h ctr => injectPoison_denied h region owner ctr⟩⟩

/-! ### Fields of control commands (15 R533) -/

/-- The field of a range fits a payload that holds it. -/
theorem fRange_fits {off len lo hi : Nat} {b : Bytes} (inside : off + len ≤ b.length) (range : lo ≤ hi) (width : hi < 256 ^ len) :
    (fRange off len lo hi).Fits b :=
  ⟨inside, (clampN_le lo hi _ range).trans_lt width⟩

/-- The only field of a control command, where its VALID bit is 1. -/
theorem validRules_only {k off len lo hi : Nat} {b : Bytes} (valid : validBit b k = true) (inside : off + len ≤ b.length) (range : lo ≤ hi)
    (width : hi < 256 ^ len) : rd (applyRules (validRules b [(k, fRange off len lo hi)]) b).1 off len = clampN lo hi (rd b off len) :=
  validRules_field _ b k _ (List.mem_singleton_self _) valid (List.pairwise_singleton _ _)
    (List.forall_mem_singleton.mpr (fRange_fits inside range width))

/-- Of the mailboxes, what a command that acts at once leaves of its clamps changes the direct reports only. -/
theorem State.direct_mb (s : State) (p : Path) (op kind obj : Nat) (cl : List (Nat × Nat × Nat)) :
    (s.direct p op kind obj cl).mb = { s.mb with direct := (s.direct p op kind obj cl).mb.direct } := by
  rw [State.direct]
  split_ifs <;> rfl

/-! ### The management path (14 R499, R516, R518; 02 R87) -/

section
variable {s : State} {p : Path} {b : Bytes}

theorem mgmtDesignate_ends (h : s.Admits p 0xC030 b) (fn : rd b 4 4 < 4) :
    ∃ t, exec (.mgmtDesignate p b) s = .next t ∧ t.mb.mgmt = rd b 4 4 ∧ s.Answers t p (ans stSuccess (rd b 4 4)) := by
  have does : mgmtDesignate p b (s.seen p) =
      ({ s.seen p with mb := { (s.seen p).mb with mgmt := rd b 4 4 } }, ans stSuccess (rd b 4 4)) := if_neg (not_le.mpr fn)
  have ends := h.ends does (ans_ne_owedLater _ _ _) List.prefix_rfl
  exact ⟨_, rfl, by rw [ends.mb], ends.answers⟩

theorem freezeCtl_ends (h : s.Admits p 0xC410 b) (obj : rd b 4 4 = 0) :
    ∃ t, exec (.freezeCtl p b) s = .next t ∧
      t.mb.freezeThr = if validBit b 0 then clampN 1 65535 (rd b 8 2) else s.mb.freezeThr := by
  have inside : 8 + 2 ≤ b.length := h.length rfl
  have all : True := trivial
  have sent := (freezeCtl_keeps (F := fun _ => True) (.refl _ (s.seen p)) p b).sent
  have sets : (freezeCtl p b (s.seen p)).1.mb.freezeThr = (if validBit b 0 then clampN 1 65535 (rd b 8 2) else s.mb.freezeThr) ∧
      (freezeCtl p b (s.seen p)).2 ≠ owedLater := by
    rw [freezeCtl]
    simp only [obj, ne_eq, not_true_eq_false, if_false, ans_ne_owedLater, not_false_eq_true, and_true]
    rw [State.direct_mb]
    dsimp only
    split_ifs with valid
    · exact validRules_only valid inside (by decide) (by decide)
    · rw [State.seen_mb]
  have ends := h.runs freezeCtl sets.2 sent
  exact ⟨_, rfl, by rw [ends.mb]; exact sets.1⟩

/-- The freeze of `f` ends, and of no other function. -/
theorem State.isFrozen_unfreeze (s : State) (f g : Nat) : (s.unfreeze f).isFrozen g = (s.isFrozen g && !decide (g = f)) := by
  rw [State.isFrozen, State.unfreeze, State.isFrozen]
  simp only [BitVec.getLsbD_and, BitVec.getLsbD_not, BitVec.getLsbD_shiftLeft, BitVec.getLsbD_one]
  cases held : s.mb.frozen.getLsbD g with
  | false => rfl
  | true =>
    have inside : g < 4 := BitVec.lt_of_getLsbD held
    by_cases same : g = f
    · simp [same]
    · simp [inside, same]
      omega

theorem State.Ends.isFrozen {s u t : State} {p : Path} {r : Reply} (h : s.Ends u t p r) (f : Nat) : t.isFrozen f = u.isFrozen f := by
  rw [State.isFrozen, h.mb, State.isFrozen]

theorem thaw_ends (h : s.Admits p 0xC411 b) (fn : rd b 4 4 < 4) :
    ∃ t, exec (.thaw p b) s = .next t ∧ t.isFrozen (rd b 4 4) = false ∧ (∀ f, f ≠ rd b 4 4 → t.isFrozen f = s.isFrozen f) ∧
      s.Answers t p (ans stSuccess (rd b 4 4)) := by
  by_cases frozen : s.isFrozen (rd b 4 4) = true
  · have does : thaw p b (s.seen p) = ((s.seen p).unfreeze (rd b 4 4), ans stSuccess (rd b 4 4)) := by
      simp [thaw, not_le.mpr fn, State.seen_isFrozen, frozen]
    have ends := h.ends does (ans_ne_owedLater _ _ _) List.prefix_rfl
    refine ⟨_, rfl, ?_, fun f other => ?_, ends.answers⟩
    · simp [ends.isFrozen, State.isFrozen_unfreeze]
    · simp [ends.isFrozen, State.isFrozen_unfreeze, State.seen_isFrozen, other]
  · have does : thaw p b (s.seen p) = (s.seen p, ans stSuccess (rd b 4 4)) := by
      simp [thaw, not_le.mpr fn, State.seen_isFrozen, frozen]
    have ends := h.ends does (ans_ne_owedLater _ _ _) List.prefix_rfl
    refine ⟨_, rfl, ?_, fun f _ => ?_, ends.answers⟩
    · rw [ends.isFrozen, State.seen_isFrozen, Bool.eq_false_iff]
      exact frozen
    · rw [ends.isFrozen, State.seen_isFrozen]

/-- A port is as the body left it. -/
theorem State.Ends.portAt {s u t : State} {p : Path} {r : Reply} (h : s.Ends u t p r) (q : Nat) : t.portAt q = u.portAt q := by
  rw [State.portAt, State.ports_of_essence h.essence, State.portAt]

theorem State.seen_ports (s : State) (p : Path) : (s.seen p).hp.ports = s.hp.ports :=
  (congrArg (fun t : State => t.hp.ports) (s.essence_seen p) :)

theorem hpPortCfg_ends (sound : s.Sound) (h : s.Admits p 0xC430 b) (port : rd b 4 4 < 2) :
    ∃ t, exec (.hpPortCfg p b) s = .next t ∧
      (t.portAt (rd b 4 4)).share = if validBit b 0 then clampN 4 15 (rd b 8 1) else (s.portAt (rd b 4 4)).share := by
  have inside : 8 + 1 ≤ b.length := h.length rfl
  have all : True := trivial
  have sent := (hpPortCfg_keeps (F := fun _ => True) (.refl _ (s.seen p)) p b).sent
  have there : rd b 4 4 < (s.seen p).hp.ports.length := by rw [State.seen_ports, sound.ports]; exact port
  have sets : ((hpPortCfg p b (s.seen p)).1.portAt (rd b 4 4)).share =
        (if validBit b 0 then clampN 4 15 (rd b 8 1) else (s.portAt (rd b 4 4)).share) ∧
      (hpPortCfg p b (s.seen p)).2 ≠ owedLater := by
    rw [hpPortCfg]
    simp only [not_le.mpr port, if_false, ans_ne_owedLater, ne_eq, not_false_eq_true, and_true]
    rw [State.portAt, State.direct_hp]
    split_ifs with valid
    · rw [← State.portAt, State.portAt_modPort_same _ _ there]
      exact validRules_only valid inside (by decide) (by decide)
    · rw [State.seen_ports, State.portAt]
  have ends := h.runs hpPortCfg sets.2 sent
  exact ⟨_, rfl, by rw [ends.portAt]; exact sets.1⟩

end

/-- Settles O20: each command by its own lemma above. -/
theorem managementCommandsSet : Obligations.ManagementCommandsSet := fun _ _ _ =>
  ⟨mgmtDesignate_ends, freezeCtl_ends, thaw_ends, hpPortCfg_ends⟩

/-! ### Registers that a read clears or latches -/

/-- A latency register reads at least what missed bounds are known, and just that where no answer was counted (log 3). -/
theorem known_le_latValue (known n bound free : Nat) : known ≤ latValue known n bound free := by
  rw [latValue]
  split_ifs
  · exact le_refl known
  · exact le_max_left _ _

theorem latValue_zero (known bound free : Nat) : latValue known 0 bound free = known := rfl

theorem scWheelLagRead_clears (s : State) :
    ∃ t, exec .scWheelLagRead s = .next t ∧ t.sc = { s.sc with wheelLag := 0 } ∧ t.out = s.out ++ [.regValue s.sc.wheelLag] :=
  ⟨_, rfl, rfl, rfl⟩

theorem mbLatFRead_clears (s : State) :
    ∃ t v, exec .mbLatFRead s = .next t ∧ t.mb = { s.mb with latF := 0, nF := 0 } ∧ t.out = s.out ++ [.regValue v] ∧ s.mb.latF ≤ v ∧
      (s.mb.nF = 0 → v = s.mb.latF) :=
  ⟨_, latValue s.mb.latF s.mb.nF 1000 s.freeVal, rfl, rfl, rfl, known_le_latValue _ _ _ _, fun none => by rw [none, latValue_zero]⟩

theorem mbLatSRead_clears (s : State) :
    ∃ t v, exec .mbLatSRead s = .next t ∧ t.mb = { s.mb with latS := 0, nS := 0 } ∧ t.out = s.out ++ [.regValue v] ∧ s.mb.latS ≤ v ∧
      (s.mb.nS = 0 → v = s.mb.latS) :=
  ⟨_, latValue s.mb.latS s.mb.nS 10000 s.freeVal, rfl, rfl, rfl, known_le_latValue _ _ _ _, fun none => by rw [none, latValue_zero]⟩

/-- Latching the nanoseconds sends nothing. The value latched stays opaque, for the kernel would compute with it. -/
theorem State.latchTime_out (s : State) : s.latchTime.out = s.out := by
  unfold State.latchTime
  generalize s.tuNsReg = n
  rfl

theorem tuTimeSRead_latches (s : State) :
    ∃ t, exec .tuTimeSRead s = .next t ∧ t.tu = { s.tu with latchNs := s.tuNsReg } ∧ t.out = s.out ++ [.regValue (s.netS % 2 ^ 48)] :=
  ⟨_, rfl, rfl, by rw [State.emit_out, State.latchTime_out]⟩

/-- Settles O34: the command of each register by its own lemma above. -/
theorem readsThatClear : Obligations.ReadsThatClear := fun s =>
  ⟨scWheelLagRead_clears s, mbLatFRead_clears s, mbLatSRead_clears s, tuTimeSRead_latches s⟩

end Sys2Proof.Machine
end

section
/-! PROOFS. Registration of rings and buffer regions (14 R489; 11 R373, R377, R382, R402). A body that registers one puts it into its function
or its engine with the fields as applied; what ends the command leaves it there, for it changes of a function the rings' progress only. -/

set_option Elab.async false

namespace Sys2Proof.Machine
open Sys2Proof

/-! ### Several fields of a payload -/

theorem roundDown_fits {off len m : Nat} {b : Bytes} (inside : off + len ≤ b.length) : (⟨off, len, roundDown m⟩ : FieldRule).Fits b :=
  ⟨inside, (roundDown_le m _).trans_lt (rd_lt b off len)⟩

theorem pow2Below_fits {off len lo hi : Nat} {b : Bytes} (inside : off + len ≤ b.length) (range : lo ≤ hi) (width : 2 ^ hi < 256 ^ len) :
    (⟨off, len, pow2Below lo hi⟩ : FieldRule).Fits b :=
  ⟨inside, (pow2Below_le lo hi _ range).trans_lt width⟩

/-- A rule that gives one byte a value a byte can hold. -/
theorem byte_fits {off : Nat} {fix : Nat → Nat} {b : Bytes} (inside : off + 1 ≤ b.length) (width : ∀ v, v < 256 → fix v < 256) :
    (⟨off, 1, fix⟩ : FieldRule).Fits b :=
  ⟨inside, by simpa using width _ (by simpa using rd_lt b off 1)⟩

/-! ### Rings as a command leaves them -/

namespace State.Ends

variable {s u t : State} {p : Path} {r : Reply}

/-- A function is as the body left it, but for its ring's progress and what its mailboxes and vectors show. -/
theorem fnAt_essence (h : s.Ends u t p r) (f : Nat) : (t.fnAt f).essence = (u.fnAt f).essence := State.fnAt_of_essence h.essence f

theorem fcr_none (h : s.Ends u t p r) {f : Nat} (none : (u.fnAt f).fcr = none) : (t.fnAt f).fcr = .none := by
  have e : (t.fnAt f).fcr.map Fcr.essence = (u.fnAt f).fcr.map Fcr.essence := congrArg HostFn.fcr (h.fnAt_essence f)
  rw [none] at e
  exact Option.map_eq_none_iff.mp e

/-- A fast command ring stays registered as the body registered it. -/
theorem fcr_some (h : s.Ends u t p r) {f : Nat} {q : Fcr} (ring : (u.fnAt f).fcr = some q) :
    ∃ q', (t.fnAt f).fcr = some q' ∧ q'.sub = q.sub ∧ q'.comp = q.comp ∧ q'.slots = q.slots ∧ q'.modCount = q.modCount ∧
      q'.modTime = q.modTime := by
  have e : (t.fnAt f).fcr.map Fcr.essence = (u.fnAt f).fcr.map Fcr.essence := congrArg HostFn.fcr (h.fnAt_essence f)
  rw [ring] at e
  obtain ⟨q', there, same⟩ := Option.map_eq_some_iff.mp e
  exact ⟨q', there, (congrArg Fcr.sub same :), (congrArg Fcr.comp same :), (congrArg Fcr.slots same :), (congrArg Fcr.modCount same :),
    (congrArg Fcr.modTime same :)⟩

theorem freeRing (h : s.Ends u t p r) (f m : Nat) : t.freeRing f m = u.freeRing f m :=
  (congrArg (fun x : HostFn => oget x.freeRings m) (h.fnAt_essence f) :)

theorem egressRing (h : s.Ends u t p r) (f n : Nat) : t.egressRing f n = u.egressRing f n :=
  (congrArg (fun x : HostFn => oget x.egress n) (h.fnAt_essence f) :)

end State.Ends

theorem State.seen_freeRing (s : State) (p : Path) (f m : Nat) : (s.seen p).freeRing f m = s.freeRing f m :=
  (congrArg (fun x : HostFn => oget x.freeRings m) (s.seen_fnAt_essence p f) :)

theorem State.seen_egressRing (s : State) (p : Path) (f n : Nat) : (s.seen p).egressRing f n = s.egressRing f n :=
  (congrArg (fun x : HostFn => oget x.egress n) (s.seen_fnAt_essence p f) :)

theorem State.seen_fns_length (s : State) (p : Path) : (s.seen p).hp.fns.length = s.hp.fns.length := by
  have e : ((s.seen p).hp.fns.map HostFn.essence).length = (s.hp.fns.map HostFn.essence).length :=
    congrArg (fun t : State => t.hp.fns.length) (s.essence_seen p)
  simpa using e

/-- A function of a sound device, as a command finds it. -/
theorem State.Sound.fn_lt {s : State} (sound : s.Sound) {f : Nat} (fn : f < 4) (p : Path) : f < (s.seen p).hp.fns.length := by
  rw [State.seen_fns_length, sound.fns]; exact fn

theorem State.fnAt_direct (s : State) (p : Path) (op kind obj : Nat) (cl : List (Nat × Nat × Nat)) (f : Nat) :
    (s.direct p op kind obj cl).fnAt f = s.fnAt f := by
  rw [State.fnAt, State.direct_hp, State.fnAt]

theorem State.freeRing_of_hp {s t : State} (hp : t.hp = s.hp) (f m : Nat) : t.freeRing f m = s.freeRing f m := by
  rw [State.freeRing, State.fnAt, hp]; rfl

theorem State.egressRing_of_hp {s t : State} (hp : t.hp = s.hp) (f n : Nat) : t.egressRing f n = s.egressRing f n := by
  rw [State.egressRing, State.fnAt, hp]; rfl

/-! ### The fast command ring (14 R489) -/

/-- The rules of FCR_REGISTER's fields. -/
def fcrRules : List FieldRule :=
  [⟨8, 8, roundDown 4096⟩, ⟨16, 8, roundDown 4096⟩, ⟨24, 4, pow2Below 6 12⟩, fRange 30 2 1 64, fRange 32 2 1 1000]

/-- The fast command ring that a payload describes. -/
def newFcr (c : Bytes) : Fcr := ⟨rd c 8 8, rd c 16 8, rd c 24 4, rd c 30 2, rd c 32 2, 0, [], [], 0, 0⟩

/-- A function whose fast command ring was just registered. -/
def HostFn.withFcr (q : Fcr) (h : HostFn) : HostFn := { h with fcr := some q, fcrProd := 0, fcrCons := 0, fcrHalted := false }

section
variable {s : State} {p : Path} {b : Bytes}

theorem fcrRules_field (long : 37 ≤ b.length) {r : FieldRule} (hr : r ∈ fcrRules) :
    rd (applyRules fcrRules b).1 r.off r.len = r.fix (rd b r.off r.len) := by
  refine applyRules_field _ b r hr (by simp [fcrRules, FieldRule.Apart, fRange]) ?_
  simp only [fcrRules, List.forall_mem_cons, List.not_mem_nil, false_imp_iff, imp_true_iff, and_true]
  exact ⟨roundDown_fits (by omega), roundDown_fits (by omega), pow2Below_fits (by omega) (by decide) (by decide),
    fRange_fits (by omega) (by decide) (by decide), fRange_fits (by omega) (by decide) (by decide)⟩

/-- The ring that FCR_REGISTER registers has its fields as applied. -/
theorem newFcr_fields (long : 37 ≤ b.length) :
    (newFcr (applyRules fcrRules b).1).sub = roundDown 4096 (rd b 8 8) ∧ (newFcr (applyRules fcrRules b).1).comp = roundDown 4096 (rd b 16 8) ∧
      (newFcr (applyRules fcrRules b).1).slots = pow2Below 6 12 (rd b 24 4) ∧
      (newFcr (applyRules fcrRules b).1).modCount = clampN 1 64 (rd b 30 2) ∧
      (newFcr (applyRules fcrRules b).1).modTime = clampN 1 1000 (rd b 32 2) := by
  have field {r : FieldRule} := fcrRules_field long (r := r)
  dsimp only [newFcr]
  exact ⟨field (r := ⟨8, 8, roundDown 4096⟩) (by simp [fcrRules]), field (r := ⟨16, 8, roundDown 4096⟩) (by simp [fcrRules]),
    field (r := ⟨24, 4, pow2Below 6 12⟩) (by simp [fcrRules]), field (r := fRange 30 2 1 64) (by simp [fcrRules]),
    field (r := fRange 32 2 1 1000) (by simp [fcrRules])⟩

theorem fcrRegister_eq (fn : who p < 4) (obj : rd b 4 4 = 0) (off : (s.fnAt (who p)).ringOn = false) :
    fcrRegister p b s =
      ((s.modFn (who p) (HostFn.withFcr (newFcr (applyRules fcrRules b).1))).direct p 0xC020 14 (rd b 4 4) (applyRules fcrRules b).2,
        ans (okStatus (applyRules fcrRules b).2) (rd b 4 4)) := by
  have host : ¬who p = 15 := by omega
  exact (if_neg host).trans ((if_neg (not_not.mpr obj)).trans (if_neg (by rw [off]; decide)))

theorem fcrRegister_ends (sound : s.Sound) (fn : who p < 4) (h : s.Admits p 0xC020 b) (obj : rd b 4 4 = 0)
    (off : ((s.seen p).fnAt (who p)).ringOn = false) :
    ∃ t q, exec (.fcrRegister p b) s = .next t ∧ (t.fnAt (who p)).fcr = some q ∧ q.sub = roundDown 4096 (rd b 8 8) ∧
      q.comp = roundDown 4096 (rd b 16 8) ∧ q.slots = pow2Below 6 12 (rd b 24 4) ∧ q.modCount = clampN 1 64 (rd b 30 2) ∧
      q.modTime = clampN 1 1000 (rd b 32 2) := by
  have ends := h.ends (fcrRegister_eq fn obj off) (ans_ne_owedLater _ _ _) (by rw [State.direct_out]; exact List.prefix_rfl)
  obtain ⟨q, ring, sub, comp, slots, count, time⟩ := ends.fcr_some (f := who p) (q := newFcr (applyRules fcrRules b).1)
    (by rw [State.fnAt_direct, State.fnAt_modFn_same _ _ (sound.fn_lt fn p)]; rfl)
  refine ⟨_, q, rfl, ring, ?_⟩
  rw [sub, comp, slots, count, time]
  exact newFcr_fields (h.length rfl)

theorem fcrDeregister_ends (sound : s.Sound) (fn : who p < 4) (h : s.Admits p 0xC021 b) (obj : rd b 4 4 = 0)
    (on : ((s.seen p).fnAt (who p)).ringOn = true) :
    ∃ t, exec (.fcrDeregister p b) s = .next t ∧ (t.fnAt (who p)).fcr = none := by
  have host : ¬who p = 15 := by omega
  have does : fcrDeregister p b (s.seen p) =
      ((s.seen p).modFn (who p) (fun h => { h with fcr := none, fcrHalted := false }), ans stSuccess (rd b 4 4)) :=
    (if_neg host).trans (if_neg (by simp [obj, on]))
  have ends := h.ends does (ans_ne_owedLater _ _ _) List.prefix_rfl
  exact ⟨_, rfl, ends.fcr_none (by rw [State.fnAt_modFn_same _ _ (sound.fn_lt fn p)])⟩

end

/-! ### Free rings (11 R377, R382) -/

/-- The rules of QE_FREE_RING's fields. -/
def freeRules : List FieldRule :=
  [⟨8, 8, roundDown 64⟩, ⟨24, 4, pow2Below 4 15⟩, ⟨28, 1, fun v => if v ≤ 6 then v else 0⟩, fRange 30 2 1 256, fRange 32 2 1 1000]

/-- The free ring that a payload describes. -/
def newFree (c : Bytes) : FreeRing := ⟨rd c 8 8, rd c 24 4, rd c 28 1, rd c 29 1, rd c 30 2, rd c 32 2, 0, 0, [], 0, 0, 0⟩

/-- A function with a free ring set, or none of that number. -/
def HostFn.setFree (m : Nat) (q : Option FreeRing) (h : HostFn) : HostFn := { h with freeRings := oset h.freeRings m q }

section
variable {s : State} {p : Path} {b : Bytes}

theorem freeRules_fit (long : 37 ≤ b.length) : ∀ r ∈ freeRules, r.Fits b := by
  simp only [freeRules, List.forall_mem_cons, List.not_mem_nil, false_imp_iff, imp_true_iff, and_true]
  exact ⟨roundDown_fits (by omega), pow2Below_fits (by omega) (by decide) (by decide),
    byte_fits (by omega) (fun v _ => by split_ifs <;> omega), fRange_fits (by omega) (by decide) (by decide),
    fRange_fits (by omega) (by decide) (by decide)⟩

/-- The ring that QE_FREE_RING registers has its fields as applied; its region has no rule. -/
theorem newFree_fields (long : 37 ≤ b.length) :
    (newFree (applyRules freeRules b).1).base = roundDown 64 (rd b 8 8) ∧
      (newFree (applyRules freeRules b).1).slots = pow2Below 4 15 (rd b 24 4) ∧ (newFree (applyRules freeRules b).1).region = rd b 29 1 ∧
      (newFree (applyRules freeRules b).1).modCount = clampN 1 256 (rd b 30 2) := by
  have fits := freeRules_fit long
  have field (r : FieldRule) (hr : r ∈ freeRules) := applyRules_field freeRules b r hr (by simp [freeRules, FieldRule.Apart, fRange]) fits
  dsimp only [newFree]
  exact ⟨field ⟨8, 8, roundDown 64⟩ (by simp [freeRules]), field ⟨24, 4, pow2Below 4 15⟩ (by simp [freeRules]),
    applyRules_other freeRules b 29 1 (fun r hr => (fits r hr).1) (by simp [freeRules, fRange]), field (fRange 30 2 1 256) (by simp [freeRules])⟩

theorem qeFreeRing_eq (fn : who p < 4) (ring : rd b 4 4 < 16) (free : s.freeRing (who p) (rd b 4 4) = none) (buf : rd b 29 1 ∈ s.qe.bufs) :
    qeFreeRing p b s =
      ((s.modFn (who p) (HostFn.setFree (rd b 4 4) (some (newFree (applyRules freeRules b).1)))).direct p 0xC210 14 (rd b 4 4)
        (applyRules freeRules b).2, ans (okStatus (applyRules freeRules b).2) (rd b 4 4)) := by
  have host : ¬who p = 15 := by omega
  exact (if_neg host).trans ((if_neg (not_le.mpr ring)).trans ((if_neg (by rw [free]; decide)).trans (if_neg (not_not.mpr buf))))

theorem State.freeRing_setFree (s : State) {f : Nat} (fn : f < s.hp.fns.length) (m : Nat) (q : Option FreeRing) :
    (s.modFn f (HostFn.setFree m q)).freeRing f m = q := by
  rw [State.freeRing, State.fnAt_modFn_same _ _ fn, HostFn.setFree, oget_oset_same]

theorem qeFreeRing_ends (sound : s.Sound) (fn : who p < 4) (h : s.Admits p 0xC210 b) (ring : rd b 4 4 < 16)
    (free : s.freeRing (who p) (rd b 4 4) = none) (buf : rd b 29 1 ∈ s.qe.bufs) :
    ∃ t q, exec (.qeFreeRing p b) s = .next t ∧ t.freeRing (who p) (rd b 4 4) = some q ∧ q.base = roundDown 64 (rd b 8 8) ∧
      q.slots = pow2Below 4 15 (rd b 24 4) ∧ q.region = rd b 29 1 ∧ q.modCount = clampN 1 256 (rd b 30 2) := by
  have does := qeFreeRing_eq (s := s.seen p) fn ring ((s.seen_freeRing p _ _).trans free) (by rwa [State.seen_qe])
  have ends := h.ends does (ans_ne_owedLater _ _ _) (by rw [State.direct_out]; exact List.prefix_rfl)
  refine ⟨_, _, rfl, ?_, newFree_fields (h.length rfl)⟩
  rw [ends.freeRing, State.freeRing_of_hp (State.direct_hp ..), State.freeRing_setFree _ (sound.fn_lt fn p)]

/-- A free ring that is dropped is gone, whatever becomes of its runs. -/
theorem State.freeRing_dropFreeRing (s : State) {f m : Nat} (fn : f < s.hp.fns.length) (give : Bool) :
    (s.dropFreeRing f m give).freeRing f m = none := by
  rw [State.dropFreeRing]
  split
  · assumption
  · have gone := s.freeRing_setFree fn m none
    dsimp only
    split_ifs
    · refine (State.freeRing_of_hp (Keeps.same (F := (· ∈ [.qe, .fc])) ?_ .hp (by decide)) f m).trans gone
      refine State.poolCheck_keeps (Keeps.foldl (fun s x keeps => ?_) _ (.refl _ _)) (by decide) (by decide)
      split_ifs
      · exact State.setCells_keeps keeps _ _ _ (by decide)
      · exact keeps
    · exact gone

theorem qeFreeRingDereg_ends (sound : s.Sound) (fn : who p < 4) (h : s.Admits p 0xC211 b) (ring : rd b 4 4 < 16)
    (there : (s.freeRing (who p) (rd b 4 4)).isSome) :
    ∃ t, exec (.qeFreeRingDereg p b) s = .next t ∧ t.freeRing (who p) (rd b 4 4) = none := by
  have host : ¬who p = 15 := by omega
  have all : True := trivial
  have sent := (State.dropFreeRing_keeps (F := fun _ => True) (.refl _ (s.seen p)) (who p) (rd b 4 4) true).sent
  have does : qeFreeRingDereg p b (s.seen p) = ((s.seen p).dropFreeRing (who p) (rd b 4 4) true, ans stSuccess (rd b 4 4)) := by
    refine (if_neg host).trans (if_neg ?_)
    rw [State.seen_freeRing, Option.isNone_iff_eq_none, not_or, not_le]
    exact ⟨ring, Option.isSome_iff_ne_none.mp there⟩
  have ends := h.ends does (ans_ne_owedLater _ _ _) sent
  exact ⟨_, rfl, by rw [ends.freeRing, State.freeRing_dropFreeRing _ (sound.fn_lt fn p)]⟩

end

/-! ### Egress rings (11 R402) -/

/-- The rules of QE_EGRESS_RING's fields, for a rule of ALT_FN. -/
def egressRules (alt : Nat → Nat) : List FieldRule :=
  [⟨8, 8, roundDown 4096⟩, ⟨16, 8, roundDown 64⟩, ⟨24, 4, pow2Below 4 15⟩, ⟨28, 1, fun v => if v ≤ 6 then v else 6⟩, fRange 30 2 1 256,
    fRange 32 2 1 1000, ⟨34, 1, alt⟩]

/-- The egress ring that a payload describes. -/
def newEgress (c : Bytes) (alt : Option (Nat × Nat)) (away : Bool) : EgressRing :=
  ⟨rd c 8 8, rd c 16 8, rd c 24 4, 256 * 2 ^ rd c 28 1, rd c 30 2, rd c 32 2, alt, away, 0, 0, 0, 0⟩

/-- A function with an egress ring set, whose pairing is no longer kept. -/
def HostFn.setEgress (n : Nat) (r : EgressRing) (h : HostFn) : HostFn := { h with egress := oset h.egress n (some r), kept := oset h.kept n none }

section
variable {s : State} {p : Path} {b : Bytes}

theorem altFn_lt (mgmt : Bool) (f ring v : Nat) : altFn mgmt f ring v < 256 := by
  rw [altFn]
  split_ifs <;> omega

/-- The ring that QE_EGRESS_RING registers has its fields as applied. -/
theorem newEgress_fields (long : 37 ≤ b.length) (mgmt : Bool) (f ring : Nat) (alt : Option (Nat × Nat)) (away : Bool) :
    (newEgress (applyRules (egressRules (altFn mgmt f ring)) b).1 alt away).base = roundDown 4096 (rd b 8 8) ∧
      (newEgress (applyRules (egressRules (altFn mgmt f ring)) b).1 alt away).slots = pow2Below 4 15 (rd b 24 4) := by
  have fits : ∀ r ∈ egressRules (altFn mgmt f ring), r.Fits b := by
    simp only [egressRules, List.forall_mem_cons, List.not_mem_nil, false_imp_iff, imp_true_iff, and_true]
    exact ⟨roundDown_fits (by omega), roundDown_fits (by omega), pow2Below_fits (by omega) (by decide) (by decide),
      byte_fits (by omega) (fun v _ => by split_ifs <;> omega), fRange_fits (by omega) (by decide) (by decide),
      fRange_fits (by omega) (by decide) (by decide), byte_fits (by omega) (fun v _ => altFn_lt ..)⟩
  have field (r : FieldRule) (hr : r ∈ egressRules (altFn mgmt f ring)) :=
    applyRules_field _ b r hr (by simp [egressRules, FieldRule.Apart, fRange]) fits
  dsimp only [newEgress]
  exact ⟨field ⟨8, 8, roundDown 4096⟩ (by simp [egressRules]), field ⟨24, 4, pow2Below 4 15⟩ (by simp [egressRules])⟩

theorem qeEgressRing_eq (fn : who p < 4) (ring : rd b 4 4 < 64) (whole : (rd b 36 1).testBit 0 = false)
    (free : s.egressRing (who p) (rd b 4 4) = none) :
    ∃ alt away, qeEgressRing p b s =
      (((s.modFn (who p) (HostFn.setEgress (rd b 4 4)
          (newEgress (applyRules (egressRules (altFn (s.isMgmt (who p)) (who p) (rd b 35 1))) b).1 alt away))).direct p 0xC220 14 (rd b 4 4)
          (applyRules (egressRules (altFn (s.isMgmt (who p)) (who p) (rd b 35 1))) b).2).schedSync,
        ans (okStatus (applyRules (egressRules (altFn (s.isMgmt (who p)) (who p) (rd b 35 1))) b).2) (rd b 4 4)) := by
  have host : ¬who p = 15 := by omega
  exact ⟨_, _, (if_neg host).trans ((if_neg (not_le.mpr ring)).trans ((if_neg (by rw [whole]; decide)).trans (if_neg (by rw [free]; decide))))⟩

theorem qeEgressRing_ends (sound : s.Sound) (fn : who p < 4) (h : s.Admits p 0xC220 b) (ring : rd b 4 4 < 64)
    (whole : (rd b 36 1).testBit 0 = false) (free : s.egressRing (who p) (rd b 4 4) = none) :
    ∃ t r, exec (.qeEgressRing p b) s = .next t ∧ t.egressRing (who p) (rd b 4 4) = some r ∧ r.base = roundDown 4096 (rd b 8 8) ∧
      r.slots = pow2Below 4 15 (rd b 24 4) := by
  obtain ⟨alt, away, does⟩ := qeEgressRing_eq (s := s.seen p) fn ring whole ((s.seen_egressRing p _ _).trans free)
  have ends := h.ends does (ans_ne_owedLater _ _ _)
    (by rw [(State.schedSync_parts _).same .out (by decide), State.direct_out]; exact List.prefix_rfl)
  refine ⟨_, newEgress _ alt away, rfl, ?_, newEgress_fields (h.length rfl) ((s.seen p).isMgmt (who p)) (who p) (rd b 35 1) alt away⟩
  rw [ends.egressRing, State.egressRing, State.schedSync_fnAt, State.fnAt_direct, State.fnAt_modFn_same _ _ (sound.fn_lt fn p),
    HostFn.setEgress, oget_oset_same]

theorem qeEgressDereg_ends (sound : s.Sound) (fn : who p < 4) (h : s.Admits p 0xC221 b) (ring : rd b 4 4 < 64)
    (there : (s.egressRing (who p) (rd b 4 4)).isSome) :
    ∃ t, exec (.qeEgressDereg p b) s = .next t ∧ t.egressRing (who p) (rd b 4 4) = none := by
  have host : ¬who p = 15 := by omega
  have does : qeEgressDereg p b (s.seen p) = (((s.seen p).dropEgress (who p) (rd b 4 4)).schedSync, ans stSuccess (rd b 4 4)) := by
    refine (if_neg host).trans (if_neg ?_)
    rw [State.seen_egressRing, Option.isNone_iff_eq_none, not_or, not_le]
    exact ⟨ring, Option.isSome_iff_ne_none.mp there⟩
  have ends := h.ends does (ans_ne_owedLater _ _ _) (by rw [(State.schedSync_parts _).same .out (by decide)]; exact List.prefix_rfl)
  refine ⟨_, rfl, ?_⟩
  have gone : ((s.seen p).modFn (who p) (fun h => { h with egress := oset h.egress (rd b 4 4) none })).egressRing (who p) (rd b 4 4) = none := by
    rw [State.egressRing, State.fnAt_modFn_same _ _ (sound.fn_lt fn p), oget_oset_same]
  rw [ends.egressRing, State.egressRing, State.schedSync_fnAt]
  exact gone

end

/-- Settles O21: each command by its own lemma above. -/
theorem ringsAreRegistered : Obligations.RingsAreRegistered := fun _ _ _ sound fn =>
  ⟨fcrRegister_ends sound fn, fcrDeregister_ends sound fn, qeFreeRing_ends sound fn, qeFreeRingDereg_ends sound fn,
    qeEgressRing_ends sound fn, qeEgressDereg_ends sound fn⟩

end Sys2Proof.Machine
end

section
/-! PROOFS. Commands that set registers of the engines (15 R533): buffer regions and halted contexts, the controls whose fields stand under
VALID bits, and fault control. Each body is one update of one part, which the lemma of the command reads off. -/

set_option Elab.async false

namespace Sys2Proof.Machine
open Sys2Proof

/-! ### Fields under VALID bits -/

/-- A field of a control command, where its VALID bit is 1. -/
theorem validRules_rd {rs : List (Nat × FieldRule)} {b : Bytes} (apart : (rs.map (fun x => x.2)).Pairwise FieldRule.Apart)
    (fits : ∀ q ∈ rs, q.2.Fits b) (k : Nat) (r : FieldRule) (hr : (k, r) ∈ rs) (cur : Nat) :
    (if validBit b k then rd (applyRules (validRules b rs) b).1 r.off r.len else cur) = if validBit b k then r.fix (rd b r.off r.len) else cur := by
  split_ifs with valid
  · exact validRules_field rs b k r hr valid apart fits
  · rfl

/-- A field that no rule names stays as given. -/
theorem validRules_other {rs : List (Nat × FieldRule)} {b : Bytes} {off len : Nat} (inside : ∀ q ∈ rs, q.2.off + q.2.len ≤ b.length)
    (apart : ∀ q ∈ rs, off + len ≤ q.2.off ∨ q.2.off + q.2.len ≤ off) : rd (applyRules (validRules b rs) b).1 off len = rd b off len := by
  have named : ∀ r ∈ validRules b rs, ∃ q ∈ rs, q.2 = r := by
    intro r hr
    obtain ⟨q, hq, e⟩ := List.mem_filterMap.mp hr
    split_ifs at e
    exact ⟨q, hq, Option.some.inj e⟩
  refine applyRules_other _ b off len (fun r hr => ?_) fun r hr => ?_
  · obtain ⟨q, hq, rfl⟩ := named r hr
    exact inside q hq
  · obtain ⟨q, hq, rfl⟩ := named r hr
    exact apart q hq

/-- A choice among the values up to `n` fits a byte. -/
theorem fEnum_fits {off n d : Nat} {b : Bytes} (inside : off + 1 ≤ b.length) (default : d < 256) : (fEnum off 1 n d).Fits b :=
  byte_fits inside fun v _ => by split_ifs <;> omega

section
variable {s : State} {p : Path} {b : Bytes}

/-! ### Buffer regions and halted contexts (11 R373, R382; 15 R546) -/

theorem qeBufRegister_ends {r : Region} (h : s.Admits p 0xC200 b) (number : rd b 4 4 < 64) (region : s.region (rd b 4 4) = some r)
    (low : r.base + r.size ≤ 2 ^ 40) (new : rd b 4 4 ∉ s.qe.bufs) (few : s.qe.bufs.length < 4) :
    ∃ t, exec (.qeBufRegister p b) s = .next t ∧ t.qe = { s.qe with bufs := s.qe.bufs ++ [rd b 4 4] } ∧
      s.Answers t p (ans stSuccess (rd b 4 4)) := by
  have legal : ¬(2 ^ 40 < r.base + r.size ∨ rd b 4 4 ∈ s.qe.bufs ∨ 4 ≤ s.qe.bufs.length) := by
    simp only [not_or, not_lt, not_le]
    exact ⟨low, new, few⟩
  have does : ∃ rg, qeBufRegister p b (s.seen p) =
      ({ s.seen p with qe := { (s.seen p).qe with bufs := (s.seen p).qe.bufs ++ [rd b 4 4] }, rg := rg }, ans stSuccess (rd b 4 4)) := by
    rw [qeBufRegister]
    simp only [not_le.mpr number, if_false, State.seen_region, region, State.seen_qe, legal]
    exact ⟨_, rfl⟩
  obtain ⟨rg, does⟩ := does
  have ends := h.ends does (ans_ne_owedLater _ _ _) List.prefix_rfl
  exact ⟨_, rfl, by rw [ends.qe]; dsimp only; rw [State.seen_qe], ends.answers⟩

/-- The region of a number registered is found under it. -/
theorem State.bufs_find {n : Nat} {r : Region} (mem : n ∈ s.qe.bufs) (region : s.region n = some r) :
    s.bufs.find? (fun x => x.1 == n) = some (n, r) := by
  have there : (n, r) ∈ s.bufs := List.mem_filterMap.mpr ⟨n, mem, by rw [region]; rfl⟩
  obtain ⟨⟨m, q⟩, found⟩ := Option.isSome_iff_exists.mp (List.find?_isSome (p := fun x : Nat × Region => x.1 == n).mpr ⟨(n, r), there, beq_self_eq_true n⟩)
  have same : m = n := eq_of_beq (List.find?_some (p := fun x : Nat × Region => x.1 == n) found)
  subst same
  obtain ⟨k, -, hk⟩ := List.mem_filterMap.mp (List.mem_of_find?_eq_some found)
  obtain ⟨q', hq, e⟩ := Option.map_eq_some_iff.mp hk
  obtain ⟨rfl, rfl⟩ := Prod.mk.inj e
  rw [found, Option.some.inj (hq.symm.trans region)]

theorem qeBufDeregister_ends {r : Region} (h : s.Admits p 0xC201 b) (number : rd b 4 4 < 64) (mem : rd b 4 4 ∈ s.qe.bufs)
    (region : s.region (rd b 4 4) = some r) (unused : s.freeCount r = r.cellSpan.2) :
    ∃ t, exec (.qeBufDeregister p b) s = .next t ∧ rd b 4 4 ∉ t.qe.bufs ∧ s.Answers t p (ans stSuccess (rd b 4 4)) := by
  have all : True := trivial
  have sent := (qeBufDeregister_keeps (F := fun _ => True) (.refl _ (s.seen p)) p b).sent
  have found : (s.seen p).bufs.find? (fun x => x.1 == rd b 4 4) = some (rd b 4 4, r) :=
    State.bufs_find (by rwa [State.seen_qe]) (by rwa [State.seen_region])
  have count : (s.seen p).freeCount r = r.cellSpan.2 := by rw [State.freeCount, State.seen_qe]; exact unused
  have does : rd b 4 4 ∉ (qeBufDeregister p b (s.seen p)).1.qe.bufs ∧ (qeBufDeregister p b (s.seen p)).2 = ans stSuccess (rd b 4 4) := by
    rw [qeBufDeregister]
    simp only [not_le.mpr number, if_false, State.seen_qe, mem, not_true_eq_false, found, count, ne_eq]
    simp
  have ends := h.runs qeBufDeregister (by rw [does.2]; exact ans_ne_owedLater _ _ _) sent
  rw [does.2] at ends
  exact ⟨_, rfl, by rw [ends.qe]; exact does.1, ends.answers⟩

theorem qeCtl_ends (h : s.Admits p 0xC224 b) (obj : rd b 4 4 = 0) :
    ∃ t, exec (.qeCtl p b) s = .next t ∧ t.qe = { s.qe with ctxHalted := s.qe.ctxHalted &&& ~~~(BitVec.ofNat 40 (rd b 8 8)) } := by
  have ends := h.ends (body := qeCtl) (if_neg (not_not.mpr obj)) (ans_ne_owedLater _ _ _) List.prefix_rfl
  exact ⟨_, rfl, by rw [ends.qe]; dsimp only; rw [State.seen_qe]⟩

theorem ceCtl_ends (h : s.Admits p 0xC305 b) (obj : rd b 4 4 = 0) :
    ∃ t, exec (.ceCtl p b) s = .next t ∧ t.ce = { s.ce with halted := s.ce.halted &&& ~~~(BitVec.ofNat 12 (rd b 8 8)) } := by
  have ends := h.ends (body := ceCtl) (if_neg (not_not.mpr obj)) (ans_ne_owedLater _ _ _) List.prefix_rfl
  exact ⟨_, rfl, by rw [ends.ce]; dsimp only; rw [State.seen_ce]⟩

end

/-- Settles O22: each command by its own lemma above. -/
theorem bufferRegionsAreRegistered : Obligations.BufferRegionsAreRegistered := fun _ _ _ =>
  ⟨fun _ => qeBufRegister_ends, fun _ => qeBufDeregister_ends, qeCtl_ends, ceCtl_ends⟩

/-! ### Control commands (15 R533, R544, R549, R555, R556) -/

/-- The rules of TIER_CTL's fields. -/
def tierCtlRules : List (Nat × FieldRule) := [(0, fRange 8 1 1 40), (1, fRange 9 1 1 40), (2, fEnum 10 1 1 0)]

/-- The rules of CD_CTL's fields. -/
def cdCtlRules : List (Nat × FieldRule) := [(0, fEnum 8 1 1 0), (1, fRange 9 1 1 25), (2, fRange 10 1 1 40), (3, fEnum 11 1 1 0)]

/-- The rules of SCRUB_CTL's fields. -/
def scrubCtlRules : List (Nat × FieldRule) :=
  [(0, fRange 8 1 1 168), (1, fRange 9 1 1 15), (2, fRange 10 1 1 168), (3, fRange 11 1 1 64), (4, fRange 12 1 1 80)]

/-- The rules of TU_CTL's fields. -/
def tuCtlRules : List (Nat × FieldRule) :=
  [(0, fEnum 8 1 3 0), (1, fEnum 9 1 3 0), (2, fRange 10 2 1 1000), (3, fRange 12 4 0 1000000), (4, fRange 16 4 1 1000000)]

section
variable {s : State} {p : Path} {b : Bytes}

theorem tierCtl_ends (h : s.Admits p 0xC111 b) (obj : rd b 4 4 = 0) :
    ∃ t, exec (.tierCtl p b) s = .next t ∧ t.tr.migRate = (if validBit b 0 then clampN 1 40 (rd b 8 1) else s.tr.migRate) ∧
      t.tr.sweepRate = (if validBit b 1 then clampN 1 40 (rd b 9 1) else s.tr.sweepRate) := by
  have long : 11 ≤ b.length := h.length rfl
  have fits : ∀ q ∈ tierCtlRules, q.2.Fits b := by
    simp only [tierCtlRules, List.forall_mem_cons, List.not_mem_nil, false_imp_iff, imp_true_iff, and_true]
    exact ⟨fRange_fits (by omega) (by decide) (by decide), fRange_fits (by omega) (by decide) (by decide), fEnum_fits (by omega) (by decide)⟩
  have field := validRules_rd (rs := tierCtlRules) (by simp [tierCtlRules, FieldRule.Apart, fRange, fEnum]) fits
  have all : True := trivial
  have sent := (tierCtl_keeps (F := fun _ => True) (.refl _ (s.seen p)) p b).sent
  have rest (c : Bool) (u : State) : (if c = true then u.restartMig else u).tr = { u.tr with halted := (if c = true then u.restartMig else u).tr.halted } := by
    cases c <;> rfl
  have sets : (tierCtl p b (s.seen p)).1.tr.migRate = (if validBit b 0 then clampN 1 40 (rd b 8 1) else s.tr.migRate) ∧
      (tierCtl p b (s.seen p)).1.tr.sweepRate = (if validBit b 1 then clampN 1 40 (rd b 9 1) else s.tr.sweepRate) ∧
      (tierCtl p b (s.seen p)).2 ≠ owedLater := by
    simp only [tierCtl, obj, ne_eq, not_true_eq_false, if_false, State.direct_tr, ans_ne_owedLater, not_false_eq_true, and_true, State.seen_tr]
    rw [rest]
    exact ⟨field 0 (fRange 8 1 1 40) (by simp [tierCtlRules]) _, field 1 (fRange 9 1 1 40) (by simp [tierCtlRules]) _⟩
  have ends := h.runs tierCtl sets.2.2 sent
  exact ⟨_, rfl, by rw [ends.tr]; exact sets.1, by rw [ends.tr]; exact sets.2.1⟩

theorem cdCtlRules_fit (long : 12 ≤ b.length) : ∀ q ∈ cdCtlRules, q.2.Fits b := by
  simp only [cdCtlRules, List.forall_mem_cons, List.not_mem_nil, false_imp_iff, imp_true_iff, and_true]
  exact ⟨fEnum_fits (by omega) (by decide), fRange_fits (by omega) (by decide) (by decide), fRange_fits (by omega) (by decide) (by decide),
    fEnum_fits (by omega) (by decide)⟩

theorem cdCtlRules_apart : (cdCtlRules.map (fun x => x.2)).Pairwise FieldRule.Apart := by simp [cdCtlRules, FieldRule.Apart, fRange, fEnum]

/-- CD_CTL that names no region. -/
theorem cdCtl_rate_ends (h : s.Admits p 0xC130 b) (effort : validBit b 0 = false) (low : validBit b 1 = false) :
    ∃ t, exec (.cdCtl p b) s = .next t ∧ t.cd.muckRate = (if validBit b 2 then clampN 1 40 (rd b 10 1) else s.cd.muckRate) := by
  have field := validRules_rd cdCtlRules_apart (cdCtlRules_fit (h.length rfl))
  have all : True := trivial
  have sent := (cdCtl_keeps (F := fun _ => True) (.refl _ (s.seen p)) p b).sent
  have sets : (cdCtl p b (s.seen p)).1.cd.muckRate = (if validBit b 2 then clampN 1 40 (rd b 10 1) else s.cd.muckRate) ∧
      (cdCtl p b (s.seen p)).2 ≠ owedLater := by
    simp only [cdCtl, effort, low, Bool.or_false, Bool.false_and, Bool.false_eq_true, if_false, State.direct_cd, ans_ne_owedLater, ne_eq,
      not_false_eq_true, and_true, State.seen_cd]
    exact field 2 (fRange 10 1 1 40) (by simp [cdCtlRules]) _
  have ends := h.runs cdCtl sets.2 sent
  exact ⟨_, rfl, by rw [ends.cd]; exact sets.1⟩

/-- Whether a region's free stalls are low changes nothing of it but that it is known to be so. -/
theorem State.checkLow_region {r : Region} {n : Nat} (region : s.region n = some r) :
    ∃ low, (s.checkLow n).region n = some { r with yardLow := low } := by
  have set (low : Bool) : (s.modRegion n (fun r => { r with yardLow := low })).region n = some { r with yardLow := low } := by
    rw [State.region_modRegion, if_pos rfl, region]
    rfl
  rw [State.checkLow, region]
  dsimp only
  cases r.isLow <;> cases was : r.yardLow
  · exact ⟨r.yardLow, region⟩
  · exact ⟨false, set false⟩
  · exact ⟨true, set true⟩
  · exact ⟨r.yardLow, region⟩

theorem State.checkLowIf_region (c : Bool) {r : Region} {n : Nat} (region : s.region n = some r) :
    ∃ low, (if c = true then s.checkLow n else s).region n = some { r with yardLow := low } := by
  cases c
  · exact ⟨r.yardLow, region⟩
  · exact State.checkLow_region region

theorem State.region_direct (s : State) (p : Path) (op kind obj : Nat) (cl : List (Nat × Nat × Nat)) (n : Nat) :
    (s.direct p op kind obj cl).region n = s.region n := by
  rw [State.region, State.direct_rg, State.region]

theorem State.Ends.region {u t : State} {r : Reply} (h : s.Ends u t p r) (n : Nat) : t.region n = u.region n := by
  rw [State.region, h.rg, State.region]

/-- What CD_CTL makes of the region that it names. -/
def Region.controlled (b : Bytes) (c : Bytes) (r : Region) : Region :=
  { r with effort := if validBit b 0 then rd c 8 1 else r.effort, lowPct := if validBit b 1 then rd c 9 1 else r.lowPct }

theorem cdCtl_region_ends {r : Region} (h : s.Admits p 0xC130 b) (region : s.region (rd b 4 4) = some r) (tier : r.tier ≠ 0) :
    ∃ t x, exec (.cdCtl p b) s = .next t ∧ t.region (rd b 4 4) = some x ∧
      x.effort = (if validBit b 0 then if rd b 8 1 ≤ 1 then rd b 8 1 else 0 else r.effort) ∧
      x.lowPct = (if validBit b 1 then clampN 1 25 (rd b 9 1) else r.lowPct) := by
  have field := validRules_rd cdCtlRules_apart (cdCtlRules_fit (h.length rfl))
  have all : True := trivial
  have sent := (cdCtl_keeps (F := fun _ => True) (.refl _ (s.seen p)) p b).sent
  have seen : (s.seen p).region (rd b 4 4) = some r := (s.seen_region p _).trans region
  have named (c : Bytes) : ((if (validBit b 0 || validBit b 1) = true then (s.seen p).modRegion (rd b 4 4) (Region.controlled b c) else s.seen p).region
      (rd b 4 4)) = some (r.controlled b c) := by
    split_ifs with named
    · rw [State.region_modRegion, if_pos rfl, seen]
      rfl
    · simp only [Bool.or_eq_true, not_or] at named
      simp [seen, Region.controlled, named]
  have sets : (∃ low, (cdCtl p b (s.seen p)).1.region (rd b 4 4) =
        some { r.controlled b (applyRules (validRules b cdCtlRules) b).1 with yardLow := low }) ∧ (cdCtl p b (s.seen p)).2 ≠ owedLater := by
    simp only [cdCtl, seen, Option.isNone_some, Bool.and_false, Bool.false_eq_true, if_false, Option.map_some, Option.getD_some, tier,
      decide_false, State.region_direct, ans_ne_owedLater, ne_eq, not_false_eq_true, and_true]
    exact State.checkLowIf_region _ (named _)
  obtain ⟨⟨low, set⟩, answered⟩ := sets
  have ends := h.runs cdCtl answered sent
  refine ⟨_, _, rfl, (ends.region _).trans set, ?_, ?_⟩
  · exact field 0 (fEnum 8 1 1 0) (by simp [cdCtlRules]) _
  · exact field 1 (fRange 9 1 1 25) (by simp [cdCtlRules]) _

/-- Rows that become hard leave every register of LP as it was. -/
theorem State.hardenRows_lp (s : State) : ∃ rows hard, s.hardenRows.lp = { s.lp with rows := rows, hardRows := hard } := by
  rw [State.hardenRows]
  dsimp only
  generalize s.lp.rows.filter (fun e => decide (s.lp.rowThr ≤ e.count)) = l
  induction l generalizing s with
  | nil => exact ⟨s.lp.rows, s.lp.hardRows, rfl⟩
  | cons e l ih =>
    rw [List.foldl_cons]
    obtain ⟨rows, hard, rest⟩ := ih _
    rw [rest]
    split_ifs
    · exact ⟨rows, hard, rfl⟩
    · exact ⟨rows, hard, rfl⟩

/-- The registers of LP that SCRUB_CTL sets. -/
def Lp.controls (x : Lp) : Nat × Nat × Nat × Nat × Nat := (x.patrolH, x.rowThr, x.rowWin, x.devThr, x.resilverRate)

theorem State.hardenRows_controls (s : State) : s.hardenRows.lp.controls = s.lp.controls := by
  obtain ⟨rows, hard, e⟩ := s.hardenRows_lp
  rw [e]
  rfl

theorem scrubCtl_controls (obj : rd b 4 4 = 0) (long : 14 ≤ b.length) :
    (scrubCtl p b s).1.lp.controls = (if validBit b 0 then clampN 1 168 (rd b 8 1) else s.lp.patrolH,
      if validBit b 1 then clampN 1 15 (rd b 9 1) else s.lp.rowThr, if validBit b 2 then clampN 1 168 (rd b 10 1) else s.lp.rowWin,
      if validBit b 3 then clampN 1 64 (rd b 11 1) else s.lp.devThr, if validBit b 4 then clampN 1 80 (rd b 12 1) else s.lp.resilverRate) := by
  have fits : ∀ q ∈ scrubCtlRules, q.2.Fits b := by
    simp only [scrubCtlRules, List.forall_mem_cons, List.not_mem_nil, false_imp_iff, imp_true_iff, and_true]
    exact ⟨fRange_fits (by omega) (by decide) (by decide), fRange_fits (by omega) (by decide) (by decide),
      fRange_fits (by omega) (by decide) (by decide), fRange_fits (by omega) (by decide) (by decide), fRange_fits (by omega) (by decide) (by decide)⟩
  have field := validRules_rd (rs := scrubCtlRules) (by simp [scrubCtlRules, FieldRule.Apart, fRange]) fits
  have restart (c d : Bool) (u : State) :
      (if d = true then (if c = true then u.restartScrub else u).restartFill else (if c = true then u.restartScrub else u)).lp.controls =
        u.lp.controls := by
    cases c <;> cases d <;> rfl
  have set {a b c d e a' b' c' d' e' : Nat} (ha : a = a') (hb : b = b') (hc : c = c') (hd : d = d') (he : e = e') :
      (a, b, c, d, e) = (a', b', c', d', e') := by rw [ha, hb, hc, hd, he]
  simp only [scrubCtl, obj, ne_eq, not_true_eq_false, if_false, State.direct_lp]
  rw [restart, State.hardenRows_controls]
  exact set (field 0 (fRange 8 1 1 168) (by simp [scrubCtlRules]) _) (field 1 (fRange 9 1 1 15) (by simp [scrubCtlRules]) _)
    (field 2 (fRange 10 1 1 168) (by simp [scrubCtlRules]) _) (field 3 (fRange 11 1 1 64) (by simp [scrubCtlRules]) _)
    (field 4 (fRange 12 1 1 80) (by simp [scrubCtlRules]) _)

theorem scrubCtl_ends (h : s.Admits p 0xC720 b) (obj : rd b 4 4 = 0) :
    ∃ t, exec (.scrubCtl p b) s = .next t ∧ t.lp.patrolH = (if validBit b 0 then clampN 1 168 (rd b 8 1) else s.lp.patrolH) ∧
      t.lp.rowThr = (if validBit b 1 then clampN 1 15 (rd b 9 1) else s.lp.rowThr) ∧
      t.lp.rowWin = (if validBit b 2 then clampN 1 168 (rd b 10 1) else s.lp.rowWin) ∧
      t.lp.devThr = (if validBit b 3 then clampN 1 64 (rd b 11 1) else s.lp.devThr) ∧
      t.lp.resilverRate = (if validBit b 4 then clampN 1 80 (rd b 12 1) else s.lp.resilverRate) := by
  have all : True := trivial
  have sent := (scrubCtl_keeps (F := fun _ => True) (.refl _ (s.seen p)) p b).sent
  have answered : (scrubCtl p b (s.seen p)).2 ≠ owedLater := by
    simp only [scrubCtl, obj, ne_eq, not_true_eq_false, if_false, ans_ne_owedLater, not_false_eq_true]
  have ends := h.runs scrubCtl answered sent
  have set := scrubCtl_controls (s := s.seen p) (p := p) obj (h.length rfl)
  rw [← ends.lp, State.seen_lp] at set
  exact ⟨_, rfl, congrArg (·.1) set, congrArg (·.2.1) set, congrArg (·.2.2.1) set, congrArg (·.2.2.2.1) set, congrArg (·.2.2.2.2) set⟩

theorem tuCtl_ends (h : s.Admits p 0xC250 b) (obj : rd b 4 4 = 0) :
    ∃ t, exec (.tuCtl p b) s = .next t ∧ t.tu.ptmMs = (if validBit b 2 then clampN 1 1000 (rd b 10 2) else s.tu.ptmMs) ∧
      t.tu.ppsDelay = (if validBit b 3 then clampN 0 1000000 (rd b 12 4) else s.tu.ppsDelay) ∧
      t.tu.stepThr = (if validBit b 4 then clampN 1 1000000 (rd b 16 4) else s.tu.stepThr) ∧
      t.tu.ptmOffset = (if validBit b 5 then signed 64 (rd b 24 8) else s.tu.ptmOffset) := by
  have long : 32 ≤ b.length := h.length rfl
  have fits : ∀ q ∈ tuCtlRules, q.2.Fits b := by
    simp only [tuCtlRules, List.forall_mem_cons, List.not_mem_nil, false_imp_iff, imp_true_iff, and_true]
    exact ⟨fEnum_fits (by omega) (by decide), fEnum_fits (by omega) (by decide), fRange_fits (by omega) (by decide) (by decide),
      fRange_fits (by omega) (by decide) (by decide), fRange_fits (by omega) (by decide) (by decide)⟩
  have field := validRules_rd (rs := tuCtlRules) (by simp [tuCtlRules, FieldRule.Apart, fRange, fEnum]) fits
  have offset : rd (applyRules (validRules b tuCtlRules) b).1 24 8 = rd b 24 8 :=
    validRules_other (fun q hq => (fits q hq).1) (by simp [tuCtlRules, fRange, fEnum])
  have all : True := trivial
  have sent := (tuCtl_keeps (F := fun _ => True) (.refl _ (s.seen p)) p b).sent
  have answered : (tuCtl p b (s.seen p)).2 ≠ owedLater := by
    simp only [tuCtl, obj, ne_eq, not_true_eq_false, if_false, ans_ne_owedLater, not_false_eq_true]
  have ends := h.runs tuCtl answered sent
  refine ⟨_, rfl, ?_⟩
  rw [ends.tu]
  simp only [tuCtl, obj, ne_eq, not_true_eq_false, if_false, State.direct_tu, State.seen_tu]
  refine ⟨field 2 (fRange 10 2 1 1000) (by simp [tuCtlRules]) _, field 3 (fRange 12 4 0 1000000) (by simp [tuCtlRules]) _,
    field 4 (fRange 16 4 1 1000000) (by simp [tuCtlRules]) _, ?_⟩
  rw [← offset]
  rfl

/-- A step of network time sets it to the value given. -/
theorem State.stepTime_ns40 (s : State) (t40 : Nat) : (s.stepTime t40).tu.ns40 = t40 := by
  rw [State.stepTime, (State.gatesStepped_keeps (F := (· ∈ [.sc, .pm])) (.refl _ _) (by decide) (by decide)).same .tu (by decide)]
  rw [State.count_tu, State.report_tu]

theorem tuSet_ends (h : s.Admits p 0xC251 b) (obj : rd b 4 4 = 0) (acquiring : s.tu.mode ≠ .acquiring) (locked : s.tu.mode ≠ .locked) :
    ∃ t, exec (.tuSet p b) s = .next t ∧ t.tu.ns40 = (rd b 16 6 * 1000000000 + clampN 0 999999999 (rd b 8 4)) * 2 ^ 40 := by
  have long : 24 ≤ b.length := h.length rfl
  have fits : ∀ r ∈ [fRange 8 4 0 999999999], r.Fits b :=
    List.forall_mem_singleton.mpr (fRange_fits (by omega) (by decide) (by decide))
  have ns : rd (applyRules [fRange 8 4 0 999999999] b).1 8 4 = clampN 0 999999999 (rd b 8 4) :=
    applyRules_field _ b (fRange 8 4 0 999999999) (List.mem_singleton_self _) (List.pairwise_singleton _ _) fits
  have sec : rd (applyRules [fRange 8 4 0 999999999] b).1 16 6 = rd b 16 6 :=
    applyRules_other _ b 16 6 (fun r hr => (fits r hr).1) (by simp [fRange])
  have free : ¬((s.seen p).tu.mode = .acquiring ∨ (s.seen p).tu.mode = .locked) := by rw [State.seen_tu, not_or]; exact ⟨acquiring, locked⟩
  have all : True := trivial
  have sent := (tuSet_keeps (F := fun _ => True) (.refl _ (s.seen p)) p b).sent
  have does : (tuSet p b (s.seen p)).1.tu.ns40 = (rd b 16 6 * 1000000000 + clampN 0 999999999 (rd b 8 4)) * 2 ^ 40 ∧
      (tuSet p b (s.seen p)).2 ≠ owedLater := by
    simp only [tuSet, obj, ne_eq, not_true_eq_false, if_false, free, State.direct_tu, State.stepTime_ns40, ns, sec, ans_ne_owedLater,
      not_false_eq_true, and_self]
  have ends := h.runs tuSet does.2 sent
  exact ⟨_, rfl, by rw [ends.tu]; exact does.1⟩

/-! ### The performance monitor (15 R555) -/

/-- Counting changes the counters only. -/
theorem State.count_counters (s : State) (node idx n : Nat) :
    ∃ cnt sticky, (s.count node idx n).pm = { s.pm with cnt := cnt, sticky := sticky } :=
  ⟨_, _, State.pm_of_essence (s.essence_count node idx n)⟩

/-- Clocking the performance monitor changes of it the counters only, by the events it counts. -/
theorem State.pmClock_pm (s : State) : ∃ cnt sticky, s.pmClock.pm = { s.pm with cnt := cnt, sticky := sticky } := by
  rw [State.pmClock, State.setDomain]
  dsimp only
  split_ifs
  · exact ⟨s.pm.cnt, s.pm.sticky, rfl⟩
  · exact State.count_counters _ _ _ _
  · exact State.count_counters _ _ _ _

/-- Of the performance monitor only counters change while a command is answered. -/
theorem State.Ends.pm {u t : State} {r : Reply} (h : s.Ends u t p r) : ∃ cnt sticky, t.pm = { u.pm with cnt := cnt, sticky := sticky } :=
  ⟨_, _, State.pm_of_essence h.essence⟩

/-- What a command leaves of the performance monitor that its body sets and clocks. -/
theorem State.Ends.pm_clocked {u t v : State} {r : Reply} (h : s.Ends u t p r) (clocked : u.pm = v.pmClock.pm) :
    ∃ cnt sticky, t.pm = { v.pm with cnt := cnt, sticky := sticky } := by
  obtain ⟨cnt, sticky, e⟩ := h.pm
  obtain ⟨_, _, e'⟩ := v.pmClock_pm
  exact ⟨cnt, sticky, by rw [e, clocked, e']⟩

/-- The events and enables are what they were while commands come and go. -/
theorem State.seen_pm (s : State) (p : Path) : ∃ cnt sticky, (s.seen p).pm = { s.pm with cnt := cnt, sticky := sticky } :=
  ⟨(s.seen p).pm.cnt, (s.seen p).pm.sticky, by
    have e : (s.seen p).essence.pm = s.essence.pm := (congrArg State.pm (s.essence_seen p) :)
    exact congrArg (fun x : Pm => { x with cnt := (s.seen p).pm.cnt, sticky := (s.seen p).pm.sticky }) e⟩

/-- The counters that PM_CFG leaves enabled: the counter named as its flag says. -/
def pmEnabled (c flags : Nat) (en : List Nat) : List Nat :=
  if flags.testBit 0 then (if c ∈ en then en else en ++ [c]) else en.filter (· != c)

theorem mem_pmEnabled (c flags : Nat) (en : List Nat) : c ∈ pmEnabled c flags en ↔ flags.testBit 0 = true := by
  rw [pmEnabled]
  split_ifs with on there
  · simp [on, there]
  · simp [on]
  · simp [on]

theorem pmCfg_ends (h : s.Admits p 0xC600 b) (counter : rd b 4 4 < 512) :
    ∃ t, exec (.pmCfg p b) s = .next t ∧ (rd b 4 4 ∈ t.pm.en ↔ (rd b 10 1).testBit 0 = true) ∧
      (eventListed (rd b 8 2 % 4096) = true → sget 0 t.pm.evt (rd b 4 4) = rd b 8 2 % 4096) ∧
      (∀ c, c ≠ rd b 4 4 → sget 0 t.pm.evt c = sget 0 s.pm.evt c) := by
  have long : 11 ≤ b.length := h.length rfl
  have all : True := trivial
  have sent := (pmCfg_keeps (F := fun _ => True) (.refl _ (s.seen p)) p b).sent
  have does : ∃ v cl, (pmCfg p b (s.seen p)).1 = (State.pmClock v).direct p 0xC600 20 (rd b 4 4) cl ∧
      (pmCfg p b (s.seen p)).2 = ans (okStatus cl) (rd b 4 4) ∧ v.pm.en = pmEnabled (rd b 4 4) (rd b 10 1) (s.seen p).pm.en ∧
      v.pm.evt = sset 0 (s.seen p).pm.evt (rd b 4 4) (rd (applyRules [⟨8, 2, fun v => if eventListed (v % 4096) then v
        else sget 0 (s.seen p).pm.evt (rd b 4 4)⟩] b).1 8 2 % 4096) := by
    simp only [pmCfg, not_le.mpr counter, if_false]
    refine ⟨_, _, rfl, rfl, ?_, ?_⟩
    · cases (rd b 10 1).testBit 1 <;> rfl
    · cases (rd b 10 1).testBit 1 <;> rfl
  obtain ⟨v, cl, does, answer, en, evt⟩ := does
  have ends := h.runs pmCfg (by rw [answer]; exact ans_ne_owedLater _ _ _) sent
  obtain ⟨cnt, sticky, pm⟩ := ends.pm_clocked (v := v) (by rw [does, State.direct_pm])
  obtain ⟨_, _, seen⟩ := s.seen_pm p
  refine ⟨_, rfl, ?_, fun listed => ?_, fun c other => ?_⟩ <;> rw [pm] <;> dsimp only
  · rw [en]
    exact mem_pmEnabled ..
  · have named := applyRules_field [⟨8, 2, fun v => if eventListed (v % 4096) then v else sget 0 (s.seen p).pm.evt (rd b 4 4)⟩] b
      _ (List.mem_singleton_self _) (List.pairwise_singleton _ _)
      (List.forall_mem_singleton.mpr ⟨by dsimp only; omega, by dsimp only; rw [if_pos listed]; exact rd_lt ..⟩)
    dsimp only at named
    rw [evt, sget_sset_same, named, if_pos listed]
  · rw [evt, sget_sset_other other, seen]

/-- A rule that comes last leaves the other fields as the rules before it made them. -/
theorem applyRules_concat_other (rs : List FieldRule) (r : FieldRule) (b : Bytes) (o l : Nat)
    (inside : r.off + r.len ≤ (applyRules rs b).1.length) (apart : o + l ≤ r.off ∨ r.off + r.len ≤ o) :
    rd (applyRules (rs ++ [r]) b).1 o l = rd (applyRules rs b).1 o l := by
  rw [applyRules_eq, List.foldl_append, List.foldl_cons, List.foldl_nil]
  exact fieldStep_other _ r o l inside apart

theorem length_applyRules (rs : List FieldRule) (b : Bytes) (inside : ∀ r ∈ rs, r.off + r.len ≤ b.length) :
    (applyRules rs b).1.length = b.length := by
  induction rs using List.reverseRecOn with
  | nil => rfl
  | append_singleton rs r ih =>
    have before := ih fun q hq => inside q (List.mem_append_left _ hq)
    rw [applyRules_eq, List.foldl_append, List.foldl_cons, List.foldl_nil, ← applyRules_eq,
      fieldStep_length _ _ ((inside r (List.mem_append_right _ (List.mem_singleton_self r))).trans_eq before.symm)]
    exact before

/-- The rules of PM_DUMP_CFG's fields, but for the function that the dump goes to. -/
def pmDumpRules : List FieldRule := [⟨8, 8, roundDown 4096⟩, ⟨16, 4, pow2Below 1 16⟩, ⟨20, 4, min 1000000⟩]

theorem pmDumpRules_field (long : 25 ≤ b.length) (fn : Nat → Nat) {r : FieldRule} (hr : r ∈ pmDumpRules) :
    rd (applyRules [⟨8, 8, roundDown 4096⟩, ⟨16, 4, pow2Below 1 16⟩, ⟨20, 4, min 1000000⟩, ⟨24, 1, fn⟩] b).1 r.off r.len =
      r.fix (rd b r.off r.len) := by
  have fits : ∀ q ∈ pmDumpRules, q.Fits b := by
    simp only [pmDumpRules, List.forall_mem_cons, List.not_mem_nil, false_imp_iff, imp_true_iff, and_true]
    exact ⟨roundDown_fits (by omega), pow2Below_fits (by omega) (by decide) (by decide), by dsimp only; omega,
      (min_le_right _ _).trans_lt (rd_lt b 20 4)⟩
  have length := length_applyRules pmDumpRules b fun q hq => (fits q hq).1
  have before : ∀ q ∈ pmDumpRules, q.off + q.len ≤ 24 := by simp [pmDumpRules]
  refine (applyRules_concat_other pmDumpRules ⟨24, 1, fn⟩ b _ _ (by rw [length]; exact long) (.inl (before r hr))).trans ?_
  exact applyRules_field pmDumpRules b r hr (by simp [pmDumpRules, FieldRule.Apart]) fits

theorem pmDumpCfg_ends (h : s.Admits p 0xC601 b) (obj : rd b 4 4 = 0) :
    ∃ t, exec (.pmDumpCfg p b) s = .next t ∧ t.pm.base = roundDown 4096 (rd b 8 8) ∧ t.pm.records = pow2Below 1 16 (rd b 16 4) ∧
      t.pm.interval = min 1000000 (rd b 20 4) := by
  have field (fn : Nat → Nat) (r : FieldRule) := pmDumpRules_field (h.length rfl) fn (r := r)
  have all : True := trivial
  have sent := (pmDumpCfg_keeps (F := fun _ => True) (.refl _ (s.seen p)) p b).sent
  have does : ∃ v cl, (pmDumpCfg p b (s.seen p)).1 = (State.pmClock v).direct p 0xC601 20 (rd b 4 4) cl ∧
      (pmDumpCfg p b (s.seen p)).2 = ans (okStatus cl) (rd b 4 4) ∧ v.pm.base = roundDown 4096 (rd b 8 8) ∧
      v.pm.records = pow2Below 1 16 (rd b 16 4) ∧ v.pm.interval = min 1000000 (rd b 20 4) := by
    simp only [pmDumpCfg, obj, ne_eq, not_true_eq_false, if_false]
    refine ⟨_, _, rfl, rfl, ?_⟩
    dsimp only
    exact ⟨field _ ⟨8, 8, roundDown 4096⟩ (by simp [pmDumpRules]), field _ ⟨16, 4, pow2Below 1 16⟩ (by simp [pmDumpRules]),
      field _ ⟨20, 4, min 1000000⟩ (by simp [pmDumpRules])⟩
  obtain ⟨v, cl, does, answer, base, records, interval⟩ := does
  have ends := h.runs pmDumpCfg (by rw [answer]; exact ans_ne_owedLater _ _ _) sent
  obtain ⟨cnt, sticky, pm⟩ := ends.pm_clocked (v := v) (by rw [does, State.direct_pm])
  exact ⟨_, rfl, by rw [pm]; exact base, by rw [pm]; exact records, by rw [pm]; exact interval⟩

end

/-- Settles O23: each command by its own lemma above. -/
theorem unitControlsSetTheirFields : Obligations.UnitControlsSetTheirFields := fun _ _ _ =>
  ⟨tierCtl_ends, cdCtl_rate_ends, fun _ h region tier _ => cdCtl_region_ends h region tier, scrubCtl_ends, tuCtl_ends, tuSet_ends, pmCfg_ends,
    pmDumpCfg_ends⟩

/-! ### Fault control (15 R552; 16 R567, R576, R581, R582) -/

/-- The rules of FAULT_CTL's fields. -/
def faultCtlRules : List (Nat × FieldRule) := [(0, fRange 8 1 0 4), (1, fRange 12 4 1 3600)]

section
variable {s : State} {p : Path} {b : Bytes}

theorem faultCtl_ends (h : s.Admits p 0xC401 b) (obj : rd b 4 4 = 0) :
    ∃ t, exec (.faultCtl p b) s = .next t ∧ t.fc.pinThr = (if validBit b 0 then clampN 0 4 (rd b 8 1) else s.fc.pinThr) ∧
      t.fc.quiet = (if validBit b 1 then clampN 1 3600 (rd b 12 4) else s.fc.quiet) := by
  have long : 16 ≤ b.length := h.length rfl
  have fits : ∀ q ∈ faultCtlRules, q.2.Fits b := by
    simp only [faultCtlRules, List.forall_mem_cons, List.not_mem_nil, false_imp_iff, imp_true_iff, and_true]
    exact ⟨fRange_fits (by omega) (by decide) (by decide), fRange_fits (by omega) (by decide) (by decide)⟩
  have field := validRules_rd (rs := faultCtlRules) (by simp [faultCtlRules, FieldRule.Apart, fRange]) fits
  have all : True := trivial
  have sent := (faultCtl_keeps (F := fun _ => True) (.refl _ (s.seen p)) p b).sent
  have answered : (faultCtl p b (s.seen p)).2 ≠ owedLater := by
    simp only [faultCtl, obj, ne_eq, not_true_eq_false, if_false, ans_ne_owedLater, not_false_eq_true]
  have ends := h.runs faultCtl answered sent
  refine ⟨_, rfl, ?_⟩
  rw [ends.fc]
  simp only [faultCtl, obj, ne_eq, not_true_eq_false, if_false, State.direct_fc, State.seen_fc]
  exact ⟨field 0 (fRange 8 1 0 4) (by simp [faultCtlRules]) _, field 1 (fRange 12 4 1 3600) (by simp [faultCtlRules]) _⟩

/-- FAULT_CFG of the default, for a source whose ladder waits in no window. -/
theorem faultCfg_ends (h : s.Admits p 0xC400 b) (source : (sourceInfo (rd b 4 4)).isSome) (default : (rd b 21 1).testBit 0 = true)
    (idle : ∀ r e, (s.srcAt (rd b 4 4)).walk ≠ .window r e) :
    ∃ t, exec (.faultCfg p b) s = .next t ∧ oget t.fc.cfg (rd b 4 4) = none ∧ s.Answers t p (ans stSuccess (rd b 4 4)) := by
  have known : (sourceInfo (rd b 4 4)).isNone = false := by rwa [Option.isNone_eq_false_iff]
  have does : faultCfg p b (s.seen p) =
      ({ s.seen p with fc := { (s.seen p).fc with cfg := oset (s.seen p).fc.cfg (rd b 4 4) none } }, ans stSuccess (rd b 4 4)) := by
    have walk : ({ s.seen p with fc := { (s.seen p).fc with cfg := oset (s.seen p).fc.cfg (rd b 4 4) none } } : State).srcAt (rd b 4 4) =
        s.srcAt (rd b 4 4) := by
      rw [State.srcAt, State.srcAt, ← s.seen_fc p]
    simp only [faultCfg, known, Bool.false_eq_true, if_false, default, if_true, walk]
    rfl
  have ends := h.ends does (ans_ne_owedLater _ _ _) List.prefix_rfl
  exact ⟨_, rfl, by rw [ends.fc, oget_oset_same], ends.answers⟩

theorem faultClear_ends (h : s.Admits p 0xC403 b) (obj : rd b 4 4 = 0) :
    ∃ t, exec (.faultClear p b) s = .next t ∧ (rd b 8 1 = 0 → t.fc.first = none ∧ t.fc.log = s.fc.log) ∧
      (rd b 8 1 = 1 → t.fc.log = [] ∧ t.fc.first = s.fc.first) ∧
      (rd b 8 1 = 2 → t.fc.recov = 0 ∧ t.fc.log = s.fc.log ∧ t.fc.first = s.fc.first) := by
  have long : 9 ≤ b.length := h.length rfl
  have what : rd (applyRules [fEnum 8 1 2 0] b).1 8 1 = if rd b 8 1 ≤ 2 then rd b 8 1 else 0 :=
    applyRules_field _ b (fEnum 8 1 2 0) (List.mem_singleton_self _) (List.pairwise_singleton _ _)
      (List.forall_mem_singleton.mpr (fEnum_fits (by omega) (by decide)))
  have all : True := trivial
  have sent := (faultClear_keeps (F := fun _ => True) (.refl _ (s.seen p)) p b).sent
  have answered : (faultClear p b (s.seen p)).2 ≠ owedLater := by
    simp only [faultClear, obj, ne_eq, not_true_eq_false, if_false, ans_ne_owedLater, not_false_eq_true]
  have ends := h.runs faultClear answered sent
  refine ⟨_, rfl, fun named => ?_, fun named => ?_, fun named => ?_⟩ <;> rw [ends.fc] <;>
    simp [faultClear, obj, what, named, State.direct_fc, State.seen_fc]

end

/-- Settles O24: each command by its own lemma above. -/
theorem faultControlsSet : Obligations.FaultControlsSet := fun _ _ _ => ⟨faultCtl_ends, faultCfg_ends, faultClear_ends⟩

end Sys2Proof.Machine
end

section
/-! PROOFS. The background commands that start: an operation joins the list under a new handle, which the answer gives (14 R493, R503). -/

set_option Elab.async false

namespace Sys2Proof.Machine
open Sys2Proof

/-! ### A background operation that starts -/

@[simp] theorem accepted_status (h obj : Nat) : (accepted h obj).status = stBgStarted := by
  rw [Reply.status, accepted, rd, List.drop_zero, List.append_assoc, List.take_left' (length_le _ _), unle_le]
  decide

/-- The operation that a background command starts. -/
def State.newOp (s : State) (p : Path) (op obj : Nat) (work : BgWork) (total : Nat) (clamped : Bool) : BgOp :=
  ⟨s.newHandle, who p, p, op, obj, work, 0, total, 0, true, clamped⟩

/-- The state once a background operation runs. -/
def State.started (s : State) (p : Path) (op obj : Nat) (work : BgWork) (total : Nat) (clamped : Bool) : State :=
  { s with mb := { s.mb with ops := s.keptOps ++ [s.newOp p op obj work total clamped] } }

section
variable (s : State) (p : Path) (op obj : Nat) (work : BgWork) (total : Nat) (clamped : Bool)

/-- Where a principal may start one more operation, it starts, and the answer gives its handle. -/
theorem State.startBg_eq (room : s.bgRoom (who p) = true) (naray : ¬op < 0xC000) :
    s.startBg p op obj work total clamped = (s.started p op obj work total clamped, accepted s.newHandle obj) :=
  (if_pos room).trans (Prod.ext rfl (if_neg naray))

theorem State.newOp_mem : s.newOp p op obj work total clamped ∈ (s.started p op obj work total clamped).mb.ops :=
  List.mem_append_right _ (List.mem_singleton_self _)

end

theorem State.seen_bgRoom (s : State) (p : Path) (w : Nat) : (s.seen p).bgRoom w = s.bgRoom w := by
  rw [State.bgRoom, State.running, State.seen_mb, State.bgRoom, State.running]

theorem State.bgRoom_direct (s : State) (p : Path) (op kind obj : Nat) (cl : List (Nat × Nat × Nat)) (w : Nat) :
    (s.direct p op kind obj cl).bgRoom w = s.bgRoom w := by
  rw [State.bgRoom, State.running, State.direct_mb, State.bgRoom, State.running]

/-- What a command leaves that started an operation. -/
theorem State.Ends.starts {s u t v : State} {p : Path} {op obj obj' : Nat} {work : BgWork} {total : Nat} {clamped : Bool}
    (h : s.Ends u t p (accepted v.newHandle obj)) (ops : u.mb.ops = (v.started p op obj work total clamped).mb.ops) (named : obj = obj') :
    s.Starts t op obj' p :=
  ⟨v.newOp p op obj work total clamped, by rw [h.ops, ops]; exact v.newOp_mem p op obj work total clamped, rfl, named, rfl, rfl, named ▸ h.answers⟩

/-- What an admitted command leaves whose body starts an operation, and then changes neither mailboxes nor outputs. -/
theorem State.Admits.startsThen {s v : State} {p : Path} {op : Nat} {b : Bytes} (h : s.Admits p op b) {body : Body} {op' obj total : Nat}
    {work : BgWork} {clamped : Bool} (go : State → State) (mb : ∀ x, (go x).mb = x.mb) (out : ∀ x, (go x).out = x.out)
    (does : body p b (s.seen p) = (go (v.started p op' obj work total clamped), accepted v.newHandle obj)) (sent : v.out = s.out) :
    s.Starts (s.command p op b body) op' obj p := by
  refine (h.ends does (accepted_ne_owedLater _ _) ?_).starts (congrArg Mb.ops (mb _)) rfl
  rw [out, State.seen_out, State.started, sent]

theorem State.Admits.starts {s v : State} {p : Path} {op : Nat} {b : Bytes} (h : s.Admits p op b) {body : Body} {op' obj total : Nat}
    {work : BgWork} {clamped : Bool}
    (does : body p b (s.seen p) = (v.started p op' obj work total clamped, accepted v.newHandle obj)) (sent : v.out = s.out) :
    s.Starts (s.command p op b body) op' obj p :=
  h.startsThen id (fun _ => rfl) (fun _ => rfl) does sent

theorem State.setDomain_keeps_ck (s : State) (d : Nat) (on : Bool) : Keeps (· ∈ [.ck, .pm]) s (s.setDomain d on) :=
  State.setDomain_keeps (.refl _ s) d on (by decide) (by decide)

theorem State.setDomain_mb (s : State) (d : Nat) (on : Bool) : (s.setDomain d on).mb = s.mb := (s.setDomain_keeps_ck d on).same .mb (by decide)

theorem State.setDomain_out (s : State) (d : Nat) (on : Bool) : (s.setDomain d on).out = s.out := (s.setDomain_keeps_ck d on).same .out (by decide)

theorem State.seen_ceSet (s : State) (p : Path) (n : Nat) : (s.seen p).ceSet n = s.ceSet n := by
  rw [State.ceSet, State.seen_ce, State.ceSet]

theorem State.seen_queueAt (s : State) (p : Path) (n : Nat) : (s.seen p).queueAt n = s.queueAt n := by
  rw [State.queueAt, State.seen_qe, State.queueAt]

theorem State.seen_running (s : State) (p : Path) : (s.seen p).running = s.running := by
  rw [State.running, State.seen_mb, State.running]

theorem State.seen_flushing (s : State) (p : Path) (q : Nat) : (s.seen p).flushing q = s.flushing q := by
  rw [State.flushing, State.bgOf, State.seen_running, State.flushing, State.bgOf]

/-- No operation of a kind runs. -/
theorem State.bgOf_none {s : State} {sel : BgWork → Bool} (h : ∀ o ∈ s.running, sel o.work = false) : ¬(s.bgOf sel).isSome = true := by
  rw [State.bgOf, List.find?_eq_none.mpr fun o run => by rw [h o run]; decide]
  decide

theorem State.direct_seen_out (s : State) (p q : Path) (op kind obj : Nat) (cl : List (Nat × Nat × Nat)) :
    ((s.seen p).direct q op kind obj cl).out = s.out := by
  rw [State.direct_out, State.seen_out]

/-- The fields of a range command on a region, from the line that it begins with (15 R556). -/
def rangeRules (opcode : Nat) (r : Region) (start : Nat) : List FieldRule :=
  [⟨8, 8, roundDown 64⟩, ⟨16, 8, fun v => min (fixRange v) (r.base + r.size - start)⟩] ++ (if opcode = 0xC700 then [] else [fEnum 24 1 2 0])

/-- A range command works on at most what its length names and its region holds (15 R556). -/
theorem rangeRules_length {b : Bytes} {opcode : Nat} (r : Region) (start : Nat) (long : 24 ≤ b.length) (op : opcode = 0xC700 ∨ 25 ≤ b.length) :
    rd (applyRules (rangeRules opcode r start) b).1 16 8 = min (fixRange (rd b 16 8)) (r.base + r.size - start) := by
  have round : (⟨8, 8, roundDown 64⟩ : FieldRule).Fits b := roundDown_fits (by omega)
  have length : (⟨16, 8, fun v => min (fixRange v) (r.base + r.size - start)⟩ : FieldRule).Fits b :=
    ⟨long, (min_le_left _ _).trans_lt ((clampN_le 64 (2 ^ 30) _ (by decide)).trans_lt (by show 2 ^ 30 < 256 ^ 8; decide))⟩
  refine applyRules_field (rangeRules opcode r start) b ⟨16, 8, fun v => min (fixRange v) (r.base + r.size - start)⟩ (by simp [rangeRules]) ?_ ?_
  · unfold rangeRules
    split_ifs <;> simp [FieldRule.Apart, fEnum]
  · have last : ∀ q ∈ (if opcode = 0xC700 then [] else [fEnum 24 1 2 0]), q.Fits b := by
      split_ifs with zero
      · exact fun q none => absurd none List.not_mem_nil
      · exact List.forall_mem_singleton.mpr (fEnum_fits (op.resolve_left zero) (by decide))
    exact List.forall_mem_cons.mpr ⟨round, List.forall_mem_cons.mpr ⟨length, last⟩⟩

/-! ### The class B commands of the engines (14 R493, R503) -/

section
variable {s : State} {p : Path} {b : Bytes} (room : s.bgRoom (who p) = true)
include room

theorem State.room_direct (q : Path) (op kind obj : Nat) (cl : List (Nat × Nat × Nat)) :
    ((s.seen p).direct q op kind obj cl).bgRoom (who p) = true := by
  rw [State.bgRoom_direct, State.seen_bgRoom, room]

theorem qeReclaim_starts (h : s.Admits p 0xC212 b) (fn : who p < 4) (own : 4 ≤ rd b 8 1) :
    s.Starts (s.command p 0xC212 b qeReclaim) 0xC212 (rd b 4 4) p := by
  have long : 9 ≤ b.length := h.length rfl
  have self : rd (applyRules [⟨8, 1, fun v => if v < 4 then v else 0xFF⟩] b).1 8 1 = 0xFF := by
    refine (applyRules_field _ b _ (List.mem_singleton_self _) (List.pairwise_singleton _ _) ?_).trans (if_neg (not_lt.mpr own))
    exact List.forall_mem_singleton.mpr (byte_fits long fun v _ => by split_ifs <;> omega)
  apply h.starts
  case does =>
    rw [qeReclaim]
    dsimp only
    rw [self, if_pos rfl]
    refine (if_neg fun x => absurd (x.1 ▸ fn) (by decide)).trans ((if_neg fun x => x.1 rfl).trans
      ?_)
    rw [State.startBg_eq _ _ _ _ _ _ _ (State.room_direct room ..) (by decide)]
    exact if_pos (accepted_status ..)
  case sent => exact State.direct_seen_out ..

theorem ceClear_starts {c : CSet} (h : s.Admits p 0xC303 b) (number : rd b 4 4 < 4096) (set : s.ceSet (rd b 4 4) = some c) :
    s.Starts (s.command p 0xC303 b ceClear) 0xC303 (rd b 4 4) p := by
  apply h.starts
  case does =>
    rw [ceClear]
    dsimp only
    rw [if_neg (not_le.mpr number), State.seen_ceSet, set]
    dsimp only
    rw [State.startBg_eq _ _ _ _ _ _ _ (State.room_direct room ..) (by decide)]
    exact if_pos (accepted_status ..)
  case sent => exact State.direct_seen_out ..

theorem qeFlush_starts (h : s.Admits p 0xC222 b) (number : rd b 4 4 < 262144) (owner : ownerHas (s.queueAt (rd b 4 4)).owner (who p) = true)
    (idle : s.flushing (rd b 4 4) = false) (long : 4096 < (s.queueAt (rd b 4 4)).packets) :
    s.Starts (s.command p 0xC222 b qeFlush) 0xC222 (rd b 4 4) p := by
  have room : ((s.seen p).modQueue (rd b 4 4) (fun x => { x with flushTo := x.tail })).bgRoom (who p) = true := (s.seen_bgRoom p _).trans room
  apply h.starts
  case does =>
    refine (if_neg (not_le.mpr number)).trans ((if_neg (by rw [State.seen_queueAt, owner]; decide)).trans
      ((if_neg (by rw [State.seen_flushing, idle]; decide)).trans ((if_neg (by rw [State.seen_queueAt]; omega)).trans ?_)))
    rw [State.startBg_eq _ _ _ _ _ _ _ room (by decide)]
    exact if_pos (accepted_status ..)
  case sent => exact s.seen_out p

theorem nsWays_starts (h : s.Admits p 0xC510 b) (obj : rd b 4 4 = 0) (idle : ∀ o ∈ s.running, ∀ x y, o.work ≠ .ways x y) :
    s.Starts (s.command p 0xC510 b nsWays) 0xC510 (rd b 4 4) p := by
  apply h.startsThen (fun x => (x.setWays (groupsOf _) .draining).setWays (groupsOf _) .waking) (fun _ => rfl) (fun _ => rfl)
  case does =>
    refine (if_neg (not_not_intro obj)).trans ((if_neg (State.bgOf_none fun o run => ?_)).trans ?_)
    rotate_left
    · dsimp only
      rw [State.startBg_eq _ _ _ _ _ _ _ (State.room_direct room ..) (by decide)]
      exact if_pos (accepted_status ..)
    have other := idle o (s.seen_running p ▸ run)
    split
    · next x y work => exact absurd work (other x y)
    · rfl
  case sent => exact State.direct_seen_out ..

theorem rekeyStart_starts (h : s.Admits p 0xC710 b) (sweep : s.sx.sweep = true) (halted : s.sx.halted = true) :
    s.Starts (s.command p 0xC710 b rekeyStart) 0xC710 (rd b 4 4) p := by
  have on : (s.seen p).sx.sweep = true := by rwa [State.seen_sx]
  have active : ¬((s.seen p).sx.sweep && !(s.seen p).sx.halted) = true := by
    rw [State.seen_sx, halted]
    simp
  apply h.startsThen (fun x => ({ x with sx := { x.sx with
      halted := false, rate := if rd (applyRules [fRange 8 1 0 40] b).1 8 1 = 0 then x.sx.rate else rd (applyRules [fRange 8 1 0 40] b).1 8 1 } } : State).setDomain
    40 true) (fun _ => State.setDomain_mb ..) (fun _ => State.setDomain_out ..)
  case does =>
    refine (if_neg active).trans ((if_pos on).trans ?_)
    rw [State.startBg_eq _ _ _ _ _ _ _ (State.room_direct room ..) (by decide)]
    exact if_pos (accepted_status ..)
  case sent => exact State.direct_seen_out ..

theorem fuseBurn_starts (h : s.Admits p 0xC722 b) (entries : s.fu.soft ≠ []) (left : 0 < s.fu.burnsLeft) :
    s.Starts (s.command p 0xC722 b fuseBurn) 0xC722 (rd b 4 4) p := by
  have some : ¬(s.seen p).fu.soft.isEmpty = true := by simpa [State.seen_fu] using entries
  have burns : ¬(s.seen p).fu.burnsLeft = 0 := by rw [State.seen_fu]; omega
  apply h.startsThen (fun x => { x with fu := { x.fu with burnsLeft := x.fu.burnsLeft - 1 } }) (fun _ => rfl) (fun _ => rfl)
  case does =>
    refine (if_neg some).trans ((if_neg burns).trans ?_)
    dsimp only
    rw [State.startBg_eq _ _ _ _ _ _ _ (State.room_direct room ..) (by decide)]
    exact if_pos (accepted_status ..)
  case sent => exact State.direct_seen_out ..

theorem rangeCmd_starts {n : Nat} {r : Region} (opcode : Nat) (naray : ¬opcode < 0xC000) (h : s.Admits p opcode b) (long : 24 ≤ b.length)
    (op : opcode = 0xC700 ∨ 25 ≤ b.length)
    (region : s.regionAt (rd b 8 8 / 64 * 64) = some (n, r)) (owner : ownerHas r.owner (who p) = true)
    (wide : 2 ^ 20 < min (fixRange (rd b 16 8)) (r.base + r.size - rd b 8 8 / 64 * 64)) :
    s.Starts (s.command p opcode b (rangeCmd opcode)) opcode (rd b 4 4) p := by
  have found : (s.seen p).regionAt (rd b 8 8 / 64 * 64) = some (n, r) := (s.seen_regionAt p _).trans region
  have refused (x : Prop) : ¬(x ∧ (!ownerHas r.owner (who p)) = true) := fun h => absurd (owner ▸ h.2) (by decide)
  have short : ¬rd (applyRules (rangeRules opcode r (rd b 8 8 / 64 * 64)) b).1 16 8 ≤ 2 ^ 20 := by
    rw [rangeRules_length r _ long op]
    exact not_le.mpr wide
  apply h.starts
  case does =>
    unfold rangeCmd
    dsimp only
    rw [found]
    refine (if_neg (refused _)).trans ((if_neg short).trans ?_)
    rw [State.startBg_eq _ _ _ _ _ _ _ (State.room_direct room ..) naray]
    exact if_pos (accepted_status ..)
  case sent => exact State.direct_seen_out ..

end

/-- Settles O25: each of the bodies comes to the start of its operation. -/
theorem backgroundCommandsStart : Obligations.BackgroundCommandsStart := by
  intro s p b room
  exact ⟨fun h fn own => ⟨_, rfl, qeReclaim_starts room h fn own⟩, fun c h number set => ⟨_, rfl, ceClear_starts room h number set⟩,
    fun h number owner idle long => ⟨_, rfl, qeFlush_starts room h number owner idle long⟩,
    fun h obj idle => ⟨_, rfl, obj ▸ nsWays_starts room h obj idle⟩,
    fun h obj sweep halted => ⟨_, rfl, obj ▸ rekeyStart_starts room h sweep halted⟩,
    fun h entries left => ⟨_, rfl, fuseBurn_starts room h entries left⟩,
    fun n r h region owner wide => ⟨_, rfl, rangeCmd_starts room 0xC700 (by decide) h (h.length rfl) (.inl rfl) region owner wide⟩,
    fun n r h region owner wide =>
      ⟨_, rfl, rangeCmd_starts room 0xC701 (by decide) h (le_of_lt (h.length rfl)) (.inr (h.length rfl)) region owner wide⟩⟩

end Sys2Proof.Machine
end

section
/-! PROOFS. What line accesses note in LP: reads and writes of lines change its error records and add to its repair log and to the reports; its
repairs, retired pages and passes stay (07 R237 to R257). -/

set_option Elab.async false

namespace Sys2Proof.Machine
open Sys2Proof

/-- LP but for its error records and its repair log. -/
def Lp.upkeep (x : Lp) : Lp :=
  { x with erase := [], dev := [], rows := [], hardRows := [], errInfo := 0, errChaddr := 0, demandQ := [], demandDrops := 0, repairLog := [] }

/-- From `s` to `t`, LP has changed in its error records only, its repair log has grown, and so have the reports. -/
structure State.Notes (s t : State) : Prop where
  upkeep  : t.lp.upkeep = s.lp.upkeep
  log     : s.lp.repairLog <+: t.lp.repairLog
  reports : s.fc.reports <+: t.fc.reports

namespace State.Notes

variable {s t u : State}

theorem refl (s : State) : s.Notes s := ⟨rfl, List.prefix_rfl, List.prefix_rfl⟩

theorem trans (h : s.Notes t) (k : t.Notes u) : s.Notes u := ⟨k.upkeep.trans h.upkeep, h.log.trans k.log, h.reports.trans k.reports⟩

theorem of_same (h : s.Notes t) (lp : u.lp = t.lp) (fc : t.fc.reports <+: u.fc.reports) : s.Notes u :=
  ⟨lp ▸ h.upkeep, lp ▸ h.log, h.reports.trans fc⟩

theorem of_keeps (h : s.Notes t) (k : Keeps (fun q => (q != .lp && q != .fc) = true) t u) : s.Notes u :=
  h.of_same (k.same .lp (by decide)) (by rw [k.same .fc (by decide)])

theorem ite (c : Prop) [Decidable c] (h : s.Notes t) (k : s.Notes u) : s.Notes (if c then t else u) := by
  split_ifs
  · exact h
  · exact k

theorem foldl {α : Type} {f : State → α → State} (step : ∀ u a, s.Notes u → s.Notes (f u a)) (l : List α) (h : s.Notes t) :
    s.Notes (l.foldl f t) := by
  induction l generalizing t with
  | nil => exact h
  | cons a l ih => exact ih (step _ _ h)

theorem report (h : s.Notes t) (src d : Nat) (w : Option Nat) : s.Notes (t.report src d w) := h.of_same (State.report_lp ..) (List.prefix_append ..)

theorem hardenRows (h : s.Notes t) : s.Notes t.hardenRows := by
  obtain ⟨rows, hard, e⟩ := t.hardenRows_lp
  refine h.trans ⟨by rw [e]; rfl, by rw [e], ?_⟩
  refine List.foldlRecOn (motive := fun (u : State) => t.fc.reports <+: u.fc.reports) _ _ List.prefix_rfl fun u grown e _ => ?_
  dsimp only
  split_ifs
  · exact grown
  · exact grown.trans (List.prefix_append ..)

theorem rowSeen (h : s.Notes t) (row : Nat) : s.Notes (t.rowSeen row) :=
  State.Notes.hardenRows (h.trans ⟨rfl, List.prefix_rfl, List.prefix_rfl⟩)

theorem setErrInfo (h : s.Notes t) (x : Nat) : s.Notes { t with lp := { t.lp with errInfo := x } } := h.trans ⟨rfl, List.prefix_rfl, List.prefix_rfl⟩

theorem setErrChaddr (h : s.Notes t) (x : Nat) : s.Notes { t with lp := { t.lp with errChaddr := x } } := h.trans ⟨rfl, List.prefix_rfl, List.prefix_rfl⟩

theorem setDev (h : s.Notes t) (x : SMap (Option DevRec)) : s.Notes { t with lp := { t.lp with dev := x } } := h.trans ⟨rfl, List.prefix_rfl, List.prefix_rfl⟩

theorem setDemandQ (h : s.Notes t) (x : List (Nat × Nat)) : s.Notes { t with lp := { t.lp with demandQ := x } } :=
  h.trans ⟨rfl, List.prefix_rfl, List.prefix_rfl⟩

theorem setDemandDrops (h : s.Notes t) (x : Nat) : s.Notes { t with lp := { t.lp with demandDrops := x } } := h.trans ⟨rfl, List.prefix_rfl, List.prefix_rfl⟩

theorem setErase (h : s.Notes t) (x : SMap (Option Nat)) (l : List RepairNote) :
    s.Notes { t with lp := { t.lp with erase := x, repairLog := t.lp.repairLog ++ l } } :=
  h.trans ⟨rfl, List.prefix_append .., List.prefix_rfl⟩

theorem count (h : s.Notes t) (node idx n : Nat) : s.Notes (t.count node idx n) :=
  h.of_same (State.count_lp ..) (by rw [State.count_fc])

theorem enterErasure (h : s.Notes t) (c : Nat) (p : Place) (dev : Nat) : s.Notes (t.enterErasure c p dev) :=
  ite _ h ((h.setErase ..).report ..)

theorem countDevice (h : s.Notes t) (c cla dev : Nat) : s.Notes (t.countDevice c cla dev) :=
  ite _ h (ite _ ((h.setDev _).enterErasure ..) (h.setDev _))

theorem clearDevLine (h : s.Notes t) (c cla : Nat) : s.Notes (t.clearDevLine c cla) := by
  rw [State.clearDevLine]
  dsimp only
  split
  · exact ite _ (h.setDev _) h
  · exact h

theorem reportAgg (h : s.Notes t) (src key period d : Nat) (w : Option Nat) : s.Notes (t.reportAgg src key period d w) :=
  ite _ (h.of_same rfl (List.prefix_append ..)) h

theorem noteClass (h : s.Notes t) (q : ReadFor) (c cla : Nat) (k : LineClass) (dev : Nat) : s.Notes (t.noteClass q c cla k dev) := by
  rw [State.noteClass]
  refine ite _ h ?_
  extract_lets p old s1 waiting s2 s3 old3 old2
  have h1 : s.Notes s1 := h.setErrInfo _
  clear_value s1
  have h2 : s.Notes s2 := by
    unfold s2
    split
    · exact (ite _ h1 (h1.countDevice ..)).count ..
    · exact h1
  clear_value s2
  have h3 : s.Notes s3 := ((ite _ h2 (h2.rowSeen _)).count ..).reportAgg ..
  clear_value s3
  exact ite _ (ite _ h3 (ite _ (h3.setDemandQ _) ((h3.setDemandDrops _).clearDevLine ..))) ((h2.setErrChaddr _).count ..)

theorem spread (h : s.Notes t) (c u : Nat) (devs : List Nat) : s.Notes (t.spread c u devs) :=
  have yes : true = true := rfl
  h.of_keeps (State.spread_keeps (.refl _ t) c u devs)

theorem noteRead (h : s.Notes t) (env : ReadEnv) (q : ReadFor) (l : Loc) (scr : Bool) (c : Nat) (r : LineClass × Stored) :
    s.Notes (t.noteRead env q l scr c r) :=
  ite _ ((h.noteClass ..).spread ..) (h.noteClass ..)

theorem readDecoded (h : s.Notes t) (env : ReadEnv) (q : ReadFor) (l : Loc) (scr : Bool) (c : Nat) :
    s.Notes (t.readDecoded env q l scr c).1 := by
  have read (x : State) (hx : s.Notes x) (env : ReadEnv) (r) := hx.noteRead env q l scr c r
  rw [State.readDecoded]
  dsimp only
  split_ifs
  · exact (read _ (read _ h _ _) _ _).report ..
  · exact read _ h _ _
  · exact read _ h _ _

theorem readCopy (h : s.Notes t) (env : ReadEnv) (q : ReadFor) (l : Loc) (scr : Bool) (c : Nat) : s.Notes (t.readCopy env q l scr c).1 :=
  h.readDecoded ..

theorem rebuild (h : s.Notes t) (env : ReadEnv) (q : ReadFor) (l : Loc) (scr : Bool) (row : List Nat × Nat) (c : Nat) :
    s.Notes (t.rebuild env q l scr row c).1 := by
  have step (acc : State × Option Stored) (read : s.Notes acc.1) (d : Nat) : s.Notes (match acc.2 with
      | none => acc
      | some x =>
        if acc.1.readable d l.cla then
          ((acc.1.readDecoded env q l scr d).1,
            if (acc.1.readDecoded env q l scr d).2.1.good then some (x.xor (acc.1.readDecoded env q l scr d).2.2) else none)
        else (acc.1, none)).1 := by
    split
    · exact read
    · split_ifs
      · exact read.readDecoded ..
      · exact read.readDecoded ..
      · exact read
  exact List.foldlRecOn (motive := fun (acc : State × Option Stored) => s.Notes acc.1) _ _ h fun acc read d _ => step acc read d

theorem redundant (h : s.Notes t) (env : ReadEnv) (q : ReadFor) (l : Loc) (scr : Bool) (c : Nat) : s.Notes (t.redundant env q l scr c).1 := by
  rw [State.redundant]
  split
  · dsimp only
    generalize (if c = l.ch then _ else l.ch) = other
    split_ifs
    · split
      · exact h.readCopy ..
      · exact h.readCopy ..
    · exact h
  · dsimp only
    split
    · exact h.rebuild ..
    · exact h.rebuild ..
  · exact h

theorem putStored (h : s.Notes t) (c cla : Nat) (x : Stored) : s.Notes (t.putStored c cla x) :=
  have yes : true = true := rfl
  h.of_keeps (State.putStored_keeps (.refl _ t) c cla x)

theorem putCopy (h : s.Notes t) (l : Loc) (c : Nat) (x : Stored) : s.Notes (t.putCopy l c x) :=
  ite _ ((h.clearDevLine ..).putStored ..) h

theorem mendCopy (h : s.Notes t) (l : Loc) (scr : Bool) (c : Nat) (d : Line) (poison kind : Bool) :
    s.Notes (t.mendCopy l scr c d poison kind) :=
  h.putCopy ..

theorem refreshParity (h : s.Notes t) (l : Loc) (scr : Bool) : s.Notes (t.refreshParity l scr) := by
  rw [State.refreshParity]
  split
  · exact ite _ (h.putCopy ..) h
  · exact h

theorem noteTag (h : s.Notes t) (c cla outcome w : Nat) (spec : Bool) : s.Notes (t.noteTag c cla outcome w spec) :=
  have yes : true = true := rfl
  h.of_keeps (State.noteTag_keeps (.refl _ t) c cla outcome w spec)

theorem repair (h : s.Notes t) (env : ReadEnv) (q : ReadFor) (l : Loc) (scr : Bool) (c : Nat) (bad : CopyRead) :
    s.Notes (t.repair env q l scr c bad).1 := by
  delta State.repair
  extract_lets tag s0 r
  have counted : s.Notes s0 := ite _ (h.count ..) h
  clear_value s0
  have read : s.Notes r.1 := counted.redundant ..
  clear_value r
  split
  · exact ite _ (((read.mendCopy ..).report ..).noteTag ..) ((read.mendCopy ..).report ..)
  · split
    · exact (((read.mendCopy ..).refreshParity ..).report ..).noteTag ..
    · exact read.report ..
    · exact read

theorem scrubQueue (h : s.Notes t) (c cla : Nat) (write : Bool) : s.Notes (t.scrubQueue c cla write) :=
  have yes : true = true := rfl
  h.of_keeps (State.scrubQueue_keeps (.refl _ t) c cla write)

theorem scrubFix (h : s.Notes t) (env : ReadEnv) (q : ReadFor) (c cla : Nat) : s.Notes (t.scrubFix env q c cla).1 := by
  delta State.scrubFix
  extract_lets ls l held parity stored r
  have read : s.Notes r.1 := (h.scrubQueue ..).readDecoded ..
  clear_value r
  split_ifs
  · exact (read.putCopy ..).scrubQueue ..
  · exact read
  · exact (read.repair ..).scrubQueue ..
  · split
    · exact (read.putCopy ..).scrubQueue ..
    · dsimp only
      split
      · exact (((read.rebuild ..).putCopy ..).report ..).scrubQueue ..
      · exact ((read.rebuild ..).putCopy ..).scrubQueue ..
  · split
    · exact (read.putCopy ..).scrubQueue ..
    · exact (((read.repair ..).mendCopy ..).refreshParity ..).scrubQueue ..
  · split
    · exact (read.putCopy ..).scrubQueue ..
    · exact (read.repair ..).scrubQueue ..

theorem rankOut (h : s.Notes t) : t.lp.rankOut = s.lp.rankOut := (congrArg Lp.rankOut h.upkeep :)

theorem retired (h : s.Notes t) : t.lp.retired = s.lp.retired := (congrArg Lp.retired h.upkeep :)

theorem spareFree (h : s.Notes t) : t.lp.spareFree = s.lp.spareFree := (congrArg Lp.spareFree h.upkeep :)

theorem softUsed (h : s.Notes t) : t.lp.softUsed = s.lp.softUsed := (congrArg Lp.softUsed h.upkeep :)

end State.Notes

/-! ### Pages that are retired (07 R256) -/

theorem State.putStored_all {α : Type} (π : State → α) (same : ∀ (s : State) c cla x, π (s.putStored c cla x) = π s) (c : Nat)
    (l : List (Nat × Stored)) (u : State) : π (l.foldl (fun s x => s.putStored c x.1 x.2) u) = π u := by
  induction l generalizing u with
  | nil => rfl
  | cons x l ih => rw [List.foldl_cons, ih, same]

/-- A page that moves to a spare page: what the copying noted, the mapping, its note, and the report. -/
theorem State.retire_moves {s : State} {c page sp : Nat} {rest : List (Nat × Nat)}
    (spare : takeSpare (s.lp.spareFree.getD c []) = some (sp, rest))
    (room : ((s.lp.retired.filter (fun e => !(e.1 == c && e.2.1 == page))).filter (fun e => e.1 == c)).length < 131072) :
    ∃ u v : State, s.Notes u ∧ s.retire c page = v.report lpPageRetired (c * 2 ^ 32 + page) ∧ v.fc = u.fc ∧ v.lp = { u.lp with
      retired := s.lp.retired.filter (fun e => !(e.1 == c && e.2.1 == page)) ++ [(c, page, sp)]
      spareFree := lset u.lp.spareFree c rest
      repairLog := u.lp.repairLog ++ [RepairNote.retire c page sp] } := by
  have copied (l : List Nat) : s.Notes (l.foldl (fun s l => (s.scrubFix ReadEnv.clean ⟨11, false, true⟩ c l).1) s) :=
    State.Notes.foldl (fun u l h => h.scrubFix ReadEnv.clean ⟨11, false, true⟩ c l) l (.refl s)
  have stored (s : State) (c cla : Nat) (x : Stored) : Keeps (· ∈ [.dram, .mc]) s (s.putStored c cla x) :=
    State.putStored_keeps (.refl _ s) c cla x (by decide) (by decide)
  refine ⟨_, ?_, copied (((List.range 64).map (fun i => page * 64 + i)).filter (fun l => s.lineFilled c l && s.readable c l)), ?_, ?_, ?_⟩
  rotate_left
  · rw [State.retire]
    dsimp only
    rw [spare]
    exact if_neg (not_le.mpr room)
  · exact State.putStored_all State.fc (fun s c cla x => (stored s c cla x).same .fc (by decide)) c _ _
  · exact State.putStored_all State.lp (fun s c cla x => (stored s c cla x).same .lp (by decide)) c _ _

theorem State.retire_rankOut (s : State) (c page : Nat) : (s.retire c page).lp.rankOut = s.lp.rankOut := by
  cases spare : takeSpare (s.lp.spareFree.getD c []) with
  | none =>
    rw [State.retire, spare]
    exact congrArg Lp.rankOut (State.report_lp ..)
  | some x =>
    obtain ⟨sp, rest⟩ := x
    by_cases room : ((s.lp.retired.filter (fun e => !(e.1 == c && e.2.1 == page))).filter (fun e => e.1 == c)).length < 131072
    · obtain ⟨u, v, notes, moves, -, lp⟩ := State.retire_moves spare room
      rw [moves, State.report_lp, lp]
      exact notes.rankOut
    · rw [State.retire]
      dsimp only
      rw [spare]
      exact congrArg Lp.rankOut ((congrArg State.lp (if_pos (not_lt.mp room))).trans (State.report_lp ..))

end Sys2Proof.Machine
end

section
/-! PROOFS. The commands of power states, data rate and row repair that start, and MC_CTL (17 R599 to R601, R613; 09 R340, R341, R347; 07 R255). -/

set_option Elab.async false

namespace Sys2Proof.Machine
open Sys2Proof

section
variable {s : State} {p : Path} {b : Bytes}

/-! ### PW_ENTER and PW_WAKE -/

theorem State.abortMoves_keeps_mb_pw (s : State) : Keeps (fun q => (q != .mb && q != .pw) = true) s s.abortMoves := by
  have yes : true = true := rfl
  exact State.abortMoves_keeps (.refl _ s)

theorem pwEnter_enters (h : s.Admits p 0xC500 b) (room : s.bgRoom (who p) = true) (obj : rd b 4 4 = 0) (sleep : rd b 8 1 = 1)
    (free : (s.seen p).entryBusy = false) : (s.command p 0xC500 b pwEnter).pw.state = .entering ∧
      (s.command p 0xC500 b pwEnter).pw.target = 1 ∧ (s.command p 0xC500 b pwEnter).mb.sessions = [] := by
  have target : rd (applyRules (pwEnterRules (rd b 8 1 == 2)) b).1 8 1 = 1 := by
    rw [sleep]
    refine (applyRules_field [fEnum 8 1 3 0] b (fEnum 8 1 3 0) (List.mem_singleton_self _) (List.pairwise_singleton _ _) ?_).trans
      (congrArg (fun x => if x ≤ 3 then x else 0) sleep)
    exact List.forall_mem_singleton.mpr (fEnum_fits (le_trans (by decide) (h.length rfl)) (by decide))
  have does : ∃ (v : State) (k : Nat), pwEnter p b (s.seen p) = ((v.count 4 3).abortMoves, accepted k (rd b 4 4)) ∧
      v.pw.state = .entering ∧ v.pw.target = 1 ∧ v.mb.sessions = [] := by
    apply Exists.intro
    apply Exists.intro
    apply And.intro
    · refine (if_neg (not_not_intro obj)).trans ?_
      dsimp only
      refine (if_neg (fun zero => absurd (target.symm.trans zero) (by decide))).trans ((if_neg (by rw [free]; decide)).trans ?_)
      rw [State.startBg_eq _ _ _ _ _ _ _ (State.room_direct room ..) (by decide)]
      refine (if_neg (not_not_intro (accepted_status ..))).trans ?_
      exact congrArg (·, accepted _ _) (if_neg fun two => absurd (target.symm.trans (of_decide_eq_true two).1) (by decide))
    · exact ⟨rfl, target, rfl⟩
  obtain ⟨v, k, does, state, one, none⟩ := does
  have all : True := trivial
  have sent := (pwEnter_keeps (F := fun _ => True) (.refl _ (s.seen p)) p b).sent
  have ends := h.ends does (accepted_ne_owedLater _ _) (by rwa [does] at sent)
  have keeps := (v.count 4 3).abortMoves_keeps_mb_pw
  have pw : (v.count 4 3).abortMoves.pw = v.pw := (keeps.same .pw (by decide)).trans (State.count_pw ..)
  have mb : (v.count 4 3).abortMoves.mb = v.mb := (keeps.same .mb (by decide)).trans (State.count_mb ..)
  rw [ends.pw, ends.sessions, pw, mb]
  exact ⟨state, one, none⟩

theorem pwWake_starts (h : s.Admits p 0xC501 b) (room : s.bgRoom (who p) = true) (waking : s.pw.state = .waking) (obj : rd b 4 4 = 0) :
    s.Starts (s.command p 0xC501 b pwWake) 0xC501 (rd b 4 4) p := by
  have wakes : (s.seen p).pw.state = .waking := (State.seen_state (by rw [waking]; decide) p).trans waking
  apply h.starts
  case does =>
    refine (if_neg (not_not_intro obj)).trans ((if_pos wakes).trans ?_)
    rw [State.startBg_eq _ _ _ _ _ _ _ (by rwa [State.seen_bgRoom]) (by decide)]
    exact if_pos (accepted_status ..)
  case sent => exact s.seen_out p

/-! ### MC_SPEED and PPR_CTL -/

/-- A change of the data rate that still has a channel to change ends nothing. -/
theorem State.speedGo_mb {u : State} {v : Speed} {k : Nat} (speed : u.mc.speed = some v) (next : v.next ≤ k) (number : k < 12)
    (serves : u.fenced k = false) : u.speedGo.mb = u.mb := by
  have yes : true = true := rfl
  have step (x : State) (c : Nat) : (x.speedStep c).mb = x.mb :=
    (State.speedStep_keeps (F := fun q => (q != .mb) = true) (.refl _ x) c).same .mb (by decide)
  rw [State.speedGo, speed]
  dsimp only
  split_ifs
  · rfl
  · split
    · next none =>
      have left : k ∈ (List.range 12).filter (fun c => decide (v.next ≤ c) && !u.fenced c) := by simp [next, number, serves]
      rw [List.head?_eq_none_iff.mp none] at left
      exact absurd left List.not_mem_nil
    · split_ifs
      · rfl
      · exact step ..

theorem mcSpeed_starts {k : Nat} (h : s.Admits p 0xC520 b) (room : s.bgRoom (who p) = true) (number : k < 12) (obj : rd b 4 4 = 0)
    (idle : s.mc.speed = none) (serves : s.fenced k = false) :
    ∃ o ∈ (s.command p 0xC520 b mcSpeed).mb.ops, o.work = .speed ∧ o.running = true ∧ o.who = who p := by
  have does : ∃ (v u : State) (total : Nat) (c : Bool) (x : Speed), mcSpeed p b (s.seen p) = (u.speedGo, accepted v.newHandle (rd b 4 4)) ∧
      u.mb = (v.started p 0xC520 (rd b 4 4) .speed total c).mb ∧ u.mc.speed = some x ∧ x.next = 0 ∧ u.mc.chans = s.mc.chans := by
    apply Exists.intro
    apply Exists.intro
    apply Exists.intro
    apply Exists.intro
    apply Exists.intro
    apply And.intro
    · refine (if_neg (not_not_intro obj)).trans ((if_neg (by rw [State.seen_mc, idle]; decide)).trans ?_)
      dsimp only
      rw [State.startBg_eq _ _ _ _ _ _ _ (State.room_direct room ..) (by decide)]
      exact if_pos (accepted_status ..)
    · refine ⟨rfl, rfl, rfl, ?_⟩
      dsimp only [State.started]
      rw [State.direct_mc, State.seen_mc]
  obtain ⟨v, u, total, c, x, does, mb, speed, next, chans⟩ := does
  have all : True := trivial
  have sent := (mcSpeed_keeps (F := fun _ => True) (.refl _ (s.seen p)) p b).sent
  have ends := h.ends does (accepted_ne_owedLater _ _) (by rwa [does] at sent)
  have fence : u.fenced k = s.fenced k := by rw [State.fenced, State.chan, chans, State.fenced, State.chan]
  refine ⟨v.newOp p 0xC520 (rd b 4 4) .speed total c, ?_, rfl, rfl, rfl⟩
  rw [ends.ops, State.speedGo_mb speed (next ▸ Nat.zero_le k) number (fence.trans serves), mb]
  exact v.newOp_mem p 0xC520 (rd b 4 4) .speed total c

/-- The rows that PPR_CTL cannot repair have their pages retired. -/
def State.retireRows (s : State) (c : Nat) (rows : List Nat) : State :=
  rows.foldl (fun s row => (s.rowPages row).foldl (fun s pg => s.retire c pg) s) s

/-- PPR_CTL takes a rank out of service. -/
def State.takeRank (s : State) (c row : Nat) : State := { s with lp := { s.lp with rankOut := s.lp.rankOut ++ [(c, rowSub row, rowRank row)] } }

theorem State.retireRows_keeps (s : State) (c : Nat) (rows : List Nat) : Keeps (fun q => (q != .mb) = true) s (s.retireRows c rows) := by
  have yes : true = true := rfl
  exact Keeps.foldl (fun u row h => Keeps.foldl (fun u pg h => State.retire_keeps h c pg) _ h) rows (.refl _ s)

theorem State.retireRows_rankOut (s : State) (c : Nat) (rows : List Nat) : (s.retireRows c rows).lp.rankOut = s.lp.rankOut := by
  have pages (u : State) (l : List Nat) : (l.foldl (fun s pg => s.retire c pg) u).lp.rankOut = u.lp.rankOut := by
    induction l generalizing u with
    | nil => rfl
    | cons pg l ih => exact (ih _).trans (u.retire_rankOut c pg)
  induction rows generalizing s with
  | nil => rfl
  | cons row rows ih => exact (ih _).trans (pages _ _)

theorem State.bgRoom_of_mb {s t : State} (e : t.mb = s.mb) (w : Nat) : t.bgRoom w = s.bgRoom w := by
  rw [State.bgRoom, State.running, e, State.bgRoom, State.running]

/-- PPR_CTL of a channel with rows that have a resource left. -/
theorem pprCtl_eq {u : State} {pop : PopCfg} {x : Nat} {rest : List Nat} (room : u.bgRoom (who p) = true) (number : rd b 4 4 < 12)
    (populated : (u.chan (rd b 4 4)).pop = some pop) (serves : u.fenced (rd b 4 4) = false)
    (whole : (u.lp.resilver.getD (rd b 4 4) Resilver.none).active = false)
    (plain : u.holdsPlain (rd b 4 4) = false ∨ (rd b 16 1).testBit 0 = true)
    (rows : (pprRows u (rd b 4 4) (applyRules (pprRules pop b) b).1).filter u.hardLeft = x :: rest) :
    ∃ (bad : List Nat) (cl : List (Nat × Nat × Nat)) (v : State), v = (u.direct p 0xC721 15 (rd b 4 4) cl).retireRows (rd b 4 4) bad ∧
      pprCtl p b u = ((v.started p 0xC721 (rd b 4 4) (.ppr (rd b 4 4) (x :: rest)) (rest.length + 1) (!cl.isEmpty)).takeRank (rd b 4 4) x,
        accepted v.newHandle (rd b 4 4)) := by
  refine ⟨(pprRows u (rd b 4 4) (applyRules (pprRules pop b) b).1).filter (fun x => !u.hardLeft x), (applyRules (pprRules pop b) b).2, _, rfl, ?_⟩
  have refused : ¬(u.holdsPlain (rd b 4 4) && !(rd b 16 1).testBit 0) = true := by
    obtain h | h := plain <;> simp [h]
  have mb := (((u.direct p 0xC721 15 (rd b 4 4) (applyRules (pprRules pop b) b).2).retireRows_keeps (rd b 4 4)
    ((pprRows u (rd b 4 4) (applyRules (pprRules pop b) b).1).filter (fun x => !u.hardLeft x))).same .mb (by decide) :)
  refine (if_neg (not_le.mpr number)).trans ?_
  rw [populated]
  refine (if_neg (by rw [serves]; decide)).trans ((if_neg (by rw [whole]; decide)).trans ((if_neg refused).trans ?_))
  dsimp only
  rw [rows]
  refine (if_neg Bool.false_ne_true).trans ?_
  rw [State.startBg_eq _ _ _ _ _ _ _ ?_ (by decide)]
  · exact if_pos (accepted_status ..)
  · exact (State.bgRoom_of_mb mb _).trans ((State.bgRoom_direct ..).trans room)

theorem State.seen_chan (s : State) (p : Path) (c : Nat) : (s.seen p).chan c = s.chan c := by rw [State.chan, State.seen_mc, State.chan]

theorem State.seen_fenced (s : State) (p : Path) (c : Nat) : (s.seen p).fenced c = s.fenced c := by
  rw [State.fenced, State.seen_chan, State.fenced]

theorem State.seen_holdsPlain (s : State) (p : Path) (c : Nat) : (s.seen p).holdsPlain c = s.holdsPlain c := by
  rw [State.holdsPlain, State.seen_rg, State.holdsPlain]

theorem State.seen_pprRows (s : State) (p : Path) (c : Nat) (x : Bytes) : pprRows (s.seen p) c x = pprRows s c x := by
  rw [pprRows, State.seen_lp, pprRows]

theorem State.seen_hardLeft (s : State) (p : Path) : (s.seen p).hardLeft = s.hardLeft := by
  funext row
  rw [State.hardLeft, State.seen_lp, State.hardLeft]

theorem pprCtl_starts {pop : PopCfg} {x : Nat} {rest : List Nat} (h : s.Admits p 0xC721 b) (room : s.bgRoom (who p) = true)
    (number : rd b 4 4 < 12) (populated : (s.chan (rd b 4 4)).pop = some pop) (serves : s.fenced (rd b 4 4) = false)
    (whole : (s.lp.resilver.getD (rd b 4 4) Resilver.none).active = false)
    (plain : s.holdsPlain (rd b 4 4) = false ∨ (rd b 16 1).testBit 0 = true)
    (rows : (pprRows s (rd b 4 4) (applyRules (pprRules pop b) b).1).filter s.hardLeft = x :: rest) :
    ∃ o ∈ (s.command p 0xC721 b pprCtl).mb.ops, o.work = .ppr (rd b 4 4) (x :: rest) ∧ o.running = true ∧ o.who = who p ∧
      (s.command p 0xC721 b pprCtl).lp.rankOut = s.lp.rankOut ++ [(rd b 4 4, rowSub x, rowRank x)] := by
  obtain ⟨bad, cl, v, e, does⟩ := pprCtl_eq (u := s.seen p) (p := p) (b := b) (pop := pop) (x := x) (rest := rest)
    (by rwa [State.seen_bgRoom]) number (by rwa [State.seen_chan]) (by rwa [State.seen_fenced]) (by rwa [State.seen_lp])
    (by rwa [State.seen_holdsPlain]) (by rwa [State.seen_pprRows, State.seen_hardLeft])
  have all : True := trivial
  have sent := (pprCtl_keeps (F := fun _ => True) (.refl _ (s.seen p)) p b).sent
  have ends := h.ends does (accepted_ne_owedLater _ _) (by rwa [does] at sent)
  have out : v.lp.rankOut = s.lp.rankOut := by rw [e, State.retireRows_rankOut, State.direct_lp, State.seen_lp]
  refine ⟨v.newOp p 0xC721 (rd b 4 4) (.ppr (rd b 4 4) (x :: rest)) (rest.length + 1) (!cl.isEmpty), ?_, rfl, rfl, rfl, ?_⟩
  · rw [ends.ops]
    exact v.newOp_mem ..
  · rw [ends.lp]
    exact congrArg (· ++ [(rd b 4 4, rowSub x, rowRank x)]) out

/-! ### MC_CTL -/

/-- What MC_CTL with ACTION 0 makes of a channel. -/
def Mc.limits (m : Mc) (b c : Bytes) : Mc :=
  { m with
    ageLimit := if validBit b 0 then rd c 10 2 else m.ageLimit
    wcrc := if validBit b 1 then decide (rd c 12 1 = 1) else m.wcrc
    retrainThr := if validBit b 2 then rd c 14 2 else m.retrainThr }

/-- The fields of MC_CTL with ACTION 0. -/
def mcCtlRules (b : Bytes) : List FieldRule :=
  fEnum 8 1 2 0 :: validRules b [(0, fRange 10 2 200 20000), (1, fEnum 12 1 1 0), (2, fRange 14 2 16 4096)]

theorem mcCtl_eq {u : State} (number : rd b 4 4 < 12) (populated : (u.chan (rd b 4 4)).pop.isSome) (zero : rd b 8 1 = 0)
    (free : u.mb.sActive.length < 4) : mcCtl p b u =
      ((u.direct p 0xC730 15 (rd b 4 4) (applyRules (mcCtlRules b) b).2).modChan (rd b 4 4) (fun m => m.limits b (applyRules (mcCtlRules b) b).1),
        ans (okStatus (applyRules (mcCtlRules b) b).2) (rd b 4 4)) := by
  have act : (if rd b 8 1 ≤ 2 then rd b 8 1 else 0) = 0 := by rw [zero]; rfl
  refine (if_neg (not_le.mpr number)).trans ((if_neg (by rw [Option.isNone_iff_eq_none, ← Option.not_isSome_iff_eq_none, populated]; decide)).trans ?_)
  dsimp only
  rw [act]
  exact (if_pos rfl).trans (if_neg (not_le.mpr free))

theorem validRules_sublist (b : Bytes) (rs : List (Nat × FieldRule)) : (validRules b rs).Sublist (rs.map (fun x => x.2)) := by
  induction rs with
  | nil => exact List.Sublist.refl _
  | cons x rs ih =>
    rw [validRules, List.filterMap_cons]
    split
    · exact ih.cons _
    · next y e =>
      split_ifs at e
      obtain rfl := Option.some.inj e
      exact ih.cons_cons _

/-- A field whose VALID bit is 1, behind a field that every payload has. -/
theorem mcCtlRules_field {k : Nat} {r : FieldRule} (long : 16 ≤ b.length)
    (rule : (k, r) ∈ [(0, fRange 10 2 200 20000), (1, fEnum 12 1 1 0), (2, fRange 14 2 16 4096)]) (valid : validBit b k = true) :
    rd (applyRules (mcCtlRules b) b).1 r.off r.len = r.fix (rd b r.off r.len) := by
  have sub := (validRules_sublist b [(0, fRange 10 2 200 20000), (1, fEnum 12 1 1 0), (2, fRange 14 2 16 4096)]).cons_cons (fEnum 8 1 2 0)
  have fits : ∀ q ∈ [fEnum 8 1 2 0, fRange 10 2 200 20000, fEnum 12 1 1 0, fRange 14 2 16 4096], q.Fits b := by
    simp only [List.forall_mem_cons, List.not_mem_nil, false_imp_iff, imp_true_iff, and_true]
    exact ⟨fEnum_fits (by omega) (by decide), fRange_fits (by omega) (by decide) (by decide), fEnum_fits (by omega) (by decide),
      fRange_fits (by omega) (by decide) (by decide)⟩
  refine applyRules_field (mcCtlRules b) b r (List.mem_cons_of_mem _ ?_) (List.Pairwise.sublist sub ?_) fun q hq => fits q (sub.subset hq)
  · exact List.mem_filterMap.mpr ⟨(k, r), rule, if_pos valid⟩
  · simp [FieldRule.Apart, fRange, fEnum]

theorem mcCtl_sets (sound : s.Sound) (h : s.Admits p 0xC730 b) (number : rd b 4 4 < 12) (populated : (s.chan (rd b 4 4)).pop.isSome)
    (zero : rd b 8 1 = 0) (free : s.mb.sActive.length < 4) :
    (∀ c, c ≠ rd b 4 4 → (s.command p 0xC730 b mcCtl).chan c = s.chan c) ∧
      (s.command p 0xC730 b mcCtl).chan (rd b 4 4) = (s.chan (rd b 4 4)).limits b (applyRules (mcCtlRules b) b).1 := by
  have ends := h.ends (mcCtl_eq (u := s.seen p) (p := p) number (by rwa [State.seen_chan]) zero (by rwa [State.seen_mb]))
    (ans_ne_owedLater _ _ _) (by rw [State.modChan_out, State.direct_out])
  have found (c : Nat) : ((s.seen p).direct p 0xC730 15 (rd b 4 4) (applyRules (mcCtlRules b) b).2).chan c = s.chan c := by
    rw [State.chan, State.direct_mc, State.seen_mc, State.chan]
  have left (c : Nat) : (s.command p 0xC730 b mcCtl).chan c = (((s.seen p).direct p 0xC730 15 (rd b 4 4) (applyRules (mcCtlRules b) b).2).modChan
      (rd b 4 4) (fun m => m.limits b (applyRules (mcCtlRules b) b).1)).chan c := by
    rw [State.chan, ends.mc, State.chan]
  refine ⟨fun c other => ?_, ?_⟩
  · rw [left, State.chan_modChan_other _ _ other, found]
  · rw [left, State.chan_modChan_same, found]
    rw [State.direct_mc, State.seen_mc, sound.chans]
    exact number

/-- A flag of a payload is set by 1 alone. -/
theorem fEnum_one (v : Nat) : decide ((if v ≤ 1 then v else 0) = 1) = decide (v = 1) := by
  refine decide_eq_decide.mpr ?_
  split_ifs with small
  · exact Iff.rfl
  · exact ⟨fun h => absurd h (by decide), fun h => absurd h.le small⟩

theorem mcCtl_limits (long : 16 ≤ b.length) (m : Mc) : (m.limits b (applyRules (mcCtlRules b) b).1).ageLimit =
      (if validBit b 0 then clampN 200 20000 (rd b 10 2) else m.ageLimit) ∧
    (m.limits b (applyRules (mcCtlRules b) b).1).wcrc = (if validBit b 1 then decide (rd b 12 1 = 1) else m.wcrc) ∧
    (m.limits b (applyRules (mcCtlRules b) b).1).retrainThr = (if validBit b 2 then clampN 16 4096 (rd b 14 2) else m.retrainThr) := by
  refine ⟨if_ctx_congr Iff.rfl (fun valid => ?_) fun _ => rfl, if_ctx_congr Iff.rfl (fun valid => ?_) fun _ => rfl,
    if_ctx_congr Iff.rfl (fun valid => ?_) fun _ => rfl⟩
  · exact mcCtlRules_field (r := fRange 10 2 200 20000) long (by simp) valid
  · exact (congrArg (fun x => decide (x = 1)) (mcCtlRules_field (r := fEnum 12 1 1 0) long (by simp) valid)).trans (fEnum_one _)
  · exact mcCtlRules_field (r := fRange 14 2 16 4096) long (by simp) valid

end

/-- Settles O26: each of the commands comes to the start of its operation. -/
theorem powerAndMemoryCommandsStart : Obligations.PowerAndMemoryCommandsStart := by
  intro s p b room
  refine ⟨fun h obj sleep free => ⟨_, rfl, pwEnter_enters h room obj sleep free⟩,
    fun waking h obj => ⟨_, rfl, obj ▸ pwWake_starts h room waking obj⟩, fun k number h obj idle serves => ?_,
    fun pop x rest h number populated serves whole plain rows => ?_⟩
  · obtain ⟨o, mem, starts⟩ := mcSpeed_starts h room number obj idle serves
    exact ⟨_, o, rfl, mem, starts⟩
  · obtain ⟨o, mem, starts⟩ := pprCtl_starts h room number populated serves whole plain rows
    exact ⟨_, o, rfl, mem, starts⟩

/-- Settles O27: the channel named takes the limits, and no other changes. -/
theorem channelControlsSet : Obligations.ChannelControlsSet := by
  intro s p b sound h number populated zero free
  obtain ⟨other, same⟩ := mcCtl_sets sound h number populated zero free
  have limits := mcCtl_limits (b := b) (h.length rfl) (s.chan (rd b 4 4))
  rw [← same] at limits
  exact ⟨_, rfl, limits.1, limits.2.1, limits.2.2, other⟩

end Sys2Proof.Machine
end

section
/-! PROOFS. Diagnostic commands (01 R32; 15 R530, R558, R559), firmware commands (17 R626; 14 R520) and the end of background operations
(14 R503, R504). -/

set_option Elab.async false

namespace Sys2Proof.Machine
open Sys2Proof

/-- What a command leaves whose body changes nothing. -/
theorem State.Ends.readsOnly {s t : State} {p : Path} {r : Reply} (h : s.Ends (s.seen p) t p r) : s.ReadsOnly t p r :=
  have found : Keeps (· ∈ [.out, .hp, .mb, .pw, .ck, .pm]) s (s.seen p) := (s.seen_keeps p).mono (by decide)
  ⟨h.answers, (found.trans (h.keeps.mono (by decide))).same⟩

section
variable {s : State} {p : Path} {b : Bytes}

/-! ### The control address space -/

theorem diagRules_rd (long : 18 ≤ b.length) : rd (applyRules diagRules b).1 8 8 = roundDown 4 (rd b 8 8) ∧
    rd (applyRules diagRules b).1 16 2 = clampN 4 4096 ((rd b 16 2 + 1) / 4 * 4) := by
  have apart : diagRules.Pairwise FieldRule.Apart := by simp [diagRules, FieldRule.Apart]
  have fits : ∀ q ∈ diagRules, q.Fits b := List.forall_mem_cons.mpr ⟨roundDown_fits (by omega), List.forall_mem_singleton.mpr
    ⟨long, (clampN_le 4 4096 _ (by decide)).trans_lt (by show 4096 < 256 ^ 2; decide)⟩⟩
  exact ⟨applyRules_field _ b _ (List.mem_cons_self ..) apart fits,
    applyRules_field _ b _ (List.mem_cons_of_mem _ (List.mem_singleton_self _)) apart fits⟩

section
variable {a l : Nat} (at_ : a = roundDown 4 (rd b 8 8)) (length : l = clampN 4 4096 ((rd b 16 2 + 1) / 4 * 4)) (obj : rd b 4 4 = 0)
include at_ length obj

theorem diagCtrlRead_ends (h : s.Admits p 0xC800 b) (legal : badWindow a l = false) :
    ∃ u, s.Ends u (s.command p 0xC800 b diagCtrlRead) p
      (ans (okStatus (applyRules diagRules b).2) 0 ((s.seen p).readWords a (l / 4)).2) := by
  obtain ⟨addr, len⟩ := diagRules_rd (h.length rfl)
  rw [← at_] at addr
  rw [← length] at len
  have all : True := trivial
  have sent := (diagCtrlRead_keeps (F := fun _ => True) (.refl _ (s.seen p)) p b).sent
  have does : (diagCtrlRead p b (s.seen p)).2 = ans (okStatus (applyRules diagRules b).2) 0 ((s.seen p).readWords a (l / 4)).2 := by
    rw [← obj, ← addr, ← len]
    refine congrArg Prod.snd ((if_neg (not_not_intro obj)).trans (if_neg ?_))
    rw [addr, len, legal]
    decide
  have ends := h.runs diagCtrlRead (does ▸ ans_ne_owedLater _ _ _) sent
  exact ⟨_, does ▸ ends⟩

theorem diagCtrlRead_refused (h : s.Admits p 0xC800 b) (bad : badWindow a l = true) :
    s.ReadsOnly (s.command p 0xC800 b diagCtrlRead) p (ans stControlRange 0) := by
  obtain ⟨addr, len⟩ := diagRules_rd (h.length rfl)
  have does : diagCtrlRead p b (s.seen p) = (s.seen p, ans stControlRange (rd b 4 4)) :=
    (if_neg (not_not_intro obj)).trans (if_pos (by rw [addr, len, ← at_, ← length, bad]))
  exact (h.ends (obj ▸ does) (ans_ne_owedLater _ _ _) List.prefix_rfl).readsOnly

theorem diagCtrlWrite_refused (h : s.Admits p 0xC801 b) (bad : badWindow a l = true) :
    s.ReadsOnly (s.command p 0xC801 b diagCtrlWrite) p (ans stControlRange 0) := by
  obtain ⟨addr, len⟩ := diagRules_rd (le_trans (by decide) (h.length rfl))
  have does : diagCtrlWrite p b (s.seen p) = (s.seen p, ans stControlRange (rd b 4 4)) :=
    (if_neg (not_not_intro obj)).trans (if_pos (by rw [addr, len, ← at_, ← length, bad]))
  exact (h.ends (obj ▸ does) (ans_ne_owedLater _ _ _) List.prefix_rfl).readsOnly

end

/-- A payload that breaks no rule is applied as given. -/
theorem applyRules_of_legal {rs : List FieldRule} (legal : ∀ r ∈ rs, r.fix (rd b r.off r.len) = rd b r.off r.len) :
    applyRules rs b = (b, []) := by
  rw [applyRules_eq]
  induction rs with
  | nil => rfl
  | cons r rs ih =>
    have kept : fieldStep (b, []) r = (b, []) := if_pos (legal r (List.mem_cons_self ..))
    rw [List.foldl_cons, kept]
    exact ih fun q hq => legal q (List.mem_cons_of_mem _ hq)

theorem le_mod (n v : Nat) : le n (v % 256 ^ n) = le n v := by
  induction n generalizing v with
  | zero => rfl
  | succ n ih =>
    have low : BitVec.ofNat 8 (v % 256 ^ (n + 1)) = BitVec.ofNat 8 v :=
      BitVec.eq_of_toNat_eq (Nat.mod_mod_of_dvd v (dvd_pow_self 256 n.succ_ne_zero))
    have high : v % 256 ^ (n + 1) / 256 = v / 256 % 256 ^ n := by rw [Nat.pow_succ', Nat.mod_mul_right_div_self]
    rw [le, le, low, high, ih]

theorem State.nodeWord_freezeThr (s : State) : s.nodeWord 1 0xC = s.mb.freezeThr % 2 ^ 32 := by
  have word : s.nodeWord 1 0xC = s.mb.freezeThr / 2 ^ 0 % 2 ^ 32 := rfl
  rw [word, Nat.pow_zero, Nat.div_one]

/-- A word written at MB_FREEZE_THR. -/
theorem State.writeWords_freezeThr (s : State) {d : Bytes} (length : d.length = 4) :
    (s.writeWords 0x10000C d 1).1 = { s with mb := { s.mb with freezeThr := clampN 1 65535 (rd d 0 4 % 65536) } } := by
  have word : ¬d.length < 4 := by omega
  exact congrArg Prod.fst (if_neg word : s.writeWords 0x10000C d 1 = (s.putReg 1 0xC (clampN 1 65535 (rd d 0 4 % 65536)),
    decide (rd d 0 4 % 65536 ≠ clampN 1 65535 (rd d 0 4 % 65536)) || false))

section
variable (addr : rd b 8 8 = 0x10000C) (length : rd b 16 2 = 4)
include addr length

/-- The range of MB_FREEZE_THR is applied as given. -/
theorem diagRules_freezeThr : applyRules diagRules b = (b, []) := by
  refine applyRules_of_legal (List.forall_mem_cons.mpr ⟨?_, List.forall_mem_singleton.mpr ?_⟩)
  · rw [addr]
    rfl
  · rw [length]
    rfl

theorem diagCtrlRead_freezeThr (h : s.Admits p 0xC800 b) (obj : rd b 4 4 = 0) :
    s.Answers (s.command p 0xC800 b diagCtrlRead) p (ans stSuccess 0 (le 4 s.mb.freezeThr)) := by
  obtain ⟨u, ends⟩ := diagCtrlRead_ends (a := 0x10000C) (l := 4) (by rw [addr]; rfl) (by rw [length]; rfl) obj h (by decide)
  have answers := ends.answers
  have word : ((s.seen p).readWords 0x10000C 1).2 = le 4 s.mb.freezeThr :=
    (List.append_nil _).trans ((congrArg (le 4) (State.nodeWord_freezeThr _)).trans ((le_mod 4 _).trans (by rw [State.seen_mb])))
  rwa [diagRules_freezeThr addr length, word] at answers

theorem diagCtrlWrite_freezeThr (h : s.Admits p 0xC801 b) (obj : rd b 4 4 = 0) (long : 28 ≤ b.length) :
    (s.command p 0xC801 b diagCtrlWrite).mb.freezeThr = clampN 1 65535 (rd b 24 4 % 65536) := by
  have all : True := trivial
  have sent := (diagCtrlWrite_keeps (F := fun _ => True) (.refl _ (s.seen p)) p b).sent
  have four : ((b.drop 24).take 4).length = 4 :=
    List.length_take_of_le (by rw [List.length_drop]; exact Nat.le_sub_of_add_le' long)
  have does : diagCtrlWrite p b (s.seen p) = (((s.seen p).writeWords 0x10000C ((b.drop 24).take 4) 1).1.direct p 0xC801 21 (rd b 4 4) [],
      ans (if ((s.seen p).writeWords 0x10000C ((b.drop 24).take 4) 1).2 then stClamped else okStatus []) (rd b 4 4)) := by
    refine (if_neg (not_not_intro obj)).trans ?_
    dsimp only
    rw [diagRules_freezeThr addr length, addr, length, four]
    exact if_neg (by decide)
  have ends := h.ends does (ans_ne_owedLater _ _ _) (by rwa [does] at sent)
  have set := (congrArg (fun x => x.mb.freezeThr) (State.writeWords_freezeThr (s.seen p) four)).trans
    (by rw [rd, rd, List.drop_zero, List.take_take, min_self] : _ = clampN 1 65535 (rd b 24 4 % 65536))
  rw [ends.mb, State.direct_mb]
  exact set

end

/-! ### Granules -/

theorem granuleRule_rd (long : 16 ≤ b.length) : rd (applyRules [⟨8, 8, roundDown 512⟩] b).1 8 8 = roundDown 512 (rd b 8 8) :=
  applyRules_field _ b ⟨8, 8, roundDown 512⟩ (List.mem_singleton_self _) (List.pairwise_singleton _ _)
    (List.forall_mem_singleton.mpr (roundDown_fits long))

section
variable {n : Nat} {r : Region} (obj : rd b 4 4 = 0) (region : s.regionAt (roundDown 512 (rd b 8 8)) = some (n, r))
include obj region

theorem cdGranuleRead_plain (h : s.Admits p 0xC810 b) (plain : r.tier = 0) :
    s.ReadsOnly (s.command p 0xC810 b cdGranuleRead) p (ans stNotCompressed 0) := by
  have found : (s.seen p).regionAt (rd (applyRules [⟨8, 8, roundDown 512⟩] b).1 8 8) = some (n, r) := by
    rw [granuleRule_rd (h.length rfl), State.seen_regionAt, region]
  have does : cdGranuleRead p b (s.seen p) = (s.seen p, ans stNotCompressed (rd b 4 4)) := by
    refine (if_neg (not_not_intro obj)).trans ?_
    dsimp only
    rw [found]
    exact if_pos (.inl plain)
  exact (h.ends (obj ▸ does) (ans_ne_owedLater _ _ _) List.prefix_rfl).readsOnly

omit region in
/-- The answer of CD_GRANULE_READ for a granule with a descriptor. -/
theorem cdGranuleRead_answer {u : State} {v k : Nat} {d : State × Option Nat} (long : 16 ≤ b.length)
    (region : u.regionAt (roundDown 512 (rd b 8 8)) = some (n, r)) (tier : r.tier = 1) (number : k = (roundDown 512 (rd b 8 8) - r.base) / 512)
    (found : u.descGet n k 15 = d) (desc : d.2 = some v) : (cdGranuleRead p b u).2 =
      if field v 62 2 = 3 then ans stGranulePoisoned 0 (le 8 v)
      else ans (okStatus (applyRules [⟨8, 8, roundDown 512⟩] b).2) 0 (le 8 v ++
        ((d.1.readGranAt n k 15 0 r v).2.ptrs.map (fun x => le 8 x)).flatten ++ (d.1.readGranAt n k 15 0 r v).2.stored) := by
  refine (congrArg Prod.snd (if_neg (not_not_intro obj))).trans ?_
  dsimp only
  rw [granuleRule_rd long, region]
  dsimp only
  rw [← number, tier]
  rw [if_neg (by decide : ¬1 = 2)]
  refine (congrArg Prod.snd (if_neg (by simp))).trans ?_
  rw [found, desc, obj]
  exact apply_ite Prod.snd ..

theorem cdGranuleRead_ends {v k : Nat} (h : s.Admits p 0xC810 b) (tier : r.tier = 1) (number : k = (roundDown 512 (rd b 8 8) - r.base) / 512)
    (desc : ((s.seen p).descGet n k 15).2 = some v) : s.Answers (s.command p 0xC810 b cdGranuleRead) p (cdGranuleRead p b (s.seen p)).2 := by
  have all : True := trivial
  have answer := cdGranuleRead_answer (p := p) obj (h.length rfl) ((s.seen_regionAt p _).trans region) tier number rfl desc
  refine (h.runs cdGranuleRead ?_ (cdGranuleRead_keeps (F := fun _ => True) (.refl _ (s.seen p)) p b).sent).answers
  rw [answer]
  split_ifs
  · exact ans_ne_owedLater _ _ _
  · exact ans_ne_owedLater _ _ _

end

end

/-- Settles O28: a range that a diagnostic command may name is worked on word by word, and a granule's descriptor decides on its answer. -/
theorem diagnosticsAnswer : Obligations.DiagnosticsAnswer := by
  intro s p b obj
  refine ⟨fun a l at_ length => ⟨fun h legal => ?_, fun h bad => ⟨_, rfl, diagCtrlRead_refused at_ length obj h bad⟩,
      fun h bad => ⟨_, rfl, diagCtrlWrite_refused at_ length obj h bad⟩⟩,
    fun h addr length => ⟨_, rfl, diagCtrlRead_freezeThr addr length h obj⟩,
    fun h addr length long => ⟨_, rfl, diagCtrlWrite_freezeThr addr length h obj long⟩, fun n r h region =>
      ⟨fun plain => ⟨_, rfl, cdGranuleRead_plain obj region h plain⟩, fun v k tier number desc => ?_⟩⟩
  · obtain ⟨u, ends⟩ := diagCtrlRead_ends at_ length obj h legal
    exact ⟨_, rfl, ends.answers⟩
  · have answers := cdGranuleRead_ends obj region h tier number desc
    rw [cdGranuleRead_answer (p := p) obj (h.length rfl) ((s.seen_regionAt p _).trans region) tier number rfl desc] at answers
    exact ⟨fun poisoned => ⟨_, rfl, by rwa [if_pos poisoned] at answers⟩, fun whole => ⟨_, _, rfl, rfl, by rwa [if_neg whole] at answers⟩⟩

/-! ### Firmware -/

theorem State.seen_cold (s : State) (p : Path) : (s.seen p).pw.cold = s.pw.cold := by
  have idle (u : State) : u.leaveIdle.pw.cold = u.pw.cold := by
    rw [State.leaveIdle]
    exact apply_ite (fun x : State => x.pw.cold) .. |>.trans (ite_self _)
  rw [State.seen, State.count_pw, idle, State.countArrival_pw]

/-- Settles O29: a first part starts its operation, and an image that is good and not too old becomes the one of the next start. -/
theorem firmwareCommands : Obligations.FirmwareCommands := by
  intro s p b
  refine ⟨fun h room first => ?_, fun h offline lo hi cold good new => ?_⟩
  · have does : transferFw p b (s.seen p) = ((s.seen p).started p 0x0201 0 (.transferFw (rd b 0 1) (rd b 1 1 - 1) (rd b 4 4) (b.drop 128))
        (b.length - 128) false, std rcBgStarted) := by
      refine (if_neg (by rw [first]; decide)).trans ((if_neg (by rw [first]; simp)).trans ((if_pos (by rwa [State.seen_bgRoom])).trans ?_))
      exact Prod.ext rfl rfl
    have ends := h.ends does (std_ne_owedLater (by decide) _) List.prefix_rfl
    exact ⟨_, (s.seen p).newOp p 0x0201 0 (.transferFw (rd b 0 1) (rd b 1 1 - 1) (rd b 4 4) (b.drop 128)) (b.length - 128) false, rfl,
      by rw [ends.ops]; exact (s.seen p).newOp_mem .., rfl, congrArg (BgWork.transferFw · ..) first⟩
  · have started : ¬(s.seen p).pw.cold = .noImage := by rw [State.seen_cold, cold]; decide
    have image : ¬(!((s.seen p).mb.slots.getD (rd b 1 1 - 1) ⟨false, 0, 0, []⟩).good ||
        decide (((s.seen p).mb.slots.getD (rd b 1 1 - 1) ⟨false, 0, 0, []⟩).svn < (s.seen p).fu.svn)) = true := by
      rw [State.seen_mb, State.seen_fu, good, decide_eq_false (not_lt.mpr new)]
      decide
    have does : activateFw p b (s.seen p) = (({ s.seen p with mb := { (s.seen p).mb with bootSlot := rd b 1 1 - 1 } } : State).emit
        (.flash 0x2010000), std rcSuccess) := by
      refine (if_neg (by rw [offline]; decide)).trans ((if_neg (by omega)).trans ((if_neg fun x => started x.1).trans ((if_neg image).trans
        ((if_neg (by rw [offline]; decide)).trans ?_))))
      exact congrArg (·, std rcSuccess) (if_neg started)
    have ends := h.ends does (std_ne_owedLater (by decide) _) (List.prefix_append _ _)
    refine ⟨_, rfl, ?_, ?_, ends.answers⟩
    · exact (congrArg Mb.bootSlot ends.mb :)
    · rw [ends.mb, ← s.seen_mb p]
      rfl

/-! ### Background operations that end -/

/-- An operation that ends is not running, and has its status where it does not complete. -/
theorem State.endOp_ops {u : State} {o : BgOp} {k : Nat} (found : u.opAt k = some o) (run : o.running = true) (st : Nat) (data : Bytes) :
    ∃ st', (st ≠ stSuccess → st' = st) ∧ (u.endOp k st data).mb.ops =
      u.mb.ops.map (fun x => if x.handle == k then { x with running := false, status := st' } else x) := by
  refine ⟨if st = stSuccess ∧ o.clamped then stClamped else st, fun other => if_neg fun x => other x.1, ?_⟩
  rw [State.endOp, found]
  dsimp only
  rw [run, if_neg (by decide)]
  have vector (x : State) (f : Nat) : (x.vector f 0).mb = x.mb :=
    (State.vector_keeps (F := (· ∈ [.out, .hp])) (.refl _ x) f 0 (by decide) (by decide)).same .mb (by decide)
  have answered (x : State) (r : Reply) : (x.complete o.path r true).mb = x.mb :=
    (State.complete_keeps (F := (· ∈ [.out, .hp, .pm])) (.refl _ x) o.path r true (by decide) (by decide) (by decide)).same .mb (by decide)
  split
  · rw [vector, answered]
    rfl
  · rw [vector, answered]
    rfl
  · rw [answered]
    rfl

/-- The first element of a kind is found as it was changed, where the change leaves the kind. -/
theorem find?_map_found {α : Type} {l : List α} {q : α → Bool} {o : α} (g : α → α) (same : ∀ x, q (g x) = q x) (found : l.find? q = some o) :
    (l.map (fun x => if q x then g x else x)).find? q = some (g o) := by
  have kept : q ∘ (fun x => if q x then g x else x) = q := by
    funext x
    rw [Function.comp]
    split_ifs
    · rw [same]
    · rfl
  rw [List.find?_map, kept, found, Option.map_some, List.find?_some found, if_pos rfl]

theorem State.endOp_opAt {u : State} {o : BgOp} {k : Nat} (found : u.opAt k = some o) (run : o.running = true) (st : Nat) (data : Bytes) :
    ∃ x, (u.endOp k st data).opAt k = some x ∧ x.running = false ∧ (st ≠ stSuccess → x.status = st) := by
  obtain ⟨st', aborted, ops⟩ := State.endOp_ops found run st data
  refine ⟨{ o with running := false, status := st' }, ?_, rfl, aborted⟩
  rw [State.opAt, ops]
  exact find?_map_found (q := fun x : BgOp => x.handle == k) (fun x => { x with running := false, status := st' }) (fun _ => rfl) found

/-- An abort of a reclaim that runs. -/
theorem State.abortAny_reclaim {u : State} {o : BgOp} {f : Nat} (work : o.work = .reclaim f) (run : o.running = true) :
    u.abortAny o = (u.endOp o.handle stAborted, stSuccess) := by
  rw [State.abortAny, run, if_pos rfl, State.abortOp, work]

theorem State.seen_opAt (s : State) (p : Path) (k : Nat) : (s.seen p).opAt k = s.opAt k := by rw [State.opAt, State.seen_mb, State.opAt]

/-- An operation is found as the body left it. -/
theorem State.Ends.opAt {s u t : State} {p : Path} {r : Reply} (h : s.Ends u t p r) (k : Nat) : t.opAt k = u.opAt k := by
  rw [State.opAt, h.ops, State.opAt]

section
variable {s : State} {p : Path} {b : Bytes} {o : BgOp} {f : Nat} (work : o.work = .reclaim f) (run : o.running = true)
  (known : s.opAt o.handle = some o)
include work run known

theorem abort_ends (h : s.Admits p 0xC011 b) (handle : rd b 8 1 = 0)
    (named : s.mb.ops.find? (fun x => x.handle == rd b 4 4 && x.who == who p) = some o) :
    ∃ x, (s.command p 0xC011 b abort).opAt o.handle = some x ∧ x.running = false ∧ x.status = stAborted := by
  have zero : rd (applyRules [fEnum 8 1 1 0] b).1 8 1 = 0 := by
    rw [applyRules_of_legal (List.forall_mem_singleton.mpr (by show (if rd b 8 1 ≤ 1 then rd b 8 1 else 0) = rd b 8 1; rw [handle]; rfl)), handle]
  have does : abort p b (s.seen p) = (((s.seen p).endOp o.handle stAborted).direct p 0xC011 22 (rd b 4 4) (applyRules [fEnum 8 1 1 0] b).2,
      ans (okStatus (applyRules [fEnum 8 1 1 0] b).2) (rd b 4 4)) := by
    refine (if_pos zero).trans ?_
    rw [State.seen_mb, named]
    dsimp only
    rw [State.abortAny_reclaim work run]
    exact congrArg (fun x => (_, ans x _)) (if_pos rfl)
  have all : True := trivial
  have sent := (abort_keeps (F := fun _ => True) (.refl _ (s.seen p)) p b).sent
  have ends := h.ends does (ans_ne_owedLater _ _ _) (by rwa [does] at sent)
  obtain ⟨x, found, stopped, aborted⟩ := State.endOp_opAt ((s.seen_opAt p _).trans known) run stAborted []
  refine ⟨x, ?_, stopped, aborted (by decide)⟩
  rw [ends.opAt, State.opAt, State.direct_mb]
  exact found

theorem requestAbort_ends (h : s.Admits p 0x0005 b) (latest : s.latestOp p = some o) :
    ∃ x, (s.command p 0x0005 b requestAbort).opAt o.handle = some x ∧ x.running = false ∧ x.status = stAborted := by
  have does : requestAbort p b (s.seen p) = ((s.seen p).endOp o.handle stAborted, std rcSuccess) := by
    rw [requestAbort, State.latestOp, State.seen_mb, ← State.latestOp, latest]
    dsimp only
    rw [State.abortAny_reclaim work run]
    exact congrArg (fun x => (_, std x)) (if_pos rfl)
  have all : True := trivial
  have sent := (requestAbort_keeps (F := fun _ => True) (.refl _ (s.seen p)) p b).sent
  have ends := h.ends does (std_ne_owedLater (by decide) _) (by rwa [does] at sent)
  obtain ⟨x, found, stopped, aborted⟩ := State.endOp_opAt ((s.seen_opAt p _).trans known) run stAborted []
  exact ⟨x, (ends.opAt _).trans found, stopped, aborted (by decide)⟩

theorem backgroundOperationEnd_ends (up : s.narayUp = true) :
    ∃ x, (backgroundOperationEnd o.handle s).opAt o.handle = some x ∧ x.running = false := by
  have does : backgroundOperationEnd o.handle s =
      ((s.reclaim f o.done (o.total + 1)).modOp o.handle (fun o => { o with done := o.total })).endOp o.handle stSuccess := by
    rw [backgroundOperationEnd, known]
    dsimp only
    rw [run, up, State.bgEnd, work]
    rfl
  have mb : (s.reclaim f o.done (o.total + 1)).mb = s.mb :=
    (State.reclaim_keeps (F := (· ∈ [.qe, .fc])) (.refl _ s) f _ _ (by decide) (by decide)).same .mb (by decide)
  have found : ((s.reclaim f o.done (o.total + 1)).modOp o.handle (fun o => { o with done := o.total })).opAt o.handle =
      some { o with done := o.total } := by
    refine find?_map_found (q := fun x : BgOp => x.handle == o.handle) (fun o => { o with done := o.total }) (fun _ => rfl) ?_
    rw [mb]
    exact known
  obtain ⟨x, last, stopped, _⟩ := State.endOp_opAt found run stSuccess []
  exact ⟨x, does ▸ last, stopped⟩

end

/-- Settles O30: a reclaim ends with its handle known, by either abort or by its completion. -/
theorem backgroundOperationsEnd : Obligations.BackgroundOperationsEnd := by
  intro s p b o f work run
  exact ⟨fun h handle known named => ⟨_, rfl, abort_ends work run known h handle named⟩,
    fun h known latest => ⟨_, rfl, requestAbort_ends work run known h latest⟩,
    fun known up => ⟨_, rfl, backgroundOperationEnd_ends work run known up⟩⟩

end Sys2Proof.Machine
end

section
/-! PROOFS. Events that change a register or two: budget windows, interrupt registers, time sources, supplies, key checks and refreshes (02 R77 to
R85; 08 R292, R303; 09 R323 to R327; 10 R354, R366; 12 R445 to R448; 16 R584; 17 R614, R620; 19 R669). -/

set_option Elab.async false

namespace Sys2Proof.Machine
open Sys2Proof

/-- What no step of a fold changes, the fold does not change. -/
theorem foldl_same {α β γ : Type} (π : β → γ) {f : β → α → β} (step : ∀ b a, π (f b a) = π b) (l : List α) (b : β) :
    π (l.foldl f b) = π b :=
  (List.foldl_hom π (g₁ := f) (g₂ := fun x _ => x) fun b a => (step b a).symm).symm.trans (List.foldl_fixed l)

theorem State.engine_of_free {s : State} {who : Nat} (free : s.entryFree who = true) (g : State → State) : s.engine who g = (g s).engineDone who :=
  if_pos free

/-! ### Budget windows and stamps -/

/-- Settles O52: both events set what they name, the window's end at its due time. -/
theorem bandwidthWindowsEnd : Obligations.BandwidthWindowsEnd := by
  intro s
  refine ⟨⟨_, rfl, ?_, s.advance_now _⟩, ⟨_, rfl, rfl, fun m hm u hu => ?_⟩⟩
  · rw [budgetWindowEnd]
    generalize s.bw.windowAt + s.bw.window * 1000 = due
    dsimp only
    rw [State.advance_bw]
  · obtain ⟨m', _, rfl⟩ := List.mem_map.mp hm
    obtain ⟨u', _, rfl⟩ := List.mem_map.mp hu
    rfl

/-! ### Interrupt registers and Bus Master Enable -/

/-- Only function `f` changes. -/
def State.FnOnly (f : Nat) (s t : State) : Prop := ∀ g, g ≠ f → t.fnAt g = s.fnAt g

namespace State.FnOnly

variable {f : Nat} {s t u : State}

theorem of_hp (h : t.hp = s.hp) : State.FnOnly f s t := fun g _ => by rw [State.fnAt, h, State.fnAt]

theorem trans (h : State.FnOnly f s t) (h' : State.FnOnly f t u) : State.FnOnly f s u := fun g ne => (h' g ne).trans (h g ne)

theorem modFn (s : State) (f : Nat) (c : HostFn → HostFn) : State.FnOnly f s (s.modFn f c) := fun _ ne => s.fnAt_modFn_other c ne

theorem foldl {α : Type} {step : State → α → State} (h : ∀ s x, State.FnOnly f s (step s x)) (l : List α) (s : State) :
    State.FnOnly f s (l.foldl step s) := fun g ne => foldl_same (fun x => x.fnAt g) (fun s x => h s x g ne) l s

theorem flushVectors (s : State) (f : Nat) : State.FnOnly f s (s.flushVectors f) := by
  refine foldl (fun s v => ?_) _ s
  split_ifs
  · exact modFn s f _
  · exact fun _ _ => rfl

theorem sendWrite (s : State) (f addr : Nat) (d : Bytes) (w : Nat) : State.FnOnly f s (s.sendWrite f addr d w) :=
  foldl (fun x (_ : Nat × Bytes) => of_hp ((x.emit _).count_hp ..)) _ s

theorem flushWrites (s : State) (f : Nat) : State.FnOnly f s (s.flushWrites f) := by
  rw [State.flushWrites]
  split_ifs
  · exact (modFn s f _).trans (foldl (fun s _ => sendWrite s f _ _ _) _ _)
  · exact fun _ _ => rfl

theorem fetchOne (s : State) (f : Nat) : State.FnOnly f s (s.fetchOne f) := by
  rw [State.fetchOne]
  split
  · exact fun _ _ => rfl
  · dsimp only
    split_ifs
    · exact modFn s f _
    · exact fun _ _ => rfl

theorem resumeFn (s : State) (f : Nat) : State.FnOnly f s (s.resumeFn f) :=
  ((flushVectors s f).trans (flushWrites _ f)).trans ((foldl (fun s _ => fetchOne s f) _ _).trans (of_hp (State.schedSync_hp _)))

end State.FnOnly

theorem State.ioAccess_of_reach {s : State} {f : Nat} (reach : s.ioReach f = true) (g : State → State) : s.ioAccess f g = g (s.beginWake 4) :=
  if_pos reach

theorem State.fn_lt_of_ioReach {s : State} {f : Nat} (reach : s.ioReach f = true) : f < s.hp.fns.length := by
  rw [State.ioReach, Bool.and_eq_true, Bool.and_eq_true, Bool.and_eq_true] at reach
  exact s.fn_lt reach.1.1.1

theorem HostFn.bme_of_essence {x y : HostFn} (h : x.essence = y.essence) : x.bme = y.bme := (congrArg HostFn.bme h :)

theorem HostFn.msixMask_of_essence {x y : HostFn} (h : x.essence = y.essence) : x.msixMask = y.msixMask := (congrArg HostFn.msixMask h :)

theorem HostFn.fnMask_of_essence {x y : HostFn} (h : x.essence = y.essence) : x.fnMask = y.fnMask := (congrArg HostFn.fnMask h :)

theorem State.resumeFn_bme (s : State) (f g : Nat) : ((s.resumeFn f).fnAt g).bme = (s.fnAt g).bme := by
  rw [State.resumeFn, State.schedSync_fnAt]
  exact HostFn.bme_of_essence (State.fnAt_of_essence
    (by rw [State.essence_fetchRing, State.essence_flushWrites, State.essence_flushVectors]) g)

section
variable {s u : State} {f : Nat} (same : u.hp = s.hp) (known : f < s.hp.fns.length)
include same known

theorem State.modFn_sets (c : HostFn → HostFn) : (u.modFn f c).fnAt f = c (s.fnAt f) ∧ State.FnOnly f s (u.modFn f c) :=
  ⟨(u.fnAt_modFn_same c (same ▸ known)).trans (by rw [State.fnAt, same, State.fnAt]), (State.FnOnly.of_hp same).trans (.modFn u f c)⟩

theorem msixUnmask_sets (v : Option Nat) : ((msixUnmask f v u).fnAt f).essence = (match v with
    | some v => { s.fnAt f with msixMask := (s.fnAt f).msixMask &&& ~~~(1#256 <<< v) }
    | none => { s.fnAt f with fnMask := false }).essence ∧ State.FnOnly f s (msixUnmask f v u) := by
  obtain ⟨set, others⟩ := State.modFn_sets same known (fun h => match v with
    | some v => { h with msixMask := h.msixMask &&& ~~~(1#256 <<< v) }
    | none => { h with fnMask := false })
  refine ⟨(State.fnAt_of_essence (State.essence_flushVectors _ f) f).trans (congrArg HostFn.essence set), others.trans (.flushVectors _ f)⟩

theorem bmeSet_sets : ((bmeSet f u).fnAt f).bme = true ∧ State.FnOnly f s (bmeSet f u) := by
  obtain ⟨set, others⟩ := State.modFn_sets same known (fun h => { h with bme := true })
  exact ⟨(State.resumeFn_bme _ f f).trans (congrArg HostFn.bme set), others.trans (.resumeFn _ f)⟩

theorem bmeClear_sets : ((bmeClear f u).fnAt f).bme = false ∧ State.FnOnly f s (bmeClear f u) := by
  obtain ⟨set, others⟩ := State.modFn_sets same known (fun h => { h with bme := false })
  have hp : (bmeClear f u).hp = (u.modFn f (fun h => { h with bme := false })).hp :=
    (State.schedSync_hp _).trans ((State.stallPushes_keeps (F := (· ∈ [.qe])) (.refl _ _) f (by decide)).same .hp (by decide))
  exact ⟨by rw [State.fnAt, hp, ← State.fnAt, set], others.trans (.of_hp hp)⟩

end

/-- Settles O32: each write changes one register of the function, and what it lets go on changes no register that the write sets. -/
theorem interruptRegistersAreWritten : Obligations.InterruptRegistersAreWritten := by
  intro s f reach
  have known := State.fn_lt_of_ioReach reach
  have woken := s.beginWake_hp 4
  refine ⟨fun v => ⟨_, rfl, ?_⟩, fun v => ⟨_, rfl, ?_⟩, fun v => ⟨_, rfl, ?_⟩, ⟨_, rfl, ?_⟩, ⟨_, rfl, ?_⟩, ⟨_, rfl, ?_⟩⟩ <;>
    rw [State.ioAccess_of_reach reach]
  · obtain ⟨set, others⟩ := State.modFn_sets woken known (fun h => { h with intCause := h.intCause &&& ~~~(v.setWidth 8) })
    exact ⟨congrArg HostFn.intCause set, others⟩
  · obtain ⟨set, others⟩ := State.modFn_sets woken known (fun h => { h with intEnable := v.setWidth 8 })
    exact ⟨congrArg HostFn.intEnable set, others⟩
  · obtain ⟨set, others⟩ := msixUnmask_sets woken known (some v)
    exact ⟨HostFn.msixMask_of_essence set, others⟩
  · obtain ⟨set, others⟩ := msixUnmask_sets woken known none
    exact ⟨HostFn.fnMask_of_essence set, others⟩
  · exact bmeSet_sets woken known
  · exact bmeClear_sets woken known

/-! ### Time sources -/

theorem State.stepTime_lastValid (s : State) (t : Nat) : (s.stepTime t).tu.lastValid = s.tu.lastValid := by
  rw [State.stepTime, (State.gatesStepped_keeps (F := (· ∈ [.sc, .pm])) (.refl _ _) (by decide) (by decide)).same .tu (by decide),
    State.count_tu, State.report_tu]

theorem State.useSample_lastValid (s : State) (x : Int) : (s.useSample x).tu.lastValid = s.tu.lastValid := by
  delta State.useSample
  extract_lets off40 off near good s1
  split
  · rfl
  · exact (State.stepTime_lastValid ..).trans rfl

/-- A sample of a source says when the source was last valid. -/
theorem State.sample_lastValid (s : State) (source : Nat) (x : Int) : sget 0 (s.sample source x).tu.lastValid source = s.now + 1 := by
  have noted : sget 0 (({ s with tu := { s.tu with lastValid := sset 0 s.tu.lastValid source (s.now + 1) } } : State).count 24 0).tu.lastValid
      source = s.now + 1 := by
    rw [State.count_tu]
    exact sget_sset_same 0 source (s.now + 1) _
  rw [State.sample]
  dsimp only
  generalize ({ s with tu := { s.tu with lastValid := sset 0 s.tu.lastValid source (s.now + 1) } } : State).count 24 0 = u at noted ⊢
  split_ifs <;> simpa only [State.useSample_lastValid] using noted

theorem State.badSample_when (s : State) (source : Nat) :
    ((s.badSample source).now, (s.badSample source).tu.ptmAt) = (s.now, s.tu.ptmAt) := by
  rw [State.badSample]
  dsimp only
  split_ifs <;> simp only [State.count_now, State.count_tu]

theorem ptmDialogue_at {s : State} {due : Nat} (at_ : due = s.tu.ptmAt + s.tu.ptmMs * 1000000) (runs : s.tuRuns = true)
    (enabled : s.enabledSource 1 = true ∨ s.enabledSource 2 = true) :
    (ptmDialogue s).tu.ptmAt = (ptmDialogue s).now ∧ (ptmDialogue s).now = max s.now due := by
  have some : ¬((([1, 2].filter s.enabledSource).isEmpty || !s.tuRuns) = true) := by
    rw [runs, Bool.not_true, Bool.or_false, List.isEmpty_iff, List.filter_eq_nil_iff]
    exact fun none => enabled.elim (none 1 (by decide)) (none 2 (by decide))
  have does : ptmDialogue s = ([1, 2].filter s.enabledSource).foldl
      (fun u x => if u.ptmOpen x then u.emit (.ptmRequest (ptmFn x)) else u.badSample x)
      { s.advance due with tu := { (s.advance due).tu with ptmAt := (s.advance due).now } } := by
    rw [at_]
    exact if_neg some
  have when := (foldl_same (fun u : State => (u.now, u.tu.ptmAt)) (f := fun u x => if u.ptmOpen x then u.emit (.ptmRequest (ptmFn x)) else u.badSample x)
    (fun u x => by split_ifs; exacts [rfl, u.badSample_when x]) ([1, 2].filter s.enabledSource)
    { s.advance due with tu := { (s.advance due).tu with ptmAt := (s.advance due).now } })
  rw [← does] at when
  exact ⟨(congrArg Prod.snd when).trans (congrArg Prod.fst when).symm, (congrArg Prod.fst when).trans (s.advance_now due)⟩

theorem timeSourceTimeout_holdover {s : State} (runs : s.tuRuns = true) (locked : s.tu.mode = .locked) (alone : s.tu.secondary = 0) :
    (timeSourceTimeout s).tu.mode = .holdover ∧ (timeSourceTimeout s).tu.active = 0 ∧ s.Reported (timeSourceTimeout s) tuHoldover := by
  have later (due : Nat) : (s.advance due).tu.secondary = 0 := by
    rw [State.advance, apply_ite State.tu, apply_ite Tu.secondary]
    dsimp only
    rw [apply_ite Tu.secondary]
    simp only [tuAdvance, alone, ite_self]
  have none (due : Nat) : (s.advance due).delivers (s.advance due).tu.secondary = false := by rw [later, State.delivers]; rfl
  rw [timeSourceTimeout, runs, locked]
  dsimp only
  generalize sget 0 s.tu.lastValid s.tu.active - 1 + 3 * s.tu.intervalOf s.tu.active = due
  rw [if_neg (by decide), none, if_neg fun x => absurd x.2 (by decide)]
  exact ⟨rfl, rfl, (State.report_reported ..).congr (congrArg Fc.reports (s.advance_fc due)) rfl⟩

/-- Settles O38: dialogues and samples note their time, and the loss of the only source is HOLDOVER. -/
theorem timeSourcesAreFollowed : Obligations.TimeSourcesAreFollowed := by
  refine ⟨fun s runs enabled => ⟨_, rfl, ptmDialogue_at rfl runs enabled⟩, fun s src sec ns runs which enabled reachable => ⟨_, rfl, ?_⟩,
    fun s runs enabled => ⟨_, rfl, ?_⟩, fun s runs locked alone => ⟨_, rfl, timeSourceTimeout_holdover runs locked alone⟩⟩
  · rw [ptmSample, if_neg (by rw [runs, enabled]; rcases which with rfl | rfl <;> decide), if_neg (by rw [reachable]; decide)]
    exact s.sample_lastValid src _
  · rw [ppsInEdge, if_neg (by rw [runs, enabled]; decide)]
    exact s.sample_lastValid 3 _

/-! ### Supplies and clocks -/

theorem foldl_max {l : List Int} {a x : Int} (mem : x ∈ a :: l) (most : ∀ y ∈ a :: l, y ≤ x) : l.foldl max a = x :=
  Option.some.inj (List.max?_cons'.symm.trans (List.max?_eq_some_iff.mpr ⟨mem, most⟩))

/-- A report where a condition has come to hold. -/
def State.says (s : State) (now was : Bool) (src : Nat) (t : Int) : State := if now && !was then s.report src t.toNat else s

theorem State.says_reports (s : State) (now was : Bool) (src : Nat) (t : Int) : ∃ l, (s.says now was src t).fc.reports = s.fc.reports ++ l := by
  rw [State.says]
  split
  · exact ⟨_, rfl⟩
  · exact ⟨[], (List.append_nil _).symm⟩

theorem State.says_pw (s : State) (now was : Bool) (src : Nat) (t : Int) : (s.says now was src t).pw = s.pw := by
  rw [State.says, apply_ite State.pw, State.report_pw, ite_self]

theorem thermalSample_ends {s : State} {ts : List Int} {x : Int} (mem : x ∈ ts) (most : ∀ y ∈ ts, y ≤ x) (held : s.pw.cold ≠ .held)
    (deep : s.pw.state ≠ .deep) (off : s.pw.state ≠ .off) : (thermalSample ts s).pw = { s.pw with
        temp := x, warn := thermalHolds s.pw.warn thermalLimits.1 x, throttle := thermalHolds s.pw.throttle thermalLimits.2.1 x
        shutdown := thermalHolds s.pw.shutdown thermalLimits.2.2 x
        thermN := thermalHolds s.pw.warn thermalLimits.1 x || thermalHolds s.pw.throttle thermalLimits.2.1 x ||
          thermalHolds s.pw.shutdown thermalLimits.2.2 x } ∧
      (thermalHolds s.pw.throttle thermalLimits.2.1 x = true → s.pw.throttle = false → s.Reported (thermalSample ts s) pwTempThrottle) := by
  cases ts with
  | nil => cases mem
  | cons a l =>
    have hot : l.foldl max a = x := foldl_max mem most
    generalize same : ((s.says (thermalHolds s.pw.warn thermalLimits.1 x) s.pw.warn pwTempWarn x).says
      (thermalHolds s.pw.throttle thermalLimits.2.1 x) s.pw.throttle pwTempThrottle x).says
      (thermalHolds s.pw.shutdown thermalLimits.2.2 x) s.pw.shutdown pwTempShutdown x = u
    have does : thermalSample (a :: l) s = { u with pw := { u.pw with
        temp := x, warn := thermalHolds s.pw.warn thermalLimits.1 x, throttle := thermalHolds s.pw.throttle thermalLimits.2.1 x
        shutdown := thermalHolds s.pw.shutdown thermalLimits.2.2 x
        thermN := thermalHolds s.pw.warn thermalLimits.1 x || thermalHolds s.pw.throttle thermalLimits.2.1 x ||
          thermalHolds s.pw.shutdown thermalLimits.2.2 x } } := by
      rw [← same, ← hot]
      exact if_neg (by simp only [held, deep, off, or_self, not_false_eq_true])
    rw [does]
    refine ⟨?_, fun holds was => ?_⟩
    · rw [← same, State.says_pw, State.says_pw, State.says_pw]
    · rw [holds, was] at same
      obtain ⟨l1, warn⟩ := s.says_reports (thermalHolds s.pw.warn thermalLimits.1 x) s.pw.warn pwTempWarn x
      generalize s.says (thermalHolds s.pw.warn thermalLimits.1 x) s.pw.warn pwTempWarn x = v at same warn
      obtain ⟨l2, more⟩ := (v.says true false pwTempThrottle x).says_reports (thermalHolds s.pw.shutdown thermalLimits.2.2 x)
        s.pw.shutdown pwTempShutdown x
      rw [same, State.says, Bool.true_and, Bool.not_false, if_pos rfl, State.report_reports, warn, List.append_assoc, List.append_assoc] at more
      exact ⟨_, _, more, List.mem_append_right _ (List.mem_append_left _ (List.mem_singleton_self _)), v.faultMsg_source ..⟩

theorem pllUnlock_ends {s : State} (locked : s.ck.sysLock = true) : (pllUnlock false s).ck.sysLock = false ∧
    (pllUnlock false s).ck.unlocks = satAdd 65535 s.ck.unlocks 1 ∧ s.Reported (pllUnlock false s) ckPllUnlock := by
  have does : pllUnlock false s = ({ s with ck := { s.ck with
      sysLock := false, memLock := s.ck.memLock && !false, unlocks := satAdd 65535 s.ck.unlocks 1 } } : State).report ckPllUnlock (b2n false) := by
    rw [pllUnlock]
    dsimp only
    rw [locked]
    rfl
  rw [does]
  exact ⟨rfl, rfl, (State.report_reported ..).congr rfl rfl⟩

theorem pllUnlock_xtal (s : State) (memory : Bool) : (pllUnlock memory s).ck.xtal = s.ck.xtal := by
  rw [pllUnlock]
  dsimp only
  split_ifs <;> rfl

theorem crystalStop_xtal {s : State} (runs : s.ck.xtal = true) : (crystalStop s).ck.xtal = false := by
  rw [crystalStop, if_neg (by rw [runs]; decide)]
  dsimp only
  split_ifs
  · rfl
  · exact pllUnlock_xtal _ _

/-- A number in a list is a bit of the list's word. -/
theorem testBit_bitsOf {l : List Nat} {g : Nat} (mem : g ∈ l) : (bitsOf l).testBit g = true := by
  have kept (l : List Nat) (v : Nat) (bit : v.testBit g = true) : (l.foldl (fun v i => v ||| (1 <<< i)) v).testBit g = true := by
    induction l generalizing v with
    | nil => exact bit
    | cons i l ih => exact ih _ (by rw [Nat.testBit_or, bit, Bool.true_or])
  obtain ⟨before, after, rfl⟩ := List.append_of_mem mem
  rw [bitsOf, List.foldl_append, List.foldl_cons]
  exact kept after _ (by rw [Nat.testBit_or, Nat.one_shiftLeft, Nat.testBit_two_pow_self, Bool.or_true])

/-- Settles O58: each event sets what it names; what a report adds does not touch the supplies. -/
theorem suppliesAreWatched : Obligations.SuppliesAreWatched := by
  intro s
  refine ⟨fun held deep off first => ⟨_, rfl, ?_⟩, fun first runs awake => ⟨_, rfl, ?_⟩, fun awake => ⟨_, rfl, ?_⟩,
    fun ts x mem most held deep off => ⟨_, rfl, ?_⟩, fun locked => ⟨_, rfl, pllUnlock_ends locked⟩, fun runs => ⟨_, rfl, crystalStop_xtal runs⟩,
    fun deep => ⟨_, rfl, by rw [vddqDip, if_pos deep]⟩, fun g hg deep kept => ⟨_, rfl, ?_⟩, fun h => ⟨_, rfl, ?_⟩⟩
  · have does : droopDetect true s = ({ s with pw := { s.pw with droop := true } } : State).report pwDroop 0 := by
      rw [droopDetect, if_neg (by simp only [held, deep, off, or_self, not_false_eq_true]), first]
      rfl
    rw [does]
    exact ⟨rfl, (State.report_reported ..).congr rfl rfl⟩
  · have does : pwrFailLow s = ({ s with pw := { s.pw with pwrFail := true } } : State).report pwFailWarn 0 := by
      rw [pwrFailLow, if_neg (by rw [first]; decide), runs, awake]
      rfl
    rw [does]
    exact ⟨rfl, (State.report_reported ..).congr rfl rfl⟩
  · have does : pwrFailHigh s = { s with pw := { s.pw with pwrFail := false } } := by
      rw [pwrFailHigh, awake]
      split
      · next none => cases none
      · rfl
    rw [does]
    exact ⟨rfl, rfl⟩
  · obtain ⟨pw, said⟩ := thermalSample_ends mem most held deep off
    rw [pw]
    exact ⟨rfl, rfl, rfl, rfl, rfl, said⟩
  · rw [vddSramDip, if_pos deep]
    show (_ ||| (BitVec.ofNat 96 (bitsOf ([g].filter (· < 96))) &&& _)).getLsbD g = true
    rw [List.filter_singleton, decide_eq_true hg, BitVec.getLsbD_or, BitVec.getLsbD_and, kept, Bool.and_true, BitVec.getLsbD_ofNat, decide_eq_true hg,
      Bool.true_and]
    exact (Bool.or_eq_true _ _).mpr (.inr (testBit_bitsOf (List.mem_singleton_self g)))
  · rw [trstChange]
    split_ifs
    · exact (State.setDomain_keeps_ck ..).same .pw (by decide)
    · rfl

/-! ### Key sweeps and key checks -/

theorem State.rekeyLines_buoy (s : State) : s.rekeyLines.sx.buoy = s.sx.buoy + 1 := by
  have yes : true = true := rfl
  delta State.rekeyLines
  extract_lets b r base sx s1 s2
  have written : s2.sx = s1.sx := (Keeps.foldl (F := fun q => (q != .sx) = true) (fun _ _ h => State.rekeyWrite_keeps h _ _) r.2 (.refl _ s1)).same .sx
    (by decide)
  have progress : (s2.count 21 2).rekeyProgress.sx = (s2.count 21 2).sx :=
    (State.rekeyProgress_keeps (F := (· ∈ [.mb])) (.refl _ _) (by decide)).same .sx (by decide)
  rw [progress, State.count_sx, written]

theorem State.rekeyEnd_buoy (s : State) : s.rekeyEnd.sx.buoy = s.sx.buoy := by
  delta State.rekeyEnd
  extract_lets sx s0 s1
  have ended : (((s1.running.filter (fun o => isRekey o.work)).map (fun o => o.handle)).foldl (fun s h => s.endOp h stSuccess) s1).sx = s1.sx :=
    (Keeps.foldl (F := (· ∈ [.out, .hp, .mb, .pm])) (fun _ _ h => State.endOp_keeps h _ _ _ (by decide) (by decide) (by decide) (by decide)) _
      (.refl _ s1)).same .sx (by decide)
  rw [ended]
  exact (congrArg Sx.buoy ((s0.setDomain_keeps_ck 40 false).same .sx (by decide)) :)

theorem rekeyStep_buoy {s : State} {halt : Bool} (sweeps : s.sx.sweep = true) (halted : s.sx.halted = false) (paused : s.sx.paused = false)
    (background : s.bgPaused = false) : (rekeyStep halt s).sx.buoy = s.sx.buoy + 1 := by
  have lines := s.rekeyLines_buoy
  have does : rekeyStep halt s = if s.rekeyLines.topCla ≤ s.rekeyLines.sx.buoy then s.rekeyLines.rekeyEnd
      else if halt then ({ s.rekeyLines with sx := { s.rekeyLines.sx with halted := true } } : State).report sxRekeyHalted s.rekeyLines.sx.buoy (some 12)
      else s.rekeyLines := if_neg (by rw [sweeps, halted, paused, background]; decide)
  generalize s.rekeyLines = u at does lines
  rw [does]
  split_ifs
  · exact u.rekeyEnd_buoy.trans lines
  · exact lines
  · exact lines

/-- Settles O47: every step moves the buoy, and a check finds the copies that differ. -/
theorem keysAreSweptAndChecked : Obligations.KeysAreSweptAndChecked := by
  refine ⟨fun s halt free sweeps halted paused background => ⟨_, congrArg Host.Outcome.next (State.engine_of_free free (rekeyStep halt)),
    rekeyStep_buoy sweeps halted paused background⟩, fun s k key awake ready => ?_⟩
  have state : s.pw.state ≠ .waking := fun h => by rw [State.awake, h] at awake; cases awake
  have does (bad : List Nat) : keyCheck bad s = (s.checkKey bad).1 := by rw [keyCheck, if_neg state, awake, ready]; rfl
  have present : ¬s.sx.key.isNone = true := by rw [key]; exact Bool.false_ne_true
  refine ⟨⟨_, rfl, ?_⟩, ⟨_, rfl, ?_⟩⟩ <;> rw [does, State.checkKey] <;> dsimp only <;> rw [if_neg present]
  · exact ⟨rfl, rfl⟩
  · exact ⟨rfl, (State.report_reported ..).congr rfl rfl⟩

/-! ### Refresh -/

theorem State.chan_lt_of_state {s : State} {c : Nat} {x : McState} (h : s.chanIs c x = true) (populated : x ≠ .unpopulated) :
    c < s.mc.chans.length := by
  by_contra out
  rw [State.chanIs, State.chan, List.getD_eq_getElem?_getD, List.getElem?_eq_none (not_lt.mp out), decide_eq_true_eq] at h
  exact populated h.symm

theorem State.chan_lt_of_refreshes {s : State} {c : Nat} (h : s.refreshes c = true) : c < s.mc.chans.length :=
  ((Bool.or_eq_true _ _).mp h).elim (State.chan_lt_of_state · (by decide)) (State.chan_lt_of_state · (by decide))

theorem sget_foldl_sset {keys : List Nat} {k : Nat} (mem : k ∈ keys) (g : Nat → Int) (m : SMap Int) :
    sget 0 (keys.foldl (fun m key => sset 0 m key (g key)) m) k = g k := by
  have kept (l : List Nat) (m : SMap Int) (same : sget 0 m k = g k) : sget 0 (l.foldl (fun m key => sset 0 m key (g key)) m) k = g k := by
    induction l generalizing m with
    | nil => exact same
    | cons j l ih =>
      refine ih _ ?_
      rw [sget_sset]
      split_ifs with here
      · rw [here]
      · exact same
  obtain ⟨before, after, rfl⟩ := List.append_of_mem mem
  rw [List.foldl_append, List.foldl_cons]
  exact kept after _ (sget_sset_same 0 k _ _)

section
variable {s : State} {c u rank bank : Nat}

theorem State.refreshed_owed (known : c < s.mc.chans.length) (sub : u < (s.chan c).subs.length) (key : rank * 4 + bank ∈ s.refKeys c) :
    sget 0 ((s.refreshed c u rank bank).subAt c u).owed (rank * 4 + bank) = s.owedNow c u (rank * 4 + bank) - 1 := by
  rw [State.refreshed, State.subAt, State.chan, State.count_mc, ← State.chan, ← State.subAt, State.settleRef]
  have settled := State.chan_modChan_same s (fun m => { m with subs := lmod m.subs u (fun x => { x with
    owed := (s.refKeys c).foldl (fun m key => sset 0 m key (s.owedNow c u key)) (s.subAt c u).owed
    refAt := x.refAt + s.refPassed c u * tRefi (s.chan c) }) }) known
  rw [State.subAt_modSub_same _ _ (by simpa only [State.modSub, State.modChan, length_lmod] using known)
    (by rw [State.modSub, settled]; simpa only [length_lmod] using sub)]
  refine (sget_smod_same (0 : Int) (rank * 4 + bank) (· - 1) _).trans (congrArg (· - 1) ?_)
  rw [State.subAt_modSub_same _ _ known sub]
  exact sget_foldl_sset key _ _

theorem State.refreshed_dram (s : State) (c u rank bank : Nat) : (s.refreshed c u rank bank).dram = s.dram :=
  (State.refreshed_keeps (F := (· ∈ [.mc, .pm])) (.refl _ s) c u rank bank (by decide) (by decide)).same .dram (by decide)

theorem State.modSub_refForced (s : State) (c u : Nat) (g : SubCh → SubCh) : ((s.modSub c u g).chan c).refForced = (s.chan c).refForced := by
  rw [State.chan, State.chan, State.modSub, State.modChan, lmod, List.getD_eq_getElem?_getD, List.getD_eq_getElem?_getD, List.getElem?_modify]
  cases s.mc.chans[c]? with
  | none => rfl
  | some m => simp only [Option.map_eq_map, Option.map_some, if_pos, Option.getD_some]

theorem State.refreshed_refForced (s : State) (c u rank bank : Nat) : ((s.refreshed c u rank bank).chan c).refForced = (s.chan c).refForced := by
  rw [State.refreshed, State.chan, State.count_mc, ← State.chan, State.modSub_refForced, State.settleRef, State.modSub_refForced]

/-- As time passes, commands leave the retry buffer. -/
theorem State.retryFull_advance (room : s.retryFull c u 1 = false) (due : Nat) : (s.advance due).retryFull c u 1 = false := by
  rw [State.retryFull, decide_eq_false_iff_not, not_lt] at room ⊢
  refine le_trans (Nat.add_le_add_right (List.Sublist.length_le ?_) 1) room
  rw [State.subAt, State.chan, State.advance_mc, ← State.chan, ← State.subAt, State.advance_now]
  exact List.monotone_filter_right _ fun e live => by
    rw [decide_eq_true_eq] at live ⊢
    exact lt_of_le_of_lt (le_max_left ..) live

/-- A refresh of a bank of the channel is not refused. -/
theorem State.refresh_taken (refreshes : s.refreshes c = true) (sub : u < 2) (few : bank < 4) (key : rank * 4 + bank ∈ s.refKeys c) :
    ¬((!s.refreshes c || !decide (rank * 4 + bank ∈ s.refKeys c) || decide (4 ≤ bank) || decide (2 ≤ u)) = true) := by
  rw [refreshes, decide_eq_true key, decide_eq_false (not_le.mpr few), decide_eq_false (not_le.mpr sub)]
  decide

theorem refreshIssue_ends (taken : ¬((!s.refreshes c || !decide (rank * 4 + bank ∈ s.refKeys c) || decide (4 ≤ bank) || decide (2 ≤ u)) = true))
    (chan : c < s.mc.chans.length) (known : u < (s.chan c).subs.length)
    (key : rank * 4 + bank ∈ s.refKeys c) (room : s.retryFull c u 1 = false)
    (free : ∀ q ∈ (s.subAt c u).considered, indexOf (s.bankOf c q) ≠ rank * 4 + bank) (owed : -4 < s.owedNow c u (rank * 4 + bank)) :
    sget 0 ((refreshIssue c u rank bank s).subAt c u).owed (rank * 4 + bank) = s.owedNow c u (rank * 4 + bank) - 1 ∧
      (refreshIssue c u rank bank s).dram = s.dram := by
  have busy : (s.subAt c u).considered.any (fun q => indexOf (s.bankOf c q) == rank * 4 + bank) = false :=
    List.any_eq_false.mpr fun q mem same => free q mem (beq_iff_eq.mp same)
  have does : refreshIssue c u rank bank s = s.refreshed c u rank bank := by
    refine (if_neg taken).trans (if_neg ?_)
    rw [busy, room, decide_eq_false (not_le.mpr owed), Bool.and_false]
    decide
  rw [does]
  exact ⟨State.refreshed_owed chan known key, s.refreshed_dram ..⟩

theorem refreshForced_counts (taken : ¬((!s.refreshes c || !decide (rank * 4 + bank ∈ s.refKeys c) || decide (4 ≤ bank) || decide (2 ≤ u)) = true))
    (chan : c < s.mc.chans.length) (room : s.retryFull c u 1 = false) :
    ((refreshForced c u rank bank s).chan c).refForced = satAdd (2 ^ 32 - 1) (s.chan c).refForced 1 := by
  have counted (v : State) (mc : v.mc = s.mc) : ((((v.refreshed c u rank bank).modChan c (fun m => { m with
      refForced := satAdd (2 ^ 32 - 1) m.refForced 1 })).reportAgg (mcRefreshForced c) 0 1000000000 (c * 2 ^ 8 + u * 2 ^ 4 + rank)).chan c).refForced =
        satAdd (2 ^ 32 - 1) (s.chan c).refForced 1 := by
    have length : (v.refreshed c u rank bank).mc.chans.length = s.mc.chans.length := by
      rw [State.refreshed, State.count_mc, State.modSub, State.modChan, length_lmod, State.settleRef, State.modSub, State.modChan, length_lmod, mc]
    rw [State.chan, State.reportAgg_mc, ← State.chan, State.chan_modChan_same _ _ (length ▸ chan)]
    exact congrArg (satAdd _ · 1) ((v.refreshed_refForced c u rank bank).trans (by rw [State.chan, mc, State.chan]))
  rw [refreshForced, if_neg taken]
  dsimp only
  generalize (s.subAt c u).refAt + (s.refPassed c u + (5 - s.owedNow c u (rank * 4 + bank)).toNat) * tRefi (s.chan c) = due
  by_cases short : (5 - s.owedNow c u (rank * 4 + bank)).toNat = 0
  · rw [if_pos short, if_neg (by rw [room]; decide)]
    exact counted s rfl
  · rw [if_neg short, if_neg (by rw [State.retryFull_advance room]; decide)]
    exact counted _ (s.advance_mc due)

theorem rfmIssue_counts {g : Nat} (refreshes : s.refreshes c = true) (sub : u < 2) (known : u < (s.chan c).subs.length)
    (room : s.retryFull c u 1 = false) (threshold : Config.raaInitial c ≤ sget 0 (s.subAt c u).raa (rank * 32 + g * 4 + bank)) :
    ((rfmIssue c u rank g bank s).chan c).rfmIssued = satAdd (2 ^ 32 - 1) (s.chan c).rfmIssued 1 ∧
      sget 0 ((rfmIssue c u rank g bank s).subAt c u).raa (rank * 32 + g * 4 + bank) =
        Config.raaLowered c (sget 0 (s.subAt c u).raa (rank * 32 + g * 4 + bank)) := by
  have chan := State.chan_lt_of_refreshes refreshes
  have does : (rfmIssue c u rank g bank s).chan c = { s.chan c with
      subs := lmod (s.chan c).subs u fun x => { x with
        raa := smod 0 x.raa (rank * 32 + g * 4 + bank) (Config.raaLowered c), sinceAlert := x.sinceAlert + 1
        retry := x.live s.now ++ [(0, s.now)] }
      rfmIssued := satAdd (2 ^ 32 - 1) (s.chan c).rfmIssued 1 } := by
    rw [rfmIssue]
    dsimp only
    rw [refreshes, decide_eq_true sub, decide_eq_true threshold, room, if_pos (by decide), State.chan, State.count_mc, ← State.chan,
      State.chan_modChan_same _ _ (by simpa only [State.modSub, State.modChan, length_lmod] using chan), State.modSub,
      State.chan_modChan_same _ _ chan]
  rw [State.subAt, does]
  refine ⟨rfl, ?_⟩
  dsimp only
  rw [getD_lmod_same known]
  exact sget_smod_same ..

end

/-- Settles O48: a refresh takes its bank's owed count down from what is owed now, and forced ones and RFM count. -/
theorem refreshIsIssued : Obligations.RefreshIsIssued := by
  intro s c u rank bank refreshes sub known few key room
  have taken := State.refresh_taken refreshes sub few key
  have chan := State.chan_lt_of_refreshes refreshes
  exact ⟨fun free owed => ⟨_, rfl, refreshIssue_ends taken chan known key room free owed⟩, ⟨_, rfl, refreshForced_counts taken chan room⟩,
    fun g threshold => ⟨_, rfl, rfmIssue_counts refreshes sub known room threshold⟩⟩

end Sys2Proof.Machine
end

section
/-! PROOFS. Writes of hosts to doorbells, registers and windows, and what resets a function or makes it viral (00 R13, R14; 01 R49; 02 R59 to R76,
R86 to R92, R97, R100 to R102; 14 R526). -/

set_option Elab.async false

namespace Sys2Proof.Machine
open Sys2Proof

/-! ### Writes to the doorbell page -/

theorem State.beginWake_fc (s : State) (cause : Nat) : (s.beginWake cause).fc = s.fc :=
  (State.beginWake_keeps (F := (· ∈ [.pw])) (.refl _ s) cause (by decide)).same .fc (by decide)

theorem State.beginWake_mb (s : State) (cause : Nat) : (s.beginWake cause).mb = s.mb :=
  (State.beginWake_keeps (F := (· ∈ [.pw])) (.refl _ s) cause (by decide)).same .mb (by decide)

theorem State.beginWake_qe (s : State) (cause : Nat) : (s.beginWake cause).qe = s.qe :=
  (State.beginWake_keeps (F := (· ∈ [.pw])) (.refl _ s) cause (by decide)).same .qe (by decide)

theorem State.beginWake_ce (s : State) (cause : Nat) : (s.beginWake cause).ce = s.ce :=
  (State.beginWake_keeps (F := (· ∈ [.pw])) (.refl _ s) cause (by decide)).same .ce (by decide)

theorem State.leaveIdle_hp (s : State) : s.leaveIdle.hp = s.hp :=
  (State.leaveIdle_keeps (F := (· ∈ [.pw, .ck, .pm])) (.refl _ s) (by decide) (by decide) (by decide)).same .hp (by decide)

theorem State.reported_report (s : State) {u : State} (same : u.fc = s.fc) (source detail : Nat) (req : Option Nat) :
    s.Reported (u.report source detail req) source :=
  (u.report_reported source detail req).congr (congrArg Fc.reports same) rfl

section
variable {s : State} {f : Nat} (reach : s.ioReach f = true)
include reach

/-- A write that is refused leaves the host ports, and is reported. -/
theorem State.ioAccess_badAccess {g : State → State} (off v : Nat) (refused : ∀ u : State, u.hp = s.hp → g u = u.badAccess f off v) :
    (s.ioAccess f g).hp = s.hp ∧ s.Reported (s.ioAccess f g) (hpBadAccess (portOf f)) := by
  rw [State.ioAccess_of_reach reach, refused _ (s.beginWake_hp 4)]
  exact ⟨s.beginWake_hp 4, s.reported_report (s.beginWake_fc 4) ..⟩

end

theorem HostFn.fcrProd_of_essence {x y : HostFn} (h : x.essence = y.essence) : x.fcrProd = y.fcrProd := (congrArg HostFn.fcrProd h :)

section
variable {s u : State} {f : Nat} (same : u.hp = s.hp)
include same

theorem State.fnAt_of_hp (g : Nat) : u.fnAt g = s.fnAt g := by rw [State.fnAt, same, State.fnAt]

theorem fcrDoorbell_moves {v : BitVec 32} {q : Fcr} (known : f < s.hp.fns.length) (ring : (s.fnAt f).fcr = some q) (on : (s.fnAt f).ringOn = true)
    (within : ahead (v.toNat % 65536) (s.fnAt f).fcrCons ≤ q.slots) : ((fcrDoorbell f v u).fnAt f).fcrProd = v.toNat % 65536 := by
  have hp : u.leaveIdle.hp = s.hp := u.leaveIdle_hp.trans same
  obtain ⟨set, -⟩ := State.modFn_sets hp known (fun h => { h with fcrProd := v.toNat % 65536 })
  rw [fcrDoorbell, State.fnAt_of_hp same, ring]
  dsimp only
  rw [on, if_neg (by decide), if_neg (not_lt.mpr within)]
  exact (HostFn.fcrProd_of_essence (State.fnAt_of_essence (State.essence_fetchRing _ f) f)).trans (congrArg HostFn.fcrProd set)

theorem fcrDoorbell_refuses {v : BitVec 32} {q : Fcr} (ring : (s.fnAt f).fcr = some q) (on : (s.fnAt f).ringOn = true)
    (outside : q.slots < ahead (v.toNat % 65536) (s.fnAt f).fcrCons) : fcrDoorbell f v u = u.badAccess f 0 v.toNat := by
  rw [fcrDoorbell, State.fnAt_of_hp same, ring]
  dsimp only
  rw [on, if_neg (by decide), if_pos outside]

/-- A ring is found as it was changed. -/
theorem State.freeRing_modFree {m : Nat} {q : FreeRing} (known : f < s.hp.fns.length) (ring : s.freeRing f m = some q) (g : FreeRing → FreeRing) :
    (u.modFree f m g).freeRing f m = some (g q) := by
  rw [State.freeRing, State.modFree, (State.modFn_sets same known _).1]
  exact (oget_omod_same ..).trans (congrArg (Option.map g) ring)

theorem State.egressRing_modEgress {n : Nat} {q : EgressRing} (known : f < s.hp.fns.length) (ring : s.egressRing f n = some q)
    (g : EgressRing → EgressRing) : (u.modEgress f n g).egressRing f n = some (g q) := by
  rw [State.egressRing, State.modEgress, (State.modFn_sets same known _).1]
  exact (oget_omod_same ..).trans (congrArg (Option.map g) ring)

theorem freeCons_moves {m : Nat} {v : BitVec 32} {q : FreeRing} (known : f < s.hp.fns.length) (ring : s.freeRing f m = some q)
    (within : ahead v.toNat q.cons ≤ ahead q.prod q.cons) : (freeCons f m v u).freeRing f m =
      some { q with cons := q.cons + ahead v.toNat q.cons, inSlots := q.inSlots.drop (ahead v.toNat q.cons) } := by
  rw [freeCons, State.freeRing_of_hp same, ring]
  dsimp only
  rw [if_neg (not_lt.mpr within)]
  exact State.freeRing_modFree same known ring _

theorem freeCons_refuses {m : Nat} {v : BitVec 32} {q : FreeRing} (ring : s.freeRing f m = some q)
    (outside : ahead q.prod q.cons < ahead v.toNat q.cons) : freeCons f m v u = u.badAccess f (0x100 + 4 * m) v.toNat := by
  rw [freeCons, State.freeRing_of_hp same, ring]
  exact if_pos outside

theorem egressCons_moves {n : Nat} {v : BitVec 32} {q : EgressRing} (known : f < s.hp.fns.length) (ring : s.egressRing f n = some q)
    (within : ahead v.toNat q.cons ≤ ahead q.prod q.cons) : (egressCons f n v u).egressRing f n =
      some { q with cons := q.cons + ahead v.toNat q.cons } := by
  rw [egressCons, State.egressRing_of_hp same, ring]
  dsimp only
  rw [if_neg (not_lt.mpr within), State.egressRing, State.schedSync_fnAt, ← State.egressRing]
  exact State.egressRing_modEgress same known ring _

theorem egressCons_refuses {n : Nat} {v : BitVec 32} {q : EgressRing} (ring : s.egressRing f n = some q)
    (outside : ahead q.prod q.cons < ahead v.toNat q.cons) : egressCons f n v u = u.badAccess f (0x200 + 4 * n) v.toNat := by
  rw [egressCons, State.egressRing_of_hp same, ring]
  exact if_pos outside

end

theorem fcrFetchError_halts {s : State} {f : Nat} {q : Fcr} (ring : (s.fnAt f).fcr = some q) (on : (s.fnAt f).ringOn = true) (reads : q.fetching ≠ 0) :
    ((fcrFetchError f s).fnAt f).fcrHalted = true ∧ s.Reported (fcrFetchError f s) (hpFcrFetch (portOf f)) := by
  have does : fcrFetchError f s = (s.modFn f (fun h => { h with fcrHalted := true, fcr := some { q with fetching := 0 } })).report
      (hpFcrFetch (portOf f)) f (some f) := by
    rw [fcrFetchError, ring]
    exact if_neg (by rw [on]; simpa using reads)
  rw [does]
  exact ⟨congrArg HostFn.fcrHalted (s.fnAt_modFn_same _ (State.fn_lt_of_ring ring)), s.reported_report (State.modFn_fc ..) ..⟩

/-- Settles O31: within the ring a write moves the count, outside it is refused, and a fetch error halts the ring. -/
theorem doorbellWritesMoveCounts : Obligations.DoorbellWritesMoveCounts := by
  refine ⟨fun s f v q reach ring on within => ⟨_, rfl, ?_⟩,
    fun s f v q reach ring on outside => ⟨_, rfl, State.ioAccess_badAccess reach _ _ fun u same => fcrDoorbell_refuses same ring on outside⟩,
    fun s f m v q reach ring within => ⟨_, rfl, ?_⟩,
    fun s f m v q reach ring outside => ⟨_, rfl, State.ioAccess_badAccess reach _ _ fun u same => freeCons_refuses same ring outside⟩,
    fun s f n v q reach ring within => ⟨_, rfl, ?_⟩,
    fun s f n v q reach ring outside => ⟨_, rfl, State.ioAccess_badAccess reach _ _ fun u same => egressCons_refuses same ring outside⟩,
    fun s f q ring on reads => ⟨_, rfl, fcrFetchError_halts ring on reads⟩⟩ <;> rw [State.ioAccess_of_reach reach]
  · exact fcrDoorbell_moves (s.beginWake_hp 4) (State.fn_lt_of_ioReach reach) ring on within
  · exact freeCons_moves (s.beginWake_hp 4) (State.fn_lt_of_ioReach reach) ring within
  · exact egressCons_moves (s.beginWake_hp 4) (State.fn_lt_of_ioReach reach) ring within

/-! ### Registers of a host, and decoders -/

section
variable {s u : State} {f i : Nat} {d : DecoderCfg} (same : u.hp = s.hp) (known : f < s.hp.fns.length) (few : i < 8)
  (there : i < (s.fnAt f).decoders.length) (free : ((s.fnAt f).decoders.getD i Decoder.reset).committed = false)
include same known few there free

omit known there in
theorem decoderCommit_open : ¬(8 ≤ i ∨ (((u.fnAt f).decoders.getD i Decoder.reset).committed &&
    ((u.fnAt f).decoders.getD i Decoder.reset).cfg.lock) = true) := by
  rw [State.fnAt_of_hp same, free, Bool.false_and]
  exact fun x => x.elim (not_le.mpr few) Bool.false_ne_true

theorem decoderCommit_commits (legal : decoderLegal d = true) (turn : (s.fnAt f).inTurn i d = true) :
    ((decoderCommit f i d u).fnAt f).decoders.getD i Decoder.reset = ⟨d, true, false, (s.fnAt f).dpaBase i d⟩ ∧
      State.FnOnly f s (decoderCommit f i d u) := by
  have refused : ¬((!decoderLegal d) = true ∨ (!(u.fnAt f).inTurn i d) = true) := by
    rw [State.fnAt_of_hp same, legal, turn]
    decide
  obtain ⟨set, others⟩ := State.modFn_sets same known (fun h => { h with
      decoders := lset h.decoders i ⟨d, true, false, (s.fnAt f).dpaBase i d⟩
      snoopOff := h.snoopOff && !(d.bi && u.hitsHdmDb ⟨d, true, false, (s.fnAt f).dpaBase i d⟩) })
  have hp : (decoderCommit f i d u).hp = (u.modFn f (fun h => { h with
      decoders := lset h.decoders i ⟨d, true, false, (s.fnAt f).dpaBase i d⟩
      snoopOff := h.snoopOff && !(d.bi && u.hitsHdmDb ⟨d, true, false, (s.fnAt f).dpaBase i d⟩) })).hp := by
    rw [decoderCommit]
    dsimp only
    rw [if_neg (decoderCommit_open same few free), if_neg refused, apply_ite State.hp, State.report_hp, ite_self,
      State.fnAt_of_hp same]
  rw [State.fnAt_of_hp hp, set]
  exact ⟨getD_lset_same there, others.trans (.of_hp hp)⟩

theorem decoderCommit_refuses (bad : decoderLegal d = false ∨ (s.fnAt f).inTurn i d = false) :
    ((decoderCommit f i d u).fnAt f).decoders.getD i Decoder.reset = ⟨d, false, true, 0⟩ ∧ State.FnOnly f s (decoderCommit f i d u) := by
  obtain ⟨set, others⟩ := State.modFn_sets same known (fun h => { h with decoders := lset h.decoders i ⟨d, false, true, 0⟩ })
  have does : decoderCommit f i d u = u.modFn f (fun h => { h with decoders := lset h.decoders i ⟨d, false, true, 0⟩ }) := by
    refine (if_neg (decoderCommit_open same few free)).trans (if_pos ?_)
    rw [State.fnAt_of_hp same]
    exact bad.imp (by rw [·]; rfl) (by rw [·]; rfl)
  rw [does, set]
  exact ⟨getD_lset_same there, others⟩

end

/-- A register of a control node is reached where the host's I/O path is. -/
theorem State.mbReady_of_ioReach {s : State} {f : Nat} (reach : s.ioReach f = true) :
    s.mbReady = true ∧ s.pw.state ≠ .deep ∧ s.pw.state ≠ .off := by
  rw [State.ioReach, Bool.and_eq_true, Bool.and_eq_true, Bool.and_eq_true] at reach
  obtain ⟨⟨-, ready⟩, awake⟩ := reach
  refine ⟨ready, fun h => ?_, fun h => ?_⟩
  · rw [h] at awake
    cases awake
  · rw [h] at awake
    cases awake

theorem registerWrite_freezeThr {s : State} {f : Nat} (reach : s.ioReach f = true) (v : BitVec 64) :
    (registerWrite (.node 1 0xC) 4 v s).mb = { s.mb with freezeThr := clampN 1 65535 (v.toNat % 65536) } := by
  obtain ⟨ready, deep, off⟩ := State.mbReady_of_ioReach reach
  have does : registerWrite (.node 1 0xC) 4 v s = (s.writeWords 0x10000C (le 4 v.toNat) 1).1 :=
    if_pos ⟨by decide, by decide, .inl rfl, by decide, ready, deep, off⟩
  have word : rd (le 4 v.toNat) 0 4 % 65536 = v.toNat % 65536 := by
    rw [rd, List.drop_zero, List.take_of_length_le (length_le ..).le, unle_le]
    exact Nat.mod_mod_of_dvd _ (by decide)
  rw [does, State.writeWords_freezeThr s (length_le ..), word]

section
variable (f : Nat) (v : BitVec 64) (u : State)

/-- A write of 4 B at INT_ENABLE, and one of 2 B there. -/
theorem bar0Write_intEnable : bar0Write f 0x6000014 4 v u = u.modFn f (fun h => { h with intEnable := v.setWidth 8 }) := by
  have word : (v.setWidth 32).setWidth 8 = v.setWidth 8 := BitVec.setWidth_setWidth_of_le v (by decide)
  rw [← word]
  rfl

theorem bar0Write_size : bar0Write f 0x6000014 2 v u = u.badAccess f 0x6000014 v.toNat := rfl

end

/-- Settles O33: each register follows its own rule, and a decoder that is not supported or out of turn keeps Error Not Committed. -/
theorem hostRegistersAreWritten : Obligations.HostRegistersAreWritten := by
  intro s f reach
  have known := State.fn_lt_of_ioReach reach
  have woken := s.beginWake_hp 4
  refine ⟨fun v small => ⟨_, rfl, ?_⟩, fun v => ⟨_, rfl, ?_⟩,
    fun v => ⟨_, rfl, State.ioAccess_badAccess reach (g := bar0Write f 0x6000014 2 v) 0x6000014 v.toNat fun u _ => ?_⟩,
    fun v => ⟨_, rfl, registerWrite_freezeThr reach v⟩,
    fun i d few there free => ⟨fun legal turn => ⟨_, rfl, ?_⟩, fun bad => ⟨_, rfl, ?_⟩⟩⟩
  · rw [registerWrite, State.ioAccess_of_reach reach, cfgWrite, if_pos small, (State.modFn_sets woken known _).1]
  · rw [registerWrite, State.ioAccess_of_reach reach]
    rw [bar0Write_intEnable, (State.modFn_sets woken known _).1]
  · exact bar0Write_size f v u
  · rw [State.ioAccess_of_reach reach]
    exact decoderCommit_commits woken known few there free legal turn
  · rw [State.ioAccess_of_reach reach]
    exact decoderCommit_refuses woken known few there free bad

/-! ### Writes to windows -/

section
variable {s u : State} {x : WindowWrite} (same : u.hp = s.hp) (alone : (s.portAt (portOf x.fn)).stalled = [])
include same alone

theorem State.takeStalled_of_none : u.takeStalled (portOf x.fn) = u := by
  have none : (u.portAt (portOf x.fn)).stalled = [] := by rw [State.portAt, same, ← State.portAt, alone]
  rw [State.takeStalled, none]
  rfl

/-- Where the queue has room the port receives a write. -/
theorem windowWrite_enters (few : (s.portAt (portOf x.fn)).postedUsed + (x.data.length + 63) / 64 ≤ 512) : windowWrite x u = u.windowIn x := by
  have room : ¬(u.portAt (portOf x.fn)).postedFull x = true := by
    rw [State.portAt, same, ← State.portAt, Port.postedFull, alone, decide_eq_false (not_lt.mpr few)]
    decide
  rw [windowWrite, State.takeStalled_of_none same alone, State.windowEnter, if_neg room]

theorem windowWrite_waits (full : 512 < (s.portAt (portOf x.fn)).postedUsed + (x.data.length + 63) / 64) :
    windowWrite x u = u.modPort (portOf x.fn) (fun p => { p with stalled := p.stalled ++ [x] }) := by
  have room : (u.portAt (portOf x.fn)).postedFull x = true := by
    rw [State.portAt, same, ← State.portAt, Port.postedFull, decide_eq_true full, Bool.or_true]
  rw [windowWrite, State.takeStalled_of_none same alone, State.windowEnter, if_pos room]

end

/-- The bytes of a slot of a window. -/
def WindowWrite.unit (x : WindowWrite) : Nat := if x.enqueue then 32 else 64

/-- Whether a write follows the rules of its window. -/
def WindowWrite.good (x : WindowWrite) : Bool :=
  x.enabled && decide (x.offset % x.unit = 0) && decide (x.data.length % x.unit = 0) && decide (x.unit ≤ x.data.length) &&
    decide (x.data.length ≤ 256) && decide (x.offset + x.data.length ≤ 65536)

/-- The entry of the posted-write queue that a write becomes. -/
def WindowWrite.record (x : WindowWrite) : Posted :=
  ⟨x.fn, x.window, x.enqueue, pieces (if x.enqueue then 32 else 16) (x.data.length / if x.enqueue then 32 else 16) x.data⟩

section
variable {u : State} {x : WindowWrite} (viral : (u.fnAt x.fn).viral = false) (thawed : u.isFrozen x.fn = false) (clean : x.poisoned = false)
include viral thawed clean

theorem State.windowIn_good (good : x.good = true) :
    u.windowIn x = (u.count (8 + portOf x.fn) 2).modPort (portOf x.fn) (fun p => { p with posted := p.posted ++ [x.record] }) :=
  (if_neg (Bool.eq_false_iff.mp viral)).trans ((if_neg (Bool.eq_false_iff.mp thawed)).trans ((if_neg (Bool.eq_false_iff.mp clean)).trans
    (if_neg (by show ¬(!x.good) = true; rw [good]; decide))))

theorem State.windowIn_bad (bad : x.good = false) : u.windowIn x = if x.enqueue then (u.count (8 + portOf x.fn) 2).qeMalf x.fn x.window 7 true
    else (u.count (8 + portOf x.fn) 2).ceMalf x.fn x.window 3 true :=
  (if_neg (Bool.eq_false_iff.mp viral)).trans ((if_neg (Bool.eq_false_iff.mp thawed)).trans ((if_neg (Bool.eq_false_iff.mp clean)).trans
    (if_pos (by show (!x.good) = true; rw [bad]; decide))))

end

/-- What counts toward freezing leaves the ports. -/
theorem State.malformed_ports (s : State) (f : Nat) : (s.malformed f).hp.ports = s.hp.ports := by
  have frozen (u : State) : (u.freeze f 4).hp.ports = u.hp.ports := by
    rw [State.freeze, apply_ite State.hp, apply_ite Hp.ports, State.report_hp, State.ports_of_essence (State.essence_cause ..)]
    exact ite_self _
  rw [State.malformed]
  dsimp only
  split_ifs
  · exact frozen _
  · rfl

theorem State.qeMalf_ports (s : State) (f w r : Nat) : (s.qeMalf f w r true).hp.ports = s.hp.ports := by
  rw [State.qeMalf, if_pos rfl, State.malformed_ports, State.reportAgg_hp]

theorem State.qeMalf_malformed (s : State) (f w r : Nat) : (s.qeMalf f w r true).qe.malformed = satAdd (2 ^ 32 - 1) s.qe.malformed 1 := by
  rw [State.qeMalf, if_pos rfl, (State.malformed_keeps (F := (· ∈ [.out, .hp, .mb, .fc])) (.refl _ _) f (by decide) (by decide) (by decide)
    (by decide)).same .qe (by decide), State.reportAgg_qe]

theorem State.ceMalf_ports (s : State) (f w r : Nat) : (s.ceMalf f w r true).hp.ports = s.hp.ports := by
  rw [State.ceMalf, if_pos rfl, State.malformed_ports, State.reportAgg_hp]

theorem State.ceMalf_malformed (s : State) (f w r : Nat) : (s.ceMalf f w r true).ce.malformed = satAdd (2 ^ 32 - 1) s.ce.malformed 1 := by
  rw [State.ceMalf, if_pos rfl, (State.malformed_keeps (F := (· ∈ [.out, .hp, .mb, .fc])) (.refl _ _) f (by decide) (by decide) (by decide)
    (by decide)).same .ce (by decide), State.reportAgg_ce]

/-- Settles O35: with room a write joins the queue or is counted as malformed, without it the host keeps the write. -/
theorem windowWritesArePosted : Obligations.WindowWritesArePosted := by
  intro s f w o d sound reach viral thawed alone short
  have hp := s.beginWake_hp 4
  have viral' : ((s.beginWake 4).fnAt f).viral = false := by rw [State.fnAt_of_hp hp, viral]
  have thawed' : (s.beginWake 4).isFrozen f = false := by rw [State.isFrozen, s.beginWake_mb 4]; exact thawed
  have known : portOf f < s.hp.ports.length := by
    have few := State.fn_lt_of_ioReach reach
    rw [sound.fns] at few
    rw [sound.ports, portOf]
    omega
  have posts {u : State} (ports : u.hp.ports = s.hp.ports) (g : Port → Port) : (u.modPort (portOf f) g).portAt (portOf f) = g (s.portAt (portOf f)) :=
    (u.portAt_modPort_same g (ports ▸ known)).trans (by rw [State.portAt, ports, State.portAt])
  refine ⟨fun room => ?_, fun full => ⟨_, rfl, ?_⟩⟩
  · have few : (s.portAt (portOf f)).postedUsed + (d.length + 63) / 64 ≤ 512 := by omega
    have enters (e : Bool) : s.ioAccess f (windowWrite ⟨e, f, w, o, d, true, false⟩) = (s.beginWake 4).windowIn ⟨e, f, w, o, d, true, false⟩ := by
      rw [State.ioAccess_of_reach reach]
      exact windowWrite_enters (x := ⟨e, f, w, o, d, true, false⟩) hp alone few
    have good (e : Bool) (a : o % (if e then 32 else 64) = 0) (m : d.length % (if e then 32 else 64) = 0) (one : (if e then 32 else 64) ≤ d.length)
        (fits : o + d.length ≤ 65536) : (WindowWrite.good ⟨e, f, w, o, d, true, false⟩) = true := by
      simp only [WindowWrite.good, WindowWrite.unit, a, m, one, short, fits, decide_true, Bool.and_self]
    have bad (e : Bool) (a : o % (if e then 32 else 64) ≠ 0) : (WindowWrite.good ⟨e, f, w, o, d, true, false⟩) = false := by
      simp only [WindowWrite.good, WindowWrite.unit, a, decide_false, Bool.and_false, Bool.false_and]
    refine ⟨fun a m one fits => ⟨_, rfl, ?_⟩, fun a m one fits => ⟨_, rfl, ?_⟩, fun a => ⟨_, rfl, ?_⟩, fun a => ⟨_, rfl, ?_⟩⟩
    · rw [enters true, State.windowIn_good viral' thawed' rfl (good true a m one fits), posts (congrArg Hp.ports ((State.count_hp ..).trans hp))]
      rfl
    · rw [enters false, State.windowIn_good viral' thawed' rfl (good false a m one fits), posts (congrArg Hp.ports ((State.count_hp ..).trans hp))]
      rfl
    · rw [enters true, State.windowIn_bad viral' thawed' rfl (bad true a), if_pos rfl, State.portAt, State.qeMalf_ports, State.count_hp, hp,
        State.qeMalf_malformed, State.count_qe, s.beginWake_qe 4]
      exact ⟨rfl, rfl⟩
    · rw [enters false, State.windowIn_bad viral' thawed' rfl (bad false a), if_neg Bool.false_ne_true, State.portAt, State.ceMalf_ports,
        State.count_hp, hp, State.ceMalf_malformed, State.count_ce, s.beginWake_ce 4]
      exact ⟨rfl, rfl⟩
  · rw [State.ioAccess_of_reach reach, windowWrite_waits (x := ⟨true, f, w, o, d, true, false⟩) hp alone full, posts (congrArg Hp.ports hp), alone]
    exact ⟨rfl, rfl, s.beginWake_qe 4⟩

end Sys2Proof.Machine
end

section
/-! PROOFS. Resets of a function, viral, and link security (02 R89 to R92, R97, R100 to R102). -/

set_option Elab.async false

namespace Sys2Proof.Machine
open Sys2Proof

/-! ### Resets of a function -/

theorem HostFn.intEnable_of_bare {x y : HostFn} (h : x.bare = y.bare) : x.intEnable = y.intEnable := (congrArg HostFn.intEnable h :)

theorem HostFn.viral_of_bare {x y : HostFn} (h : x.bare = y.bare) : x.viral = y.viral := (congrArg HostFn.viral h :)

theorem HostFn.decoders_of_bare {x y : HostFn} (h : x.bare = y.bare) : x.decoders = y.decoders := (congrArg HostFn.decoders h :)

theorem HostFn.bare_clearIo (h : HostFn) : h.clearIo.bare = h.bare.clearIo.bare := by
  have ring : (h.fcr.map Fcr.essence).map Fcr.essence = h.fcr.map Fcr.essence := by rw [Option.map_map]; rfl
  simp only [HostFn.bare, HostFn.essence, HostFn.clearIo, ring]

/-- A function after CXL Reset (02 R92, R97). -/
def HostFn.cxlReset (h : HostFn) : HostFn :=
  { h with decoders := List.replicate 8 Decoder.reset, snoopOff := true, viral := false, held := [], withheld := []
           ideOn := h.ideOn && !h.ideOff }

section
variable {s : State} (quiet : s.Quiet) (f : Nat)
include quiet

theorem keepsLinks_functionReset : (s.modFn f (HostFn.clearIo ∘ HostFn.clearFcr)).KeepsLinks (functionReset f s) := by
  have rings := (State.keepsLinks_clearRings quiet f false).modFn f HostFn.bare_clearIo
  rw [State.modFn_modFn] at rings
  have held := ((s.clearRings f false).modFn f HostFn.clearIo).keepsLinks_modFn f (c := fun h => { h with heldW := [] }) fun _ => rfl
  delta functionReset
  exact rings.trans (held.trans (State.keepsLinks_schedSync _))

omit quiet in
/-- What goes on once a function can send again. -/
theorem State.keepsLinks_flushed (u : State) : u.KeepsLinks ((u.flushVectors f).flushWrites f).schedSync :=
  .trans (.of_essence (by rw [State.essence_flushWrites, State.essence_flushVectors])) (State.keepsLinks_schedSync _)

theorem keepsLinks_cxlReset : (s.modFn f HostFn.cxlReset).KeepsLinks (cxlReset f s) := by
  have gone := State.keepsLinks_snoopsGone ((State.quiet_modFn f HostFn.cxlReset).mpr quiet) f
  delta Machine.cxlReset
  exact gone.trans (State.keepsLinks_flushed f _)

end

/-- What a reset of a function does to it. -/
theorem functionReset_clears {s u : State} {f : Nat} (same : u.hp = s.hp) (known : f < s.hp.fns.length) (quiet : u.Quiet) :
    ((functionReset f u).fnAt f).bme = false ∧ ((functionReset f u).fnAt f).fcr = none ∧ ((functionReset f u).fnAt f).intEnable = 0 ∧
      ((functionReset f u).fnAt f).link = (s.fnAt f).link := by
  have keeps := keepsLinks_functionReset quiet f
  obtain ⟨set, -⟩ := State.modFn_sets same known (HostFn.clearIo ∘ HostFn.clearFcr)
  exact ⟨by rw [keeps.bme, set]; rfl, keeps.fcr_none (by rw [set]; rfl), by rw [HostFn.intEnable_of_bare (keeps.fns f), set]; rfl,
    by rw [keeps.link, set]; rfl⟩

theorem cxlReset_clears {s u : State} {f : Nat} (same : u.hp = s.hp) (known : f < s.hp.fns.length) (quiet : u.Quiet) :
    ((cxlReset f u).fnAt f).viral = false ∧ ((cxlReset f u).fnAt f).decoders = List.replicate 8 Decoder.reset ∧
      ((cxlReset f u).fnAt f).link = (s.fnAt f).link := by
  have keeps := keepsLinks_cxlReset quiet f
  obtain ⟨set, -⟩ := State.modFn_sets same known HostFn.cxlReset
  exact ⟨by rw [HostFn.viral_of_bare (keeps.fns f), set]; rfl, by rw [HostFn.decoders_of_bare (keeps.fns f), set]; rfl,
    by rw [keeps.link, set]; rfl⟩

/-! ### Viral, link security and flit errors -/

section
variable {s : State} {f : Nat}

theorem HostFn.viral_of_essence {x y : HostFn} (h : x.essence = y.essence) : x.viral = y.viral := (congrArg HostFn.viral h :)

theorem HostFn.ideOff_of_essence {x y : HostFn} (h : x.essence = y.essence) : x.ideOff = y.ideOff := (congrArg HostFn.ideOff h :)

/-- A function that exists goes viral; of what its registers say nothing else changes. -/
theorem State.goViral_fnAt (known : s.fnExists f = true) : ((s.goViral f).fnAt f).essence = { s.fnAt f with viral := true }.essence := by
  rw [State.goViral]
  split_ifs with first
  · rw [State.fnAt_of_hp (State.report_hp ..), State.fnAt_of_essence (State.essence_cause ..), State.fnAt_of_essence (State.essence_emit ..),
      s.fnAt_modFn_same _ (s.fn_lt known)]
  · have already : (s.fnAt f).viral = true := by
      rw [State.fnExists] at known
      simpa [known] using first
    rw [← already]

theorem State.goViral_reports (s : State) (f : Nat) : ∃ l, (s.goViral f).fc.reports = s.fc.reports ++ l := by
  rw [State.goViral]
  split_ifs
  · rw [State.report_reports, State.fc_of_essence (State.essence_cause ..), State.fc_of_essence (State.essence_emit ..)]
    exact ⟨_, rfl⟩
  · exact ⟨[], (List.append_nil _).symm⟩

/-- What a host or a link does that makes a function viral. -/
theorem goViral_viral (known : s.fnExists f = true) : (((s.goViral f).schedSync).fnAt f).viral = true := by
  rw [State.schedSync_fnAt, HostFn.viral_of_essence (State.goViral_fnAt known)]

theorem ideMacFailure_viral (known : s.fnExists f = true) (up : s.linkL0 f = true) (on : (s.fnAt f).ideOn = true) (intact : (s.fnAt f).ideOff = false) :
    ((ideMacFailure f s).fnAt f).viral = true ∧ ((ideMacFailure f s).fnAt f).ideOff = true ∧
      s.Reported (ideMacFailure f s) (hpIdeFail (portOf f)) := by
  have does : ideMacFailure f s = (((s.modFn f (fun h => { h with ideOff := true })).report (hpIdeFail (portOf f)) f (some f)).goViral f).schedSync :=
    if_neg (by rw [on, intact, up]; decide)
  have set := s.fnAt_modFn_same (fun h => { h with ideOff := true }) (s.fn_lt known)
  have exist : ((s.modFn f (fun h => { h with ideOff := true })).report (hpIdeFail (portOf f)) f (some f)).fnExists f = true := by
    rw [State.fnExists, State.fnAt_of_hp (State.report_hp ..), set]
    exact known
  obtain ⟨l, reports⟩ := State.goViral_reports ((s.modFn f (fun h => { h with ideOff := true })).report (hpIdeFail (portOf f)) f (some f)) f
  have viral := State.goViral_fnAt exist
  rw [does, State.schedSync_fnAt]
  refine ⟨HostFn.viral_of_essence viral, (HostFn.ideOff_of_essence viral).trans ?_, ?_⟩
  · rw [State.fnAt_of_hp (State.report_hp ..), set]
  · rw [State.report_reports, List.append_assoc] at reports
    exact ⟨_, _, (congrArg Fc.reports ((State.schedSync_parts _).same .fc (by decide))).trans reports,
      List.mem_append_left _ (List.mem_singleton_self _), State.faultMsg_source ..⟩

theorem flitError_counts (known : s.fnExists f = true) (up : s.linkL0 f = true) {ts : List Nat}
    (times : ts = (s.fnAt f).flitTimes.filter (fun x => decide (s.now < x + 1000000)) ++ [s.now]) :
    s.Sent (flitError f s) (.errCor f) ∧ (64 < ts.length → s.Reported (flitError f s) (hpLinkCorrected (portOf f))) ∧
      (ts.length ≤ 64 → (flitError f s).fc = s.fc ∧ ((flitError f s).fnAt f).flitTimes = ts) := by
  generalize noted : ((s.modFn f (fun h => { h with
      flitTimes := if decide (64 < ts.length) then [] else ts, aerCor := h.aerCor ||| 1 })).emit (.errCor f)).count (8 + portOf f) 5 = u
  have does : flitError f s = if decide (64 < ts.length) then u.report (hpLinkCorrected (portOf f)) f (some f) else u := by
    rw [← noted, times]
    exact if_neg (by rw [up]; decide)
  have out : u.out = s.out ++ [.errCor f] := by rw [← noted, State.count_out]; rfl
  have fc : u.fc = s.fc := by rw [← noted, State.count_fc]; rfl
  rw [does]
  refine ⟨⟨_, by rw [apply_ite State.out, State.report_out, ite_self, out], List.mem_singleton_self _⟩, fun many => ?_, fun few => ?_⟩
  · rw [if_pos (decide_eq_true many)]
    exact s.reported_report fc ..
  · have not : ¬decide (64 < ts.length) = true := by simpa using few
    rw [if_neg not, ← noted, State.fnAt_of_hp (State.count_hp ..)]
    rw [if_neg not] at noted ⊢
    refine ⟨by rw [noted, fc], congrArg HostFn.flitTimes (s.fnAt_modFn_same _ (s.fn_lt known))⟩

end

/-- Settles O37: resets clear what they name and keep the link; a MAC failure or the host makes a function viral; SPDM sets keys once authenticated. -/
theorem functionsResetAndGoViral : Obligations.FunctionsResetAndGoViral := by
  refine ⟨fun s f quiet reach => ?_, fun s f known up => ?_, fun s f reach => ?_⟩
  · have woken := s.beginWake_hp 4
    have quiet' : (s.beginWake 4).Quiet := quiet.congr (s.beginWake_ce 4) (by rw [s.beginWake_qe 4]) (by rw [s.beginWake_mb 4]) (by rw [s.beginWake_mb 4])
    refine ⟨⟨_, rfl, ?_⟩, ⟨_, rfl, ?_⟩⟩ <;> rw [State.ioAccess_of_reach reach]
    · exact functionReset_clears woken (State.fn_lt_of_ioReach reach) quiet'
    · exact cxlReset_clears woken (State.fn_lt_of_ioReach reach) quiet'
  · refine ⟨⟨_, rfl, ?_⟩, fun on intact => ⟨_, rfl, ideMacFailure_viral known up on intact⟩, fun ts times => ⟨_, rfl, flitError_counts known up times⟩⟩
    rw [hostViral, if_pos up]
    exact goViral_viral known
  · have woken := s.beginWake_hp 4
    have out : (s.beginWake 4).out = s.out := (State.beginWake_keeps (F := (· ∈ [.pw])) (.refl _ s) 4 (by decide)).same .out (by decide)
    have emitted (m : SpdmMsg) : ((s.beginWake 4).emit (.doe f m)).hp = s.hp := woken
    refine ⟨fun v two => ⟨_, rfl, ?_⟩, fun known intact => ⟨_, rfl, ?_⟩, fun none => ⟨_, rfl, ?_⟩⟩ <;> rw [State.ioAccess_of_reach reach, spdm]
    · rw [if_pos two, (State.modFn_sets (emitted _) (State.fn_lt_of_ioReach reach) _).1]
      exact ⟨congrArg (· ++ _) out, rfl, rfl⟩
    · rw [State.fnAt_of_hp woken, Option.isNone_eq_false_iff.mpr known, intact, Bool.and_false, if_neg (by decide),
        (State.modFn_sets (emitted _) (State.fn_lt_of_ioReach reach) _).1]
      exact ⟨rfl, congrArg (· ++ _) out⟩
    · rw [State.fnAt_of_hp woken, none, if_pos (by rfl)]
      exact woken

end Sys2Proof.Machine
end

section
/-! PROOFS. How a fetched line comes back, and the events of the near store (01 R43; 04 R126 to R159; 07 R234, R243; 08 R285, R286). -/

set_option Elab.async false

namespace Sys2Proof.Machine
open Sys2Proof

/-! ### Fetches -/

theorem State.setStage_fetchOf {s : State} {l : Nat} {f : Fetch} (pending : s.fetchOf l = some f) (g : FetchStage) :
    (s.setStage l g).fetchOf l = some { f with stage := g } :=
  find?_map_found (q := fun x : Fetch => x.line == l) (fun x => { x with stage := g }) (fun _ => rfl) pending

theorem State.dropFetch_fetchOf (s : State) (l : Nat) : (s.dropFetch l).fetchOf l = none := by
  refine List.find?_eq_none.mpr fun x mem => ?_
  have other := (List.mem_filter.mp mem).2
  simpa using other

theorem State.finishFetch_fetchOf (s : State) (l : Nat) (d : Line) (poison install : Bool) :
    (s.finishFetch l d poison install).fetchOf l = none := by
  have yes : true = true := rfl
  have served (t : State) (h : Keeps (fun q => (q != .rr) = true) (s.dropFetch l) t) : t.fetchOf l = none :=
    (State.fetchOf_congr (h.same .rr (by decide)) l).trans (s.dropFetch_fetchOf l)
  have installed (keep : Bool) (e : NsLine) : Keeps (fun q => (q != .rr) = true) (s.dropFetch l)
      (if keep then (s.dropFetch l).nsInstall l e else s.dropFetch l) :=
    .ite (fun _ => State.nsInstall_keeps (.refl _ _) l e) (fun _ => .refl _ _)
  rw [State.finishFetch]
  split
  · assumption
  · dsimp only
    split
    · exact served _ (State.serveWaiters_keeps (.refl _ _) _ _ _ _ _ _)
    · exact served _ (State.serveWaiters_keeps (installed _ _) _ _ _ _ _ _)

/-- With room in the victim buffer a line that arrives ends its fetch. -/
theorem State.arrive_fetchOf {s : State} (room : s.ns.victims.length < 64) (l : Nat) (d : Line) (poison : Bool) :
    (s.arrive l d poison).fetchOf l = none := by
  have few : (s.quadVictims l).length < 64 := lt_of_le_of_lt (List.length_filter_le ..) room
  have waits : s.roomWaits l = false := by
    rw [State.roomWaits]
    split
    · rw [State.needsRoom, decide_eq_false (not_le.mpr few), Bool.and_false, Bool.false_and, Bool.and_false]
    · rfl
  rw [State.arrive, waits, if_neg (by decide)]
  exact s.finishFetch_fetchOf ..

section
variable {s : State} {f : Fetch} {n off : Nat} {r : Region} (pending : s.fetchOf f.line = some f)
  (where_ : s.lineRegion f.line = some (n, r, off)) (direct : r.tier = 0)
include where_ direct

theorem State.fetchLoc_direct (env : ReadEnv) (w : Nat) : (s.upset env).fetchLoc f.line w = (s.upset env, some (r, r.loc r.data off)) := by
  have same : (s.upset env).lineRegion f.line = some (n, r, off) := where_
  rw [State.fetchLoc, same]
  exact if_pos direct

include pending

theorem dramReadReturn_rereads {env : ReadEnv} (waits : f.stage = .waiting) (issued : s.idQueued f.id = false)
    (reads : s.readable f.copy (r.loc r.data off).cla = true) (runs : s.holding f.copy = false)
    (bad : ((s.upset env).decodeCopy env (r.loc r.data off) r.scramble f.copy).1 = .addressError) :
    (dramReadReturn f.line env s).fetchOf f.line = some { f with stage := .reread } := by
  have open_ : ((s.upset env).readable f.copy (r.loc r.data off).cla &&
      !((s.upset env).holding f.copy && (r.loc r.data off).row.isSome)) = true :=
    (congrArg₂ (fun x y => x && !(y && (r.loc r.data off).row.isSome)) reads runs : _)
  have does : dramReadReturn f.line env s = ((s.upset env).noteRead env (readBy (fetchWho f)) (r.loc r.data off) r.scramble f.copy
      ((s.upset env).decodeCopy env (r.loc r.data off) r.scramble f.copy)).setStage f.line .reread := by
    rw [dramReadReturn, pending]
    refine (if_neg fun x => x.elim (absurd waits) fun y => absurd (issued.symm.trans y) (by decide)).trans ?_
    dsimp only
    rw [State.fetchLoc_direct where_ direct]
    exact (if_pos open_).trans (if_pos bad)
  have noted := State.noteRead_keeps (F := (· ∈ [.lp, .mc, .fc, .pm])) (.refl _ (s.upset env)) env (readBy (fetchWho f)) (r.loc r.data off) r.scramble
    f.copy ((s.upset env).decodeCopy env (r.loc r.data off) r.scramble f.copy) (by decide) (by decide) (by decide) (by decide)
  rw [does]
  exact State.setStage_fetchOf ((State.fetchOf_congr (noted.same .rr (by decide)) f.line).trans pending) .reread

theorem addressErrorReread_repairs {env : ReadEnv} (again : f.stage = .reread)
    (bad : ((s.upset env).decodeCopy env (r.loc r.data off) r.scramble f.copy).1.good = false) :
    ∃ d, (addressErrorReread f.line env s).fetchOf f.line = some { f with stage := .repair false true d } := by
  have does : addressErrorReread f.line env s = (s.upset env).setStage f.line (.repair false true
      (openLine ((s.upset env).keyFor (r.loc r.data off).cla) f.copy (r.loc r.data off).cla r.scramble
        ((s.upset env).decodeCopy env (r.loc r.data off) r.scramble f.copy).2).data) := by
    rw [addressErrorReread, pending]
    refine (if_neg (not_not_intro again)).trans ?_
    dsimp only
    rw [State.fetchLoc_direct where_ direct]
    exact if_neg (Bool.eq_false_iff.mp bad)
  exact ⟨_, does ▸ State.setStage_fetchOf (s := s.upset env) pending _⟩

theorem lineRepair_ends {env : ReadEnv} {tag addr : Bool} {d : Line} (room : s.ns.victims.length < 64) (stage : f.stage = .repair tag addr d) :
    (lineRepair f.line env s).fetchOf f.line = none := by
  have repaired := State.repair_keeps (F := (· ∈ [.dram, .lp, .sx, .mc, .fc, .pm])) (.refl _ (s.upset env)) env (readBy (fetchWho f))
    (r.loc r.data off) r.scramble f.copy (badCopy tag addr d) (by decide) (by decide) (by decide) (by decide) (by decide) (by decide)
  rw [lineRepair, pending]
  dsimp only
  rw [stage]
  dsimp only
  rw [State.fetchLoc_direct where_ direct]
  exact State.arrive_fetchOf ((congrArg (fun x => x.victims.length) (repaired.same .ns (by decide))).trans_lt room) ..

end

/-- Settles O42: each answer of the array moves the fetch to its next stage, and what delivers the line ends it. -/
theorem fetchedLinesComeBack : Obligations.FetchedLinesComeBack := by
  refine ⟨fun s f n off r pending waits issued region direct reads runs bad =>
      ⟨_, rfl, dramReadReturn_rereads pending region direct waits issued reads runs bad⟩,
    fun s f n off r pending again region direct bad => ?_,
    fun s f env tag addr d n off r room pending stage region direct => ⟨_, rfl, lineRepair_ends pending region direct room stage⟩,
    fun s f d p c room pending stage => ⟨_, rfl, ?_⟩⟩
  · obtain ⟨d, staged⟩ := addressErrorReread_repairs (env := ⟨[], []⟩) pending region direct again bad
    exact ⟨_, d, rfl, staged⟩
  · rw [specVerifyResult, pending]
    dsimp only
    rw [stage]
    exact State.arrive_fetchOf room ..

/-! ### Victims, snoops, tags and way groups -/

section
variable {s : State} {l : Nat} {v : Victim}

/-- Where no miss waits for a victim buffer entry, none goes on. -/
theorem State.roomFreed_of_none {s : State} (none : ∀ x ∈ s.rr.fetches, ∀ d p i, x.stage ≠ .room d p i) (q : Nat) : s.roomFreed q = s := by
  have still (fs : List Fetch) (all : ∀ x ∈ fs, ∀ d p i, x.stage ≠ .room d p i) : fs.foldl (fun s f =>
      match f.stage with
      | .room d poison install => if s.roomWaits f.line then s else s.finishFetch f.line d poison install
      | _ => s) s = s := by
    induction fs with
    | nil => rfl
    | cons f fs ih =>
      obtain ⟨here, rest⟩ := List.forall_mem_cons.mp all
      rw [List.foldl_cons]
      split
      · next stage => exact absurd stage (here _ _ _)
      · exact ih rest
  exact still _ fun x mem => none x (List.mem_of_mem_filter mem)

theorem State.nsBack_ns_rr (s : State) (l : Nat) (e : NsLine) : (s.nsBack l e).ns = s.ns ∧ (s.nsBack l e).rr = s.rr := by
  have yes : true = true := rfl
  have keeps := State.nsBack_keeps (F := fun q => (q != .ns && q != .rr) = true) (.refl _ s) l e
  exact ⟨keeps.same .ns (by decide), keeps.same .rr (by decide)⟩

theorem writebackAck_releases (none : ∀ x ∈ s.rr.fetches, ∀ d p i, x.stage ≠ .room d p i)
    (victim : s.ns.victims.find? (fun x => x.line == l && x.ent.dirty) = some v) :
    (writebackAck l s).ns.victims = s.ns.victims.eraseP (fun x => x.line == l && x.ent.dirty) := by
  have acked : s.ackBack l = (s.dropVictim (fun x => x.line == l && x.ent.dirty)).nsBack l v.ent := by rw [State.ackBack, victim]
  obtain ⟨ns, rr⟩ := (s.dropVictim (fun x => x.line == l && x.ent.dirty)).nsBack_ns_rr l v.ent
  rw [writebackAck, acked, State.roomFreed_of_none (by rw [rr]; exact none), ns]
  rfl

theorem evictionOfferAnswer_releases (none : ∀ x ∈ s.rr.fetches, ∀ d p i, x.stage ≠ .room d p i)
    (victim : s.ns.victims.find? (fun x => x.line == l && x.offer) = some v) (untouched : v.hit = false) :
    (evictionOfferAnswer l s).ns.victims = s.ns.victims.eraseP (fun x => x.line == l && x.offer) := by
  have yes : true = true := rfl
  have keeps := State.t1Page_keeps (F := fun q => (q != .ns && q != .rr) = true) (.refl _ (s.dropVictim (fun x => x.line == l && x.offer))) l
  have answered : (s.answerOffer l).ns = (s.dropVictim (fun x => x.line == l && x.offer)).ns ∧ (s.answerOffer l).rr = s.rr := by
    have rr : ((s.dropVictim (fun x => x.line == l && x.offer)).t1Page l).1.rr = s.rr := keeps.same .rr (by decide)
    rw [← keeps.same .ns (by decide), ← rr, State.answerOffer, victim]
    dsimp only
    rw [untouched, if_neg Bool.false_ne_true]
    split
    · split_ifs
      · rw [State.count_ns, State.count_ns, State.count_rr, State.count_rr]
        exact ⟨rfl, rfl⟩
      · exact ⟨State.count_ns .., State.count_rr ..⟩
    · exact ⟨State.count_ns .., State.count_rr ..⟩
  rw [evictionOfferAnswer, State.roomFreed_of_none (by rw [answered.2]; exact none), answered.1]
  rfl

end

theorem backInvalidateResponse_ends {s : State} {f l : Nat} (sound : s.Sound) (quiet : s.Quiet) (host : f < 4)
    (snoop : (f, l) ∈ (s.portAt (portOf f)).snoops) :
    ((backInvalidateResponse f l s).portAt (portOf f)).snoops = (s.portAt (portOf f)).snoops.erase (f, l) := by
  have known : portOf f < s.hp.ports.length := by rw [sound.ports, portOf]; omega
  have quiet' : (s.modPort (portOf f) (fun p => { p with snoops := p.snoops.erase (f, l) })).Quiet := quiet.congr rfl rfl rfl rfl
  rw [backInvalidateResponse, if_pos snoop, quiet'.resume, s.portAt_modPort_same _ known]

/-- A tag that is lost: where it lies is noted, and its entry is gone. -/
theorem State.tagLost_sets {u : State} {q set way : Nat} (there : set < 2 ^ 14) (small : way < 16) (known : q < u.ns.errLoc.length) :
    (u.tagLost q set way).ns.errLoc.getD q 0 = set + way * 2 ^ 14 + 3 * 2 ^ 18 ∧
      oget (u.tagLost q set way).ns.lines (nsKey q set way) = none := by
  rw [State.tagLost, State.nsErrAt, Nat.mod_eq_of_lt there, Nat.mod_eq_of_lt small]
  exact ⟨getD_lset_same known, oget_oset_same u.ns.lines (nsKey q set way) none⟩

theorem State.wayLive_of_ways {s u : State} (same : u.ns.ways = s.ns.ways) (way : Nat) : u.wayLive way = s.wayLive way := by
  rw [State.wayLive, same, State.wayLive]

/-- The tags of a quadrant have been scrubbed. -/
def State.tagsScrubbed (s : State) (q : Nat) : State := { s with ns := { s.ns with tagAt := lset s.ns.tagAt q s.now } }

theorem State.tagsScrubbed_rest (s : State) (q : Nat) : (s.tagsScrubbed q).ns.ways = s.ns.ways ∧ (s.tagsScrubbed q).ns.errLoc = s.ns.errLoc ∧
    (s.tagsScrubbed q).fc = s.fc ∧ (s.tagsScrubbed q).now = s.now := ⟨rfl, rfl, rfl, rfl⟩

theorem nsTagScrub_eq {s : State} {q : Nat} (bad : List (Nat × Nat)) (scrubs : ¬(4 ≤ q ∨ (!s.awake) = true)) :
    nsTagScrub q bad s = bad.foldl (fun s x =>
      if s.wayLive (x.2 % 16) then (s.tagLost q x.1 x.2).report (nsTagLost q) (x.1 % 2 ^ 14 + x.2 % 16 * 2 ^ 14) else s)
    ((s.advance (s.ns.tagAt.getD q 0 + s.ns.tagScrub.getD q 100 * 1000000)).tagsScrubbed q) := if_neg scrubs

theorem State.scrubTag_live {u : State} {q set way : Nat} (live : u.wayLive (way % 16) = true) :
    [(set, way)].foldl (fun s x =>
      if s.wayLive (x.2 % 16) then (s.tagLost q x.1 x.2).report (nsTagLost q) (x.1 % 2 ^ 14 + x.2 % 16 * 2 ^ 14) else s) u =
    (u.tagLost q set way).report (nsTagLost q) (set % 2 ^ 14 + way % 16 * 2 ^ 14) := if_pos live

theorem nsTagScrub_reports {s : State} {q set way : Nat} (quadrant : q < 4) (awake : s.awake = true) (there : set < 2 ^ 14) (small : way < 16)
    (live : s.wayLive way = true) (known : q < s.ns.errLoc.length) :
    (nsTagScrub q [(set, way)] s).ns.errLoc.getD q 0 = set + way * 2 ^ 14 + 3 * 2 ^ 18 ∧ s.Reported (nsTagScrub q [(set, way)] s) (nsTagLost q) ∧
      oget (nsTagScrub q [(set, way)] s).ns.lines (nsKey q set way) = none ∧
      (nsTagScrub q [(set, way)] s).now = max s.now (s.ns.tagAt.getD q 0 + s.ns.tagScrub.getD q 100 * 1000000) := by
  have scrubs : ¬(4 ≤ q ∨ (!s.awake) = true) := by rw [awake]; exact fun x => x.elim (not_le.mpr quadrant) (by decide)
  rw [nsTagScrub_eq _ scrubs]
  generalize s.ns.tagAt.getD q 0 + s.ns.tagScrub.getD q 100 * 1000000 = due
  obtain ⟨ways, locs, fc, now⟩ := (s.advance due).tagsScrubbed_rest q
  rw [s.advance_ns due] at ways locs
  rw [s.advance_fc due] at fc
  rw [s.advance_now due] at now
  rw [State.scrubTag_live (by rw [Nat.mod_eq_of_lt small, State.wayLive_of_ways ways, live])]
  generalize (s.advance due).tagsScrubbed q = u at ways locs fc now ⊢
  obtain ⟨noted, gone⟩ := State.tagLost_sets there small (locs ▸ known : q < u.ns.errLoc.length)
  have keeps := State.tagLost_keeps (F := (· ∈ [.ns])) (.refl _ u) q set way (by decide)
  rw [State.report_ns, State.report_now]
  exact ⟨noted, s.reported_report ((keeps.same .fc (by decide)).trans fc) .., gone, (keeps.same .now (by decide)).trans now⟩

/-! ### Way groups -/

theorem State.drainVictims_ways (l k : Nat) (s : State) : (s.drainVictims l k).ns.ways = s.ns.ways := by
  induction k generalizing s with
  | zero => rfl
  | succ k ih =>
    rw [State.drainVictims, ih, State.ackBack]
    split
    · rfl
    · rw [(State.nsBack_ns_rr ..).1]
      rfl

theorem State.drainEntry_ways (s : State) (g i : Nat) : (s.drainEntry g i).ns.ways = s.ns.ways := by
  rw [State.drainEntry]
  dsimp only
  split
  · rfl
  · split_ifs
    · rw [(State.nsBack_ns_rr ..).1, State.drainVictims_ways]
      rfl
    · rfl

theorem State.waysEnd_ns (s : State) : s.waysEnd.ns = s.ns :=
  (State.waysEnd_keeps (F := (· ∈ [.out, .hp, .mb, .pm])) (.refl _ s) (by decide) (by decide) (by decide) (by decide)).same .ns (by decide)

theorem State.groupsIn_lt {s : State} {w : WayState} {g : Nat} (mem : g ∈ s.groupsIn w) : g < 4 :=
  List.mem_range.mp (List.mem_of_mem_filter mem)

theorem getLsbD_group {g : Nat} (few : g < 4) : (1#4 <<< g).getLsbD g = true := by
  simp [few]

theorem nsWaysDrainDone_gates {s : State} {g : Nat} {rest : List Nat} (first : s.groupsIn .draining = g :: rest) :
    (nsWaysDrainDone s).ns.enabled.getLsbD g = false ∧ (g < s.ns.ways.length → (nsWaysDrainDone s).ns.ways.getD g .on = .off) := by
  have few : g < 4 := State.groupsIn_lt (first ▸ List.mem_cons_self)
  have does : nsWaysDrainDone s = (s.gateGroup g).waysEnd := by rw [nsWaysDrainDone, first]
  rw [does, State.waysEnd_ns]
  delta State.gateGroup
  extract_lets live s1 s2
  have ways : s1.ns.ways = s.ns.ways := foldl_same (fun u : State => u.ns.ways) (fun u e => u.drainEntry_ways g _) live s
  refine ⟨?_, fun known => (getD_lset_same (ways ▸ known) : (lset s1.ns.ways g .off).getD g .on = .off)⟩
  show (s2.ns.enabled &&& ~~~(1#4 <<< g)).getLsbD g = false
  rw [BitVec.getLsbD_and, BitVec.getLsbD_not, getLsbD_group few, Bool.not_true, Bool.and_false, Bool.and_false]

theorem State.wakeGroup_enabled (s : State) (g : Nat) : (s.wakeGroup g).ns.enabled = s.ns.enabled ||| (1#4 <<< g) := rfl

/-- A group that wakes is enabled, and stays so as others wake. -/
theorem State.wakeGroups_enabled {gs : List Nat} {g : Nat} (mem : g ∈ gs) (few : g < 4) (s : State) :
    (gs.foldl (fun s g => s.wakeGroup g) s).ns.enabled.getLsbD g = true := by
  have kept (l : List Nat) (u : State) (on : u.ns.enabled.getLsbD g = true) : (l.foldl (fun s g => s.wakeGroup g) u).ns.enabled.getLsbD g = true := by
    induction l generalizing u with
    | nil => exact on
    | cons k l ih => exact ih _ (by rw [State.wakeGroup_enabled, BitVec.getLsbD_or, on, Bool.true_or])
  obtain ⟨before, after, rfl⟩ := List.append_of_mem mem
  rw [List.foldl_append, List.foldl_cons]
  exact kept after _ (by rw [State.wakeGroup_enabled, BitVec.getLsbD_or, getLsbD_group few, Bool.or_true])

theorem nsWaysEnableDone_enables {s : State} (some : s.groupsIn .waking ≠ []) {g : Nat} (mem : g ∈ s.groupsIn .waking) :
    (nsWaysEnableDone s).ns.enabled.getLsbD g = true := by
  have does : nsWaysEnableDone s = ((s.groupsIn .waking).foldl (fun s g => s.wakeGroup g) s).waysEnd := by
    rw [nsWaysEnableDone]
    split
    · next none => exact absurd none some
    · rfl
  rw [does, State.waysEnd_ns]
  exact State.wakeGroups_enabled mem (State.groupsIn_lt mem) s

/-- Settles O43: what an answer ends is gone, a tag that is lost is reported, and the walk of a group ends with the group off or on. -/
theorem nearStoreEventsEnd : Obligations.NearStoreEventsEnd :=
  ⟨fun _ _ _ none victim => ⟨_, rfl, writebackAck_releases none victim⟩,
    fun _ _ _ none victim untouched => ⟨_, rfl, evictionOfferAnswer_releases none victim untouched⟩,
    fun _ _ _ sound quiet host snoop => ⟨_, rfl, backInvalidateResponse_ends sound quiet host snoop⟩,
    fun _ _ _ _ quadrant awake there small live known => ⟨_, rfl, nsTagScrub_reports quadrant awake there small live known⟩,
    fun _ _ _ first => ⟨_, rfl, nsWaysDrainDone_gates first⟩, fun _ some => ⟨_, rfl, fun _ mem => nsWaysEnableDone_enables some mem⟩⟩

end Sys2Proof.Machine
end

section
/-! PROOFS. Reset, start-up and power states (02 R56; 17 R597 to R630). -/

set_option Elab.async false

namespace Sys2Proof.Machine
open Sys2Proof

/-- The functions after POR_N has risen: the four of the package, and which of them the straps say exist. -/
theorem State.porRelease_fns (s : State) (st : BitVec 6) (held : s.pw.cold = .held) :
    (porRelease st s).pw.cold = .step 0 ∧ (porRelease st s).hp.straps = st ∧
      (porRelease st s).hp.fns = (List.range 4).map (fun f => { s.fnAt f with exist := decide (f % 2 = 0) || st.getLsbD (f / 2) }) := by
  unfold porRelease
  rw [if_neg (by simp [held])]
  dsimp only
  split <;> exact ⟨rfl, rfl, rfl⟩

/-- The functions that exist after POR_N has risen (02 R56). -/
theorem State.porRelease_fnExists (s : State) (st : BitVec 6) (held : s.pw.cold = .held) :
    (porRelease st s).fnExists 0 = true ∧ (porRelease st s).fnExists 1 = st.getLsbD 0 ∧
      (porRelease st s).fnExists 2 = true ∧ (porRelease st s).fnExists 3 = st.getLsbD 1 := by
  obtain ⟨-, -, fns⟩ := s.porRelease_fns st held
  have at_ (f : Nat) : (porRelease st s).fnExists f = (((List.range 4).map
      (fun f => { s.fnAt f with exist := decide (f % 2 = 0) || st.getLsbD (f / 2) })).getD f HostFn.reset).exist := by
    rw [← fns]; rfl
  simp [at_, List.range_succ]

/-- A step of the cold start that runs to its end. -/
theorem State.coldTo_cold (s : State) (n : Nat) : (s.coldTo n).pw.cold = .step n := rfl

/-- Start-up step 5 leaves the PLLs locked and the start at its next step (17 R623). -/
theorem State.startClocks_sets (s : State) :
    s.startClocks.pw.cold = .step 5 ∧ s.startClocks.ck.sysLock = true ∧ s.startClocks.ck.memLock = true ∧ s.startClocks.now = s.now := by
  refine ⟨rfl, rfl, rfl, rfl⟩

/-- Start-up step 9: media is ready, the SVN has not fallen, and the boot-control record names the running slot (17 R627). -/
theorem State.startDone_sets (s : State) :
    s.startDone.pw.cold = .done ∧ s.fu.svn ≤ s.startDone.fu.svn ∧ s.startDone.mb.bootSlot = s.mb.slot := by
  have kept (u : State) := (u.setDomain_keeps_ck 39 true)
  unfold State.startDone
  dsimp only
  rw [(kept _).same .pw (by decide), (kept _).same .fu (by decide), (kept _).same .mb (by decide)]
  split <;> exact ⟨rfl, le_max_left _ _, rfl⟩

/-- Settles O60: each clause is the one step of the start that it names. -/
theorem startUpGoesStepByStep : Obligations.StartUpGoesStepByStep := by
  refine ⟨fun s => ⟨_, rfl, rfl, rfl, rfl, rfl, rfl, rfl, rfl, rfl, rfl, rfl, rfl, rfl, rfl, rfl⟩, fun s st held => ?_, fun s i => ?_⟩
  · obtain ⟨cold, straps, -⟩ := s.porRelease_fns st held
    exact ⟨_, rfl, cold, straps, s.porRelease_fnExists st held⟩
  have step {n : Nat} {t : State} (at_ : s.pw.cold = .step n) (eq : coldStartStep i s = t) :
      exec (.coldStartStepDone i) s = .next t := congrArg Host.Outcome.next eq
  refine ⟨fun c => ⟨_, step c (by simp only [coldStartStep, c]; rfl), rfl, rfl⟩, fun c => ⟨_, step c (by simp only [coldStartStep, c]; rfl), rfl⟩,
    fun c ok => ⟨_, step c (by simp only [coldStartStep, c, ok, if_true]; rfl), rfl, rfl⟩,
    fun c ok => ⟨_, step c (by simp only [coldStartStep, c, ok, Bool.false_eq_true, if_false]; rfl), rfl⟩,
    fun c ok => ⟨_, step c (by simp only [coldStartStep, c, ok, if_true]; rfl), rfl, rfl⟩,
    fun c ok => ⟨_, step c (by simp only [coldStartStep, c, ok, Bool.false_eq_true, if_false]; rfl), rfl⟩,
    fun c => ⟨_, step c (by simp only [coldStartStep, c]; rfl), ?_⟩, fun c => ⟨_, step c (by simp only [coldStartStep, c]; rfl), rfl⟩,
    fun c idle => ⟨_, step c (by simp only [coldStartStep, c, idle, Bool.false_eq_true, if_false]; rfl), rfl⟩,
    fun c => ⟨_, step c (by simp only [coldStartStep, c]), s.startDone_sets⟩⟩
  obtain ⟨cold, sys, mem, now⟩ := (s.advance s.coreReadyAt).startClocks_sets
  exact ⟨cold, sys, mem, now.trans (s.advance_now _)⟩

/-! ### Power states -/

/-- What makes a device busy, so that it does not go to IDLE, is absent (17 R597). -/
theorem idleEntry_enters {s : State} (run : s.pw.state = .run) (ready : s.mbReady = true) (delay : s.pw.idleDelay ≠ 0)
    (running : s.running = []) (held : s.mb.heldCmds = []) (active : s.mb.sActive = []) (act : s.mb.activating = false)
    (reload : s.mb.reloading = false) (fcr : ∀ h ∈ s.hp.fns, h.fcr = none)
    (walks : ∀ e ∈ oall s.fc.src, ∀ r, e.2.walk ≠ .blocked r) (safe : s.fc.safe = false) :
    (idleEntry s).pw.state = .idle ∧ (idleEntry s).now = max s.now (s.pw.idleAt + s.pw.idleDelay * 1000) := by
  have noRing (f : Nat) : (s.fnAt f).fcr = none := by
    rw [State.fnAt, List.getD_eq_getElem?_getD]
    cases at_ : s.hp.fns[f]? with
    | none => rfl
    | some h => exact fcr h (List.mem_of_getElem? at_)
  have noFetch : s.existing.any (fun f => ((s.fnAt f).fcr.map (fun r => decide (r.fetching ≠ 0))).getD false) = false := by
    simp [noRing]
  unfold idleEntry
  simp only [running, held, active, act, reload, noFetch]
  rw [if_neg (fun busy => ?_)]
  swap
  · simp only [run, ready, delay, safe, ne_eq, not_true_eq_false, Bool.not_true, Bool.false_eq_true, List.isEmpty_nil, Bool.or_self,
      Bool.false_or, List.any_eq_true, false_or, or_false] at busy
    obtain ⟨e, mem, blocked⟩ := busy
    cases w : e.2.walk with
    | blocked r => exact walks e mem r w
    | _ => simp [w] at blocked
  exact ⟨by rw [State.count_pw], by
    rw [State.count_now, (State.setDomain_keeps_ck _ 28 false).same .now (by decide)]; exact s.advance_now _⟩

/-- The links' part of SLEEP changes nothing but host functions. -/
theorem State.sleepLinks_keeps (s : State) : Keeps (· ∈ [.hp]) s
    (s.existing.foldl (fun s f => if s.linkL0 f && (s.fnAt f).aspmL1 then s.modFn f (fun h => { h with link := .l1 }) else s) s) :=
  Keeps.foldl (fun a f k => Keeps.ite (fun _ => k.trans (State.modFn_keeps (.refl _ a) f _ (by decide))) (fun _ => k)) _ (.refl _ s)

theorem powerStateReached_sleeps {s : State} {e : Entry} (entry : s.pw.entry = some e) (step : 7 ≤ e.step) (req : e.wakeReq = none)
    (goal : e.target = 1) : (powerStateReached s).pw.state = .sleep ∧ (powerStateReached s).pw.entry = none ∧
      (powerStateReached s).pw.asleepAt = s.now := by
  unfold powerStateReached
  rw [entry]
  dsimp only
  rw [if_neg (by omega), if_neg (by omega), if_pos goal, req]
  refine ⟨rfl, ?_, ?_⟩ <;> dsimp only [State.withDomains] <;> rw [(State.sleepLinks_keeps _).same .pw (by decide)]

theorem powerStateReached_deep {s : State} {e : Entry} (entry : s.pw.entry = some e) (step : 7 ≤ e.step) (req : e.wakeReq = none)
    (goal : e.target = 2) : (powerStateReached s).pw.state = .deep ∧ (powerStateReached s).pw.entry = none ∧
      (powerStateReached s).ck.naFio = true := by
  have yes : true = true := rfl
  have links (u : State) (f : Nat) : (u.sleepLink f).pw = u.pw :=
    (State.sleepLink_keeps (F := fun q => (q != .pw) = true) (.refl _ u) f).same .pw (by decide)
  unfold powerStateReached
  rw [entry]
  dsimp only
  rw [if_neg (by omega), if_neg (by omega), if_neg (by omega), req]
  refine ⟨rfl, ?_, rfl⟩
  dsimp only [State.withDomains]
  rw [foldl_same State.pw links]

theorem powerStateReached_off {s : State} {e : Entry} (entry : s.pw.entry = some e) (step : 7 ≤ e.step) (goal : e.target = 3) :
    (powerStateReached s).pw.state = .off ∧ (powerStateReached s).sx.key = none ∧ (powerStateReached s).dram = [] := by
  unfold powerStateReached
  rw [entry]
  dsimp only
  rw [if_neg (by omega), if_pos goal]
  exact ⟨rfl, rfl, rfl⟩

theorem drainLimit_discards {s : State} {e : Entry} (entry : s.pw.entry = some e) (deep : e.target = 2) (keeping : e.discard = false)
    (step : e.step < 7) : (drainLimit s).pw.entry = some { e with discard := true } ∧ (drainLimit s).now = max s.now e.limitAt := by
  have kept : ((s.advance e.limitAt).discardQueues).now = (s.advance e.limitAt).now :=
    (State.discardQueues_keeps (F := (· ∈ [.qe, .sc, .ce, .fc, .pm])) (.refl _ _) (by decide) (by decide) (by decide) (by decide)
      (by decide)).same .now (by decide)
  unfold drainLimit
  rw [entry]
  dsimp only
  rw [if_neg (by simp [deep, keeping]; omega)]
  exact ⟨rfl, kept.trans (s.advance_now _)⟩

/-- A wake in SLEEP begins at once (17 R609). -/
theorem State.beginWake_sleep {s : State} (sleep : s.pw.state = .sleep) (cause : Nat) :
    (s.beginWake cause).pw.state = .waking ∧ (s.beginWake cause).pw.wakeCause = cause := by
  unfold State.beginWake
  rw [sleep]
  exact ⟨rfl, rfl⟩

theorem hostWake_wakes {s : State} {f : Nat} (sleep : s.pw.state = .sleep) (known : s.fnExists f = true) (up : s.linkLost f = false)
    (access : Option MemReq) : (hostWake f access s).pw = (s.beginWake 4).pw ∧
      ∀ q, access = some q → ((hostWake f access s).fnAt f).held = (s.fnAt f).held ++ [{ q with fn := f }] := by
  have hp := s.beginWake_hp 4
  unfold hostWake
  rw [if_neg (by simp [known, up]), if_pos (.inl sleep)]
  cases access with
  | none => exact ⟨rfl, fun _ no => nomatch no⟩
  | some q =>
    refine ⟨State.modFn_pw _ _ _, ?_⟩
    rintro _ ⟨⟩
    dsimp only
    rw [State.fnAt_modFn_same _ _ (by rw [hp]; exact s.fn_lt known), State.fnAt_of_hp hp]

/-- No request is held for a function and no link is in L1, so that a wake has nothing to release. -/
def State.NoneWait (s : State) : Prop := ∀ f, (s.fnAt f).held = [] ∧ (s.fnAt f).link ≠ .l1

theorem State.noneWait_of_fns {s : State} (none_ : ∀ h ∈ s.hp.fns, h.held = [] ∧ h.link ≠ .l1) : s.NoneWait := by
  intro f
  rw [State.fnAt, List.getD_eq_getElem?_getD]
  cases at_ : s.hp.fns[f]? with
  | none => exact ⟨rfl, fun no => nomatch no⟩
  | some h => exact none_ h (List.mem_of_getElem? at_)

theorem State.NoneWait.releaseHeld {s : State} (none_ : s.NoneWait) (f : Nat) :
    (s.releaseHeld f).NoneWait ∧ (s.releaseHeld f).pw = s.pw ∧ (s.releaseHeld f).mb = s.mb := by
  unfold State.releaseHeld
  rw [(none_ f).1]
  refine ⟨fun g => ?_, State.modFn_pw .., State.modFn_mb ..⟩
  rw [List.foldl_nil, State.fnAt_modFn]
  split_ifs
  · exact ⟨rfl, (none_ _).2⟩
  · exact none_ g

/-- The part of a wake that goes through the functions, where nothing waits. -/
theorem State.NoneWait.foldl (l : List Nat) {s : State} (none_ : s.NoneWait) :
    (l.foldl (fun s f => if (s.fnAt f).link = .l1 then s.backToL0 f else s.releaseHeld f) s).pw = s.pw ∧
      (l.foldl (fun s f => if (s.fnAt f).link = .l1 then s.backToL0 f else s.releaseHeld f) s).mb = s.mb := by
  induction l generalizing s with
  | nil => exact ⟨rfl, rfl⟩
  | cons f l ih =>
    rw [List.foldl_cons, if_neg (none_ f).2]
    obtain ⟨still, pw, mb⟩ := none_.releaseHeld f
    exact ⟨(ih still).1.trans pw, (ih still).2.trans mb⟩

/-- The end of a wake from SLEEP for which nothing waits (17 R603). -/
theorem State.wakeUp_runs {s : State} {w : Wake} (waking : s.pw.state = .waking) (wake : s.pw.wake = some w) (sleep : w.deep = false)
    (fine : s.pw.coarse = false) (none_ : s.NoneWait) (idle : s.running = []) :
    (s.wakeUp [] []).pw.state = .run ∧ (s.wakeUp [] []).pw.wake = none ∧ (s.wakeUp [] []).mb = s.mb := by
  have exact_ : (s.measured w).2 = false := by rw [State.measured, fine]; rfl
  unfold State.wakeUp
  rw [wake]
  dsimp -zeta only
  rw [if_neg (by simp [waking])]
  extract_lets m d0 d1 el d2 d3 _ d4 d5 _ _ d6 d7 d8 d9 st
  have inSleep : d1 = s := by rw [show d1 = d0 from if_neg (by simp [sleep])]; exact if_neg (by simp [m, exact_])
  have k3 : Keeps (· ∈ [.ce, .mc]) s d3 := by
    have eq : d2 = (s.closeGap m.1 m.2).leaveSelfRefresh := congrArg (fun x => (x.closeGap m.1 m.2).leaveSelfRefresh) inSleep
    show Keeps _ s (List.foldl _ d2 [])
    rw [List.foldl_nil, eq]
    exact State.leaveSelfRefresh_keeps (State.closeGap_keeps (.refl _ s) _ _ (by decide)) (by decide)
  clear_value d3
  have k5 : Keeps (· ∈ [.ck, .qe, .sc, .ce, .fc, .pm]) d4 d5 :=
    State.schedWake_keeps (State.withDomains_keeps (.refl _ d4) _ (by decide)) _ _ (by decide) (by decide) (by decide) (by decide)
      (by decide)
  clear_value d5
  have hp : d6.hp = s.hp := (k5.same .hp (by decide)).trans (k3.same .hp (by decide))
  obtain ⟨pw7, mb7⟩ := State.NoneWait.foldl d6.existing (s := d6) (fun f => by rw [State.fnAt_of_hp hp]; exact none_ f)
  have pw6 : d6.pw = d4.pw := k5.same .pw (by decide)
  have mb6 : d6.mb = s.mb := (k5.same .mb (by decide)).trans (k3.same .mb (by decide))
  have parts : d9.pw = d7.pw ∧ d9.mb = d7.mb := by
    have k8 : Keeps (· ∈ [.fc]) d7 d8 := Keeps.ite (fun _ => State.report_keeps (.refl _ _) _ _ _ (by decide)) (fun _ => .refl _ _)
    have k9 : Keeps (· ∈ [.pm]) d8 d9 :=
      Keeps.ite (fun _ => State.count_keeps (State.count_keeps (.refl _ _) _ _ _ (by decide)) _ _ _ (by decide))
        (fun _ => State.count_keeps (.refl _ _) _ _ _ (by decide))
    exact ⟨(k9.same .pw (by decide)).trans (k8.same .pw (by decide)), (k9.same .mb (by decide)).trans (k8.same .mb (by decide))⟩
  have pw9 : d9.pw = d4.pw := parts.1.trans (pw7.trans pw6)
  have mb9 : d9.mb = s.mb := parts.2.trans (mb7.trans mb6)
  have idle9 : d9.running = [] := by rw [State.running, mb9]; exact idle
  rw [idle9]
  exact ⟨congrArg Pw.state pw9, congrArg Pw.wake pw9, mb9⟩

/-- Settles O59: the states are reached as their entries and wakes say. -/
theorem powerStatesAreReached : Obligations.PowerStatesAreReached := by
  refine ⟨fun s run ready delay running held active act reload fcr walks safe =>
      ⟨_, rfl, idleEntry_enters run ready delay running held active act reload fcr walks safe⟩,
    fun s e entry step req => ⟨fun goal => ⟨_, rfl, powerStateReached_sleeps entry step req goal⟩,
      fun goal => ⟨_, rfl, powerStateReached_deep entry step req goal⟩, fun goal => ⟨_, rfl, powerStateReached_off entry step goal⟩⟩,
    fun s e entry deep keeping step => ⟨_, rfl, drainLimit_discards entry deep keeping step⟩, fun s off => ⟨_, rfl, ?_⟩,
    fun s sleep => ⟨⟨_, rfl, ?_⟩, fun f known up => ⟨⟨_, rfl, ?_⟩, fun q => ⟨_, rfl, ?_⟩⟩⟩,
    fun s w waking wake sleep fine held none_ idle => ⟨_, rfl, ?_⟩⟩
  · rw [wakeN, off]
  · rw [wakeN, sleep]
    exact s.beginWake_sleep sleep 3
  · rw [(hostWake_wakes sleep known up none).1]
    exact s.beginWake_sleep sleep 4
  · obtain ⟨pw, answer⟩ := hostWake_wakes sleep known up (some q)
    exact ⟨by rw [pw]; exact (s.beginWake_sleep sleep 4).1, answer q rfl⟩
  · obtain ⟨run, woke, mb⟩ := State.wakeUp_runs waking wake sleep fine (State.noneWait_of_fns none_) idle
    rw [show wakeDone [] [] s = s.wakeUp [] [] from
      (if_pos ⟨waking, run⟩).trans (State.releaseCmds_of_none (by rw [mb]; exact held))]
    exact ⟨run, woke⟩

end Sys2Proof.Machine
end

section
/-! PROOFS. Fault reports, their ladders and the quiet period (16 R568 to R582). -/

set_option Elab.async false

namespace Sys2Proof.Machine
open Sys2Proof

theorem mem_of_minBy {α : Type} {key : α → Nat} {l : List α} {x : α} (least : minBy key l = some x) : x ∈ l := by
  induction l with
  | nil => exact nomatch least
  | cons y ys ih =>
    unfold minBy at least
    split at least
    · exact List.mem_cons.2 (.inl (Option.some.inj least).symm)
    · next z found =>
      split at least
      · exact List.mem_cons_of_mem _ (ih (found.trans least))
      · exact List.mem_cons.2 (.inl (Option.some.inj least).symm)

/-- What an operation of the keeper's log leaves as it was: the reports, SEQ, the sources, and which positions hold an entry. -/
structure State.KeepsLog (s t : State) : Prop where
  reports : t.fc.reports = s.fc.reports
  seq : t.fc.seq = s.fc.seq
  src : t.fc.src = s.fc.src
  cfg : t.fc.cfg = s.fc.cfg
  mgmt : t.mb.mgmt = s.mb.mgmt
  now : t.now = s.now
  log : ∀ k, (oget t.fc.log k).isSome = (oget s.fc.log k).isSome

namespace State.KeepsLog

theorem refl (s : State) : s.KeepsLog s := ⟨rfl, rfl, rfl, rfl, rfl, rfl, fun _ => rfl⟩

theorem trans {s t u : State} (h : s.KeepsLog t) (k : t.KeepsLog u) : s.KeepsLog u :=
  ⟨k.reports.trans h.reports, k.seq.trans h.seq, k.src.trans h.src, k.cfg.trans h.cfg, k.mgmt.trans h.mgmt, k.now.trans h.now,
    fun n => (k.log n).trans (h.log n)⟩

theorem foldl {α : Type} {f : State → α → State} (step : ∀ (s : State) x, s.KeepsLog (f s x)) (l : List α) (s : State) :
    s.KeepsLog (l.foldl f s) := by
  induction l generalizing s with
  | nil => exact refl s
  | cons x l ih => exact (step s x).trans (ih _)

/-- Where the reports of faults stay, the log stays. -/
theorem of_fc {s t : State} (fc : t.fc = s.fc) (mgmt : t.mb.mgmt = s.mb.mgmt) (now : t.now = s.now) : s.KeepsLog t := by
  refine ⟨?_, ?_, ?_, ?_, mgmt, now, fun k => ?_⟩ <;> rw [fc]

theorem modEntry (s : State) (n : Nat) (g : LogEntry → LogEntry) : s.KeepsLog (s.modEntry n g) := by
  refine ⟨rfl, rfl, rfl, rfl, rfl, rfl, fun k => ?_⟩
  show (oget (omod s.fc.log (n % 64) _) k).isSome = _
  rw [oget_omod]
  split_ifs with same
  · rw [Option.isSome_map, same]
  · rfl

theorem parentRaised (s : State) (src t seq : Nat) : s.KeepsLog (s.parentRaised src t seq) := by
  unfold State.parentRaised
  refine foldl (fun s w => ?_) _ s
  split_ifs
  · exact (foldl (fun s q => modEntry s q _) w.waits s).trans ⟨rfl, rfl, rfl, rfl, rfl, rfl, fun _ => rfl⟩
  · exact refl s

theorem notePoison (s : State) (src detail : Nat) : s.KeepsLog (s.notePoison src detail) := by
  unfold State.notePoison
  dsimp only
  repeat' split
  all_goals exact of_fc rfl rfl rfl

theorem count (s : State) (a b n : Nat) : s.KeepsLog (s.count a b n) := of_fc (by simp) (by simp) (by simp)

theorem pinSync (s : State) : s.KeepsLog s.pinSync := ⟨rfl, rfl, rfl, rfl, rfl, rfl, fun _ => rfl⟩

theorem srcAt {s t : State} (h : s.KeepsLog t) (k : Nat) : t.srcAt k = s.srcAt k := by
  rw [State.srcAt, h.src, State.srcAt]

theorem cfgOf {s t : State} (h : s.KeepsLog t) (k : Nat) : t.cfgOf k = s.cfgOf k := by
  rw [State.cfgOf, h.cfg, h.mgmt, State.cfgOf]

end State.KeepsLog

/-- A change of a source leaves the log. -/
theorem State.modSrc_log (s : State) (k : Nat) (g : Src → Src) :
    (s.modSrc k g).fc.reports = s.fc.reports ∧ (s.modSrc k g).fc.seq = s.fc.seq ∧ (s.modSrc k g).fc.log = s.fc.log ∧
      (s.modSrc k g).now = s.now ∧ ∀ j, (s.modSrc k g).cfgOf j = s.cfgOf j := ⟨rfl, rfl, rfl, rfl, fun _ => rfl⟩

/-- The entry that a report gets, and SEQ after it. -/
structure State.Logged (s t : State) (m : FaultMsg) : Prop where
  reports : t.fc.reports = s.fc.reports
  seq : t.fc.seq = (s.fc.seq + 1) % 2 ^ 32
  now : t.now = s.now
  log : (oget t.fc.log (s.fc.seq % 64)).isSome = true
  mode : (t.srcAt m.source).mode = .raised

theorem State.Logged.keep {s t u : State} {m : FaultMsg} (h : s.Logged t m) (k : t.KeepsLog u) : s.Logged u m :=
  ⟨k.reports.trans h.reports, k.seq.trans h.seq, k.now.trans h.now, (k.log _).trans h.log, by rw [k.srcAt]; exact h.mode⟩

theorem State.Logged.modSrc {s t : State} {m : FaultMsg} (h : s.Logged t m) {g : Src → Src} (same : ∀ x, (g x).mode = x.mode) :
    s.Logged (t.modSrc m.source g) m :=
  ⟨h.reports, h.seq, h.now, h.log, by rw [State.srcAt_modSrc_same, same]; exact h.mode⟩

theorem State.Logged.modSrc_count {s t : State} {m : FaultMsg} (h : s.Logged t m) {g : Src → Src} (same : ∀ x, (g x).mode = x.mode)
    (a b n : Nat) : s.Logged ((t.modSrc m.source g).count a b n) m := (h.modSrc same).keep (.count ..)

/-- A report outside every shadow window, of a source that has no walk, is logged and starts one at rung 0 (16 R568, R575). -/
theorem State.raise_walks {s : State} {m : FaultMsg} (safe : s.fc.safe = false) (clear : s.shadowFor m.source m.at_ = none)
    (idle : (s.srcAt m.source).walk = .none) :
    ∃ u : State, s.raise m = (u.runWalk m.source 8 0).pinSync ∧ s.Logged u m ∧ (u.srcAt m.source).walkCfg = some (s.cfgOf m.source) := by
  unfold State.raise
  rw [clear]
  extract_lets sev seq shadow conseq again simul first parent e s1 _ s2 old s3 s4 s5 s6
  have k1 : s.KeepsLog s1 := by
    show s.KeepsLog (if again then s.modEntry s.lastSeq _ else s)
    split_ifs
    · exact .modEntry ..
    · exact .refl s
  clear_value s1
  have at2 (k : Nat) : s2.srcAt k = s.srcAt k := k1.srcAt k
  have log3 : s.Logged s3 m := ⟨k1.reports, rfl, k1.now, by
    show (oget (oset s1.fc.log (seq % 64) (some e)) (seq % 64)).isSome = true
    rw [oget_oset_same]; rfl, by rw [State.srcAt_modSrc_same]⟩
  have cfg3 : s3.cfgOf m.source = s.cfgOf m.source := k1.cfgOf m.source
  clear_value s3
  have k4 : s3.KeepsLog s4 := ((State.KeepsLog.parentRaised ..).trans (.notePoison ..)).trans (.count ..)
  have log6 : s.Logged s6 m := by
    show s.Logged ((s4.modSrc m.source _).count 2 5) m
    refine (log3.keep k4).modSrc_count ?_ ..
    exact fun _ => rfl
  refine ⟨s6, ?_, log6, ?_⟩
  · rw [if_neg (by simp [safe]), if_neg (by rw [show old = _ from at2 _, idle]; simp), if_neg (by exact Bool.false_ne_true)]
  · rw [(State.KeepsLog.count _ 2 5 1).srcAt, State.srcAt_modSrc_same]
    exact congrArg some ((k4.cfgOf _).trans cfg3)

/-- A walk whose next rung is ACK opens its window (16 R568). -/
theorem State.runWalk_window {s : State} {src rung n : Nat} {c : SrcCfg} (cfg : (s.srcAt src).walkCfg = some c) (ack : c.ladder[rung]? = some 3) :
    s.runWalk src (n + 1) rung =
      ((s.setRung src rung).modSrc src (fun x => { x with walk := .window rung (s.now + c.window * 1000) })).count 2 6 := by
  rw [State.runWalk, cfg]
  dsimp only [Option.getD_some]
  rw [ack]
  rfl

theorem State.Logged.window {s t : State} {m : FaultMsg} (h : s.Logged t m) (rung end_ : Nat) :
    s.Logged (((t.setRung m.source rung).modSrc m.source (fun x => { x with walk := .window rung end_ })).count 2 6).pinSync m := by
  refine (State.Logged.modSrc_count (?_ : s.Logged (t.setRung m.source rung) m) ?_ 2 6 1).keep (.pinSync _)
  · unfold State.setRung
    refine State.Logged.keep (State.Logged.modSrc h ?_) (.modEntry ..)
    exact fun _ => rfl
  · exact fun _ => rfl

theorem faultReport_logs {s : State} {m : FaultMsg} {rest : List Nat} (runs : s.fcRuns = true) (next : minBy reportKey s.fc.reports = some m)
    (safe : s.fc.safe = false) (clear : s.shadowFor m.source m.at_ = none) (idle : (s.srcAt m.source).walk = .none)
    (ladder : (s.cfgOf m.source).ladder = 3 :: rest) :
    ∃ t, exec (.faultReport none) s = .next t ∧ t.fc.seq = (s.fc.seq + 1) % 2 ^ 32 ∧ t.fc.reports = s.fc.reports.erase m ∧
      (t.srcAt m.source).mode = .raised ∧ (t.srcAt m.source).walk = .window 0 (s.now + (s.cfgOf m.source).window * 1000) ∧
      (oget t.fc.log (s.fc.seq % 64)).isSome = true := by
  obtain ⟨u, eq, log, cfg⟩ := State.raise_walks (s := { s with fc := { s.fc with reports := s.fc.reports.erase m } }) (m := m) safe clear idle
  have ack : (s.cfgOf m.source).ladder[0]? = some 3 := by rw [ladder]; rfl
  have run : faultReport none s = (u.runWalk m.source 8 0).pinSync := by
    rw [faultReport, if_neg (by simp [runs])]
    dsimp only
    rw [next]
    exact eq
  refine ⟨_, congrArg Host.Outcome.next run, ?_⟩
  rw [State.runWalk_window cfg ack]
  have opened := log.window 0 (u.now + (s.cfgOf m.source).window * 1000)
  refine ⟨opened.seq, opened.reports, opened.mode, ?_, opened.log⟩
  rw [(State.KeepsLog.pinSync _).srcAt, (State.KeepsLog.count _ 2 6 1).srcAt, State.srcAt_modSrc_same]
  exact congrArg (fun now => Walk.window 0 (now + (s.cfgOf m.source).window * 1000)) log.now

/-! ### The end of a walk -/

theorem State.endWalk_ends (s : State) (src : Nat) (lesser : severityOf src ≠ 4) :
    ((s.endWalk src).srcAt src).walk = .none ∧ (s.endWalk src).now = s.now := by
  unfold State.endWalk
  dsimp only
  rw [if_neg lesser, (State.KeepsLog.pinSync _).srcAt]
  have ended : ((s.modSrc src (fun x => { x with walk := Walk.none, lastRung := 7, walkCfg := none })).srcAt src).walk = .none := by
    rw [State.srcAt_modSrc_same]
  refine ⟨?_, by split_ifs <;> rfl⟩
  split_ifs
  all_goals first
    | exact ended
    | (rw [State.srcAt_modSrc_same]; exact ended)

/-- A walk past its last rung ends. -/
theorem State.runWalk_past {s : State} {src rung n : Nat} {c : SrcCfg} (cfg : (s.srcAt src).walkCfg = some c) (last : c.ladder.length ≤ rung) :
    s.runWalk src (n + 1) rung = s.endWalk src := by
  rw [State.runWalk, cfg]
  dsimp only [Option.getD_some]
  rw [List.getElem?_eq_none last]

theorem State.srcAt_of_fc {s t : State} (fc : t.fc = s.fc) (k : Nat) : t.srcAt k = s.srcAt k := by
  rw [State.srcAt, fc, State.srcAt]

theorem actionRungDone_ends {s : State} {src rung u : Nat} {c : SrcCfg} (runs : s.fcRuns = true) (lesser : severityOf src ≠ 4)
    (walk : (s.srcAt src).walk = .action rung u) (timed : u ≠ 0) (cfg : (s.srcAt src).walkCfg = some c) (last : c.ladder.length ≤ rung + 1) :
    ((actionRungDone src s).srcAt src).walk = .none ∧ (actionRungDone src s).now = max s.now u := by
  have here : ((s.advance u).srcAt src).walkCfg = some c := by rw [State.srcAt_of_fc (s.advance_fc u)]; exact cfg
  rw [actionRungDone, if_neg (by simp [runs]), walk]
  dsimp only
  rw [if_neg timed, State.runWalk_past here last, ite_self]
  exact ⟨(State.endWalk_ends _ src lesser).1, (State.endWalk_ends _ src lesser).2.trans (s.advance_now u)⟩

theorem windowExpiry_ends {s : State} {src rung u : Nat} {c : SrcCfg} (runs : s.fcRuns = true) (lesser : severityOf src ≠ 4)
    (walk : (s.srcAt src).walk = .window rung u) (cfg : (s.srcAt src).walkCfg = some c) (last : c.ladder.length ≤ rung + 1) :
    ((windowExpiry src s).srcAt src).walk = .none ∧ (windowExpiry src s).now = max s.now u := by
  have here : (((s.advance u).count 2 7).srcAt src).walkCfg = some c := by
    rw [(State.KeepsLog.count _ 2 7 1).srcAt, State.srcAt_of_fc (s.advance_fc u)]; exact cfg
  rw [windowExpiry, if_neg (by simp [runs]), walk]
  dsimp only
  rw [State.runWalk_past here last]
  exact ⟨(State.endWalk_ends _ src lesser).1, (State.endWalk_ends _ src lesser).2.trans ((State.KeepsLog.count _ 2 7 1).now.trans (s.advance_now u))⟩

/-! ### Conditions that clear, and quiet periods -/

theorem conditionClear_settles {s : State} {src : Nat} (runs : s.fcRuns = true) (state : isStateSource src = true) (lesser : severityOf src ≠ 4)
    (raised : (s.srcAt src).mode = .raised) (gone : s.condition src = false) (free : ∀ r e, (s.srcAt src).walk ≠ .window r e) :
    ((conditionClear src s).srcAt src).mode = .settling ∧ ((conditionClear src s).srcAt src).clearAt = s.now := by
  unfold conditionClear
  rw [if_neg (by simp [runs, state, raised, gone])]
  dsimp only
  rw [State.srcAt_modSrc_same]
  split
  · next r e same => exact absurd same (free r e)
  · rw [(State.KeepsLog.pinSync _).srcAt, State.srcAt_modSrc_same, if_neg lesser]
    exact ⟨rfl, rfl⟩

theorem State.liftIso_src (s : State) (k : Nat) : (s.liftIso k).fc.src = s.fc.src := by
  unfold State.liftIso
  dsimp only
  split_ifs <;> rfl

/-- A source that returns to CLEAR (16 R582). -/
def Src.cleared (x : Src) : Src := { x with mode := .clear, recov := satAdd (2 ^ 32 - 1) x.recov 1, holdsPin := false }

/-- A settling source returns to CLEAR, and its isolation lifts. -/
def State.settle1 (s : State) (k : Nat) : State :=
  let t := s.modSrc k Src.cleared
  ({ t with fc := { t.fc with recov := satAdd (2 ^ 32 - 1) t.fc.recov 1 } } : State).liftIso k

theorem State.settle1_mode (s : State) (k j : Nat) : ((s.settle1 k).srcAt j).mode = if j = k then .clear else (s.srcAt j).mode := by
  have src : (s.settle1 k).fc.src = (s.modSrc k Src.cleared).fc.src := State.liftIso_src ..
  have same : (s.settle1 k).srcAt j = (s.modSrc k Src.cleared).srcAt j := by rw [State.srcAt, src, State.srcAt]
  rw [same]
  split_ifs with here
  · rw [here, State.srcAt_modSrc_same]; rfl
  · rw [State.srcAt_modSrc_other _ _ here]

/-- Once a source is CLEAR, the sources after it leave it so. -/
theorem State.settle_keeps_clear (l : List (Nat × Src)) {s : State} {k : Nat} (clear : (s.srcAt k).mode = .clear) :
    ((l.foldl (fun s e => s.settle1 e.1) s).srcAt k).mode = .clear := by
  induction l generalizing s with
  | nil => exact clear
  | cons e l ih => exact ih (by rw [State.settle1_mode, clear, ite_self])

theorem State.settle_clears {l : List (Nat × Src)} {s : State} {x : Nat × Src} (mem : x ∈ l) :
    ((l.foldl (fun s e => s.settle1 e.1) s).srcAt x.1).mode = .clear := by
  induction l generalizing s with
  | nil => exact nomatch mem
  | cons e l ih =>
    rcases List.mem_cons.1 mem with rfl | later
    · exact State.settle_keeps_clear l (by rw [State.settle1_mode, if_pos rfl])
    · exact ih later

theorem State.settle1_now (s : State) (k : Nat) : (s.settle1 k).now = s.now := by
  unfold State.settle1 State.liftIso
  dsimp only
  split_ifs <;> rfl

/-- The settling sources whose quiet period is over (16 R582). -/
def State.quietReady (s : State) : List (Nat × Src) :=
  (oall s.fc.src).filter (fun e => (decide (e.2.mode = .settling) && decide (severityOf e.1 ≠ 4)) && decide (s.clearDue e.2 ≤ s.now))

/-- They return to CLEAR. -/
def State.settleReady (s : State) : State := (s.quietReady.foldl (fun s e => s.settle1 e.1) s).pinSync

theorem State.settleReady_clears {s : State} {x : Nat × Src} (mem : x ∈ s.quietReady) : (s.settleReady.srcAt x.1).mode = .clear := by
  rw [State.settleReady, (State.KeepsLog.pinSync _).srcAt]
  exact State.settle_clears mem

theorem State.settleReady_now (s : State) : s.settleReady.now = s.now :=
  (State.KeepsLog.pinSync _).now.trans (foldl_same State.now (fun (u : State) (e : Nat × Src) => u.settle1_now e.1) _ _)

theorem quietExpiry_eq {s : State} {x : Nat × Src} (runs : s.fcRuns = true)
    (least : minBy (fun e => s.clearDue e.2) ((oall s.fc.src).filter (fun e => decide (e.2.mode = .settling) && decide (severityOf e.1 ≠ 4))) =
      some x) : quietExpiry s = (s.advance (s.clearDue x.2)).settleReady := by
  unfold quietExpiry
  dsimp only
  rw [least]
  dsimp only
  rw [if_neg (by simp [runs])]
  generalize s.advance (s.clearDue x.2) = u
  rfl

theorem State.clearDue_of_fc {s u : State} (fc : u.fc = s.fc) (y : Src) : u.clearDue y = s.clearDue y := by
  unfold State.clearDue
  rw [fc]

theorem State.quietReady_advance {s : State} {x : Nat × Src} {d : Nat} (due : s.clearDue x.2 = d)
    (mem : x ∈ (oall s.fc.src).filter (fun e => decide (e.2.mode = .settling) && decide (severityOf e.1 ≠ 4))) :
    x ∈ (s.advance d).quietReady := by
  obtain ⟨mem, ready⟩ := List.mem_filter.1 mem
  have fc := s.advance_fc d
  have now := s.advance_now d
  generalize s.advance d = u at fc now
  refine List.mem_filter.2 ⟨by rw [fc]; exact mem, ?_⟩
  rw [ready, State.clearDue_of_fc fc, due, now, Bool.true_and]
  exact decide_eq_true (le_max_right _ _)

theorem quietExpiry_clears {s : State} {x : Nat × Src} (runs : s.fcRuns = true)
    (least : minBy (fun e => s.clearDue e.2) ((oall s.fc.src).filter (fun e => decide (e.2.mode = .settling) && decide (severityOf e.1 ≠ 4))) =
      some x) :
    ((quietExpiry s).srcAt x.1).mode = .clear ∧ (quietExpiry s).now = max s.now (s.clearDue x.2) := by
  have ready := State.quietReady_advance rfl (mem_of_minBy least)
  rw [quietExpiry_eq runs least]
  generalize s.clearDue x.2 = d at ready ⊢
  exact ⟨State.settleReady_clears ready, (State.settleReady_now _).trans (s.advance_now d)⟩

/-! ### Shadows, the copy to flash, and throttles -/

theorem shadowEnd_ends {s : State} {w : Shadow} (runs : s.fcRuns = true)
    (least : minBy (fun (w : Shadow) => w.end_.getD 0) (s.fc.shadows.filter (fun w => w.end_.isSome)) = some w)
    (passed : ∀ m ∈ s.fc.reports, w.end_.getD 0 < m.at_) :
    (shadowEnd s).fc = { s.fc with shadows := s.fc.shadows.erase w } ∧ (shadowEnd s).now = max s.now (w.end_.getD 0) := by
  unfold shadowEnd
  rw [least]
  dsimp only
  have quiet : s.fc.reports.any (fun m => decide (m.at_ ≤ w.end_.getD 0)) = false :=
    List.any_eq_false.2 fun m mem => by simpa using passed m mem
  rw [if_neg (by rw [quiet]; simp [runs]), State.advance_fc]
  exact ⟨rfl, s.advance_now _⟩

/-- The throttles of a source lift (16 R586). -/
def State.unthrottle (s : State) (k : Nat) : State :=
  { s with pw := { s.pw with bgBy := s.pw.bgBy.filter (· != k), dramBy := s.pw.dramBy.filter (· != k) } }

theorem State.unthrottle_pw {s u : State} (pw : u.pw = s.pw) (k : Nat) :
    (u.unthrottle k).pw = { s.pw with bgBy := s.pw.bgBy.filter (· != k), dramBy := s.pw.dramBy.filter (· != k) } := by
  rw [State.unthrottle, pw]

theorem State.unthrottle_now (s : State) (k : Nat) : (s.unthrottle k).now = s.now := rfl

theorem throttleLift_eq {s : State} {k : Nat} (runs : s.fcRuns = true)
    (least : minBy (fun k => (s.srcAt k).clearAt) ((s.pw.bgBy ++ s.pw.dramBy).filter (fun k =>
      !s.condition k && decide ((s.srcAt k).mode ≠ .raised))) = some k) :
    throttleLift s = (s.advance ((s.srcAt k).clearAt + 1000000)).unthrottle k := by
  unfold throttleLift
  dsimp only
  rw [least]
  dsimp only
  rw [if_neg (by simp [runs])]
  generalize s.advance ((s.srcAt k).clearAt + 1000000) = u
  rfl

theorem throttleLift_lifts {s : State} {k : Nat} (runs : s.fcRuns = true)
    (least : minBy (fun k => (s.srcAt k).clearAt) ((s.pw.bgBy ++ s.pw.dramBy).filter (fun k =>
      !s.condition k && decide ((s.srcAt k).mode ≠ .raised))) = some k) :
    (throttleLift s).pw = { s.pw with bgBy := s.pw.bgBy.filter (· != k), dramBy := s.pw.dramBy.filter (· != k) } ∧
      (throttleLift s).now = max s.now ((s.srcAt k).clearAt + 1000000) := by
  rw [throttleLift_eq runs least]
  generalize (s.srcAt k).clearAt + 1000000 = due
  exact ⟨State.unthrottle_pw (s.advance_pw due) k, (State.unthrottle_now _ k).trans (s.advance_now due)⟩

/-- Settles O57: one lemma a clause. -/
theorem faultsAreWalked : Obligations.FaultsAreWalked := by
  refine ⟨fun s m rest runs next safe clear idle ladder => faultReport_logs runs next safe clear idle ladder,
    fun s src rung u c runs lesser walk timed cfg last => ⟨_, rfl, actionRungDone_ends runs lesser walk timed cfg last⟩,
    fun s src rung u c runs lesser walk cfg last => ⟨_, rfl, windowExpiry_ends runs lesser walk cfg last⟩,
    fun s src runs state lesser raised gone free => ⟨_, rfl, conditionClear_settles runs state lesser raised gone free⟩,
    fun s x runs least => ⟨_, rfl, quietExpiry_clears runs least⟩,
    fun s w runs least passed => ⟨_, rfl, shadowEnd_ends runs least passed⟩, fun s runs due => ⟨_, rfl, ?_⟩,
    fun s k runs least => ⟨_, rfl, throttleLift_lifts runs least⟩⟩
  unfold flashCopy
  rw [if_neg (by simp [runs, Option.isNone_iff_eq_none, Option.isSome_iff_ne_none.1 due])]
  exact ⟨rfl, rfl⟩

end Sys2Proof.Machine
end

section
/-! PROOFS. Slots, promotion, alerts and other events of a channel (09 R319 to R334). -/

set_option Elab.async false

namespace Sys2Proof.Machine
open Sys2Proof

/-- Subchannel `u` of channel `c` is there, and its scheduler is at slot `n` of its frame. -/
structure State.AtSlot (s : State) (c u n : Nat) : Prop where
  chan : c < s.mc.chans.length
  sub : u < (s.chan c).subs.length
  slot : (s.subAt c u).slot = n

namespace State.AtSlot

variable {s t : State} {c u n m : Nat}

theorem of_mc (h : s.AtSlot c u n) (mc : t.mc = s.mc) : t.AtSlot c u n := by
  obtain ⟨chan, sub, slot⟩ := h
  refine ⟨?_, ?_, ?_⟩ <;> simp only [State.subAt, State.chan, mc] at * <;> assumption

/-- A change of the subchannel leaves it there, at the slot that the change gives. -/
theorem modSub (h : s.AtSlot c u n) {g : SubCh → SubCh} (slot : (g (s.subAt c u)).slot = m) : (s.modSub c u g).AtSlot c u m := by
  refine ⟨?_, ?_, by rw [State.subAt_modSub_same s g h.chan h.sub, slot]⟩
  · rw [show (s.modSub c u g).mc.chans.length = s.mc.chans.length from length_lmod ..]; exact h.chan
  · rw [State.modSub, State.chan_modChan_same s _ h.chan, length_lmod]; exact h.sub

theorem startFrame (h : s.AtSlot c u n) : (s.startFrame c u).AtSlot c u n := by
  refine h.modSub ?_
  split_ifs <;> exact h.slot

theorem letIn (h : s.AtSlot c u n) : (s.letIn c u).AtSlot c u n := by
  have raised (l : List (Nat × Nat)) : (l.foldl (fun s e => s.raiseStamp e.1 e.2) s).mc = s.mc :=
    foldl_same State.mc (fun (b : State) (e : Nat × Nat) => (State.raiseStamp_keeps (F := (· ∈ [.bw])) (.refl _ b) e.1 e.2 (by decide)).same .mc (by decide)) l s
  exact (h.of_mc (raised _)).modSub (h.of_mc (raised _)).slot

theorem drainState (h : s.AtSlot c u n) : (s.modSub c u SubCh.drainState).AtSlot c u n := by
  refine h.modSub ?_
  unfold SubCh.drainState
  split_ifs <;> exact h.slot

theorem served (h : s.AtSlot c u n) (q : ChanReq) : (s.served c u q).AtSlot c u n := by
  unfold State.served
  dsimp only
  refine State.AtSlot.of_mc (s := State.modSub _ _ _ _) ?_
    ((State.charge_keeps (F := (· ∈ [.bw, .pm])) (.refl _ _) q.who (by decide) (by decide)).same .mc (by decide))
  refine State.AtSlot.modSub (n := n) ?_ ?_
  · exact h.of_mc rfl
  · exact h.slot

theorem count (h : s.AtSlot c u n) (a b k : Nat) : (s.count a b k).AtSlot c u n := h.of_mc (State.count_mc ..)

theorem ite {p : Prop} [Decidable p] (h : s.AtSlot c u n) (k : t.AtSlot c u n) : (if p then s else t).AtSlot c u n := by
  split_ifs
  · exact h
  · exact k

end State.AtSlot

/-- A slot passes whatever is issued in it (10 R362). -/
theorem subchannelIssue_passes {s : State} {c u : Nat} {ready : List Nat} (service : s.chanIs c .service = true) (two : u < 2)
    (there : u < (s.chan c).subs.length) (awake : s.awake = true) :
    ((subchannelIssue c u ready s).subAt c u).slot = ((s.subAt c u).slot + 1) % 1024 := by
  have start : s.AtSlot c u (s.subAt c u).slot := ⟨State.chan_lt_of_state service (by decide), there, rfl⟩
  unfold subchannelIssue
  rw [if_neg (by simp [service, awake]; omega)]
  extract_lets t x pass
  have now : t.AtSlot c u (s.subAt c u).slot := (State.AtSlot.letIn (.ite start.startFrame start)).drainState
  have passed {v : State} (h : v.AtSlot c u (s.subAt c u).slot) (o : Option Nat) : (pass v o).AtSlot c u (((s.subAt c u).slot + 1) % 1024) :=
    h.modSub (by rw [h.slot])
  clear_value t
  split_ifs
  · exact (passed now _).slot
  · split
    · exact (passed now _).slot
    · extract_lets s1 s2 s3 s4 s5
      have at1 : s1.AtSlot c u (s.subAt c u).slot := now.modSub now.slot
      have at2 : s2.AtSlot c u (s.subAt c u).slot := ((at1.served _).count ..).count ..
      have at3 : s3.AtSlot c u (s.subAt c u).slot := .ite (at2.count ..) at2
      have at4 : s4.AtSlot c u (s.subAt c u).slot := by
        dsimp only [s4]
        split
        · exact .ite (at3.count ..) (.ite at3 (at3.count ..))
        · exact at3
      have at5 : s5.AtSlot c u (s.subAt c u).slot := .ite (at4.count ..) at4
      exact (passed at5 _).letIn.drainState.slot

/-! ### Promotion and alerts -/

theorem agePromotion_promotes {s : State} {c u id : Nat} {q : ChanReq} (two : u < 2) (there : u < (s.chan c).subs.length)
    (chan : c < s.mc.chans.length)
    (found : ((s.subAt c u).readQ ++ (s.subAt c u).writeQ).find? (fun q => q.tag == id && !q.promoted && !q.held) = some q) :
    { q with promoted := true } ∈ ((agePromotion c u id s).subAt c u).readQ ++ ((agePromotion c u id s).subAt c u).writeQ ∧
      (agePromotion c u id s).now = max s.now (q.at_ + (s.chan c).ageLimit + 1) := by
  unfold agePromotion
  dsimp only
  rw [found]
  dsimp only
  rw [if_neg (by omega)]
  generalize q.at_ + (s.chan c).ageLimit + 1 = due
  refine ⟨?_, (State.count_now _ _ _ _).trans ((State.modSub_now _ _ _ _).trans (s.advance_now due))⟩
  have mc := s.advance_mc due
  have at_ : (s.advance due).subAt c u = s.subAt c u := by simp only [State.subAt, State.chan, mc]
  have here : ∀ g, (((s.advance due).modSub c u g).count (26 + c) 5).subAt c u = g (s.subAt c u) := fun g => by
    rw [State.subAt, State.chan, State.count_mc]
    exact (State.subAt_modSub_same _ g (by rw [mc]; exact chan) (by rw [State.chan, mc]; exact there)).trans (congrArg g at_)
  rw [here]
  dsimp only
  rw [← List.map_append]
  exact List.mem_map.2 ⟨q, List.mem_of_find?_eq_some found, if_pos (beq_self_eq_true q)⟩

/-- A channel in service is queued for retraining, unless it trains. -/
theorem State.trigger_queues {s : State} {c : Nat} (service : s.chanIs c .service = true) :
    (c ∈ (s.trigger c).mc.trigQ ∨ (s.trigger c).mc.training = some c) ∧ (s.trigger c).mc.chans = s.mc.chans := by
  have state : (s.chan c).state = .service := of_decide_eq_true service
  unfold State.trigger
  split_ifs with already
  · rcases already with no | no | no | queued | trains
    · exact nomatch state.symm.trans no
    · exact nomatch state.symm.trans no
    · exact nomatch state.symm.trans no
    · exact ⟨.inl queued, rfl⟩
    · exact ⟨.inr trains, rfl⟩
  · exact ⟨.inl (List.mem_append_right _ (List.mem_singleton_self c)), rfl⟩

theorem alertN_replays {s : State} {c u : Nat} (service : s.chanIs c .service = true) (two : u < 2) (there : u < (s.chan c).subs.length)
    (few : (s.subAt c u).alerts < 3) :
    ((alertN c u false s).subAt c u).alerts = (s.subAt c u).alerts + 1 ∧
      ((alertN c u false s).chan c).caRetries = satAdd (2 ^ 32 - 1) (s.chan c).caRetries 1 := by
  have chan := State.chan_lt_of_state service (by decide)
  unfold alertN
  rw [if_neg (by simp [service]; omega)]
  dsimp only
  rw [if_neg (by omega)]
  have report (v : State) (a b d e : Nat) : (v.reportAgg a b d e).mc = v.mc := by unfold State.reportAgg; dsimp only; split_ifs <;> rfl
  have outer (g : SubCh → SubCh) (k : Mc → Mc) (a b d e : Nat) :
      ((((s.modSub c u g).modChan c k).reportAgg a b d e).count (26 + c) 8).chan c = k { s.chan c with subs := lmod (s.chan c).subs u g } := by
    rw [State.chan, State.count_mc, report]
    show State.chan _ c = _
    rw [State.chan_modChan_same _ k (by rw [State.modSub]; exact (length_lmod ..).symm ▸ chan), State.modSub, State.chan_modChan_same s _ chan]
  constructor
  · rw [State.subAt, outer]
    simp only [Bool.false_eq_true, if_false]
    rw [getD_lmod_same there]
    rfl
  · rw [outer]
    rfl

theorem alertN_retrains {s : State} {c u : Nat} (service : s.chanIs c .service = true) (two : u < 2) (there : u < (s.chan c).subs.length)
    (many : 3 ≤ (s.subAt c u).alerts) :
    ((alertN c u false s).subAt c u).alerts = 0 ∧
      (c ∈ (alertN c u false s).mc.trigQ ∨ (alertN c u false s).mc.training = some c) := by
  have chan := State.chan_lt_of_state service (by decide)
  unfold alertN
  rw [if_neg (by simp [service]; omega)]
  dsimp only
  rw [if_pos many]
  have still (g : SubCh → SubCh) : (s.modSub c u g).chanIs c .service = true := by
    rw [State.chanIs, State.modSub, State.chan_modChan_same s _ chan]; exact service
  obtain ⟨queued, chans⟩ := State.trigger_queues (still _)
  refine ⟨?_, queued⟩
  rw [State.subAt, State.chan, chans]
  exact congrArg SubCh.alerts (State.subAt_modSub_same s _ chan there)

theorem alertEpisodeEnd_ends {s : State} {c u : Nat} (two : u < 2) (there : u < (s.chan c).subs.length) (chan : c < s.mc.chans.length)
    (some_ : (s.subAt c u).alerts ≠ 0) (done : 64 ≤ (s.subAt c u).sinceAlert) : ((alertEpisodeEnd c u s).subAt c u).alerts = 0 := by
  unfold alertEpisodeEnd
  dsimp only
  rw [if_neg (by omega), State.subAt_modSub_same s _ chan there]

/-! ### Temperature -/

theorem dimmTempRead_hot {s : State} {c : Nat} {x : Int} (twelve : c < 12) (chan : c < s.mc.chans.length)
    (pop : (s.chan c).pop.isSome = true) (up : s.fenced c = false) (hot : 85 < x) :
    ((dimmTempRead c [some x] s).chan c).hot = true ∧ ((dimmTempRead c [some x] s).chan c).temp = x := by
  have settled (v : State) (u : Nat) : (v.settleRef c u).mc.chans.length = v.mc.chans.length := length_lmod ..
  unfold dimmTempRead
  extract_lets m now last failed known isHot turn s1 s2
  rw [if_neg (by simp [m, Option.isNone_iff_eq_none, Option.isSome_iff_ne_none.1 pop, up]; omega)]
  have yes : isHot = true := if_pos (.inr (by simpa [known] using hot))
  clear_value isHot
  subst yes
  have t1 : (turn s).mc.chans.length = s.mc.chans.length := by
    dsimp only [turn]
    split_ifs
    · rfl
    · exact (settled _ 1).trans (settled s 0)
  have at1 : (s1.chan c).hot = true ∧ (s1.chan c).temp = x := by
    rw [show s1.chan c = _ from State.chan_modChan_same _ _ (t1.symm ▸ chan)]
    exact ⟨rfl, rfl⟩
  have at2 : s2.mc = s1.mc := by
    dsimp only [s2]
    split_ifs <;> rfl
  have at3 (v : State) (mc : v.mc = s1.mc) : (v.chan c).hot = true ∧ (v.chan c).temp = x := by
    rw [State.chan, mc]; exact at1
  split_ifs
  · exact at3 _ at2
  · exact at3 _ (((State.rescale_keeps (F := (· ∈ [.bw, .fc])) (.refl _ _) (by decide) (by decide)).same .mc (by decide)).trans at2)

/-- Settles O49: a lemma a clause. -/
theorem channelEventsAreServed : Obligations.ChannelEventsAreServed := by
  refine ⟨fun s c u ready service two there awake => ⟨_, rfl, subchannelIssue_passes service two there awake⟩,
    fun s c u id q two there chan found => ⟨_, rfl, agePromotion_promotes two there chan found⟩,
    fun s c u service two there => ⟨fun few => ⟨_, rfl, alertN_replays service two there few⟩,
      fun many => ⟨_, rfl, alertN_retrains service two there many⟩⟩,
    fun s c u two there chan some_ done => ⟨_, rfl, alertEpisodeEnd_ends two there chan some_ done⟩,
    fun s c r service => ⟨_, rfl, ?_⟩, fun s c r => rfl,
    fun s c x twelve chan pop up hot => ⟨_, rfl, dimmTempRead_hot twelve chan pop up hot⟩⟩
  rw [dqsTracking, if_pos (by simp [service])]
  exact State.trigger_queues service

end Sys2Proof.Machine
end

section
/-! PROOFS. Counter updates, posted events and recomputation (13 R467 to R480). -/

set_option Elab.async false

namespace Sys2Proof.Machine
open Sys2Proof

/-- A record is taken from its port's queue; counters, reports and queues stay. -/
theorem State.takeRecord_hp {s t : State} {f w : Nat} {enqueue : Bool} {rec : Bytes} (taken : s.takeRecord f enqueue = some (t, w, rec)) :
    Keeps (· ∈ [.hp]) s t := State.takeRecord_keeps (.refl _ s) f enqueue taken (by decide)

section
variable {s t : State} {f w : Nat} {rec : Bytes} (runs : s.ceRuns = true) (taken : s.takeRecord f false = some (t, w, rec))
  (trusted : (t.fnAt f).viral = false) (thawed : t.isFrozen f = false)
include runs taken trusted thawed

/-- What becomes of the posted record that is taken: a context of the engine halts at it, or it is counted. -/
theorem updateRecord_takes (halt : Option Nat) : updateRecord f halt s = halt.elim (t.ceRecord f w rec) t.ceHalt := by
  rw [updateRecord, if_neg (by simp [runs]), taken]
  dsimp only
  rw [if_neg (by simp [trusted]), if_neg (by simp [thawed])]
  cases halt <;> rfl

theorem updateRecord_nop (op : field (unle (rec.take 16)) 80 8 = 0) : updateRecord f none s = t := by
  rw [updateRecord_takes runs taken trusted thawed]
  exact if_pos op

theorem updateRecord_malformed (op : 2 ≤ field (unle (rec.take 16)) 80 8) :
    (updateRecord f none s).ce.malformed = satAdd (2 ^ 32 - 1) s.ce.malformed 1 := by
  rw [updateRecord_takes runs taken trusted thawed]
  have bad : t.ceRecord f w rec = t.ceMalf f w 1 true := by
    unfold State.ceRecord
    dsimp only
    rw [if_neg (by omega), if_pos (.inl (by omega))]
  rw [Option.elim_none, bad, State.ceMalf_malformed, (State.takeRecord_hp taken).same .ce (by decide)]

theorem updateRecord_adds {n : Nat} {c : CSet} (op : field (unle (rec.take 16)) 80 8 = 1) (zero : field (unle (rec.take 16)) 89 7 = 0)
    (rest : field (unle (rec.take 16)) 96 32 = 0) (leaf : t.setOfLeaf (field (unle (rec.take 16)) 0 32) = some (n, c))
    (owner : ownerHas c.owner f = true) :
    updateRecord f none s = t.ceAdd n (field (unle (rec.take 16)) 0 32 - c.first) (field (unle (rec.take 16)) 32 16)
      (field (unle (rec.take 16)) 48 32 * (if (unle (rec.take 16)).testBit 88 then 256 else 1)) := by
  rw [updateRecord_takes runs taken trusted thawed]
  show t.ceRecord f w rec = _
  unfold State.ceRecord
  dsimp only
  rw [if_neg (by omega), if_neg (by omega), leaf]
  dsimp only
  rw [if_neg (by simp [owner])]

theorem updateRecord_halts {ctx : Nat} (twelve : ctx < 12) :
    (updateRecord f (some ctx) s).ce.halted.getLsbD ctx = true ∧ s.Reported (updateRecord f (some ctx) s) ceContextHalted := by
  rw [updateRecord_takes runs taken trusted thawed]
  obtain ⟨fc, ce⟩ : t.fc = s.fc ∧ t.ce = s.ce := ⟨(State.takeRecord_hp taken).same .fc (by decide), (State.takeRecord_hp taken).same .ce (by decide)⟩
  refine ⟨?_, State.reported_report s fc ..⟩
  show (t.ce.halted ||| (1#12 <<< (ctx % 12))).getLsbD ctx = true
  rw [Nat.mod_eq_of_lt twelve]
  simp [twelve]

end

/-! ### Events of the queue engine, and recomputation -/

theorem queueEventCount_unbound {s : State} {e : QEvent} {rest : List QEvent} (runs : s.ceRuns = true) (next : s.ce.events = e :: rest)
    (unbound : (if e.policer then s.ce.bindP else s.ce.bindQ) = none) :
    (queueEventCount s).ce = { s.ce with events := rest, unbound := satAdd (2 ^ 32 - 1) s.ce.unbound 1 } := by
  rw [queueEventCount, if_neg (by simp [runs]), next]
  dsimp only
  rw [unbound]

theorem queueEventCount_counts {s : State} {e : QEvent} {rest : List QEvent} {b : Binding} {slot : Nat} (runs : s.ceRuns = true)
    (next : s.ce.events = e :: rest) (bound : (if e.policer then s.ce.bindP else s.ce.bindQ) = some b)
    (mapped : b.map.getD e.code none = some slot) (low : b.base ≤ e.number) (high : e.number < b.base + b.count) :
    queueEventCount s = ({ s with ce := { s.ce with events := rest } } : State).ceAdd b.set (slot * b.count + (e.number - b.base)) e.packets
      e.bytes := by
  rw [queueEventCount, if_neg (by simp [runs]), next]
  dsimp only
  rw [bound]
  dsimp only
  rw [mapped]
  exact if_neg (by omega)

theorem ceRecomputeStep_starts {s : State} {set level anc : Nat} {c : CSet} (runs : s.ceRuns = true) (background : s.bgPaused = false)
    (idle : s.ce.recompute = none) (stale : s.staleNext = some (set, level, anc)) (there : s.ceSet set = some c) :
    (ceRecomputeStep s).ce = { s.ce with recompute := some ⟨set, level, anc, anc * c.fan.getD (level - 1) 1, 0, 0⟩ } := by
  rw [ceRecomputeStep, if_neg (by simp [runs, background]), idle]
  dsimp only
  rw [stale]
  dsimp only
  rw [there]

/-- Settles O55: what each step of the counter engine does before its access ends. -/
theorem counterUpdatesAreApplied : Obligations.CounterUpdatesAreApplied := by
  have done {s u : State} {g : State → State} (free : s.entryFree 9 = true) (does : g s = u) :
      s.engine 9 g = u.engineDone 9 := by rw [State.engine_of_free free, does]
  have taken {s u : State} {f : Nat} {halt : Option Nat} (free : s.entryFree 9 = true) (does : updateRecord f halt s = u) :
      exec (.updateRecord f halt) s = .next ((u.engineDone 9).takeStalled (portOf f)) := by
    subst does
    exact congrArg (fun x : State => Host.Outcome.next (x.takeStalled (portOf f))) (State.engine_of_free free _)
  refine ⟨fun s t f w rec free runs took trusted thawed => ⟨fun op => taken free (updateRecord_nop runs took trusted thawed op),
      fun op => ⟨_, taken free rfl, updateRecord_malformed runs took trusted thawed op⟩,
      fun n c op zero rest leaf owner => taken free (updateRecord_adds runs took trusted thawed op zero rest leaf owner)⟩,
    fun s e rest free runs next => ⟨fun unbound => ⟨_, congrArg Host.Outcome.next (done free rfl), queueEventCount_unbound runs next unbound⟩,
      fun b slot bound mapped low high => congrArg Host.Outcome.next (done free (queueEventCount_counts runs next bound mapped low high))⟩,
    fun s set level anc c free runs background idle stale there => ⟨_, congrArg Host.Outcome.next (done free rfl),
      ceRecomputeStep_starts runs background idle stale there⟩,
    fun s f ctx t w rec free runs took trusted thawed twelve => ⟨_, taken free rfl, updateRecord_halts runs took trusted thawed twelve⟩⟩

end Sys2Proof.Machine
end

section
/-! PROOFS. Decisions, wheels and gates of the scheduler (12 R422 to R439). -/

set_option Elab.async false

namespace Sys2Proof.Machine
open Sys2Proof

/-- What bringing the scheduler up to date, and the drops at a closed gate, leave as it was: the next port in turn, the wheel and the gate
lists; reports are added only. -/
structure State.KeepsGates (s t : State) : Prop where
  rrPort : t.sc.rrPort = s.sc.rrPort
  wheel : t.sc.wheel = s.sc.wheel
  gates : ∀ p, (t.scPort p).oper = (s.scPort p).oper ∧ (t.scPort p).admin = (s.scPort p).admin ∧ (t.scPort p).swapAt = (s.scPort p).swapAt
  reports : s.fc.reports <+: t.fc.reports

namespace State.KeepsGates

theorem refl (s : State) : s.KeepsGates s := ⟨rfl, rfl, fun _ => ⟨rfl, rfl, rfl⟩, List.prefix_rfl⟩

theorem trans {s t u : State} (h : s.KeepsGates t) (k : t.KeepsGates u) : s.KeepsGates u := by
  refine ⟨k.rrPort.trans h.rrPort, k.wheel.trans h.wheel, fun p => ?_, h.reports.trans k.reports⟩
  obtain ⟨oper, admin, swap⟩ := k.gates p
  obtain ⟨oper', admin', swap'⟩ := h.gates p
  exact ⟨oper.trans oper', admin.trans admin', swap.trans swap'⟩

theorem foldl {α : Type} {f : State → α → State} (step : ∀ (s : State) x, s.KeepsGates (f s x)) (l : List α) (s : State) :
    s.KeepsGates (l.foldl f s) := by
  induction l generalizing s with
  | nil => exact refl s
  | cons x l ih => exact (step s x).trans (ih _)

theorem ite {s t u : State} {c : Prop} [Decidable c] (h : s.KeepsGates t) (k : s.KeepsGates u) : s.KeepsGates (if c then t else u) := by
  split_ifs
  · exact h
  · exact k

theorem of_sc {s t : State} (sc : t.sc = s.sc) (reports : s.fc.reports <+: t.fc.reports) : s.KeepsGates t :=
  ⟨by rw [sc], by rw [sc], fun p => by rw [State.scPort, sc, State.scPort]; exact ⟨rfl, rfl, rfl⟩, reports⟩

theorem modNode (s : State) (k : Nat) (g : Node → Node) : s.KeepsGates (s.modNode k g) := ⟨rfl, rfl, fun _ => ⟨rfl, rfl, rfl⟩, List.prefix_rfl⟩

theorem count (s : State) (a b n : Nat) : s.KeepsGates (s.count a b n) := of_sc (State.count_sc ..) (by rw [State.count_fc])

theorem report (s : State) (a b : Nat) (r : Option Nat) : s.KeepsGates (s.report a b r) := of_sc rfl (List.prefix_append ..)

theorem reportAgg (s : State) (a b c d : Nat) (r : Option Nat) : s.KeepsGates (s.reportAgg a b c d r) := by
  unfold State.reportAgg
  exact ite (of_sc rfl (List.prefix_append ..)) (refl s)

theorem modScPort {s : State} {p : Nat} {g : ScPort → ScPort} (same : ∀ x, (g x).oper = x.oper ∧ (g x).admin = x.admin ∧ (g x).swapAt = x.swapAt) :
    s.KeepsGates (s.modScPort p g) := by
  refine ⟨rfl, rfl, fun q => ?_, List.prefix_rfl⟩
  rw [State.scPort, State.modScPort]
  dsimp only
  rw [oget_oset]
  split_ifs with here
  · rw [here]; exact same _
  · exact ⟨rfl, rfl, rfl⟩

theorem schedSync (s : State) : s.KeepsGates s.schedSync := by
  unfold State.schedSync
  split_ifs
  · exact refl s
  · extract_lets q4 e4 heldQ e3 e2 elig h4 h3 has stays s1 act act2 _ s2
    have k1 : s.KeepsGates s1 := foldl (fun s e => foldl (fun s k => ite (refl s) (modNode s k _)) e.2 s) s.sc.active s
    have k2 : s1.KeepsGates s2 := ⟨rfl, rfl, fun _ => ⟨rfl, rfl, rfl⟩, List.prefix_rfl⟩
    refine (k1.trans k2).trans (foldl (fun s p => ?_) _ _)
    refine ite (refl s) (trans (modScPort ?_) (count ..))
    exact fun _ => ⟨rfl, rfl, rfl⟩

/-- The cells of a packet are free again: pools may be reported, the scheduler stays. -/
theorem freePkt (s : State) (first cells : Nat) : s.KeepsGates (s.freePkt first cells) := by
  refine trans (t := ({ s with qe := { s.qe with pkts := oset s.qe.pkts first none } } : State).setCells first cells 0) ?_ (foldl (fun s b => ?_) _ _)
  · exact of_sc ((State.setCells_keeps (F := (· ∈ [.qe])) (.refl _ _) first cells 0 (by decide)).same .sc (by decide))
      (by rw [(State.setCells_keeps (F := (· ∈ [.qe])) (.refl _ _) first cells 0 (by decide)).same .fc (by decide)])
  · exact ite (of_sc rfl (List.prefix_append ..)) (ite (of_sc rfl List.prefix_rfl) (refl s))

theorem qEvent (s : State) (code q packets bytes : Nat) : s.KeepsGates (s.qEvent code q packets bytes) := by
  unfold State.qEvent
  extract_lets _ s1 _ s2
  have k1 : s.KeepsGates s1 := of_sc rfl List.prefix_rfl
  have k2 : s1.KeepsGates s2 := by
    refine ite (trans ?_ (reportAgg ..)) (ite ?_ (ite ?_ (refl _)))
    all_goals exact of_sc rfl List.prefix_rfl
  exact (k1.trans k2).trans (ite (count ..) (ite (count ..) (refl _)))

theorem gateDrop (s : State) (q : Nat) : s.KeepsGates (s.gateDrop q) := by
  unfold State.gateDrop
  split
  · exact refl s
  · split_ifs
    · exact refl s
    · dsimp only
      split
      · exact refl s
      · next u first pkt popped =>
        have kept := State.popHead_keeps (F := (· ∈ [.qe])) (.refl _ s) q popped (by decide)
        refine trans (t := u) (of_sc (kept.same .sc (by decide)) (by rw [kept.same .fc (by decide)])) ?_
        refine (trans (freePkt u first pkt.cells) (qEvent _ evGate q 1 ((s.headLen q).getD 0))).trans (trans ?_ (reportAgg ..))
        exact ⟨rfl, rfl, fun _ => ⟨rfl, rfl, rfl⟩, List.prefix_rfl⟩

theorem gateDrops (s : State) (p : Nat) : s.KeepsGates (s.gateDrops p) := foldl (fun s _ => ite (gateDrop s _) (refl s)) _ s

end State.KeepsGates

/-- The packet taken off a queue is its head, and no other dequeue is touched. -/
theorem State.popHead_takes {s u : State} {q first : Nat} {pkt : Pkt} (popped : s.popHead q = some (u, first, pkt)) :
    (s.queueAt q).head = some first ∧ u.qe.deq = s.qe.deq := by
  rw [State.popHead] at popped
  dsimp only at popped
  split at popped
  · cases popped
  · next h head =>
    cases popped
    exact ⟨head, rfl⟩

theorem State.popHead_eq_none {s : State} {q : Nat} (empty : s.popHead q = none) : (s.queueAt q).head = none := by
  rw [State.popHead] at empty
  dsimp only at empty
  split at empty
  · assumption
  · cases empty

/-- A decision takes the head packet of the queue it comes to, and the turn passes on to the port after it. -/
theorem schedulerDecision_takes {s s2 s3 s4 : State} {p k2 l2 k3 l3 k4 l4 h : Nat} (run : s.enginesRun = true)
    (port : (s.schedSync.portsReady.find? (fun p => decide (s.schedSync.sc.rrPort ≤ p))).or s.schedSync.portsReady.head? = some p)
    (room : s.schedSync.deqRoom = true) (pick2 : s.schedSync.pickChild (nodeKey 1 p) = some (s2, k2, l2))
    (pick3 : s2.pickChild k2 = some (s3, k3, l3)) (pick4 : s3.pickChild k3 = some (s4, k4, l4)) (head : (s.queueAt (keyNum k4)).head = some h) :
    ∃ d, (schedulerDecision s).qe.deq = s.qe.deq ++ [d] ∧ d.queue = keyNum k4 ∧ d.first = h ∧ d.read = false ∧
      (schedulerDecision s).sc.rrPort = (p + 1) % 64 := by
  have sc : Part.sc ∈ [Part.sc, .pm] := by decide
  have pm : Part.pm ∈ [Part.sc, .pm] := by decide
  have picked : Keeps (· ∈ [.sc, .pm]) s s4 := State.pickChild_keeps (State.pickChild_keeps (State.pickChild_keeps s.schedSync_parts _ pick2) _ pick3) _ pick4
  unfold schedulerDecision
  simp only [run, Bool.not_true, Bool.false_eq_true, if_false, port, room, pick2, pick3, pick4]
  generalize (s4.headLen (keyNum k4)).getD 0 + (s4.scPort p).overhead = charge
  generalize made : State.modScPort _ p _ = s6
  have kept : Keeps (· ∈ [.sc, .pm]) s s6 := made ▸ State.modScPort_keeps (State.chargeNode_keeps (State.chargeNode_keeps (State.chargeNode_keeps
    (State.chargeDeficit_keeps (State.chargeDeficit_keeps (State.chargeDeficit_keeps picked ..) ..) ..) ..) ..) ..) ..
  have qe : s6.qe = s.qe := kept.same .qe (by decide)
  have first : (s6.queueAt (keyNum k4)).head = some h := by rw [State.queueAt, qe]; exact head
  split
  · next none => cases first.symm.trans (State.popHead_eq_none none)
  · next s7 first' pkt popped =>
    obtain ⟨taken, deq⟩ := State.popHead_takes popped
    obtain rfl : first' = h := Option.some.inj (taken.symm.trans first)
    have sync (v : State) : v.schedSync.qe = v.qe := v.schedSync_parts.same .qe (by decide)
    have turn (v : State) : (v.count 23 0).schedSync.sc.rrPort = v.sc.rrPort := ((State.KeepsGates.count v 23 0 1).trans (.schedSync _)).rrPort
    rw [turn, sync, State.count_qe]
    exact ⟨_, congrArg (· ++ [_]) (deq.trans (congrArg Qe.deq qe)), rfl, rfl, rfl, rfl⟩

/-- Settles O54: bringing the scheduler up to date keeps the port in turn, the wheel and the gate lists. -/
theorem schedulerEventsHappen : Obligations.SchedulerEventsHappen := by
  refine ⟨fun s s2 s3 s4 p k2 l2 k3 l3 k4 l4 h run port room pick2 pick3 pick4 head => ?_, fun s x run first => ?_, fun s x run first => ?_,
    fun s p e valid run change => ?_, fun s p w g gate admin swapAt run => ?_⟩
  · obtain ⟨d, taken, rest⟩ := schedulerDecision_takes run port room pick2 pick3 pick4 head
    exact ⟨_, d, rfl, taken, rest⟩
  · refine ⟨_, rfl, ?_, ?_⟩
    · unfold wheelSlotRelease
      simp only [run, Bool.not_true, Bool.false_eq_true, if_false, first]
      rw [(State.KeepsGates.schedSync _).wheel]
      have report (u : State) (a b c d : Nat) (r : Option Nat) (q : Prop) [Decidable q] : (if q then u.reportAgg a b c d r else u).sc.wheel = u.sc.wheel :=
        (State.KeepsGates.ite (State.KeepsGates.reportAgg ..) (.refl u)).wheel
      rw [report, State.count_sc, State.advance_sc]
    · unfold wheelSlotRelease
      simp only [run, Bool.not_true, Bool.false_eq_true, if_false, first]
      rw [(State.schedSync_parts _).same .now (by decide)]
      have report (u : State) (a b c d : Nat) (r : Option Nat) (q : Prop) [Decidable q] : (if q then u.reportAgg a b c d r else u).now = u.now := by
        split <;> simp
      rw [report, State.count_now]
      exact State.advance_now ..
  · refine ⟨_, rfl, ?_, ?_⟩
    · unfold wheelCascade
      simp only [run, Bool.not_true, Bool.false_eq_true, if_false, first]
      exact State.advance_now ..
    · unfold wheelCascade
      simp only [run, Bool.not_true, Bool.false_eq_true, if_false, first, State.advance_sc, List.map_map]
      refine List.map_congr_left fun e _ => ?_
      dsimp only [Function.comp]
      split_ifs <;> rfl
  · refine ⟨_, rfl, ?_, ?_⟩ <;> rw [gateEntryChange, if_neg (by simp [run, Nat.not_le.2 valid])] <;> simp only [change]
    exact (State.schedSync_parts _).same .tu (by decide)
  · have kept : Keeps (· ∈ [.now, .tu]) s (s.advanceNet w) := State.advanceNet_keeps (.refl _ s) w (by decide) (by decide)
    have sc : (s.advanceNet w).sc = s.sc := kept.same .sc (by decide)
    have admin' : ((s.advanceNet w).scPort p).admin = some g := by rw [State.scPort, sc]; exact admin
    have swapped : gateSwap p s = ((s.advanceNet w).swapGate p).schedSync := by
      rw [gateSwap]; simp only [gate, admin, run, swapAt, Option.isSome_some, Bool.and_self]
    refine ⟨_, rfl, ?_⟩
    rw [swapped, State.swapGate]
    simp only [admin']
    generalize made : State.report _ scGateSwapped p = u
    have after := (State.KeepsGates.gateDrops u p).trans (State.KeepsGates.schedSync _)
    obtain ⟨oper, noAdmin, noSwap⟩ := after.gates p
    have port : u.scPort p = { (s.advanceNet w).scPort p with oper := some g, admin := none, swapAt := none } := by
      rw [← made]
      exact congrArg (·.getD ScPort.default) (oget_oset_same (s.advanceNet w).sc.ports p (some _))
    refine ⟨oper.trans (by rw [port]), noAdmin.trans (by rw [port]), noSwap.trans (by rw [port]), ?_⟩
    obtain ⟨more, grown⟩ := after.reports
    have since := congrArg Fc.reports (kept.same .fc (by decide) : (s.advanceNet w).fc = s.fc)
    refine ⟨(s.advanceNet w).faultMsg scGateSwapped p none :: more, _, ?_, List.mem_cons_self .., State.faultMsg_source ..⟩
    rw [← grown, ← since, ← made, State.report_reports, List.append_assoc]
    rfl

end Sys2Proof.Machine
end

section
/-! PROOFS. Requests of hosts and the near store (01 R38; 04 R126): the reading of a request by the number of its function. -/

set_option Elab.async false

namespace Sys2Proof.Machine
open Sys2Proof

/-- The region of 1 MiB at address 0, DIRECT and of every owner. -/
def directRegion : Region :=
  ⟨0, 2 ^ 20, 0, 0, 0, 3, 0xFFF, 0xFFFF, 0, false, false, false, 0, 0, 0, 4, 1, false, 100, 0, 5,
    ⟨2 ^ 20, List.replicate 12 0, 0, []⟩, Extent.none, Extent.none, Extent.none, Extent.none, [], [], [], [], 0, false, false, false, [], [],
    [], [], [], [], 0, 0⟩

/-- A host function in L0 whose one decoder maps its addresses from 0 to `directRegion`. -/
def decodingFn : HostFn :=
  { HostFn.reset with exist := true, link := .l0, decoders := [⟨⟨0, 2 ^ 28, 1, 256, 0, 0, false, false⟩, true, false, 0⟩] }

/-- A state with nine host functions, not a whole device: the near store holds line 0, and the decoder of function 8 leads to it. -/
def nineFunctions : State := { State.reset with
  hp := ⟨List.replicate 9 decodingFn, State.reset.hp.ports, 0⟩
  rg := { State.reset.rg with regions := [(0, some directRegion)] }
  ns := { State.reset.ns with lines := [(nsKey 0 0 0, some ⟨0, false, false, 15, 5⟩)] }
  pw := { Pw.reset with cold := .done } }

theorem nineFunctions_clear : nineFunctions.Clear where
  requests := fun h mem => by rw [List.eq_of_mem_replicate mem]; rfl
  windows := by decide
  tied := rfl

/-- Function 8 reads the line that the near store holds. -/
theorem nineFunctions_hit : nineFunctions.portFull 8 = false ∧ (nineFunctions.fnAt 8).viral = false ∧
    nineFunctions.regionAt 0 = some (0, directRegion) ∧ nineFunctions.ctrLine 0 = none ∧ nineFunctions.fetchOf 0 = none ∧
    nineFunctions.nsFind 0 = some (nsKey 0 0 0, ⟨0, false, false, 15, 5⟩) ∧ nineFunctions.gate ⟨8, 0, .read true⟩ = .to 0 := by
  decide +kernel

/-- A request of a function from 8 on counts as one of an engine, and answers nothing. -/
theorem cxlmemRead_past_functions : exec (.cxlmemRead 8 0 true []) nineFunctions = .next nineFunctions := by
  have kept : nineFunctions.enterKept = nineFunctions := rfl
  show Host.Outcome.next (nineFunctions.hostAccess false ⟨8, 0, .read true⟩ []) = _
  rw [State.hostAccess, kept]
  rfl

/-- Refutes O40: in a state of nine functions, function 8 reads a line that the near store holds, and no answer comes. -/
theorem not_hostRequestsHitTheNearStore : ¬ Obligations.HostRequestsHitTheNearStore := by
  intro hits
  obtain ⟨room, healthy, region, noCtr, noFetch, found, gate⟩ := nineFunctions_hit
  obtain ⟨reads, -, -⟩ := hits nineFunctions 8 0 0 0 _ _ _ nineFunctions_clear room healthy region noCtr noFetch found
  obtain ⟨t, ran, answered, -⟩ := reads true gate rfl
  obtain rfl : nineFunctions = t := Host.Outcome.next.inj (cxlmemRead_past_functions.symm.trans ran)
  cases answered

end Sys2Proof.Machine
end

section
/-! PROOFS. Scrubbing and FILL (07 R248 to R251, R262 to R264). -/

set_option Elab.async false

namespace Sys2Proof.Machine
open Sys2Proof

theorem findSome?_range_first {α β : Type} {g : Nat → α → Option β} {a : α} {v : β} (l : List α) (found : g 0 a = some v) :
    (List.range (a :: l).length).findSome? (fun i => ((a :: l)[i]?).bind (g i)) = some v := by
  rw [List.length_cons, List.range_succ_eq_map, List.findSome?_cons, List.getElem?_cons_zero, Option.bind_some, found]

/-- FILL begins with the link tables of the queues. -/
theorem State.reservedFill_of_qstate {s : State} {b : Nat} (left : s.rg.qstate.toFill = some b) :
    s.reservedFill = some (0, 1, 0, s.popMask, s.rg.qstate, b) := by
  rw [State.reservedFill, State.reserved, List.append_assoc, List.singleton_append]
  refine findSome?_range_first (g := fun i (e : Nat × Nat × Nat × Extent) =>
    (e.2.2.2.toFill).map fun b => (i, e.1, e.2.1, e.2.2.1, e.2.2.2, b)) _ ?_
  dsimp only
  rw [left, Option.map_some]

theorem patrolRead_advances {s : State} {c : Nat} (env : ReadEnv) (run : s.lpRuns = true) (goes : s.lp.scrubHalted = false)
    (serves : s.fenced c = false) (more : s.lp.patrolPos.getD c 0 + 1 < s.chanLines c) (bare : s.lineFilled c (s.lp.patrolPos.getD c 0) = false) :
    patrolRead c env false s = { s with lp := { s.lp with patrolPos := lset s.lp.patrolPos c (s.lp.patrolPos.getD c 0 + 1) } } := by
  have lines : s.chanLines c ≠ 0 := by omega
  rw [patrolRead, if_neg (by simp [run, goes, serves, lines])]
  simp only [bare]
  exact if_pos more

theorem patrolRead_halts {s : State} {c : Nat} (env : ReadEnv) (run : s.lpRuns = true) (goes : s.lp.scrubHalted = false)
    (serves : s.fenced c = false) (lines : s.chanLines c ≠ 0) :
    patrolRead c env true s = ({ s with lp := { s.lp with scrubHalted := true } } : State).report lpScrubHalted c (some 11) := by
  rw [patrolRead, if_neg (by simp [run, goes, serves, lines])]
  rfl

theorem demandScrub_of_queue {s : State} {c cla : Nat} {rest : List (Nat × Nat)} (run : s.enginesRun = true) (goes : s.lp.scrubHalted = false)
    (queue : s.lp.demandQ = (c, cla) :: rest) :
    (s.readable c cla = false → demandScrub ⟨[], []⟩ false s = ({ s with lp := { s.lp with demandQ := rest } } : State).upset ⟨[], []⟩) ∧
    demandScrub ⟨[], []⟩ true s = ({ s with lp := { s.lp with scrubHalted := true } } : State).report lpScrubHalted c (some 11) := by
  have starts : ¬(!s.enginesRun || s.lp.scrubHalted) = true := by simp [run, goes]
  refine ⟨fun bare => ?_, ?_⟩ <;> rw [demandScrub, if_neg starts, queue]
  · exact if_neg (bare ▸ Bool.false_ne_true)
  · rfl

/-- The patrol of a channel is marked late. -/
def State.markLate (s : State) (c : Nat) : State := { s with lp := { s.lp with patrolLate := lset s.lp.patrolLate c true } }

theorem State.markLate_now (s : State) (c : Nat) : (s.markLate c).now = s.now := rfl

theorem State.markLate_fc (s : State) (c : Nat) : (s.markLate c).fc = s.fc := rfl

theorem patrolLate_reports {s : State} {c : Nat} (valid : c < 12) (row : c < s.lp.patrolLate.length) (serves : s.fenced c = false)
    (late : s.lp.patrolLate.getD c false = false) :
    (patrolLate c s).lp.patrolLate.getD c false = true ∧ s.Reported (patrolLate c s) lpPatrolLate ∧
      (patrolLate c s).now = max s.now (s.lp.patrolStart.getD c 0 + s.lp.patrolH * hourNs / 10 * 11) := by
  have starts : ¬(decide (12 ≤ c) || s.fenced c || s.lp.patrolLate.getD c false) = true := by rw [serves, late]; simpa using valid
  rw [patrolLate, if_neg starts]
  generalize s.lp.patrolStart.getD c 0 + s.lp.patrolH * hourNs / 10 * 11 = due
  change (((s.advance due).markLate c).report lpPatrolLate c).lp.patrolLate.getD c false = true ∧
    s.Reported (((s.advance due).markLate c).report lpPatrolLate c) lpPatrolLate ∧ (((s.advance due).markLate c).report lpPatrolLate c).now = _
  refine ⟨?_, s.reported_report ((State.markLate_fc ..).trans (s.advance_fc due)) ..,
    ((State.report_now ..).trans (State.markLate_now ..)).trans (s.advance_now due)⟩
  show (lset (s.advance due).lp.patrolLate c true).getD c false = true
  rw [State.advance_lp, lset, List.getD_eq_getElem?_getD, List.getElem?_set_self row]
  rfl

theorem State.fillQueue_rg (s : State) (p g m n : Nat) (x : Extent) (b : Nat) : (s.fillQueue p g m n x b).rg = s.rg :=
  (State.fillQueue_keeps (F := (· ∈ [.mc, .bw])) (.refl _ s) _ _ _ _ _ _ (by decide) (by decide)).same .rg (by decide)

theorem fillBlock_fills {s : State} {b : Nat} (awake : s.bgPaused = false) (goes : s.lp.fillHalted = false) (unpaused : s.lp.paused = false)
    (media : s.mediaReady = true) (left : s.rg.qstate.toFill = some b) :
    (fillBlock false s).rg = { s.rg with qstate := s.rg.qstate.fill b } := by
  have kept := s.fillQueue_rg 1 0 s.popMask 64 s.rg.qstate b
  rw [fillBlock, if_neg (by simp [awake, goes, unpaused, media]), if_neg Bool.false_ne_true, State.reservedFill_of_qstate left]
  dsimp only
  generalize s.fillQueue 1 0 s.popMask 64 s.rg.qstate b = u at kept
  rw [← kept]
  rfl

/-- Settles O45: each event by its own rule; the queue link tables are filled before every other extent. -/
theorem scrubGoesOn : Obligations.ScrubGoesOn := by
  have entered {s : State} {who : Nat} (free : s.entryFree who = true) (g : State → State) :
      (.next (s.engine who g) : Host.Outcome State Fault Refusal) = .next ((g s).engineDone who) :=
    congrArg _ (State.engine_of_free free g)
  refine ⟨fun s c env free run goes serves more bare => ⟨_, entered free _, ?_⟩, fun s c env free run goes serves lines => ⟨_, entered free _, ?_⟩,
    fun s c cla rest free run goes queue => ⟨fun bare => ⟨_, entered free _, ?_⟩, ⟨_, entered free _, ?_⟩⟩,
    fun s c valid row serves late => ⟨_, rfl, ?_⟩, fun s b free awake goes unpaused media left => ⟨_, entered free _, ?_⟩⟩
  · rw [patrolRead_advances env run goes serves more bare]
    exact ⟨rfl, rfl⟩
  · rw [patrolRead_halts env run goes serves lines]
    exact ⟨rfl, (State.report_reported ..).congr rfl rfl⟩
  · rw [(demandScrub_of_queue run goes queue).1 bare]
    exact ⟨rfl, rfl⟩
  · rw [(demandScrub_of_queue run goes queue).2]
    exact ⟨rfl, (State.report_reported ..).congr rfl rfl⟩
  · exact patrolLate_reports valid row serves late
  · exact fillBlock_fills awake goes unpaused media left

end Sys2Proof.Machine
end

section
/-! PROOFS. Heat sweeps, the switch of moved pages, and MUCK (05 R169 to R174; 06 R216). -/

set_option Elab.async false

namespace Sys2Proof.Machine
open Sys2Proof

/-! ### What accesses of the codec leave of the walk of MUCK

They change the extents, the free lists and the contents of a region; its size and the place of MUCK stay. -/

theorem of_ite_some {α : Type} {P : Prop} {c : Prop} [Decidable c] {a b : Option α} {v : α} (h : (if c then a else b) = some v)
    (yes : a = some v → P) (no : b = some v → P) : P := by
  split_ifs at h
  · exact yes h
  · exact no h

theorem apply_ite_eq {α β : Type} (f : α → β) {c : Prop} [Decidable c] {a b : α} {v : β} (yes : f a = v) (no : f b = v) :
    f (if c then a else b) = v := by
  rw [apply_ite f, yes, no, ite_self]

section
variable (r : Region)

theorem Region.size_setExt (x : Extent) : ∀ kind, (r.setExt kind x).size = r.size
  | 0 | 1 | 2 | _ + 3 => rfl

theorem Region.size_fillBlock (kind b : Nat) : (r.fillBlock kind b).size = r.size := by
  unfold Region.fillBlock
  dsimp only
  split_ifs <;> rfl

theorem Region.size_touch (kind off : Nat) : (r.touch kind off).size = r.size :=
  apply_ite_eq Region.size rfl ((size_fillBlock ..).trans (size_setExt ..))

theorem Region.size_dropRun (i len : Nat) : (r.dropRun i len).size = r.size := rfl

theorem Region.size_addRun (i : Nat) : ∀ len, (r.addRun i len).size = r.size
  | 0 | _ + 1 => rfl

theorem Region.size_freeRun (i len : Nat) : (r.freeRun i len).size = r.size := by
  unfold Region.freeRun
  split_ifs
  · rfl
  · split
    · split_ifs <;> exact size_addRun ..
    · exact size_addRun ..

theorem Region.size_addLinks : ∀ l, (r.addLinks l).size = r.size
  | [] | _ :: _ => rfl

end

section
variable {r : Region} {p : Placing}

theorem Region.size_of_freshRun {k : Nat} (placed : r.freshRun k = some p) : p.region.size = r.size := by
  obtain ⟨x, -, rfl⟩ := Option.map_eq_some_iff.1 placed
  exact (size_addRun ..).trans (size_dropRun ..)

theorem Region.size_of_withLinks {len i m : Nat} {links : List Nat} (placed : r.withLinks len i m links = some p) : p.region.size = r.size :=
  of_ite_some placed (fun h => Option.some.inj h ▸ rfl) fun h => of_ite_some h nofun fun h => Option.some.inj h ▸ rfl

/-- The function is unfolded before it is applied: an application is not, since the count of blocks under it does not reduce. -/
theorem Region.size_of_runUnfilled {x : Region × Nat} (found : r.runUnfilled = some x) : x.1.size = r.size := by
  generalize unfolded : Region.runUnfilled = f at found
  delta Region.runUnfilled at unfolded
  subst unfolded
  beta_reduce at found
  generalize (List.range _).find? _ = first at found
  cases first
  · cases found
  · obtain rfl := Option.some.inj found
    exact (size_dropRun ..).trans (size_touch ..)

theorem Region.size_of_unfilledRun {k : Nat} {runs : List (Nat × Nat)} {links : List Nat} (placed : r.unfilledRun k runs links = some p) :
    p.region.size = r.size := by
  obtain ⟨⟨r1, i⟩, found, rfl⟩ := Option.map_eq_some_iff.1 placed
  exact (size_addRun ..).trans (size_of_runUnfilled found)

theorem of_or_some {P : Prop} {o q : Option Placing} (h : (match o with | some p => some p | none => q) = some p) (first : o = some p → P)
    (second : q = some p → P) : P := by
  cases o with
  | none => exact second h
  | some _ => exact first h

theorem Region.size_of_placeOut {len : Nat} {g : Gran} (placed : r.placeOut len g = some p) : p.region.size = r.size := by
  refine of_ite_some placed (fun fresh => ?_) fun kept => of_ite_some kept (fun h => Option.some.inj h ▸ rfl) fun grown => ?_
  · refine of_or_some fresh size_of_freshRun fun short => of_or_some short (fun short => ?_) size_of_unfilledRun
    split at short
    · exact (size_of_withLinks short).trans (size_dropRun ..)
    · cases short
  · refine of_or_some grown (fun run => of_ite_some run (fun run => ?_) nofun) fun links => of_or_some links size_of_withLinks size_of_unfilledRun
    split at run
    · exact of_ite_some run (fun h => Option.some.inj h ▸ (size_addRun ..).trans (size_dropRun ..)) nofun
    · cases run

end

theorem match_region {α : Type} (f : State → α) {v : α} {o : Option Region} {t : State} {g : Region → State} (bare : f t = v)
    (found : ∀ r, o = some r → f (g r) = v) : f (match (generalizing := false) o with | none => t | some r => g r) = v := by
  cases o with
  | none => exact bare
  | some r => exact found r rfl

/-- What the accesses of the codec and the tiers keep of a state, once their simplest operations keep it: those that change no region, no
codec and no channel, those that keep the size of a region and the place of MUCK, and the reads and writes of a line. -/
structure State.Kept {α : Type} (π : State → α) : Prop where
  other {s t : State} (k : Keeps (fun q => (q != .rg && q != .cd && q != .mc) = true) s t) : π t = π s
  sized (s : State) (n : Nat) {g : Region → Region} (same : ∀ r, s.region n = some r → (g r).size = r.size) : π (s.modRegion n g) = π s
  codec (s : State) (cd : Cd) (region : cd.muckRegion = s.cd.muckRegion) (pos : cd.muckPos = s.cd.muckPos) : π { s with cd := cd } = π s
  upsets (s : State) (p g m : Nat) (x : Extent) (b : Nat) : π (s.fillUpsets p g m x b) = π s
  queueRead (s : State) (l : Loc) (who row id : Nat) : π (s.queueRead l who row id) = π s
  queueWrite (s : State) (l : Loc) (who row : Nat) (mode : StripeWrite) : π (s.queueWrite l who row mode) = π s
  readLine (s : State) (env : ReadEnv) (q : ReadFor) (l : Loc) (scr : Bool) : π (s.readLine env q l scr).1 = π s
  readOn (s : State) (l : Loc) (scr : Bool) (w c : Nat) : π (s.readOn l scr w c).1 = π s
  putLine (s : State) (l : Loc) (scr : Bool) (d : Line) (poison kind : Bool) (w : Nat) : π (s.putLine l scr d poison kind w) = π s

namespace State.Kept

variable {α : Type} {π : State → α} (h : State.Kept π) (s : State)
include h

theorem count (a b c : Nat) : π (s.count a b c) = π s :=
  have yes : true = true := rfl
  h.other (State.count_keeps (.refl _ s) a b c)

theorem report (a b : Nat) (w : Option Nat) : π (s.report a b w) = π s :=
  have yes : true = true := rfl
  h.other (State.report_keeps (.refl _ s) a b w)

theorem tiering (tr : Tr) : π { s with tr := tr } = π s :=
  have yes : true = true := rfl
  h.other (.upd (.refl _ s) (h_tr := .inr yes))

theorem touchBlock (n kind off : Nat) : π (s.touchBlock n kind off) = π s :=
  match_region π rfl fun _ _ => apply_ite_eq π rfl ((h.upsets ..).trans (h.sized _ _ fun r _ => r.size_touch ..))

theorem fencedWrite (l : Loc) (w : Nat) : π (s.fencedWrite l w) = π s :=
  have yes : true = true := rfl
  h.other (State.fencedWrite_keeps (.refl _ s) l w)

theorem extRead (n kind off w sel : Nat) : π (s.extRead n kind off w sel).1 = π s := by
  unfold State.extRead
  split
  · rfl
  · refine apply_ite_eq (fun x : State × LineRead => π x.1) rfl ((h.queueRead ..).trans ?_)
    split
    · exact h.readLine ..
    · exact h.readOn ..
    · exact h.readOn ..

theorem extWrite (n kind off w : Nat) (d : Line) (poison : Bool) (mode : StripeWrite) : π (s.extWrite n kind off w d poison mode) = π s :=
  match_region π rfl fun _ _ => (h.putLine ..).trans ((h.queueWrite ..).trans ((h.fencedWrite ..).trans (h.touchBlock ..)))

theorem metaBack (m : MetaLine) : π (s.metaBack m) = π s :=
  apply_ite_eq π ((h.count ..).trans (h.extWrite ..)) rfl

theorem metaInstall (m : MetaLine) : π (s.metaInstall m) = π s := by
  have cached (l : List MetaLine) := h.codec s { s.cd with mcache := l ++ [m] } rfl rfl
  unfold State.metaInstall
  dsimp only
  split
  · exact cached _
  · exact apply_ite_eq π ((h.metaBack ..).trans (cached _)) (cached _)

theorem metaSet (n i w : Nat) (d : Line) : π (s.metaSet n i w d) = π s := by
  unfold State.metaSet
  split
  · exact h.codec s _ rfl rfl
  · exact h.metaInstall ..

theorem decodeError (dpa : Nat) (e : DecErr) (w : Nat) : π (s.decodeError dpa e w) = π s :=
  (h.report ..).trans ((h.count ..).trans (h.codec s _ rfl rfl))

theorem decodeRepaired (dpa : Nat) (e : DecErr) (w : Nat) : π (s.decodeRepaired dpa e w) = π s :=
  (h.report ..).trans ((h.count ..).trans (h.codec s _ rfl rfl))

theorem descsMended (n i w : Nat) : π (s.descsMended n i w) = π s := by
  unfold State.descsMended
  split
  · exact apply_ite_eq π (foldl_same π (fun s _ => h.decodeRepaired s ..) _ _) rfl
  · rfl

theorem metaRaw (n i w sel : Nat) : π (s.metaRaw n i w sel).1 = π s := h.extRead ..

theorem metaOther (n i w : Nat) : π (s.metaOther n i w).1 = π s :=
  apply_ite_eq (fun x : State × Option Line => π x.1) (apply_ite_eq (fun x : State × Option Line => π x.1) (h.metaRaw ..)
    ((h.metaRaw ..).trans (h.metaRaw ..))) rfl

theorem metaLine (n i w : Nat) : π (s.metaLine n i w).1 = π s := by
  have raw := (h.metaRaw (s.count 19 1) n i w 0).trans (h.count ..)
  unfold State.metaLine
  dsimp only
  split
  · exact h.count ..
  · split
    · exact (h.metaInstall ..).trans raw
    · split
      · exact (h.descsMended ..).trans ((h.metaInstall ..).trans ((h.metaOther ..).trans raw))
      · exact (h.metaOther ..).trans raw

theorem descGet (n k w sel : Nat) : π (s.descGet n k w sel).1 = π s := by
  unfold State.descGet
  dsimp only
  split
  · exact h.metaLine ..
  · exact h.metaRaw ..

theorem setOwns (n k : Nat) (o : Region → Option Owned) : π (s.modRegion n fun r => r.setOwns k (o r)) = π s :=
  h.sized _ _ fun _ _ => rfl

theorem descsPoison (n i w : Nat) : π (s.descsPoison n i w) = π s := by
  refine match_region π rfl fun _ _ => (foldl_same π (fun s j => ?_) _ _).trans (h.metaSet ..)
  exact (h.setOwns ..).trans (h.sized _ _ fun _ _ => rfl)

theorem lostDescs (n k w : Nat) : π (s.lostDescs n k w) = π s :=
  match_region π rfl fun _ _ => (foldl_same π (fun s _ => h.decodeError s ..) _ _).trans (h.descsPoison ..)

theorem descSet (n k w v : Nat) : π (s.descSet n k w v) = π s := by
  unfold State.descSet
  extract_lets r a s1 kind
  have read : π a.1 = π s := by
    unfold a
    split
    · exact h.metaLine ..
    · exact (h.lostDescs ..).trans (h.metaLine ..)
  have set : π s1 = π s := (h.metaSet ..).trans read
  exact apply_ite_eq π ((h.setOwns ..).trans set) set

theorem writeFree (n : Nat) : π (s.writeFree n) = π s := by
  refine match_region π rfl fun _ _ => (foldl_same π (fun s j => ?_) _ _).trans ((foldl_same π (fun s i => ?_) _ _).trans (h.sized _ _ ?_))
  · split
    · exact h.putLine ..
    · rfl
  · split
    · exact h.putLine ..
    · rfl
  · exact fun _ _ => rfl

theorem freeGran (n idx m : Nat) (links : List Nat) : π (s.freeGran n idx m links) = π s :=
  (h.writeFree ..).trans (h.sized _ _ fun r _ => (Region.size_addLinks _ links).trans (r.size_freeRun idx m))

theorem checkLow (n : Nat) : π (s.checkLow n) = π s := by
  have low (b : Bool) (l : List Nat) :
      π ({ s.modRegion n (fun r => { r with yardLow := b }) with cd := { s.cd with muckFirst := l } } : State) = π s :=
    (h.codec (s.modRegion n fun r => { r with yardLow := b }) { s.cd with muckFirst := l } rfl rfl).trans (h.sized _ _ fun _ _ => rfl)
  exact match_region π rfl fun _ _ => apply_ite_eq π (apply_ite_eq π rfl ((h.report ..).trans (low ..))) (apply_ite_eq π (low ..) rfl)

theorem poisonGran (n k w : Nat) (g : Gran) : π (s.poisonGran n k w g) = π s :=
  (h.checkLow ..).trans ((h.freeGran ..).trans (h.descSet ..))

theorem stallRead (n kind off w sel : Nat) : π (s.stallRead n kind off w sel).1 = π s := h.extRead ..

theorem readStalls (n idx m w sel : Nat) : π (s.readStalls n idx m w sel).1 = π s :=
  foldl_same (fun acc : State × Bytes × Bool × Nat => π acc.1) (fun _ _ => h.stallRead ..) _ _

theorem walkChain (n k w sel cl base links fuel p : Nat) (head : Bool) (pay : Bytes) (c : Chain) :
    π (s.walkChain n k w sel cl base links fuel p head pay c).1 = π s := by
  induction fuel generalizing s p head pay c with
  | zero => rfl
  | succ fuel ih =>
    unfold State.walkChain
    dsimp only
    split
    · have read := (h.stallRead (s.count (17 + cl) 4) n 3 (base + 64 * field p 0 37) w sel).trans (h.count ..)
      exact apply_ite_eq (fun x : State × Chain => π x.1) rfl (apply_ite_eq (fun x : State × Chain => π x.1) read ((ih ..).trans read))
    · rfl
    · rfl

theorem readGranAt (n k w sel : Nat) (r : Region) (v : Nat) : π (s.readGranAt n k w sel r v).1 = π s := by
  unfold State.readGranAt
  have either {c : Prop} [Decidable c] {x y : State × Gran} (yes : π x.1 = π s) (no : π y.1 = π s) : π (if c then x else y).1 = π s :=
    apply_ite_eq (fun x : State × Gran => π x.1) yes no
  extract_lets kind m idx shed rw_ _ g0 a cl c _
  have read : π a.1 = π s := h.readStalls ..
  have walked : π c.1 = π s := apply_ite_eq (fun x : State × Chain => π x.1) ((h.walkChain ..).trans read) read
  refine either rfl (either rfl (either read (either walked (either (either walked walked) ?_))))
  split
  · exact walked
  · exact (h.count ..).trans walked

theorem readGran (n k w sel : Nat) : π (s.readGran n k w sel).1 = π s := by
  unfold State.readGran
  split
  · rfl
  · dsimp only
    split
    · exact h.descGet ..
    · exact (h.readGranAt ..).trans (h.descGet ..)

theorem goodCopy (n k w : Nat) : π (s.goodCopy n k w).1 = π s := by
  unfold State.goodCopy
  dsimp only
  split
  · exact h.readGran ..
  · exact (h.readGran ..).trans (h.readGran ..)

theorem restoreGran (n k w sel : Nat) (g : Gran) (r : Region) : π (s.restoreGran n k w sel g r) = π s := by
  refine (h.descSet ..).trans ((foldl_same π (fun s j => ?_) _ _).trans (foldl_same π (fun s i => ?_) _ _))
  · exact (h.extWrite ..).trans (h.extRead ..)
  · exact (h.extWrite ..).trans (h.extRead ..)

theorem getGran (n k w : Nat) : π (s.getGran n k w).1 = π s := by
  unfold State.getGran
  split
  · rfl
  · extract_lets a dpa b
    split
    · exact h.readGran ..
    · have read : π a.1 = π s := h.readGran ..
      have copied : π b.1 = π s := by
        unfold b
        split
        · exact (h.goodCopy ..).trans read
        · exact read
      split
      · exact (h.decodeRepaired ..).trans ((h.restoreGran ..).trans copied)
      · split
        · exact (h.lostDescs ..).trans copied
        · exact (h.decodeError ..).trans ((h.poisonGran ..).trans copied)

theorem writeStored (n k w : Nat) (r : Region) (p : Placing) (out : Bytes) (poison : Nat) (only : Option Nat) :
    π (s.writeStored n k w r p out poison only) = π s := by
  refine (foldl_same π (fun s i => ?_) _ _).trans (foldl_same π (fun s i => ?_) _ _)
  · exact h.extWrite ..
  · exact apply_ite_eq π rfl (h.extWrite ..)

theorem storeGran (n k w : Nat) (g : Gran) (data : Bytes) (poison rewrites : Nat) (raw : Bool) (only : Option Nat) :
    π (s.storeGran n k w g data poison rewrites raw only).1 = π s := by
  unfold State.storeGran
  split
  · rfl
  · next r region =>
    refine apply_ite_eq (fun x : State × YardWrite => π x.1) ((h.checkLow ..).trans ((h.freeGran ..).trans (h.descSet ..))) ?_
    extract_lets packed cl s0 out
    split
    · rfl
    · next p placed =>
      have sized := Region.size_of_placeOut placed
      have same : s0.region n = some r := by
        unfold s0
        split
        · exact region
        · rw [State.region, State.count_rg]; exact region
      have counted : π s0 = π s := apply_ite_eq π rfl (h.count ..)
      refine (h.checkLow ..).trans ((h.freeGran ..).trans ((foldl_same π (fun s x => h.freeGran s ..) _ _).trans
        ((h.setOwns ..).trans ((h.descSet ..).trans ((h.writeStored ..).trans ((foldl_same π (fun s b => h.upsets s ..) _ _).trans
        ((h.sized _ _ fun r' found => ?_).trans counted)))))))
      rw [Option.some.inj (found.symm.trans same), sized]

theorem lostMap (n w : Nat) (r : Region) (line : Nat) : π (s.lostMap n w r line) = π s := by
  refine (foldl_same π (fun s p => ?_) _ _).trans (h.metaSet ..)
  refine (h.report ..).trans ((h.tiering ..).trans ((h.sized _ n ?_).trans (foldl_same π (fun s k => ?_) _ _)))
  · exact fun _ _ => rfl
  · exact apply_ite_eq π (h.getGran ..) ((h.poisonGran ..).trans (h.getGran ..))

theorem pageGet (n page w : Nat) : π (s.pageGet n page w).1 = π s := by
  unfold State.pageGet
  split
  · rfl
  · dsimp only
    split
    · exact h.metaLine ..
    · exact (h.lostMap ..).trans (h.metaLine ..)

theorem muckReset (n k : Nat) (g : Gran) : π (s.muckReset n k g) = π s :=
  apply_ite_eq π rfl ((h.setOwns ..).trans (h.descSet ..))

theorem muckChain (n k : Nat) (g : Gran) (r : Region) : π (s.muckChain n k g r) = π s := by
  have left (u : State) (x : Nat) : π { u with cd := { u.cd with muckLeft := x } } = π u := h.codec u { u.cd with muckLeft := x } rfl rfl
  exact apply_ite_eq π ((h.count ..).trans ((h.checkLow ..).trans ((h.freeGran ..).trans (h.storeGran ..))))
    ((left ..).trans (h.muckReset s n k g))

theorem muckGran (n k : Nat) : π (s.muckGran n k) = π s := by
  unfold State.muckGran
  extract_lets a
  have read : π a.1 = π s := h.getGran ..
  split
  · exact read
  · extract_lets g
    refine apply_ite_eq π ((h.muckChain ..).trans read) (apply_ite_eq π ?_ (apply_ite_eq π ?_ ((h.muckReset ..).trans read)))
    · exact apply_ite_eq π ((h.count ..).trans ((h.storeGran ..).trans read)) ((h.muckReset ..).trans read)
    · exact apply_ite_eq π read ((h.descSet ..).trans read)

end State.Kept

/-- Where MUCK is, and the size of every region. -/
def State.plan (s : State) : Nat × Nat × (Nat → Option Nat) := (s.cd.muckRegion, s.cd.muckPos, fun n => (s.region n).map Region.size)

/-- Changes outside the regions and the codec leave the plan. -/
theorem State.plan_of_keeps {s t : State} (k : Keeps (fun q => (q != .rg && q != .cd) = true) s t) : t.plan = s.plan := by
  rw [State.plan, k.same .cd (by decide), State.plan]
  unfold State.region
  rw [k.same .rg (by decide)]

theorem State.plan_modRegion (s : State) (n : Nat) {g : Region → Region} (sized : ∀ r, s.region n = some r → (g r).size = r.size) :
    (s.modRegion n g).plan = s.plan := by
  have all (m : Nat) : ((s.modRegion n g).region m).map Region.size = (s.region m).map Region.size := by
    rw [State.region_modRegion]
    split_ifs with here
    · rw [here]
      cases found : s.region n with
      | none => rfl
      | some r => exact congrArg some (sized r found)
    · rfl
  exact congrArg (fun f => (s.cd.muckRegion, s.cd.muckPos, f)) (funext all)

theorem State.plan_kept : State.Kept State.plan :=
  have yes : true = true := rfl
  { other := fun k => plan_of_keeps (k.mono fun q => by cases q <;> decide)
    sized := plan_modRegion
    codec := fun s cd region pos => by rw [State.plan, State.plan, region, pos]; rfl
    upsets := fun _ _ _ _ _ _ => rfl
    queueRead := fun s l who row id => plan_of_keeps (State.queueRead_keeps (.refl _ s) l who row id)
    queueWrite := fun s l who row mode => plan_of_keeps (State.queueWrite_keeps (.refl _ s) l who row mode)
    readLine := fun s env q l scr => plan_of_keeps (State.readLine_keeps (.refl _ s) env q l scr)
    readOn := fun s l scr w c => plan_of_keeps (State.readOn_keeps (.refl _ s) l scr w c)
    putLine := fun s l scr d poison kind w => plan_of_keeps (State.putLine_keeps (.refl _ s) l scr d poison kind w) }

theorem State.muckEnd_eq (s : State) : s.muckEnd = ((s.plan.2.2 s.plan.1).map (· / 512)).getD 0 := by
  show _ = ((((s.region s.cd.muckRegion).map Region.size).map (· / 512)).getD 0)
  rw [Option.map_map]
  rfl

/-- One granule on: the page is read where a region is tiered, the granule is mended, and neither moves MUCK. -/
theorem muckVisit_pos {s : State} {r : Region} (awake : s.bgPaused = false) (goes : s.cd.muckHalted = false) (whole : 0 ∉ s.cd.isolated)
    (region : s.region s.cd.muckRegion = some r) (coded : r.tier ≠ 0) (more : s.cd.muckPos + 1 < r.size / 512) :
    (muckVisit false s).cd.muckPos = s.cd.muckPos + 1 := by
  have mucks : s.mucks s.cd.muckRegion = true := by rw [State.mucks, region]; exact decide_eq_true coded
  have last : s.muckEnd = r.size / 512 := by rw [State.muckEnd, region]; rfl
  have starts : (if (s.mucks s.cd.muckRegion && decide (s.cd.muckPos < s.muckEnd)) = true then s else s.muckPick) = s :=
    if_pos (by rw [mucks, last]; exact decide_eq_true (by omega))
  rw [muckVisit, if_neg (by simp [awake, goes, whole]), if_neg Bool.false_ne_true]
  extract_lets s1 n k tier pg s2
  have same : s1 = s := starts
  have read : pg.1.plan = s1.plan := apply_ite_eq (fun x : State × PageEnt => x.1.plan) (State.plan_kept.pageGet ..) rfl
  have mended : s2.plan = s1.plan := (apply_ite_eq State.plan (State.plan_kept.muckGran ..) rfl).trans read
  have ends : s2.muckEnd = r.size / 512 := by rw [State.muckEnd_eq, mended, same, ← State.muckEnd_eq, last]
  have here : k = s.cd.muckPos := congrArg (fun s => s.cd.muckPos) same
  rw [if_neg (by rw [same, mucks]; exact Bool.false_ne_true), if_pos (by rw [ends, here]; exact more)]
  exact congrArg (· + 1) here

/-- A sweep takes place at its due time: what it reads and moves leaves the clock. -/
theorem heatSweep_now {s : State} {n : Nat} {r : Region} (region : s.region n = some r) (tiered : r.tier = 2) (run : s.enginesRun = true)
    (awake : s.bgPaused = false) (goes : s.tr.paused = false) :
    (heatSweep n s).now = max s.now (max (r.epochAt + r.epoch * 1000000) r.sweepEnd) := by
  have yes : true = true := rfl
  rw [heatSweep, region]
  dsimp -zeta only
  rw [if_neg (by simp [tiered, run, awake, goes]), ← s.advance_now (max (r.epochAt + r.epoch * 1000000) r.sweepEnd)]
  generalize s.advance (max (r.epochAt + r.epoch * 1000000) r.sweepEnd) = due
  refine Keeps.same (F := fun q => (q != .now) = true) ?_ .now (by decide)
  dsimp only
  have sweep (occ : Nat) : ∀ (l : List Nat) (k : Nat), Keeps (fun q => (q != .now) = true) due
      (l.foldl (fun (acc : State × Nat) p => acc.1.sweepPage n p occ acc.2) (due, k)).1 := fun l _ =>
    Keeps.foldlP (fun a p (k : Keeps (fun q => (q != .now) = true) due a.1) => State.sweepPage_keeps k n p occ a.2) l (.refl _ _)
  have demoted (u : State) (k : Keeps (fun q => (q != .now) = true) due u) (l : List Nat) : Keeps (fun q => (q != .now) = true) due
      ((l.foldl (fun s p => (s.pageGet n p 10).1.startPromotion n p 10 (s.pageGet n p 10).2) u).startDemotions n 32) :=
    State.startDemotions_keeps (Keeps.foldl (fun a p (k : Keeps (fun q => (q != .now) = true) due a) =>
      State.startPromotion_keeps (State.pageGet_keeps k n p 10) n p 10 _) l k) n 32
  refine Keeps.ite (fun _ => State.report_keeps (State.modRegion_keeps ?_ ..) ..) fun _ => ?_ <;>
    exact demoted _ (State.modRegion_keeps (.upd (sweep ..) (h_tr := .inr yes)) ..) _

theorem promotionSwitch_ends {s : State} {n page : Nat} {m : Move} {e : State × PageEnt} (move : s.moveOf n page = some m) (up : m.up = true)
    (run : s.enginesRun = true) (awake : s.bgPaused = false) (goes : s.tr.paused = false)
    (read : e = ((s.pageRead n page 10).1.frameWrite n m.frame 10 (granLines (s.pageRead n page 10).2)).pageGet n page 10)
    (going : (e.1.moveOf n page).isSome = true) :
    ∃ x y : State, promotionSwitch n page s = (y.count 16 0).startDemotions n 32 ∧
      x = (e.1.zeroGrans n page 10).pageSet n page 10 { e.2 with state := 1, frame := m.frame } ∧
      y = { x with tr := { x.tr with moves := x.tr.moves.filter (fun z => !(z.region == n && z.page == page)) } } := by
  refine ⟨_, _, ?_, rfl, rfl⟩
  have open_ : ¬(e.1.moveOf n page).isNone = true := by rw [Option.isNone_eq_false_iff.2 going]; exact Bool.false_ne_true
  rw [promotionSwitch, move]
  dsimp only
  rw [if_pos (by rw [up, run, awake, goes]; rfl), ← read, if_neg open_]

/-- The page that is stored leaves its frame, its captured lines and the list of moves. -/
theorem demotionSwitch_ends {s : State} {n page : Nat} {m : Move} {b : State × Bool} (move : s.moveOf n page = some m) (down : m.up = false)
    (run : s.enginesRun = true) (awake : s.bgPaused = false) (goes : s.tr.paused = false)
    (stored : b = (s.frameLines n page m.frame).1.storePage n page (s.frameLines n page m.frame).2) (fits : b.2 = true)
    (going : ((b.1.pageGet n page 10).1.moveOf n page).isSome = true) :
    ∃ x : State, demotionSwitch n page s = (x.count 16 2).startDemotions n 32 ∧
      (∀ y ∈ x.tr.moves, ¬(y.region = n ∧ y.page = page)) ∧ (∀ c ∈ x.tr.captures, ¬(c.region = n ∧ c.page = page)) ∧
      ∀ r, x.region n = some r → ∀ e ∈ r.frames, e.1 ≠ page := by
  have open_ : ¬((b.1.pageGet n page 10).1.moveOf n page).isNone = true := by
    rw [Option.isNone_eq_false_iff.2 going]; exact Bool.false_ne_true
  rw [demotionSwitch, move]
  dsimp only
  rw [if_pos (by rw [down, run, awake, goes]; rfl), ← stored, if_pos fits, if_neg open_]
  generalize State.pageSet _ n page 10 _ = u
  refine ⟨_, rfl, fun y mem => ?_, fun c mem => ?_, fun r found e mem => ?_⟩
  · exact fun ⟨one, two⟩ => by simpa [one, two] using (List.mem_filter.1 mem).2
  · exact fun ⟨one, two⟩ => by simpa [one, two] using (List.mem_filter.1 mem).2
  · have dropped : (u.dropFrame n page).region n = some r := found
    rw [State.dropFrame, State.region_modRegion, if_pos rfl] at dropped
    obtain ⟨r', -, rfl⟩ := Option.map_eq_some_iff.1 dropped
    simpa using (List.mem_filter.1 mem).2

/-- Settles O44: a sweep leaves the clock at its due time, a switch takes its move from the lists, and a visit of MUCK keeps its own place and the
sizes of the regions, so that the next granule follows. -/
theorem tierEventsMovePages : Obligations.TierEventsMovePages := by
  have entered {s t : State} {who : Nat} (free : s.entryFree who = true) {g : State → State} (does : g s = t) :
      (.next (s.engine who g) : Host.Outcome State Fault Refusal) = .next (t.engineDone who) :=
    congrArg _ (does ▸ State.engine_of_free free g)
  refine ⟨fun s n r region tiered run awake goes => ⟨_, rfl, heatSweep_now region tiered run awake goes⟩,
    fun s n page m e free move up run awake goes read going => ?_, fun s n page m b free move down run awake goes stored fits going => ?_,
    fun s r free awake goes whole region coded more => ⟨_, entered free rfl, muckVisit_pos awake goes whole region coded more⟩,
    fun s free awake goes whole => ⟨_, entered free rfl, ?_⟩⟩
  · obtain ⟨x, y, ends, rest⟩ := promotionSwitch_ends move up run awake goes read going
    exact ⟨x, y, entered free ends, rest⟩
  · obtain ⟨x, ends, rest⟩ := demotionSwitch_ends move down run awake goes stored fits going
    exact ⟨x, entered free ends, rest⟩
  · rw [muckVisit, if_neg (by simp [awake, goes, whole])]
    exact ⟨rfl, (State.report_reported ..).congr rfl rfl⟩

end Sys2Proof.Machine
end

section
/-! PROOFS. Failing rows and channels (07 R245, R253 to R256). -/

set_option Elab.async false

namespace Sys2Proof.Machine
open Sys2Proof

/-- What becomes of one row at the threshold (07 R253). -/
def State.harden (s : State) (e : RowErr) : State :=
  let s1 : State := { s with lp := { s.lp with rows := s.lp.rows.filter (fun x => x.row != e.row) } }
  if e.row ∈ s.lp.hardRows then s1
  else { s1 with lp := { s1.lp with hardRows := s1.lp.hardRows ++ [e.row] } }.report lpHardRow e.row

theorem State.hardenRows_eq (s : State) : s.hardenRows = (s.lp.rows.filter (fun e => decide (s.lp.rowThr ≤ e.count))).foldl State.harden s := rfl

theorem State.hardRows_harden (s : State) (e : RowErr) :
    (s.harden e).lp.hardRows = if e.row ∈ s.lp.hardRows then s.lp.hardRows else s.lp.hardRows ++ [e.row] := by
  unfold State.harden
  dsimp only
  split_ifs <;> rfl

/-- Rows that reach the threshold are hard from then on, and no row stops being hard. -/
theorem State.hardRows_foldl_harden {row : Nat} (l : List RowErr) (s : State) (hard : row ∈ s.lp.hardRows ∨ ∃ e ∈ l, e.row = row) :
    row ∈ (l.foldl State.harden s).lp.hardRows := by
  induction l generalizing s with
  | nil => exact hard.resolve_right fun ⟨_, mem, _⟩ => by cases mem
  | cons x l ih =>
    refine ih _ ?_
    rw [State.hardRows_harden]
    rcases hard with old | ⟨e, mem, rfl⟩
    · left
      split_ifs
      · exact old
      · exact List.mem_append_left _ old
    · rcases List.mem_cons.1 mem with rfl | later
      · left
        split_ifs with old
        · exact old
        · exact List.mem_append_right _ (List.mem_singleton_self _)
      · exact .inr ⟨e, later, rfl⟩

theorem State.hardenRows_of_below {s : State} (below : ∀ x ∈ s.lp.rows, x.count < s.lp.rowThr) : s.hardenRows = s := by
  have none : s.lp.rows.filter (fun e => decide (s.lp.rowThr ≤ e.count)) = [] :=
    List.filter_eq_nil_iff.2 fun x mem => by simpa using below x mem
  rw [State.hardenRows_eq, none]
  rfl

theorem match_resilver {o : Option Resilver} {v : Resilver} (found : o = some v) {α : Type} (a : α) (g : Resilver → α) :
    (match (generalizing := false) o with | none => a | some v => g v) = g v := by
  rw [found]

theorem hardPprDone_returns {s : State} {c u r : Nat} {o : BgOp} (runs : s.bgOf (repairing c) = some o)
    (out : s.lp.rankOut.find? (fun y => y.1 == c) = some (c, u, r)) :
    (hardPprDone c s).lp.rankOut = s.lp.rankOut.filter (fun y => y.1 != c) ∧
      (hardPprDone c s).lp.resilver = lset s.lp.resilver c ⟨0, true, some (u, r)⟩ := by
  rw [hardPprDone, runs]
  dsimp only
  rw [out]
  exact ⟨rfl, rfl⟩

section
variable {s : State} {c : Nat} {v : Resilver} (pass : s.lp.resilver[c]? = some v) (active : v.active = true) (run : s.lpRuns = true)
  (goes : s.lp.scrubHalted = false) (serves : s.fenced c = false)
include pass active run goes serves

theorem resilverLine_passes {u r : Nat} (rank : v.rank = some (u, r)) (other : (s.placeOf c (s.remap c v.buoy)).rank ≠ r)
    (more : v.buoy + 1 < s.chanLines c) :
    resilverLine c false s = { s with lp := { s.lp with resilver := lset s.lp.resilver c { v with buoy := v.buoy + 1 } } } := by
  refine (match_resilver pass _ _).trans ((if_neg ?idle).trans ((if_neg Bool.false_ne_true).trans ?_))
  case idle => simp [active, run, goes, serves]
  have skipped : (if decide ((s.placeOf c (s.remap c v.buoy)).sub = u ∧ (s.placeOf c (s.remap c v.buoy)).rank = r) = true
      then s.resilverOne c v.buoy else s) = s := if_neg fun here => other (of_decide_eq_true here).2
  rw [rank]
  dsimp only
  rw [skipped]
  exact if_pos more

theorem resilverLine_ends (whole : v.rank = none) (bare : s.lineFilled c v.buoy = false) (last : s.chanLines c ≤ v.buoy + 1) :
    resilverLine c false s = ({ s with lp := { s.lp with resilver := lset s.lp.resilver c Resilver.none } } : State).report lpResilverDone c := by
  refine (match_resilver pass _ _).trans ((if_neg ?idle).trans ((if_neg Bool.false_ne_true).trans ?_))
  case idle => simp [active, run, goes, serves]
  have one : s.resilverOne c v.buoy = s := if_pos (by rw [bare]; rfl)
  have skipped : (if true = true then s.resilverOne c v.buoy else s) = s := (if_pos rfl).trans one
  rw [whole]
  dsimp only
  rw [skipped]
  exact if_neg (Nat.not_lt.2 last)

end

/-- The error count of a row is forgotten. -/
def State.forgetRow (s : State) (row : Nat) : State := { s with lp := { s.lp with rows := s.lp.rows.filter (fun x => x.row != row) } }

theorem State.forgetRow_now (s : State) (row : Nat) : (s.forgetRow row).now = s.now := rfl

theorem State.forgetRow_lp (s : State) (row : Nat) : (s.forgetRow row).lp = { s.lp with rows := s.lp.rows.filter (fun x => x.row != row) } := rfl

theorem rowWindowEnd_eq {s : State} {row : Nat} {e : RowErr} (noted : s.lp.rows.find? (fun x => x.row == row) = some e) :
    rowWindowEnd row s = (s.advance (e.start + s.lp.rowWin * hourNs)).hardenRows.forgetRow row := by
  rw [rowWindowEnd, noted]
  rfl

theorem State.forgetRow_hardenRows {s u : State} {row : Nat} {e : RowErr} (noted : s.lp.rows.find? (fun x => x.row == row) = some e)
    (lp : u.lp = s.lp) :
    (∀ x ∈ (u.hardenRows.forgetRow row).lp.rows, x.row ≠ row) ∧ (u.hardenRows.forgetRow row).now = u.now ∧
      ((∀ x ∈ s.lp.rows, x.count < s.lp.rowThr) →
        (u.hardenRows.forgetRow row).lp = { s.lp with rows := s.lp.rows.filter (fun x => x.row != row) }) ∧
      (s.lp.rowThr ≤ e.count → row ∈ (u.hardenRows.forgetRow row).lp.hardRows) := by
  have is : e.row = row := by simpa using List.find?_some noted
  refine ⟨fun x mem => by simpa using (List.mem_filter.1 mem).2, (State.forgetRow_now ..).trans ?_, fun below => ?_, fun reached => ?_⟩
  · exact (State.hardenRows_keeps (F := (· ∈ [.lp, .fc])) (.refl _ u) (by decide) (by decide)).same .now (by decide)
  · rw [State.hardenRows_of_below (lp ▸ below), State.forgetRow_lp, lp]
  · rw [← lp] at noted reached
    rw [State.forgetRow_lp, State.hardenRows_eq]
    exact State.hardRows_foldl_harden _ u (.inr ⟨e, List.mem_filter.2 ⟨List.mem_of_find?_eq_some noted, decide_eq_true reached⟩, is⟩)

theorem softPpr_repairs {s : State} {row : Nat} (hard : row ∈ s.lp.hardRows) (free : softRes row ∉ s.lp.softUsed) (run : s.enginesRun = true) :
    row ∉ (softPpr row s).lp.hardRows ∧ (softPpr row s).lp.softUsed = s.lp.softUsed ++ [softRes row] ∧
      (∃ l, (softPpr row s).lp.repairLog = s.lp.repairLog ++ l ++ [.softPpr row]) ∧
      (∀ u ∈ (softPpr row s).mc.upsets, u.1 = rowChan row → u.2.1 ∉ s.linesIn row) ∧ s.Reported (softPpr row s) lpPprSoft := by
  have copied (l : List Nat) : s.Notes (l.foldl (fun s l => (s.scrubFix ReadEnv.clean ⟨11, false, true⟩ (rowChan row) l).1) s) :=
    State.Notes.foldl (fun u l h => h.scrubFix ReadEnv.clean ⟨11, false, true⟩ (rowChan row) l) l (.refl s)
  rw [softPpr, if_pos ⟨hard, free, run⟩]
  dsimp only
  have notes := copied ((s.linesIn row).filter (fun l => s.lineFilled (rowChan row) l && s.readable (rowChan row) l))
  generalize List.foldl _ _ _ = u at notes
  obtain ⟨more, log⟩ := notes.log
  obtain ⟨reports, grown⟩ := notes.reports
  refine ⟨fun mem => by simpa using (List.mem_filter.1 mem).2, congrArg (· ++ _) notes.softUsed, ⟨more, congrArg (· ++ _) log.symm⟩,
    fun x mem there here => ?_, reports ++ [_], _, ?_, List.mem_append_right _ (List.mem_singleton_self _), State.faultMsg_source u lpPprSoft row none⟩
  · simpa [there, here] using (List.mem_filter.1 mem).2
  · rw [← List.append_assoc, grown]
    rfl

/-- The page moves to the spare page, the row being repaired by soft PPR no more (07 R256). -/
theorem pageRetirement_moves {s : State} {c page sp row : Nat} {rest : List (Nat × Nat)} (run : s.enginesRun = true) (hard : row ∈ s.lp.hardRows)
    (used : softRes row ∈ s.lp.softUsed) (left : s.hardLeft row = false) (inRow : s.pageInRow c page row = true)
    (fresh : ∀ e ∈ s.lp.retired, ¬(e.1 = c ∧ e.2.1 = page)) (spare : takeSpare (s.lp.spareFree.getD c []) = some (sp, rest))
    (room : (s.lp.retired.filter (fun e => e.1 == c)).length < 131072) :
    (pageRetirement c page s).lp.retired = s.lp.retired ++ [(c, page, sp)] ∧ (pageRetirement c page s).lp.spareFree = lset s.lp.spareFree c rest ∧
      s.Reported (pageRetirement c page s) lpPageRetired := by
  have others : s.lp.retired.filter (fun e => !(e.1 == c && e.2.1 == page)) = s.lp.retired :=
    List.filter_eq_self.2 fun e mem => by simpa [not_and_or] using not_and_or.1 (fresh e mem)
  have retires : (s.enginesRun && s.lp.hardRows.any fun row =>
      decide (softRes row ∈ s.lp.softUsed) && !s.hardLeft row && s.pageInRow c page row) = true := by
    rw [run, Bool.true_and, List.any_eq_true]
    exact ⟨row, hard, by rw [decide_eq_true used, left, inRow]; rfl⟩
  obtain ⟨u, v, notes, moves, fc, lp⟩ := State.retire_moves spare (others ▸ room)
  obtain ⟨reports, grown⟩ := notes.reports
  rw [pageRetirement, if_pos retires, moves, State.report_lp, lp, others]
  refine ⟨rfl, congrArg (lset · c rest) notes.spareFree, reports ++ [_], _, ?_, List.mem_append_right _ (List.mem_singleton_self _),
    State.faultMsg_source v lpPageRetired (c * 2 ^ 32 + page) none⟩
  rw [State.report_reports, fc, ← grown, List.append_assoc]

/-- Settles O46: rows at the threshold are hard before their counts are forgotten, and repairs and moves of pages only add to the log. -/
theorem rowsAreRepaired : Obligations.RowsAreRepaired := by
  have entered {s t : State} (free : s.entryFree 11 = true) {g : State → State} (does : g s = t) :
      (.next (s.engine 11 g) : Host.Outcome State Fault Refusal) = .next (t.engineDone 11) :=
    congrArg _ (does ▸ State.engine_of_free free g)
  refine ⟨fun s row e noted => ⟨_, congrArg Host.Outcome.next (rowWindowEnd_eq noted), ?_⟩, fun s row hard free run => ⟨_, rfl, softPpr_repairs hard free run⟩,
    fun s c page sp row rest run hard used left inRow fresh spare room =>
      ⟨_, rfl, pageRetirement_moves run hard used left inRow fresh spare room⟩,
    fun s c u r o x rows runs _ out => ⟨_, rfl, hardPprDone_returns runs out⟩,
    fun s c u r v pass active rank free run goes serves other more =>
      ⟨_, entered free (resilverLine_passes pass active run goes serves rank other more), rfl, rfl⟩,
    fun s c v pass active whole free run goes serves bare last =>
      ⟨_, entered free (resilverLine_ends pass active run goes serves whole bare last), rfl, (State.report_reported ..).congr rfl rfl⟩⟩
  obtain ⟨gone, now, lp, hard⟩ := State.forgetRow_hardenRows noted (s.advance_lp (e.start + s.lp.rowWin * hourNs))
  exact ⟨gone, now.trans (s.advance_now _), lp, hard⟩

end Sys2Proof.Machine
end

section
/-! PROOFS. A packet's way through the queue engine (11 R381 to R405; 12 R422). -/

set_option Elab.async false

namespace Sys2Proof.Machine
open Sys2Proof

/-! ### What a read of memory leaves of the host functions

A read may end a fetch, and the answers of its hosts may be held while their link is not in L0 (02 R98); nothing else of a function changes. -/

/-- A function but for the answers that it holds. -/
def HostFn.unanswered (h : HostFn) : HostFn := { h with answers := [] }

def State.unansweredFns (s : State) : List HostFn := s.hp.fns.map HostFn.unanswered

theorem State.unansweredFns_of_keeps {s t : State} (k : Keeps (fun q => (q != .hp) = true) s t) : t.unansweredFns = s.unansweredFns :=
  congrArg (fun x : Hp => x.fns.map HostFn.unanswered) (k.same .hp (by decide))

theorem State.unanswered_fnAt {s t : State} (same : t.unansweredFns = s.unansweredFns) (f : Nat) :
    (t.fnAt f).unanswered = (s.fnAt f).unanswered := by
  have at_ (u : State) : (u.fnAt f).unanswered = u.unansweredFns.getD f HostFn.reset := by
    simp only [State.fnAt, State.unansweredFns, List.getD_eq_getElem?_getD, List.getElem?_map]
    cases u.hp.fns[f]? <;> rfl
  rw [at_, at_, same]

section
variable (s : State)

theorem State.unansweredFns_modFn (f : Nat) {g : HostFn → HostFn} (same : ∀ h, (g h).unanswered = h.unanswered) :
    (s.modFn f g).unansweredFns = s.unansweredFns := by
  refine List.ext_getElem? fun i => ?_
  simp only [State.unansweredFns, State.modFn, lmod, List.getElem?_map, List.getElem?_modify]
  cases s.hp.fns[i]? with
  | none => rfl
  | some h => exact congrArg some (apply_ite_eq HostFn.unanswered (same h) rfl)

theorem State.unansweredFns_respond (f : Nat) (o : Out) : (s.respond f o).unansweredFns = s.unansweredFns := by
  refine apply_ite_eq State.unansweredFns (unansweredFns_modFn _ _ ?_) rfl
  exact fun _ => rfl

theorem State.unansweredFns_answerRead (q : MemReq) (d : Line) (p : Bool) : (s.answerRead q d p).unansweredFns = s.unansweredFns :=
  apply_ite_eq State.unansweredFns rfl
    (apply_ite_eq State.unansweredFns ((rfl : _ = _).trans (unansweredFns_respond ..)) (unansweredFns_respond ..))

theorem State.unansweredFns_serveWaiters (l : Nat) (d : Line) (p keep : Bool) (ws : List Waiter) (fresh : Bool) :
    (s.serveWaiters l d p keep ws fresh).unansweredFns = s.unansweredFns := by
  have yes : true = true := rfl
  induction ws generalizing s fresh with
  | nil => rfl
  | cons x rest ih =>
    unfold State.serveWaiters
    split
    · split_ifs
      · exact (ih ..).trans (unansweredFns_answerRead ..)
      · exact (ih ..).trans ((unansweredFns_answerRead ..).trans (unansweredFns_of_keeps (State.nsRead_keeps (.refl _ s) ..)))
    · refine (ih ..).trans (apply_ite_eq State.unansweredFns ?_ (unansweredFns_of_keeps (State.nsWrite_keeps (.refl _ s) ..)))
      split
      · exact unansweredFns_of_keeps (Keeps.ite (fun _ => State.nsInstall_keeps (State.captureBroken_keeps (.refl _ s) ..) ..)
          fun _ => State.tierWrite_keeps (.refl _ s) ..)
      · rfl

theorem State.unansweredFns_finishFetch (l : Nat) (d : Line) (p install : Bool) : (s.finishFetch l d p install).unansweredFns = s.unansweredFns := by
  have yes : true = true := rfl
  unfold State.finishFetch
  split
  · rfl
  · dsimp only
    split
    · exact unansweredFns_serveWaiters ..
    · exact (unansweredFns_serveWaiters ..).trans (unansweredFns_of_keeps (Keeps.ite
        (fun _ => State.nsInstall_keeps (State.dropFetch_keeps (.refl _ s) l) ..) fun _ => State.dropFetch_keeps (.refl _ s) l))

theorem State.unansweredFns_settle (l : Nat) (install : Bool) : (s.settle l install).unansweredFns = s.unansweredFns := by
  have yes : true = true := rfl
  unfold State.settle
  split
  · rfl
  · next f _ =>
    have dropped (g : Mc → Mc) (n off w : Nat) :
        (({ s with mc := { s.mc with chans := s.mc.chans.map g } } : State).fetchRead n off w).1.unansweredFns = s.unansweredFns :=
      unansweredFns_of_keeps (State.fetchRead_keeps (.upd (.refl _ s) (h_mc := .inr yes) (hc := List.length_map ..)) ..)
    dsimp only
    generalize s.lineRegion l = place
    generalize f.stage = stage
    rcases place with _ | ⟨n, r, off⟩
    · cases stage <;> exact unansweredFns_finishFetch ..
    · cases stage
      case room => exact unansweredFns_finishFetch ..
      all_goals exact (unansweredFns_finishFetch ..).trans (dropped ..)

theorem State.unansweredFns_memRead (l w : Nat) : (s.memRead l w).1.unansweredFns = s.unansweredFns := by
  have yes : true = true := rfl
  unfold State.memRead
  split
  · exact unansweredFns_of_keeps (State.ctrRead_keeps (.refl _ s) ..)
  · exact (unansweredFns_of_keeps (State.nsRead_keeps (.refl _ _) ..)).trans (unansweredFns_settle ..)

theorem State.unansweredFns_readPacket (d : Deq) : (s.readPacket d).1.unansweredFns = s.unansweredFns :=
  foldl_same (fun acc : State × Bytes × Option Nat => acc.1.unansweredFns) (fun acc i => by
    dsimp only
    split
    · rfl
    · exact unansweredFns_memRead ..) _ _

end

/-! ### Runs of cells and the pools -/

/-- A check of the pools notes which are low, and no more of the queue engine. -/
theorem State.poolCheck_qe (s : State) : ∃ low, s.poolCheck.qe = { s.qe with poolLow := low } := by
  refine List.foldlRecOn (motive := fun u : State => ∃ low, u.qe = { s.qe with poolLow := low }) _ _ ⟨_, rfl⟩ fun u ⟨low, same⟩ b _ => ?_
  dsimp only
  split_ifs
  · exact ⟨_, congrArg (fun x : Qe => { x with poolLow := x.poolLow ++ [b.1] }) same⟩
  · exact ⟨_, congrArg (fun x : Qe => { x with poolLow := x.poolLow.filter (· != b.1) }) same⟩
  · exact ⟨low, same⟩

theorem State.freeCells_qe (s : State) (first n : Nat) :
    ∃ cells links low, (s.freeCells first n).qe = { s.qe with cells := cells, links := links, poolLow := low } := by
  obtain ⟨low, same⟩ := (s.setCells first n 0).poolCheck_qe
  exact ⟨_, _, low, same⟩

theorem State.freeCells_ce (s : State) (first n : Nat) : (s.freeCells first n).ce = s.ce :=
  (State.freeCells_keeps (F := (· ∈ [.qe, .fc])) (.refl _ s) first n (by decide) (by decide)).same .ce (by decide)

/-! ### Enqueue (11 R388) -/

section
variable {s t : State} {f w : Nat} {rec : Bytes} (run : s.enginesRun = true) (ctx : s.ctxFree 32 4 = true)
  (taken : s.takeRecord f true = some (t, w, rec)) (trusted : (t.fnAt f).viral = false) (thawed : t.isFrozen f = false)
include run ctx taken trusted thawed

theorem enqueueDescriptor_takes : enqueueDescriptor f none s = t.enqueueDesc f w (descOf rec) := by
  rw [enqueueDescriptor, if_neg (by simp [run, ctx]), taken]
  dsimp only
  rw [if_neg (by simp [trusted]), if_neg (by simp [thawed])]

theorem enqueueDescriptor_malformed (bad : (descOf rec).reserved = true) :
    (enqueueDescriptor f none s).qe.malformed = satAdd (2 ^ 32 - 1) s.qe.malformed 1 := by
  have qe : t.qe = s.qe := (State.takeRecord_keeps (F := (· ∈ [.hp])) (.refl _ s) f true taken (by decide)).same .qe (by decide)
  rw [enqueueDescriptor_takes run ctx taken trusted thawed]
  refine (congrArg (fun u : State => u.qe.malformed) (if_pos bad : t.enqueueDesc f w (descOf rec) = _)).trans ((State.qeMalf_malformed ..).trans ?_)
  refine congrArg (satAdd (2 ^ 32 - 1) · 1) (Eq.trans ?_ (congrArg Qe.malformed qe))
  split
  · obtain ⟨_, _, _, same⟩ := t.freeCells_qe (descOf rec).run ‹Nat›
    rw [same]
  · rfl

/-- A descriptor that passes every check is enqueued (11 R388, steps 1 to 9). -/
theorem enqueueDescriptor_links {g c : Nat} (whole : (descOf rec).reserved = false) (some_ : 1 ≤ (descOf rec).len) (most : (descOf rec).len ≤ 16380)
    (held : t.heldRun (descOf rec).run = some (f, g, c)) (fits : (descOf rec).len + 4 ≤ 2 ^ c * 256) (sent : (descOf rec).freeOnly = false)
    (owner : ownerHas (t.queueAt (descOf rec).queue).owner f = true) (open_ : t.qe.draining = false)
    (enabled : (t.queueAt (descOf rec).queue).enabled = true) (unpoliced : (descOf rec).police = false)
    (room : (t.queueAt (descOf rec).queue).cells + cellsFor (descOf rec).len ≤ (t.queueAt (descOf rec).queue).limit) :
    enqueueDescriptor f none s = (((t.freeCells (descOf rec).run (2 ^ c)).linkTail (descOf rec).queue (descOf rec).run (cellsFor (descOf rec).len)
      (descOf rec).len).poolCheck).qEvent evEnqueue (descOf rec).queue 1 (descOf rec).len := by
  rw [enqueueDescriptor_takes run ctx taken trusted thawed, State.enqueueDesc, held]
  dsimp only
  rw [if_pos rfl]
  refine (if_neg ?whole).trans ((if_neg ?len).trans ((if_neg ?fits).trans ((if_neg ?sent).trans ((if_neg ?owner).trans ((if_neg ?on).trans
    ((if_pos ?unpoliced).trans (if_neg (Nat.not_lt.2 room))))))))
  case whole => simp [whole]
  case len => omega
  case fits => omega
  case sent => simp [sent]
  case owner => simp [owner]
  case on => simp [open_, enabled]
  case unpoliced => simp [unpoliced]

end

/-- A queue whose last packet is a new one. -/
def Queue.linked (x : Queue) (first cells len : Nat) : Queue :=
  { x with head := some (x.head.getD first), tail := some first, cells := x.cells + cells, packets := x.packets + 1, bytes := x.bytes + len }

theorem State.queueAt_linkTail (s : State) (q first cells len : Nat) :
    (s.linkTail q first cells len).queueAt q = (s.queueAt q).linked first cells len := by
  have same : ((match (s.queueAt q).tail with | some t => s.setLink t first | none => s : State)).queueAt q = s.queueAt q := by
    cases (s.queueAt q).tail <;> rfl
  rw [State.linkTail, State.queueAt, State.modQueue, oget_oset_same]
  exact congrArg (Queue.linked · first cells len) same

/-- An event of the queue engine that is no drop by a fence, a memory error or a discard is counted, and changes nothing of the engine. -/
theorem State.qEvent_counts (s : State) {code : Nat} (other : code ≠ evFence ∧ code ≠ evBufErr ∧ code ≠ evDiscard) (q n len : Nat) :
    (s.qEvent code q n len).qe = s.qe ∧ (s.qEvent code q n len).ce.events = s.ce.events ++ [⟨false, q, code, n, len⟩] := by
  obtain ⟨fence, buf, disc⟩ := other
  rw [State.qEvent]
  dsimp only
  rw [if_neg fence, if_neg buf, if_neg disc]
  split_ifs
  · exact ⟨State.count_qe .., congrArg Ce.events (State.count_ce ..)⟩
  · exact ⟨State.count_qe .., congrArg Ce.events (State.count_ce ..)⟩
  · exact ⟨rfl, rfl⟩

/-- A packet that is linked is the last of its queue, and its event is counted. -/
theorem State.linked_counts (t : State) (q run n k len : Nat) (x : State)
    (is : x = (((t.freeCells run n).linkTail q run k len).poolCheck).qEvent evEnqueue q 1 len) :
    x.queueAt q = (t.queueAt q).linked run k len ∧ x.ce.events = t.ce.events ++ [⟨false, q, evEnqueue, 1, len⟩] := by
  obtain ⟨cells, links, low, freed⟩ := t.freeCells_qe run n
  obtain ⟨low', checked⟩ := ((t.freeCells run n).linkTail q run k len).poolCheck_qe
  obtain ⟨qe, events⟩ := (((t.freeCells run n).linkTail q run k len).poolCheck).qEvent_counts (code := evEnqueue) (by decide) q 1 len
  have queues : x.qe.queues = ((t.freeCells run n).linkTail q run k len).qe.queues := by rw [is, qe, checked]
  have ce : (((t.freeCells run n).linkTail q run k len).poolCheck).ce = t.ce := (State.poolCheck_keeps (F := (· ∈ [.qe, .fc]))
    (State.linkTail_keeps (State.freeCells_keeps (.refl _ t) run n (by decide) (by decide)) q run k len (by decide)) (by decide)
    (by decide)).same .ce (by decide)
  refine ⟨?_, (congrArg (fun u : State => u.ce.events) is).trans (events.trans (congrArg (Ce.events · ++ _) ce))⟩
  rw [State.queueAt, queues, ← State.queueAt, State.queueAt_linkTail, State.queueAt, freed, State.queueAt]

/-! ### Head lines (11 R399) -/

theorem headLineReturn_takes {s : State} {q h : Nat} (run : s.enginesRun = true) (head : (s.queueAt q).head = some h)
    (line : (s.queueAt q).headLine = none) (plain : s.sc.nodes = []) (room : s.qe.heads.length < 65536) :
    ((headLineReturn q s).queueAt q).headLine.isSome = true ∧ (headLineReturn q s).qe.heads = s.qe.heads ++ [q] := by
  have yes : true = true := rfl
  have read : Keeps (fun x => (x != .qe && x != .sc) = true) s ((s.count 22 5).memRead (h * 4) 8).1 :=
    State.memRead_keeps (State.count_keeps (.refl _ s) 22 5 1) (h * 4) 8
  rw [headLineReturn]
  dsimp only
  rw [head, line]
  dsimp only
  rw [if_neg (by simp [run])]
  generalize (s.count 22 5).memRead (h * 4) 8 = a at read
  have qe : a.1.qe = s.qe := read.same .qe (by decide)
  have sc : a.1.sc = s.sc := read.same .sc (by decide)
  rw [if_neg (by rw [qe]; omega)]
  generalize made : ({ a.1.modQueue q fun y => { y with headLine := some (keptLine a.2) } with
      qe := { (a.1.modQueue q fun y => { y with headLine := some (keptLine a.2) }).qe with
        heads := (a.1.modQueue q fun y => { y with headLine := some (keptLine a.2) }).qe.heads ++ [q] } } : State) = u
  have nodes : u.sc.nodes = [] := by rw [← made]; exact (congrArg Sc.nodes sc).trans plain
  have root : u.parentOf (nodeKey 4 q) = none := by rw [State.parentOf, State.node, nodes]; rfl
  rw [State.gateDrop, State.headTx, State.portOfQueue, State.pathOf, root]
  dsimp only [Option.map]
  rw [State.schedSync, if_pos (by rw [nodes]; rfl), ← made]
  refine ⟨?_, (congrArg (Qe.heads · ++ [q]) qe :)⟩
  show ((oget (oset _ q (some _)) q).getD Queue.default).headLine.isSome = true
  rw [oget_oset_same]
  rfl

/-! ### Rings of a function -/

theorem State.fn_lt_of_ne {s : State} {f : Nat} (set : s.fnAt f ≠ HostFn.reset) : f < s.hp.fns.length := by
  by_contra hf
  exact set (by rw [State.fnAt, List.getD_eq_getElem?_getD, List.getElem?_eq_none (not_lt.mp hf)]; rfl)

theorem State.fn_lt_of_freeRing {s : State} {f m : Nat} {q : FreeRing} (ring : s.freeRing f m = some q) : f < s.hp.fns.length :=
  s.fn_lt_of_ne fun reset => by rw [State.freeRing, reset] at ring; cases ring

theorem State.fn_lt_of_egressRing {s : State} {f n : Nat} {r : EgressRing} (ring : s.egressRing f n = some r) : f < s.hp.fns.length :=
  s.fn_lt_of_ne fun reset => by rw [State.egressRing, reset] at ring; cases ring

theorem State.freeRing_of_essence {s t : State} (same : t.essence = s.essence) (f m : Nat) : t.freeRing f m = s.freeRing f m :=
  (congrArg (fun h : HostFn => oget h.freeRings m) (State.fnAt_of_essence same f) :)

theorem State.egressRing_of_essence {s t : State} (same : t.essence = s.essence) (f n : Nat) : t.egressRing f n = s.egressRing f n :=
  (congrArg (fun h : HostFn => oget h.egress n) (State.fnAt_of_essence same f) :)

theorem State.essence_ringVector (s : State) (f v : Nat) (send : Bool) : (s.ringVector f v send).essence = s.essence :=
  apply_ite_eq State.essence (s.essence_vector f v) rfl

/-! ### Refills (11 R381), moderation (11 R405) -/

/-- Causes and vectors of a function leave its rings. -/
theorem State.freeRing_signalled (u : State) (f b v : Nat) (send : Bool) (m n idx k : Nat) :
    (((((u.cause f b).ringVector f v send).count n idx k).poolCheck).freeRing f m) = u.freeRing f m := by
  have hp := (State.poolCheck_keeps (F := (· ∈ [.qe, .fc])) (.refl _ (((u.cause f b).ringVector f v send).count n idx k)) (by decide)
    (by decide)).same .hp (by decide)
  rw [State.freeRing_of_hp (s := ((u.cause f b).ringVector f v send).count n idx k) hp, State.freeRing_of_hp (State.count_hp ..)]
  exact State.freeRing_of_essence ((State.essence_ringVector ..).trans (State.essence_cause ..)) f m

theorem State.writeBatch_fills {s : State} {f m : Nat} {q : FreeRing} (ring : s.freeRing f m = some q) (runs : List Nat) :
    ∃ x, (s.writeBatch f m q runs).freeRing f m = some x ∧ x.prod = q.prod + 1 ∧ x.inSlots = q.inSlots ++ [runs] := by
  have sent := (State.freeRing_of_essence (s.essence_sendWrite f (q.base + q.prod % q.slots * 64) ((runs.map (le 4)).flatten) 8) f m).trans ring
  exact ⟨_, (State.freeRing_signalled ..).trans (State.freeRing_modFree rfl (State.fn_lt_of_freeRing sent) sent _), rfl, rfl⟩

theorem freeRingRefill_refills {s s1 : State} {runs : List Nat} {q : FreeRing} {k : Nat} (first : k = s.qe.rrRing % 64) (run : s.enginesRun = true)
    (open_ : s.qe.draining = false) (ctx : s.ctxFree 36 4 = true) (ring : s.freeRing (k / 16) (k % 16) = some q)
    (ready : s.freeReady (k / 16) (k % 16) = true)
    (taken : ((s.bufs.find? (fun b => b.1 == q.region)).bind (fun b => s.takeRuns (k / 16) (k % 16) q b.2 16 [])) = some (s1, runs)) :
    freeRingRefill none s = { s1.writeBatch (k / 16) (k % 16) q runs with
      qe := { (s1.writeBatch (k / 16) (k % 16) q runs).qe with rrRing := (k + 1) % 64 } } := by
  have made : s.refillRing none k = some (s1.writeBatch (k / 16) (k % 16) q runs) := by
    rw [State.refillRing]
    dsimp only
    rw [ring]
    dsimp only
    rw [ready, if_neg (by decide), taken]
  rw [freeRingRefill, if_neg (by simp [run, open_, ctx])]
  refine (congrArg (fun k => freeRingRefill.go none (k :: _) s) (first.symm : (s.qe.rrRing + 0) % 64 = k)).trans ?_
  rw [freeRingRefill.go, made]

theorem ringModerationTimer_ends {s : State} {f m : Nat} {q : FreeRing} (ring : s.freeRing f m = some q) (owed : q.unsig ≠ 0) :
    (ringModerationTimer f (.free m) s).freeRing f m = some { q with unsig := 0 } ∧
      (ringModerationTimer f (.free m) s).now = max s.now (q.unsigAt + q.modTime * 1000) := by
  rw [ringModerationTimer, ring]
  dsimp only
  rw [if_neg owed]
  have vector := State.essence_vector ((s.advance (q.unsigAt + q.modTime * 1000)).modFree f m (fun q => { q with unsig := 0 })) f (80 + m)
  exact ⟨(State.freeRing_of_essence vector f m).trans (State.freeRing_modFree (s.advance_hp _) (State.fn_lt_of_freeRing ring) ring _),
    (State.now_of_essence vector).trans (s.advance_now _)⟩

/-! ### Reads and pushes of packets (11 R400, R403) -/

theorem State.egressOf_congr {s t : State} (queues : t.qe.queues = s.qe.queues) (fns : ∀ f, (t.fnAt f).unanswered = (s.fnAt f).unanswered) (q : Nat) :
    t.egressOf q = s.egressOf q := by
  have viral (f : Nat) : (t.fnAt f).viral = (s.fnAt f).viral := (congrArg HostFn.viral (fns f) :)
  have link (f : Nat) : (t.fnAt f).link = (s.fnAt f).link := (congrArg HostFn.link (fns f) :)
  have egress (f : Nat) : (t.fnAt f).egress = (s.fnAt f).egress := (congrArg HostFn.egress (fns f) :)
  have kept (f : Nat) : (t.fnAt f).kept = (s.fnAt f).kept := (congrArg HostFn.kept (fns f) :)
  simp only [State.egressOf, State.queueAt, State.egressRing, State.linkLost, queues, viral, link, egress, kept]
  rfl

theorem State.grantEntries_of_granted {s : State} (granted : ∀ x ∈ s.qe.deq, x.read = false → x.entries ≠ 0) : s.grantEntries = s := by
  have none_ : s.qe.deq.filter (fun d => !d.read && decide (d.entries = 0)) = [] :=
    List.filter_eq_nil_iff.2 fun x mem => by
      cases read : x.read with
      | true => simp
      | false => simp [granted x mem read]
  rw [State.grantEntries, none_, List.foldl_nil]

/-- A packet that is read, as it waits to be pushed. -/
abbrev Deq.taken (d : Deq) (b : Bytes) : Deq :=
  { d with read := true, entries := 0, size := rd b 0 2 % 2 ^ 15, user := rd b 2 1, data := (b.drop 4).take (rd b 0 2 % 2 ^ 15) }

theorem dequeuePacketRead_reads {s : State} {d : Deq} {q : Nat} (run : s.enginesRun = true)
    (found : s.qe.deq.find? (fun d => d.queue == q && !d.read && decide (d.entries ≠ 0)) = some d)
    (granted : ∀ x ∈ s.qe.deq, x.read = false → x.entries ≠ 0) (whole : ∀ i < d.cells, s.cellFenced (d.first + i) = false)
    (clean : (s.readPacket d).2.2 = none) (header : headerOk (s.readPacket d).2.1 d.cells = true) (noRing : s.egressOf q = none) :
    d.taken (s.readPacket d).2.1 ∈ (dequeuePacketRead q none s).qe.deq := by
  have yes : true = true := rfl
  have qe : (s.readPacket d).1.qe = s.qe := (State.readPacket_keeps (F := fun x => (x != .qe) = true) (.refl _ s) d).same .qe (by decide)
  have unfenced : (List.range d.cells).any (fun i => s.cellFenced (d.first + i)) = false :=
    List.any_eq_false.2 fun i mem => by simp [whole i (List.mem_range.1 mem)]
  have still : ((s.readPacket d).1.modDeq d.first (fun _ => d.taken (s.readPacket d).2.1)).egressOf q = none :=
    (State.egressOf_congr (congrArg Qe.queues qe) (State.unanswered_fnAt (s.unansweredFns_readPacket d)) q).trans noRing
  rw [dequeuePacketRead]
  dsimp only
  rw [State.grantEntries_of_granted granted, if_neg (by simp [run]), found]
  dsimp only
  rw [unfenced, if_neg (by decide), clean]
  dsimp only
  rw [header, if_neg (by decide)]
  rw [still]
  refine List.mem_map.2 ⟨d, ?_, if_pos (beq_self_eq_true _)⟩
  rw [qe]
  exact List.mem_of_find?_eq_some found

theorem packetPush_pushes {s : State} {d : Deq} {r : EgressRing} {q f n : Nat} (run : s.enginesRun = true)
    (found : s.qe.deq.find? (fun d => d.queue == q && d.read) = some d) (started : d.started = true)
    (first : s.qe.deq.find? (fun x => x.first == d.first && x.started) = some d) (target : d.target = some (f, n))
    (ring : s.egressRing f n = some r) (turn : d.slot = r.prod) (open_ : s.pushOpen f = true) (up : s.linkL0 f = true) :
    (∃ x, (packetPush q s).egressRing f n = some x ∧ x.prod = r.prod + 1) ∧ d ∉ (packetPush q s).qe.deq := by
  rw [packetPush, if_neg (by simp [run]), found]
  dsimp only
  rw [started, if_pos rfl, first]
  dsimp only
  rw [target]
  dsimp only
  rw [State.pushOn, ring]
  dsimp only
  rw [if_neg (by simp [turn, open_, up])]
  generalize wrote : (s.hostWrite f (r.base + d.slot % r.slots * r.slotSize) d.data 8).hostWrite f _ _ 8 = w
  have sent : w.egressRing f n = some r := (State.egressRing_of_essence
    (by rw [← wrote, State.essence_hostWrite, State.essence_hostWrite]) f n).trans ring
  generalize moderate r.unsig r.unsigAt r.modCount s.now = k
  generalize made : (((w.modEgress f n fun r => { r with prod := r.prod + 1, unsig := k.2.1, unsigAt := k.2.2 }).cause f 2).ringVector f (16 + n)
    k.1).count 22 6 = u
  have moved : u.egressRing f n = some { r with prod := r.prod + 1, unsig := k.2.1, unsigAt := k.2.2 } := by
    rw [← made]
    exact (State.egressRing_of_hp (State.count_hp ..) f n).trans ((State.egressRing_of_essence
      ((State.essence_ringVector ..).trans (State.essence_cause ..)) f n).trans
      (State.egressRing_modEgress rfl (State.fn_lt_of_egressRing sent) sent _))
  have hp : ((((u.dropDeq d).freePkt d.first d.cells).qEvent evDequeue d.queue 1 d.size).schedSync).hp = u.hp :=
    have yes : true = true := rfl
    (State.schedSync_keeps (F := fun x => (x != .hp) = true) (State.qEvent_keeps (State.freePkt_keeps
      (.upd (.refl _ u) (h_qe := .inr yes)) ..) ..)).same .hp (by decide)
  obtain ⟨cells, links, low, freed⟩ :=
    ({ u.dropDeq d with qe := { (u.dropDeq d).qe with pkts := oset (u.dropDeq d).qe.pkts d.first none } } : State).freeCells_qe d.first d.cells
  have deq : ((((u.dropDeq d).freePkt d.first d.cells).qEvent evDequeue d.queue 1 d.size).schedSync).qe.deq = u.qe.deq.filter (· != d) := by
    rw [(State.schedSync_parts _).same .qe (by decide), (State.qEvent_counts _ (by decide) ..).1]
    exact congrArg Qe.deq freed
  refine ⟨⟨_, (State.egressRing_of_hp hp f n).trans moved, rfl⟩, ?_⟩
  rw [deq]
  exact fun mem => absurd (List.mem_filter.1 mem).2 (by simp)

/-- Settles O53: each event of a packet's way, with what every operation on the way leaves of its queue and its ring. -/
theorem packetsMoveOn : Obligations.PacketsMoveOn := by
  refine ⟨fun s t f w rec free run ctx taken trusted thawed bad => ?_,
    fun s t f w g c rec free run ctx taken trusted thawed whole some_ most held fits sent owner open_ enabled unpoliced room => ?_,
    fun s q h free run head line plain room => ?_, fun s s1 runs q run open_ ctx ring ready taken => ?_,
    fun s d q run found granted whole clean header noRing => ?_, fun s d r q f n run found started first target ring turn open_ up => ?_,
    fun s f m q ring owed => ?_⟩
  · exact ⟨_, congrArg (fun u : State => Host.Outcome.next (u.takeStalled (portOf f))) (State.engine_of_free free _),
      enqueueDescriptor_malformed run ctx taken trusted thawed bad⟩
  · have kept : Keeps (· ∈ [.hp]) s t := State.takeRecord_keeps (.refl _ s) f true taken (by decide)
    obtain ⟨queue, events⟩ := t.linked_counts _ _ _ _ _ _
      (enqueueDescriptor_links run ctx taken trusted thawed whole some_ most held fits sent owner open_ enabled unpoliced room)
    have before : s.queueAt (descOf rec).queue = t.queueAt (descOf rec).queue := by
      rw [State.queueAt, State.queueAt, (kept.same .qe (by decide) : t.qe = s.qe)]
    rw [before]
    exact ⟨_, congrArg (fun u : State => Host.Outcome.next (u.takeStalled (portOf f))) (State.engine_of_free free _),
      congrArg Queue.packets queue, congrArg Queue.tail queue, congrArg Queue.cells queue,
      events.trans (congrArg (Ce.events · ++ _) (kept.same .ce (by decide) : t.ce = s.ce))⟩
  · exact ⟨_, congrArg Host.Outcome.next (State.engine_of_free free _), headLineReturn_takes run head line plain room⟩
  · have kept : s1.hp = s.hp := by
      obtain ⟨b, -, of_region⟩ := Option.bind_eq_some_iff.1 taken
      exact (State.takeRuns_keeps (F := (· ∈ [.qe])) (.refl _ s) _ _ _ _ _ _ of_region (by decide)).same .hp (by decide)
    obtain ⟨x, filled, prod, slots⟩ := State.writeBatch_fills ((State.freeRing_of_hp kept ..).trans ring) runs
    exact ⟨_, x, congrArg Host.Outcome.next (freeRingRefill_refills rfl run open_ ctx ring ready taken), filled, prod, slots, rfl⟩
  · have queue : d.queue = q := by
      have := List.find?_some found
      simp only [Bool.and_eq_true, beq_iff_eq] at this
      exact this.1.1
    exact ⟨_, _, rfl, dequeuePacketRead_reads run found granted whole clean header noRing, queue, rfl, rfl, rfl, rfl⟩
  · obtain ⟨⟨x, moved, prod⟩, gone⟩ := packetPush_pushes run found started first target ring turn open_ up
    exact ⟨_, x, rfl, moved, prod, gone⟩
  · exact ⟨_, rfl, ringModerationTimer_ends ring owed⟩

end Sys2Proof.Machine
end

section
/-! PROOFS. Training of channels and changes of the data rate (09 R331 to R342; 07 R245). -/

set_option Elab.async false

namespace Sys2Proof.Machine
open Sys2Proof

/-! ### What accesses of the tiers and the near store keep -/

namespace State.Kept

variable {α : Type} {π : State → α} (h : State.Kept π) (s : State)
include h

/-- Changes of the near store. -/
theorem nearStore (ns : Ns) : π { s with ns := ns } = π s :=
  have yes : true = true := rfl
  h.other (.upd (.refl _ s) (h_ns := .inr yes))

theorem pageSet (n page w : Nat) (e : PageEnt) : π (s.pageSet n page w e) = π s :=
  match_region π rfl fun _ _ => (h.metaSet ..).trans (h.metaLine ..)

theorem dropCaptures (n page : Nat) : π (s.dropCaptures n page) = π s := h.tiering ..

theorem dropFrame (n page : Nat) : π (s.dropFrame n page) = π s := h.sized _ _ fun _ _ => rfl

theorem holdFrame (n page frame : Nat) : π (s.holdFrame n page frame) = π s := h.sized _ _ fun _ _ => rfl

theorem abortMove (n page w : Nat) : π (s.abortMove n page w) = π s := by
  unfold State.abortMove
  split
  · exact h.dropCaptures ..
  · extract_lets a _ s1 s2 s3 _
    have read : π a.1 = π s := h.pageGet ..
    have set : π s1 = π s := (h.pageSet ..).trans read
    have freed : π s2 = π s := apply_ite_eq π ((h.dropFrame ..).trans set) set
    have kept : π s3 = π s := (h.dropCaptures ..).trans ((h.sized s2 n fun _ _ => rfl : π (s2.modRegion n fun r => { r with
      noMove := r.noMove ++ [page] }) = π s2).trans freed)
    exact apply_ite_eq π ((h.dropCaptures ..).trans read) ((h.count ..).trans ((h.tiering ..).trans kept))

theorem captureBroken (l : Nat) : π (s.captureBroken l) = π s := by
  unfold State.captureBroken
  split
  · rfl
  · exact apply_ite_eq π (h.abortMove ..) rfl

theorem writeGran (n k j w : Nat) (d : Line) (en : BitVec 64) (poison : Bool) : π (s.writeGran n k j w d en poison).1 = π s := by
  unfold State.writeGran
  extract_lets a g rw_ full old line put others r mask r'
  have read : π a.1 = π s := h.getGran ..
  refine apply_ite_eq (fun x : State × YardWrite × Gran => π x.1) ?_ ((h.storeGran ..).trans read)
  exact apply_ite_eq (fun x : State × YardWrite × Gran => π x.1) ((h.storeGran ..).trans read) read

theorem zeroGrans (n page w : Nat) : π (s.zeroGrans n page w) = π s :=
  foldl_same π (fun _ _ => (h.checkLow ..).trans ((h.freeGran ..).trans ((h.descSet ..).trans (h.descGet ..)))) _ _

theorem frameWrite (n frame w : Nat) (ls : List (Line × Bool)) : π (s.frameWrite n frame w ls) = π s :=
  foldl_same π (fun _ _ => h.extWrite ..) _ _

theorem pageRead (n page w : Nat) : π (s.pageRead n page w).1 = π s :=
  foldl_same (fun acc : State × List Gran => π acc.1) (fun _ _ => h.getGran ..) _ _

theorem pageUp (n page frame w : Nat) : π (s.pageUp n page frame w) = π s :=
  (h.pageSet ..).trans ((h.pageGet ..).trans ((h.zeroGrans ..).trans ((h.frameWrite ..).trans ((h.holdFrame ..).trans (h.pageRead ..)))))

theorem extMerge (n kind off w : Nat) (d : Line) (en : BitVec 64) (poison : Bool) : π (s.extMerge n kind off w d en poison) = π s :=
  match_region π rfl fun _ _ => (h.queueWrite ..).trans ((h.queueRead ..).trans ((h.putLine ..).trans ((h.readLine ..).trans
    ((h.fencedWrite ..).trans (h.touchBlock ..)))))

theorem extPut (n kind off w : Nat) (d : Line) (en : BitVec 64) (poison : Bool) : π (s.extPut n kind off w d en poison) = π s :=
  apply_ite_eq π (h.extWrite ..) (h.extMerge ..)

theorem exhausted (n k w : Nat) (g : Gran) : π (s.exhausted n k w g) = π s :=
  match_region π rfl fun _ _ => (h.report ..).trans (h.poisonGran ..)

theorem yardWrite (n off w : Nat) (d : Line) (en : BitVec 64) (poison : Bool) : π (s.yardWrite n off w d en poison) = π s := by
  unfold State.yardWrite
  extract_lets k r
  have wrote : π r.1 = π s := h.writeGran ..
  split
  · exact wrote
  · refine match_region π wrote fun g _ => ?_
    dsimp only
    split
    · exact (h.extPut ..).trans ((h.pageUp ..).trans wrote)
    · exact (h.exhausted ..).trans wrote

theorem pageZero (n page w : Nat) : π (s.pageZero n page w).1 = π s :=
  foldl_same (fun acc : State × Bool => π acc.1) (fun _ _ => h.descGet ..) _ _

theorem warm (n page w : Nat) : π (s.warm n page w).1 = π s :=
  apply_ite_eq (fun x : State × PageEnt => π x.1) (h.pageGet ..) ((h.pageSet ..).trans (h.pageGet ..))

theorem startPromotion (n page w : Nat) (e : PageEnt) : π (s.startPromotion n page w e) = π s := by
  refine match_region π rfl fun r _ => apply_ite_eq π rfl ?_
  split
  · exact h.count ..
  · have held (e : PageEnt) (f : Nat) : π ((s.holdFrame n page f).pageSet n page w e) = π s := (h.pageSet ..).trans (h.holdFrame ..)
    exact apply_ite_eq π ((h.tiering _ _).trans (held ..)) (h.count ..)

theorem churned (n off w : Nat) : π (s.churned n off w) = π s :=
  match_region π rfl fun _ _ => apply_ite_eq π ((h.startPromotion ..).trans (h.pageGet ..)) rfl

theorem hot (n page w : Nat) (e : PageEnt) : π (s.hot n page w e) = π s := by
  unfold State.hot
  split
  · exact apply_ite_eq π (h.startPromotion ..) rfl
  · rfl

theorem tierWrite (n off w : Nat) (d : Line) (en : BitVec 64) (poison : Bool) : π (s.tierWrite n off w d en poison) = π s := by
  refine match_region π rfl fun r _ => apply_ite_eq π (h.extPut ..) (apply_ite_eq π (h.yardWrite ..) ?_)
  extract_lets page a z
  have warmed : π a.1 = π s := h.warm ..
  have seen : π z.1 = π s := (h.pageZero ..).trans warmed
  have aborted : π (a.1.abortMove n page w) = π s := (h.abortMove ..).trans warmed
  refine apply_ite_eq π ((h.extPut ..).trans warmed) (apply_ite_eq π ((h.extPut ..).trans aborted) (apply_ite_eq π
    ((h.churned ..).trans ((h.yardWrite ..).trans aborted)) ?_))
  split
  · exact seen
  · split
    · exact (h.extPut ..).trans ((h.pageUp ..).trans seen)
    · exact (h.hot ..).trans ((h.pageGet ..).trans ((h.churned ..).trans ((h.yardWrite ..).trans seen)))

theorem readYard (n k j w : Nat) : π (s.readYard n k j w).1 = π s :=
  apply_ite_eq (fun x : State × LineRead => π x.1) (h.getGran ..) (h.getGran ..)

theorem heat (n page w : Nat) : π (s.heat n page w).1 = π s := (h.pageGet ..).trans ((h.hot ..).trans (h.warm ..))

theorem tierRead (n off w : Nat) : π (s.tierRead n off w).1 = π s := by
  have either {c : Prop} [Decidable c] {x y : State × LineRead} (yes : π x.1 = π s) (no : π y.1 = π s) : π (if c then x else y).1 = π s :=
    apply_ite_eq (fun x : State × LineRead => π x.1) yes no
  unfold State.tierRead
  split
  · rfl
  · exact either (h.extRead ..) (either (h.readYard ..) (either ((h.extRead ..).trans (h.heat ..)) ((h.readYard ..).trans (h.heat ..))))

theorem t1Page (l : Nat) : π (s.t1Page l).1 = π s := by
  unfold State.t1Page
  split
  · rfl
  · exact apply_ite_eq (fun x : State × Option (Nat × Nat) => π x.1) rfl (h.pageGet ..)

theorem nsSetAt (key : Nat) (e : Option NsLine) : π (s.nsSetAt key e) = π s := h.nearStore ..

theorem dropVictim (p : Victim → Bool) : π (s.dropVictim p) = π s := h.nearStore ..

theorem nsTouch (key : Nat) : π (s.nsTouch key) = π s :=
  have yes : true = true := rfl
  h.other (State.nsTouch_keeps (.refl _ s) key)

theorem nsPut (l : Nat) (e : NsLine) : π (s.nsPut l e) = π s := by
  unfold State.nsPut
  split
  · exact h.nsSetAt ..
  · extract_lets _ _ _ _ key s1 _
    have set : π s1 = π s := h.nsSetAt ..
    split
    · exact set
    · extract_lets _ a _ _
      have read : π a.1 = π s := (h.t1Page ..).trans set
      refine apply_ite_eq π ((h.nearStore ..).trans set) ?_
      split
      · exact (h.nearStore ..).trans read
      · exact read

theorem answerOffer (l : Nat) : π (s.answerOffer l) = π s := by
  unfold State.answerOffer
  split
  · rfl
  · extract_lets s1 a
    have read : π a.1 = π s := (h.t1Page ..).trans (h.dropVictim ..)
    have back (u : State) (v : Victim) (same : π u = π s) : π (if v.hit then u.nsPut l v.ent else u) = π s :=
      apply_ite_eq π ((h.nsPut ..).trans same) same
    split
    · exact apply_ite_eq π ((h.count ..).trans ((h.count ..).trans ((h.tiering ..).trans read))) (back _ _ ((h.count ..).trans read))
    · exact back _ _ ((h.count ..).trans read)

theorem nsBack (l : Nat) (e : NsLine) : π (s.nsBack l e) = π s := by
  unfold State.nsBack
  split
  · rfl
  · exact (h.count ..).trans (h.tierWrite ..)

theorem ackBack (l : Nat) : π (s.ackBack l) = π s := by
  unfold State.ackBack
  split
  · rfl
  · exact (h.nsBack ..).trans (h.dropVictim ..)

theorem victimRoom (l k : Nat) : π (s.victimRoom l k) = π s := by
  induction k generalizing s with
  | zero => rfl
  | succ k ih =>
    refine apply_ite_eq π ?_ rfl
    split
    · rfl
    · exact (ih _).trans (apply_ite_eq π (h.ackBack ..) (h.answerOffer ..))

theorem nsInstall (l : Nat) (e : NsLine) : π (s.nsInstall l e) = π s := by
  have put := (h.nsPut (s.victimRoom l 128) l e).trans (h.victimRoom ..)
  unfold State.nsInstall
  dsimp only
  split
  · exact (h.nsTouch ..).trans put
  · exact put

theorem nsServe (l : Nat) : π (s.nsServe l).1 = π s :=
  have yes : true = true := rfl
  h.other (State.nsServe_keeps (.refl _ s) l)

theorem nsRead (l w : Nat) : π (s.nsRead l w).1 = π s := by
  unfold State.nsRead
  extract_lets a
  have served : π a.1 = π s := h.nsServe ..
  split
  · exact served
  · split
    · exact served
    · next n r off _ =>
      have read := (h.tierRead (a.1.count (12 + nsQuad l) 1) n off w).trans ((h.count ..).trans served)
      exact apply_ite_eq (fun x : State × LineRead => π x.1) ((h.nsInstall ..).trans read) read

theorem nsWrite (l w : Nat) (d : Line) (en : BitVec 64) (poison : Bool) : π (s.nsWrite l w d en poison) = π s := by
  unfold State.nsWrite
  extract_lets u full merged
  have kept : π u = π s := h.captureBroken ..
  split
  · exact (h.count ..).trans ((h.nsTouch ..).trans ((h.nsSetAt ..).trans kept))
  · split
    · exact apply_ite_eq π ((h.nsInstall ..).trans ((h.count ..).trans kept))
        ((h.nsInstall ..).trans ((h.dropVictim ..).trans ((h.count ..).trans kept)))
    · split
      · exact kept
      · exact apply_ite_eq π ((h.tierWrite ..).trans ((h.count ..).trans kept)) (apply_ite_eq π ((h.nsInstall ..).trans ((h.count ..).trans kept))
          ((h.nsInstall ..).trans ((h.tierRead ..).trans ((h.count ..).trans kept))))

theorem answerRead (q : MemReq) (d : Line) (p : Bool) : π (s.answerRead q d p) = π s :=
  have yes : true = true := rfl
  h.other (State.answerRead_keeps (.refl _ s) q d p)

theorem serveWaiters (l : Nat) (d : Line) (p keep : Bool) (ws : List Waiter) (fresh : Bool) : π (s.serveWaiters l d p keep ws fresh) = π s := by
  induction ws generalizing s fresh with
  | nil => rfl
  | cons x rest ih =>
    unfold State.serveWaiters
    split
    · exact apply_ite_eq π ((ih ..).trans (h.answerRead ..)) ((ih ..).trans ((h.answerRead ..).trans (h.nsRead ..)))
    · refine (ih ..).trans (apply_ite_eq π ?_ (h.nsWrite ..))
      split
      · exact apply_ite_eq π ((h.nsInstall ..).trans (h.captureBroken ..)) (h.tierWrite ..)
      · rfl

theorem finishFetch (l : Nat) (d : Line) (p install : Bool) : π (s.finishFetch l d p install) = π s := by
  have yes : true = true := rfl
  have dropped : π (s.dropFetch l) = π s := h.other (State.dropFetch_keeps (.refl _ s) l)
  unfold State.finishFetch
  split
  · rfl
  · dsimp only
    split
    · exact (h.serveWaiters ..).trans dropped
    · exact (h.serveWaiters ..).trans (apply_ite_eq π ((h.nsInstall ..).trans dropped) dropped)

theorem fetchRead (n off w : Nat) : π (s.fetchRead n off w).1 = π s := by
  unfold State.fetchRead
  split
  · rfl
  · refine apply_ite_eq (fun x : State × LineRead => π x.1) ?_ (h.tierRead ..)
    exact apply_ite_eq (fun x : State × LineRead => π x.1) ((h.extRead ..).trans (h.pageGet ..)) ((h.readYard ..).trans (h.pageGet ..))

end State.Kept

/-! ### States and data rates of the channels

Nothing but training, a change of the data rate, a fence and start-up changes them. -/

/-- A channel's state and data rate. -/
def Mc.speed (m : Mc) : McState × Nat := (m.state, m.rate)

/-- The states and the data rates of the channels. -/
def State.speeds (s : State) : List (McState × Nat) := s.mc.chans.map Mc.speed

theorem State.speeds_of_keeps {s t : State} (k : Keeps (fun q => (q != .mc) = true) s t) : t.speeds = s.speeds :=
  congrArg (fun x : McAll => x.chans.map Mc.speed) (k.same .mc (by decide))

theorem State.chan_speed {s t : State} (same : t.speeds = s.speeds) (c : Nat) : (t.chan c).speed = (s.chan c).speed := by
  have at_ (u : State) : (u.chan c).speed = u.speeds.getD c Mc.reset.speed := by
    simp only [State.chan, State.speeds, List.getD_eq_getElem?_getD, List.getElem?_map]
    cases u.mc.chans[c]? <;> rfl
  rw [at_, at_, same]

section
variable (s : State)

theorem State.speeds_modChan (c : Nat) {g : Mc → Mc} (same : ∀ m, (g m).speed = m.speed) : (s.modChan c g).speeds = s.speeds := by
  refine List.ext_getElem? fun i => ?_
  simp only [State.speeds, State.modChan, lmod, List.getElem?_map, List.getElem?_modify]
  cases s.mc.chans[i]? with
  | none => rfl
  | some m => exact congrArg some (apply_ite_eq Mc.speed (same m) rfl)

theorem State.speeds_enterQueue (c cla : Nat) (write : Bool) (who row id : Nat) : (s.enterQueue c cla write who row id).speeds = s.speeds := by
  have yes : true = true := rfl
  have sub (u : State) (n : Nat) (g : SubCh → SubCh) : (u.modSub c n g).speeds = u.speeds := u.speeds_modChan c fun _ => rfl
  have stamped (full : Bool) (cls : Nat) : (if full then s else s.raiseStamp cls who).speeds = s.speeds :=
    apply_ite_eq State.speeds rfl (speeds_of_keeps (State.raiseStamp_keeps (.refl _ s) ..))
  unfold State.enterQueue
  extract_lets
  exact apply_ite_eq State.speeds rfl (apply_ite_eq State.speeds (stamped ..) ((sub ..).trans (stamped ..)))

theorem State.speeds_queueRead (l : Loc) (who row id : Nat) : (s.queueRead l who row id).speeds = s.speeds := by
  refine apply_ite_eq State.speeds (speeds_enterQueue ..) ?_
  split
  · exact foldl_same State.speeds (fun _ _ => speeds_enterQueue ..) _ _
  · exact speeds_enterQueue ..

theorem State.speeds_queueWrite (l : Loc) (who row : Nat) (mode : StripeWrite) : (s.queueWrite l who row mode).speeds = s.speeds := by
  have two (u : State) (known : Bool) (r : List Nat × Nat) (same : u.speeds = s.speeds) :
      (((u.partReads l r known).foldl (fun s d => s.enterQueue d l.cla false who row 0) u)).speeds = s.speeds :=
    (foldl_same State.speeds (fun _ _ => speeds_enterQueue ..) _ u).trans same
  have write (u : State) (c : Nat) (same : u.speeds = s.speeds) : (u.enterQueue c l.cla true who row 0).speeds = s.speeds :=
    (speeds_enterQueue ..).trans same
  unfold State.queueWrite
  dsimp only
  split
  · exact write _ _ (write _ _ rfl)
  · split
    · exact write _ _ (write _ _ (two _ _ _ rfl))
    · exact write _ _ (write _ _ (two _ _ _ rfl))
    · exact apply_ite_eq State.speeds (write _ _ (write _ _ rfl)) (write _ _ rfl)
  · exact write _ _ rfl

theorem State.speeds_trigger (c : Nat) : (s.trigger c).speeds = s.speeds := apply_ite_eq State.speeds rfl rfl

theorem State.speeds_spread (c u : Nat) (devs : List Nat) : (s.spread c u devs).speeds = s.speeds := by
  unfold State.spread
  extract_lets x l hit s1
  have noted : s1.speeds = s.speeds := s.speeds_modChan c fun _ => rfl
  exact apply_ite_eq State.speeds ((speeds_trigger ..).trans noted) noted

theorem State.speeds_noteRead (env : ReadEnv) (q : ReadFor) (l : Loc) (scr : Bool) (c : Nat) (r : LineClass × Stored) :
    (s.noteRead env q l scr c r).speeds = s.speeds :=
  have yes : true = true := rfl
  have noted (dev : Nat) : (s.noteClass q c l.cla r.1 dev).speeds = s.speeds := speeds_of_keeps (State.noteClass_keeps (.refl _ s) ..)
  apply_ite_eq State.speeds ((speeds_spread ..).trans (noted _)) (noted _)

theorem State.speeds_report (src d : Nat) (w : Option Nat) : (s.report src d w).speeds = s.speeds := rfl

theorem State.speeds_readDecoded (env : ReadEnv) (q : ReadFor) (l : Loc) (scr : Bool) (c : Nat) :
    (s.readDecoded env q l scr c).1.speeds = s.speeds := by
  have either {p : Prop} [Decidable p] {x y : State × LineClass × Stored} (yes : x.1.speeds = s.speeds) (no : y.1.speeds = s.speeds) :
      (if p then x else y).1.speeds = s.speeds := apply_ite_eq (fun x : State × LineClass × Stored => x.1.speeds) yes no
  exact either (either ((speeds_report ..).trans ((speeds_noteRead ..).trans (speeds_noteRead ..))) (speeds_noteRead ..)) (speeds_noteRead ..)

theorem State.speeds_readCopy (env : ReadEnv) (q : ReadFor) (l : Loc) (scr : Bool) (c : Nat) : (s.readCopy env q l scr c).1.speeds = s.speeds :=
  speeds_readDecoded ..

theorem State.speeds_rebuild (env : ReadEnv) (q : ReadFor) (l : Loc) (scr : Bool) (row : List Nat × Nat) (c : Nat) :
    (s.rebuild env q l scr row c).1.speeds = s.speeds :=
  foldl_same (fun acc : State × Option Stored => acc.1.speeds) (fun acc d => by
    dsimp only
    split
    · rfl
    · exact apply_ite_eq (fun x : State × Option Stored => x.1.speeds) (speeds_readDecoded ..) rfl) _ _

theorem State.speeds_redundant (env : ReadEnv) (q : ReadFor) (l : Loc) (scr : Bool) (c : Nat) : (s.redundant env q l scr c).1.speeds = s.speeds := by
  unfold State.redundant
  split
  · refine apply_ite_eq (fun x : State × Option Plain => x.1.speeds) ?_ rfl
    dsimp only
    split
    · exact speeds_readCopy ..
    · exact speeds_readCopy ..
  · dsimp only
    split
    · exact speeds_rebuild ..
    · exact speeds_rebuild ..
  · rfl

theorem State.speeds_stored (dram : List Host.Cell) (upsets : List (Nat × Nat × Nat × Byte)) :
    ({ s with dram := dram, mc := { s.mc with upsets := upsets } } : State).speeds = s.speeds := rfl

theorem State.speeds_putStored (c cla : Nat) (x : Stored) : (s.putStored c cla x).speeds = s.speeds := speeds_stored ..

theorem State.speeds_putCopy (l : Loc) (c : Nat) (x : Stored) : (s.putCopy l c x).speeds = s.speeds :=
  have yes : true = true := rfl
  apply_ite_eq State.speeds ((speeds_putStored ..).trans (speeds_of_keeps (State.clearDevLine_keeps (.refl _ s) ..))) rfl

theorem State.speeds_refreshParity (l : Loc) (scr : Bool) : (s.refreshParity l scr).speeds = s.speeds := by
  unfold State.refreshParity
  split
  · exact apply_ite_eq State.speeds (speeds_putCopy ..) rfl
  · rfl

theorem State.speeds_noteTag (c cla outcome w : Nat) (spec : Bool) : (s.noteTag c cla outcome w spec).speeds = s.speeds :=
  have yes : true = true := rfl
  speeds_of_keeps (State.noteTag_keeps (.refl _ s) ..)

theorem State.speeds_repair (env : ReadEnv) (q : ReadFor) (l : Loc) (scr : Bool) (c : Nat) (bad : CopyRead) :
    (s.repair env q l scr c bad).1.speeds = s.speeds := by
  have yes : true = true := rfl
  delta State.repair
  extract_lets tag s0 r
  have read : r.1.speeds = s.speeds := (speeds_redundant ..).trans
    (apply_ite_eq State.speeds (speeds_of_keeps (State.count_keeps (.refl _ s) ..)) rfl)
  split
  · have mended (x : Stored) : (r.1.putCopy l c x).speeds = s.speeds := (speeds_putCopy ..).trans read
    exact apply_ite_eq State.speeds ((speeds_noteTag ..).trans ((speeds_report ..).trans (mended _))) ((speeds_report ..).trans (mended _))
  · split
    · exact (speeds_noteTag ..).trans ((speeds_report ..).trans ((speeds_refreshParity ..).trans ((speeds_putCopy ..).trans read)))
    · exact (speeds_report ..).trans read
    · exact read

theorem State.speeds_readLine (env : ReadEnv) (q : ReadFor) (l : Loc) (scr : Bool) : (s.readLine env q l scr).1.speeds = s.speeds := by
  unfold State.readLine
  extract_lets c own
  have owned (u : State) : (own u).1.speeds = u.speeds := by
    unfold own
    dsimp only
    split
    · exact speeds_readCopy ..
    · exact (speeds_repair ..).trans (speeds_readCopy ..)
  clear_value own
  refine apply_ite_eq (fun x : State × LineRead => x.1.speeds) (owned s) ?_
  split
  · exact speeds_redundant ..
  · refine apply_ite_eq (fun x : State × LineRead => x.1.speeds) ((owned _).trans (speeds_redundant ..)) ?_
    exact apply_ite_eq State.speeds (speeds_redundant ..) ((speeds_report ..).trans (speeds_redundant ..))

theorem State.speeds_readOn (l : Loc) (scr : Bool) (w c : Nat) : (s.readOn l scr w c).1.speeds = s.speeds := by
  refine apply_ite_eq (fun x : State × LineRead => x.1.speeds) ?_ rfl
  dsimp only
  split
  · exact speeds_readCopy ..
  · exact speeds_readCopy ..
  · exact speeds_readCopy ..

theorem State.speeds_putLine (l : Loc) (scr : Bool) (d : Line) (poison kind : Bool) (w : Nat) :
    (s.putLine l scr d poison kind w).speeds = s.speeds := by
  have either {p : Prop} [Decidable p] {u : State} {x y : State × Option Stored} (yes : x.1.speeds = u.speeds) (no : y.1.speeds = u.speeds) :
      (if p then x else y).1.speeds = u.speeds := apply_ite_eq (fun x : State × Option Stored => x.1.speeds) yes no
  unfold State.putLine
  extract_lets key
  split
  · exact (speeds_putCopy ..).trans (speeds_putCopy ..)
  · extract_lets old par s1
    have first : old.1.speeds = s.speeds := either rfl (speeds_rebuild ..)
    have second : par.1.speeds = old.1.speeds := either rfl (speeds_rebuild ..)
    have put : s1.speeds = s.speeds := (speeds_putCopy ..).trans (second.trans first)
    split
    · exact (speeds_putCopy ..).trans put
    · exact put
  · exact speeds_putCopy ..

end

theorem State.speeds_kept : State.Kept State.speeds where
  other k := speeds_of_keeps (k.mono fun q => by cases q <;> decide)
  sized _ _ _ _ := rfl
  codec _ _ _ _ := rfl
  upsets _ _ _ _ _ _ := rfl
  queueRead := speeds_queueRead
  queueWrite := speeds_queueWrite
  readLine := speeds_readLine
  readOn := speeds_readOn
  putLine := speeds_putLine

theorem State.speeds_settle (s : State) (l : Nat) (install : Bool) : (s.settle l install).speeds = s.speeds := by
  unfold State.settle
  split
  · rfl
  · next f _ =>
    have dropped (g : SubCh → SubCh) : ({ s with mc := { s.mc with chans := s.mc.chans.map (fun (m : Mc) => { m with subs := m.subs.map g }) } } :
        State).speeds = s.speeds := (List.map_map (g := Mc.speed)).trans rfl
    dsimp only
    generalize s.lineRegion l = place
    generalize f.stage = stage
    rcases place with _ | ⟨n, r, off⟩
    · cases stage <;> exact speeds_kept.finishFetch ..
    · cases stage
      case room => exact speeds_kept.finishFetch ..
      all_goals exact (speeds_kept.finishFetch ..).trans ((speeds_kept.fetchRead ..).trans (dropped _))

theorem State.speeds_shiftReads (s : State) (c : Nat) : (s.shiftReads c).speeds = s.speeds := by
  refine (foldl_same State.speeds (fun u q => ?_) _ _).trans (s.speeds_modChan c fun _ => rfl)
  split
  · exact speeds_settle ..
  · rfl

/-! ### Retraining (09 R335 to R337) -/

theorem State.speedGo_of_none {s : State} (idle : s.mc.speed = none) : s.speedGo = s := by rw [State.speedGo, idle]

/-- Where no read of a fetch waits in a channel, none is shifted. -/
theorem State.shiftReads_of_plain {s : State} {c : Nat} (plain : ∀ u ∈ (s.chan c).subs, ∀ q ∈ u.readQ, q.id = 0) :
    ∃ g : Mc → Mc, s.shiftReads c = s.modChan c g := by
  delta State.shiftReads
  extract_lets qs s1
  have empty : qs = [] := List.filter_eq_nil_iff.2 fun q mem => by
    obtain ⟨_, queue, mem⟩ := List.mem_flatten.1 mem
    obtain ⟨u, sub, rfl⟩ := List.mem_map.1 queue
    simp [plain u sub q mem]
  exact ⟨_, congrArg (List.foldl _ s1) empty⟩

/-- A channel that starts to retrain, none of whose reads is shifted. -/
theorem State.retrains {s : State} {c n src : Nat} {e p : Option Nat} {g : Mc → Mc} (there : c < s.mc.chans.length)
    (starts : ∀ m, (g m).state = .retraining ∧ (g m).subs = m.subs) (plain : ∀ u ∈ (s.chan c).subs, ∀ q ∈ u.readQ, q.id = 0) :
    (((s.modChan c g).openShadow n e p src).shiftReads c).mc.training = s.mc.training ∧
      ((((s.modChan c g).openShadow n e p src).shiftReads c).chan c).state = .retraining := by
  have set : ((s.modChan c g).openShadow n e p src).chan c = g (s.chan c) := s.chan_modChan_same g there
  obtain ⟨g', same⟩ := State.shiftReads_of_plain (s := (s.modChan c g).openShadow n e p src) (c := c)
    fun u sub => plain u (by rw [set, (starts _).2] at sub; exact sub)
  refine ⟨(congrArg (fun u : State => u.mc.training) same :), ?_⟩
  exact (congrArg Prod.fst (State.chan_speed (State.speeds_shiftReads ..) c)).trans ((congrArg Mc.state set).trans (starts _).1)

theorem retrainingStart_starts {s : State} {c : Nat} (sound : s.Sound) (idle : s.mc.training = none) (awake : s.awake = true)
    (next_ : s.mc.trigQ.find? (fun c => s.chanIs c .service && !s.hardPprOn c) = some c) (known : c < 12)
    (plain : ∀ u ∈ (s.chan c).subs, ∀ q ∈ u.readQ, q.id = 0) :
    (retrainingStart s).mc.training = some c ∧ ((retrainingStart s).chan c).state = .retraining := by
  rw [retrainingStart, if_neg (by simp [idle, awake]), next_]
  exact State.retrains (sound.chans.symm ▸ known) (fun _ => ⟨rfl, rfl⟩) plain

/-- A retrained channel is back in service: the shadow of its node closes, the end is reported, and the command that asked for it is answered. -/
theorem State.returns {s : State} {c n src d : Nat} {q : Option Nat} (there : c < s.mc.chans.length) (idle : s.mc.speed = none) :
    (((((s.setChan c .service).closeShadow n src).report src d q).answerRetrain c stSuccess).speedGo).mc.training = s.mc.training ∧
      ((((((s.setChan c .service).closeShadow n src).report src d q).answerRetrain c stSuccess).speedGo).chan c).state = .service ∧
      s.Reported (((((s.setChan c .service).closeShadow n src).report src d q).answerRetrain c stSuccess).speedGo) src := by
  have set : ((s.setChan c .service).chan c).state = .service := congrArg Mc.state (s.chan_modChan_same _ there)
  have reported := ((s.setChan c .service).closeShadow n src).report_reported src d q
  generalize made : ((s.setChan c .service).closeShadow n src).report src d q = u at reported ⊢
  have mc : u.mc = (s.setChan c .service).mc := made ▸ rfl
  have kept : Keeps (· ∈ [.out, .hp, .mb, .pm]) u (u.answerRetrain c stSuccess) :=
    State.answerRetrain_keeps (.refl _ u) c stSuccess (by decide) (by decide) (by decide) (by decide)
  have same := (kept.same .mc (by decide) : (u.answerRetrain c stSuccess).mc = u.mc).trans mc
  rw [State.speedGo_of_none ((congrArg McAll.speed same).trans idle)]
  exact ⟨(congrArg McAll.training same :), (congrArg (fun x : McAll => (x.chans.getD c Mc.reset).state) same).trans set,
    reported.congr rfl (congrArg Fc.reports (kept.same .fc (by decide))).symm⟩

theorem retrainingDone_ends {s : State} {c : Nat} (sound : s.Sound) (training : s.mc.training = some c) (known : c < 12) (idle : s.mc.speed = none) :
    (retrainingDone true s).mc.training = none ∧ ((retrainingDone true s).chan c).state = .service ∧
      s.Reported (retrainingDone true s) (mcRetrained c) := by
  rw [retrainingDone, training]
  dsimp -zeta only
  extract_lets _ s1 s2
  have there : c < s2.mc.chans.length := by
    show c < (lmod s1.mc.chans c _).length
    rw [length_lmod]
    exact sound.chans.symm ▸ known
  obtain ⟨ended, served, reported⟩ := State.returns (n := 26 + c) (src := mcRetrained c) (d := c) (q := none) there idle
  exact ⟨ended, served, reported.congr rfl rfl⟩

/-- What a full training that found a legal population does: its channel serves at the data rate of the memory, and its resilver pass begins. -/
theorem State.fullTrained_fits {s : State} {c : Nat} {o : BgOp} (fits : s.popOk c = true) :
    ∃ (x : State) (g : Mc → Mc), (∀ m, (g m).speed = (.service, s.mc.rate)) ∧ x.mc = s.mc ∧ x.lp = s.lp ∧
      s.fullTrained o c true = (((({ x.modChan c g with lp := { (x.modChan c g).lp with resilver := lset (x.modChan c g).lp.resilver c ⟨0, true, none⟩ } } :
        State).setDomain (chanDomain c) true).rescale).endOp o.handle stSuccess).speedGo := by
  refine ⟨_, _, ?_, ?_, ?_, if_pos fits⟩
  · exact fun _ => rfl
  · rfl
  · rfl

theorem fencedRetrainDone_serves {s : State} {c : Nat} {o : BgOp} (sound : s.Sound) (known : c < 12) (op : s.fullTraining c = some o)
    (fits : s.popOk c = true) (idle : s.mc.speed = none) (slot : c < s.lp.resilver.length) :
    ((fencedRetrainDone c true s).chan c).speed = (.service, s.mc.rate) ∧
      (fencedRetrainDone c true s).lp.resilver.getD c Resilver.none = ⟨0, true, none⟩ := by
  have yes : true = true := rfl
  obtain ⟨x, g, set, mc, lp, done⟩ := State.fullTrained_fits (o := o) fits
  rw [fencedRetrainDone, op]
  dsimp only
  rw [done]
  have kept (u : State) : Keeps (fun q => (q != .mc && q != .lp) = true) u (((u.setDomain (chanDomain c) true).rescale).endOp o.handle stSuccess) :=
    State.endOp_keeps (State.rescale_keeps (State.setDomain_keeps (.refl _ u) ..)) ..
  generalize made : ({ x.modChan c g with lp := { (x.modChan c g).lp with resilver := lset (x.modChan c g).lp.resilver c ⟨0, true, none⟩ } } : State) = u
  have keeps := kept u
  generalize ((u.setDomain (chanDomain c) true).rescale).endOp o.handle stSuccess = t at keeps
  have same : t.mc = (x.modChan c g).mc := (keeps.same .mc (by decide)).trans (made ▸ rfl)
  have pass : t.lp.resilver = lset s.lp.resilver c ⟨0, true, none⟩ :=
    (congrArg Lp.resilver (keeps.same .lp (by decide))).trans (made ▸ congrArg (fun x : Lp => lset x.resilver c ⟨0, true, none⟩) lp)
  have still : t.mc.speed = none := (congrArg McAll.speed same).trans ((congrArg McAll.speed mc :).trans idle)
  rw [State.speedGo_of_none still, pass, State.chan, same]
  exact ⟨(congrArg Mc.speed (x.chan_modChan_same g (by rw [mc, sound.chans]; exact known))).trans (set _), getD_lset_same slot⟩

/-! ### Changes of the data rate (09 R341, R342) -/

theorem State.speeds_speedStep (s : State) (c : Nat) : (s.speedStep c).speeds = (s.setChan c .speedChange).speeds := by
  refine (State.speeds_shiftReads ..).trans (State.speeds_modChan _ _ ?_)
  exact fun _ => rfl

theorem State.chan_speedStep {s : State} {c n : Nat} (other : n ≠ c) : ((s.speedStep c).chan n).speed = (s.chan n).speed :=
  (State.chan_speed (s.speeds_speedStep c) n).trans (congrArg Mc.speed (s.chan_modChan_other _ other))

/-- The change goes on to a channel that is not behind, and leaves those that are. -/
theorem State.chan_speedGo {s : State} {v : Speed} {n : Nat} (going : s.mc.speed = some v) (behind : n < v.next) :
    (s.speedGo.chan n).speed = (s.chan n).speed := by
  have yes : true = true := rfl
  rw [State.speedGo, going]
  refine apply_ite_eq (fun u : State => (u.chan n).speed) rfl ?_
  split
  · dsimp only
    split
    · exact State.chan_speed (State.speeds_of_keeps (State.endOp_keeps (.refl _ _) ..)) n
    · rfl
  · next c first =>
    have mem := List.mem_filter.1 (List.mem_of_head? first)
    exact apply_ite_eq (fun u : State => (u.chan n).speed) rfl (State.chan_speedStep (by have := of_decide_eq_true (Bool.and_eq_true_iff.1 mem.2).1; omega))

/-- The change has gone on from a channel, which keeps what it got. -/
theorem State.chan_goesOn {s u : State} {w : Speed} {n : Nat} (mc : u.mc = { s.mc with speed := some w }) (behind : n < w.next) :
    ((u.rescale.speedGo).chan n).speed = (s.chan n).speed := by
  have kept := (State.rescale_keeps (F := (· ∈ [.bw, .fc])) (.refl _ u) (by decide) (by decide)).same .mc (by decide)
  have same : u.rescale.mc = { s.mc with speed := some w } := kept.trans mc
  rw [State.chan_speedGo (by rw [same]) behind, State.chan, same, State.chan]

theorem speedStepDone_serves {s : State} {v : Speed} (going : s.mc.speed = some v) (here : s.chanIs v.next .speedChange = true) :
    ((speedStepDone s).chan v.next).speed = (.service, v.target) := by
  rw [speedStepDone, going]
  dsimp -zeta only
  rw [if_neg (by simp [here])]
  extract_lets s1 src s2 s3
  have served : (s1.chan v.next).speed = (.service, v.target) :=
    congrArg Mc.speed (s.chan_modChan_same _ (State.chan_lt_of_state here (by decide)))
  have mc : s2.mc = { s1.mc with speed := some { v with next := v.next + 1 } } := rfl
  have same : s3.mc = s2.mc := by
    unfold s3
    clear_value s2
    split <;> rfl
  clear_value s3 s2 src s1
  exact (State.chan_goesOn (same.trans mc) (Nat.lt_succ_self v.next)).trans served

/-- The state at the due time is a variable of its own (`id`): the kernel would count up to the 50 ms of the wait in it. -/
theorem speedTimeout_ends {s : State} {v : Speed} (going : s.mc.speed = some v) (waits : v.started = false) :
    (speedTimeout s).mc = { s.mc with speed := none } ∧ (speedTimeout s).now = max s.now (v.at_ + 50000000) := by
  rw [speedTimeout, going]
  dsimp -zeta only
  rw [if_neg (by simp [waits]), ← s.advance_now (v.at_ + 50000000), ← s.advance_mc (v.at_ + 50000000)]
  generalize s.advance (v.at_ + 50000000) = due
  revert due
  refine id fun due => ?_
  extract_lets s1 _ s2
  split
  · next o _ =>
    have kept : Keeps (· ∈ [.out, .hp, .mb, .pm]) s2 (s2.endOp o.handle stBusyTraining) :=
      State.endOp_keeps (.refl _ s2) o.handle stBusyTraining [] (by decide) (by decide) (by decide) (by decide)
    exact ⟨kept.same .mc (by decide), kept.same .now (by decide)⟩
  · exact ⟨rfl, rfl⟩

/-! ### Initial training (09 R331, R332) -/

/-- What a step of the initial training does to a channel: one that trains comes into service, at the data rate of the memory. -/
structure TrainsOne (f : State → Nat → State) : Prop where
  others (u : State) (c d : Nat) (other : d ≠ c) : (f u c).chan d = u.chan d
  whole (u : State) (c : Nat) : (f u c).mc.rate = u.mc.rate ∧ (f u c).mc.chans.length = u.mc.chans.length
  trains (u : State) (c : Nat) (known : c < u.mc.chans.length) (starts : u.chanIs c .training = true) :
    ((f u c).chan c).speed = (.service, u.mc.rate)
  rests (u : State) (c : Nat) (served : u.chanIs c .training = false) : f u c = u

theorem TrainsOne.foldl {f : State → Nat → State} (h : TrainsOne f) (l : List Nat) (c : Nat) (s : State) :
    ((s.chan c).speed = (.service, s.mc.rate) ∨ c ∈ l ∧ c < s.mc.chans.length ∧ s.chanIs c .training = true) →
      ((l.foldl f s).chan c).speed = (.service, s.mc.rate) := by
  induction l generalizing s with
  | nil => exact fun start => start.elim id fun in_ => absurd in_.1 (List.not_mem_nil)
  | cons d l ih =>
    obtain ⟨rate, length⟩ := h.whole s d
    intro start
    rw [List.foldl_cons, ← rate]
    refine ih _ ?_
    rw [rate, length]
    by_cases here : c = d
    · subst here
      refine .inl ?_
      rcases start with done | ⟨-, known, starts⟩
      · rw [h.rests s c]
        · exact done
        · exact decide_eq_false fun state => by rw [Mc.speed, state] at done; cases done
      · exact h.trains s c known starts
    · rw [State.chanIs, h.others s d c here, ← State.chanIs]
      exact start.imp_right fun ⟨mem, rest⟩ => ⟨(List.mem_cons.1 mem).resolve_left here, rest⟩

theorem State.trained_serves {s : State} (sound : s.Sound) (step : s.pw.cold = .step 6) {c : Nat} (known : c < 12)
    (starts : s.chanIs c .training = true) : ((s.trained []).chan c).speed = (.service, s.mc.rate) := by
  rw [State.trained, if_neg (by simp [step])]
  refine TrainsOne.foldl ⟨fun u c d other => ?_, fun u c => ?_, fun u c known starts => ?_, fun u c served => ?_⟩ _ c s
    (.inr ⟨List.mem_range.2 known, sound.chans.symm ▸ known, starts⟩)
  · split_ifs with _ failed
    · rfl
    · cases failed
    · exact State.chan_modChan_other _ _ other
  · split_ifs with _ failed
    · exact ⟨rfl, rfl⟩
    · cases failed
    · exact ⟨rfl, length_lmod ..⟩
  · rw [if_neg (by simp [starts]), if_neg List.not_mem_nil]
    exact congrArg Mc.speed (State.chan_modChan_same _ _ known)
  · exact if_pos (by simp [served])

/-- Settles O51: what each end of a training does to its channel, and that the reads which are shifted from a channel leave the states and data
rates of all. -/
theorem channelsTrain : Obligations.ChannelsTrain := by
  have state {s : State} {c r : Nat} (h : (s.chan c).speed = (.service, r)) : (s.chan c).state = .service := congrArg Prod.fst h
  have rate {s : State} {c r : Nat} (h : (s.chan c).speed = (.service, r)) : (s.chan c).rate = r := congrArg Prod.snd h
  refine ⟨fun s c sound idle awake next_ known plain => ⟨_, rfl, retrainingStart_starts sound idle awake next_ known plain⟩,
    fun s c sound training known idle => ⟨_, rfl, retrainingDone_ends sound training known idle⟩,
    fun s c o sound known op fits idle slot => ?_, fun s v _ going _ here => ?_,
    fun s v going waits => ⟨_, rfl, speedTimeout_ends going waits⟩, fun s sound step => ⟨_, rfl, fun c known starts => ?_⟩⟩
  · obtain ⟨speed, pass⟩ := fencedRetrainDone_serves sound known op fits idle slot
    exact ⟨_, rfl, state speed, rate speed, pass⟩
  · have speed := speedStepDone_serves going here
    exact ⟨_, rfl, rate speed, state speed⟩
  · have speed := State.trained_serves sound step known starts
    exact ⟨state speed, rate speed⟩

end Sys2Proof.Machine
end
